-- ==== Sys2Proof/Word.lean ====
section
/-! DEFINITION. The word types of the tablet (R9–R14 of spec/00_scope.md) and their plainest arithmetic. -/

namespace Sys2Proof

/-- One byte. -/
abbrev Byte := BitVec 8
/-- A 16-bit field: identifiers, epochs, tags. -/
abbrev Half := BitVec 16
/-- A 32-bit word: registers, stamps, Tally words. -/
abbrev Word := BitVec 32
/-- A 64-bit field: addresses, serials. -/
abbrev DWord := BitVec 64
/-- A float32 value by its bits (R11). -/
abbrev F32 := BitVec 32
/-- A working number of the engines' numerical work, by its bits. The spec leaves its format and rounding open. -/
abbrev Num := BitVec 64

/-- One more, stopping at the largest 32-bit value: the spec's "saturating" counters. -/
def satInc (w : Word) : Word := if w = 0xFFFFFFFF#32 then w else w + 1

/-- The same for `n` more. -/
def satAdd (w : Word) (n : Nat) : Word := BitVec.ofNat 32 (min (w.toNat + n) 0xFFFFFFFF)

/-- Bits `hi` down to `lo` of a number, right-aligned. -/
def bits (n hi lo : Nat) : Nat := (n / 2 ^ lo) % 2 ^ (hi + 1 - lo)

/-- 1 for `true`, 0 for `false`. -/
def b01 (b : Bool) : Nat := if b then 1 else 0

/-- Nanoseconds in one microsecond, one millisecond and one second (R12). -/
def usNs : Nat := 1000
def msNs : Nat := 1000000
def secNs : Nat := 1000000000

end Sys2Proof
end

