-- ==== Sys2Proof/Syntax/Kinds.lean ====
section
/-! DEFINITION. The vocabulary shared by the commands (Syntax.lean) and the state: fields of records, the origin of an
order, enables, quality codes, the twin roles. -/

namespace Sys2Proof

/-- One field of a report body, an event's parameters or a record: its size in bytes and its value. -/
structure Fld where
  size : Nat
  val : Nat
  deriving DecidableEq, Repr, Inhabited

def u8 (n : Nat) : Fld := ⟨1, n % 2 ^ 8⟩
def u16 (n : Nat) : Fld := ⟨2, n % 2 ^ 16⟩
def u32 (n : Nat) : Fld := ⟨4, n % 2 ^ 32⟩
def u64 (n : Nat) : Fld := ⟨8, n % 2 ^ 64⟩
def f32 (x : F32) : Fld := ⟨4, x.toNat⟩
/-- A whole record of `n` bytes (R555: aligned to 4 bytes whatever its size). -/
def recFld (n v : Nat) : Fld := ⟨n, v⟩

/-- Where an order comes from: the host's ring entry with this tag and generation (R528), or entry `index` of the set-up
image being applied (R558, R559). -/
inductive OrderRef where
  | host (tag : Half) (gen : Byte)
  | setup (index : Nat)
  deriving DecidableEq, Repr, Inhabited

/-- The enable read-back of R42. -/
inductive Enable where
  | disabled
  | enabled
  | quiescing
  deriving DecidableEq, Repr, Inhabited

/-- The quality codes of R33, by rising severity. -/
inductive Quality where
  | good
  | estimated
  | stale
  | offline
  | invalid
  deriving DecidableEq, Repr, Inhabited

/-- The twin roles of R491. -/
inductive TwinRole where
  | solo
  | negotiating
  | active
  | standby
  | isolated
  deriving DecidableEq, Repr, Inhabited

end Sys2Proof
end

