-- ==== Sys2Proof/Syntax/KCan.lean ====
section
/-! DEFINITION. What the field buses' commands carry (spec/16_field_buses.md). -/

namespace Sys2Proof

/-- A data or remote frame as the controller receives it (R566). -/
structure CanFrame where
  ide : Bool
  id : Nat
  fd : Bool
  esi : Bool
  remote : Bool
  data : List Byte
  deriving DecidableEq, Repr, Inhabited

/-- FBUS_RX_CFG (R585). -/
structure RxCfg where
  bus : Nat
  object : Nat
  flags : Nat
  minLen : Nat
  id : Nat
  freshMs : Nat
  seqPos : Nat
  deriving DecidableEq, Repr, Inhabited

/-- FBUS_TX_CFG (R585). -/
structure TxCfg where
  bus : Nat
  object : Nat
  flags : Nat
  id : Nat
  len : Nat
  seqPos : Nat
  periodUs : Nat
  deadlineUs : Nat
  deriving DecidableEq, Repr, Inhabited

/-- How an attempt on the wire ends (R575, R589): SENT, or FAILED with a cause. -/
inductive TxEnd where
  | sent
  | ack
  | bit
  | stuff
  | form
  | crc
  deriving DecidableEq, Repr, Inhabited

end Sys2Proof
end

