-- ==== Sys2Proof/Syntax/KFabric.lean ====
section
/-! DEFINITION. What the fabric's and the placement's commands carry (spec/02_clockless_fabric.md, spec/03_role_placement.md). -/

namespace Sys2Proof

/-- A fabric token: a payload with its role id and role epoch (R27). -/
structure Token where
  role : Half
  epoch : Half
  payload : DWord
  deriving DecidableEq, Repr, Inhabited

/-- The memories of R52, and the Logic Tally's code memory, whose uncorrectable error in the running bank R379 names. -/
inductive MemKind where
  | beadStore
  | rodScratch
  | deckMemory
  | lpddr
  | tallyCode
  deriving DecidableEq, Repr, Inhabited

/-- How a token comes: through the router it first enters (0–63 rod, 64–71 deck, 72–73 frame routers, 74 the beam's), straight to a
neighbouring bead over a bead's own port, or from the role's forwarding stub, with the forwarded flag (R82, R95). -/
inductive TokenVia where
  | router
  | port
  | stub
  deriving DecidableEq, Repr, Inhabited

/-- What an access meets: no error, a single-bit error, a double-bit error; or a write that replaces a whole line (R52). -/
inductive MemAccess where
  | clean
  | single
  | double
  | writeLine
  deriving DecidableEq, Repr, Inhabited

/-- A memory access: the word, what it meets, the role that reads it where one does, and the role whose checkpoint the line holds,
or whose checkpoint the write of the line completes (R53). -/
structure MemReq where
  mem : MemKind
  idx : Nat
  addr : Nat
  what : MemAccess
  reader : Option Half
  ckptOf : Option Half
  deriving DecidableEq, Repr, Inhabited

/-- What reaches a deck's boundary: a token for a bead of the deck, with its forwarded flag, or an access to its memory (R59). -/
inductive Arrival where
  | token (t : Token) (bead : Nat) (forwarded : Bool)
  | access (a : MemReq)
  deriving DecidableEq, Repr, Inhabited

/-- What the scrubber's word meets beside its error: a role that writes it at the same moment, and the role whose checkpoint its line
holds (R53, R54). -/
structure ScrubWord where
  roleWrites : Bool
  ckptOf : Option Half
  deriving DecidableEq, Repr, Inhabited

/-- A fabric-side request of a crossing, numbered in the order of the requests (R67, R68). -/
structure XingReq where
  crossing : Nat
  number : Nat
  deriving DecidableEq, Repr, Inhabited

/-- What reaches a crossing from its island: the completion of a fabric-side request; an item of a counting crossing; room at a
receiving side that was full; or an event of a merging crossing (R64, R65, R68). -/
inductive IslandItem where
  | answer
  | item
  | room
  | event
  deriving DecidableEq, Repr, Inhabited

/-- A part that can be isolated (R70, R71). -/
inductive Part where
  | bead (n : Nat)
  | rod (n : Nat)
  | deck (n : Nat)
  deriving DecidableEq, Repr, Inhabited

/-- Why the Bead Shifter moves a role (the causes before R92). -/
inductive MoveCause where
  | heat
  | pace
  | adjacency
  | sleep
  deriving DecidableEq, Repr, Inhabited

/-- A move that the Shifter decides at an evaluation: the role, its new bead, the cause, what it measured for the cause
(tokens per second for adjacency, idle per mille for sleep), how far a loop role's next sample is away (R94), and whether the role
stands at a safe point of its kind (R89 rule 5). -/
structure MovePlan where
  role : Half
  target : Nat
  cause : MoveCause
  measured : Nat
  nextSampleNs : Nat
  safePoint : Bool
  deriving DecidableEq, Repr, Inhabited

/-- One role of the start-up placement: its bead and the deck of its checkpoint. -/
structure Placed where
  role : Half
  bead : Nat
  ckptDeck : Nat
  deriving DecidableEq, Repr, Inhabited

end Sys2Proof
end

