-- ==== Sys2Proof/Syntax/KHost.lean ====
section
/-! DEFINITION. What the host interface's commands carry (spec/15_host_rings.md). -/

namespace Sys2Proof

/-- An order entry as it arrives (R528). `link` is FLAGS.LINK; `reserved` gathers the reserved bytes and flag bits. Its parameters
are those of the order's own command. -/
structure OrderEntry where
  opcode : Nat
  fence : Bool
  link : Bool
  tag : Half
  gen : Byte
  user : Word
  reserved : Nat
  deriving DecidableEq, Repr, Inhabited

/-- A host memory access that got no completion (R541, R546, R706): the entry at a ring's head, an access named by an order, a
head shadow. -/
inductive HostAccess where
  | entry (ring : Nat)
  | order (tag : Half) (gen : Byte)
  | shadow
  deriving DecidableEq, Repr, Inhabited

/-- Which mask the host clears in the MSI-X structures (R542). -/
inductive MsixMask where
  | function
  | vector (k : Nat)
  deriving DecidableEq, Repr, Inhabited

end Sys2Proof
end

