-- ==== Sys2Proof/Syntax/KLog.lean ====
section
/-! DEFINITION. What the Notch Log's orders carry (spec/17_notch_log.md). -/

namespace Sys2Proof

/-- A snapshot slot as NLOG_SRC names it (R606). -/
structure SnapField where
  offset : Nat
  lsb : Nat
  width : Nat
  deriving DecidableEq, Repr, Inhabited

/-- NLOG_SRC (R606). -/
structure NlogSrc where
  source : Nat
  defaultRate : Bool
  read : Bool
  rate : Nat
  burst : Nat
  slots : List SnapField
  deriving DecidableEq, Repr, Inhabited

end Sys2Proof
end

