-- ==== Sys2Proof/Syntax/KLook.lean ====
section
/-! DEFINITION. What look-ahead's commands carry (spec/06_surge_lookahead.md). A run's pressures follow from its laws up to the
rounding that the spec leaves open; LA_VERDICT can name them instead, as one reading of that rounding. -/

namespace Sys2Proof

/-- LA_CFG (R204). -/
structure LaCfg where
  stepMs : Nat
  horizonS : Nat
  settleS : Nat
  flags : Nat
  guardPa : F32
  stnTau : F32
  driveRamp : F32
  deriving DecidableEq, Repr, Inhabited

/-- One checked point of a run (R191): a node (`reach` none) or reach end `reach` of a pipe, with its vapour pressure, and its
computed pressure at time zero and after every step. -/
structure PointTrace where
  object : Nat
  reach : Option Nat
  vapour : F32
  p0 : F32
  steps : List F32
  deriving DecidableEq, Repr, Inhabited

/-- The numeric outcome of a run: the points' pressures and the run's flags (R185, R193, R197). -/
structure RunTrace where
  points : List PointTrace
  cavitation : Bool
  clamped : Bool
  /-- Clusters that took their last iterate (R185). -/
  numeric : Nat
  diverged : Bool
  deriving DecidableEq, Repr, Inhabited

end Sys2Proof
end

