-- ==== Sys2Proof/Syntax/KLoop.lean ====
section
/-! DEFINITION. What the loop engine's commands carry (spec/10_loop_engine.md). -/

namespace Sys2Proof

/-- LOOP_COEF (R349): the section, its SFLAGS and coefficients. -/
structure LoopCoef where
  loop : Nat
  section_ : Nat
  sflags : Nat
  b0 : F32
  b1 : F32
  b2 : F32
  a1 : F32
  a2 : F32
  deriving DecidableEq, Repr, Inhabited

/-- What a sample takes from outside the state: its latency (R343). -/
structure LoopIn where
  latencyNs : Nat
  deriving DecidableEq, Repr, Inhabited

end Sys2Proof
end

