-- ==== Sys2Proof/Syntax/KMeter.lean ====
section
/-! DEFINITION. What metering's commands carry (spec/12_metering.md). A command may name what the
phasors and the water table give (one reading of their open rounding); where it does not, the model computes it. -/

namespace Sys2Proof

/-- METER_VSET (R440). -/
structure VsetCfg where
  vset : Nat
  wiring : Nat
  ch : List Nat
  reserved : Nat
  udin : F32
  sag : Nat
  swell : Nat
  int_ : Nat
  hyst : Nat
  deriving DecidableEq, Repr, Inhabited

/-- METER_CIRC (R440). -/
structure CircCfg where
  circuit : Nat
  vset : Nat
  flags : Nat
  reserved : Nat
  i1 : Nat
  i2 : Nat
  i3 : Nat
  in_ : Nat
  windowN : Nat
  reserved2 : Nat
  deriving DecidableEq, Repr, Inhabited

/-- What a line cycle gives for one circuit before the correction of R412 (R410, R411): RMS of the voltage channels and of L1, L2,
L3 and neutral, active power per phase, P, Q, S, the reference voltage's and the largest current's THD, and the harmonics of the
voltage channels and currents. -/
structure CycleQty where
  circuit : Nat
  vrms : List F32
  irms : List F32
  phaseP : List F32
  p : F32
  q : F32
  s : F32
  thdV : F32
  thdI : F32
  harm : List (List F32)
  deriving DecidableEq, Repr, Inhabited

/-- What the 16 taps of a data input's delay line hold for one period of fMOD (R400): bit t is tap t's. -/
abbrev TapWord := BitVec 16

/-- The 1 024 periods of an acquisition, and the 4 096 of a tracking window (R400), the oldest first. -/
abbrev EyeTaps := List TapWord
abbrev TrackWindow := List TapWord

/-- A data input over the periods of fMOD of one decimation period (R402), the oldest first. -/
structure ChanBits where
  channel : Nat
  words : List TapWord
  deriving DecidableEq, Repr, Inhabited

/-- What a heat point's sample takes from the water table (R427, R428): the density of the flow, h(TSUP) − h(TRET), and whether both
temperatures lie below saturation at P_WATER. -/
structure WaterIn where
  density : F32
  dh : F32
  belowSat : Bool
  deriving DecidableEq, Repr, Inhabited

/-- What a battery burst finds on one channel (R432): whether it locked, and the mean and mean square of its samples x. -/
structure BurstQty where
  channel : Nat
  locked : Bool
  mean : F32
  meanSq : F32
  deriving DecidableEq, Repr, Inhabited

end Sys2Proof
end

