-- ==== Sys2Proof/Syntax/KOpt.lean ====
section
/-! DEFINITION. What the optimiser's commands carry (spec/07_dispatch_optimiser.md). A layer solve's plan follows from its programs
up to the rounding that the spec leaves open; LAYER_SOLVE_END can name it instead, as one reading of that rounding. -/

namespace Sys2Proof

/-- The two layers (R209). -/
inductive Layer where
  | day
  | pressure
  deriving DecidableEq, Repr, Inhabited

/-- OPT_CFG (R239). -/
structure OptCfg where
  wCost : F32
  wCarbon : F32
  wComfort : F32
  wMove : F32
  wRelax : F32
  terminal : F32
  supplyDrop : F32
  importMax : F32
  exportMax : F32
  elecBase : F32
  biasTau : F32
  epsRel : F32
  importTable : Nat
  exportTable : Nat
  elecProfile : Nat
  permitBase : Nat
  importCircuit : Nat
  permitEn : Bool
  summary : Bool
  deriving DecidableEq, Repr, Inhabited

/-- A plan item (R242); `flags` bit 0 AT_BOUND, 1 RELAXED, 2 WITHHELD, 3 HANDED. -/
structure PlanItem where
  kind : Nat
  flags : Nat
  object : Nat
  step : Nat
  value : F32
  dual : F32
  deriving DecidableEq, Repr, Inhabited

/-- How the passes of a layer solve ended (R228, R231): converged at relaxation stage `relax`, infeasible at the last stage with
the class of the constraint last binding, stopped at the iteration cap, or stopped in the day layer's first pass, whose iterate is no
plan (R225). -/
inductive PassEnd where
  | converged
  | infeasible (cls : Nat)
  | capped
  | uncommitted
  deriving DecidableEq, Repr, Inhabited

/-- The numeric outcome of a layer solve: stage, items, ADMM iterations, objective and its parts, primal residual and the eps_p it
is judged by (R228, R230), each store's Q_CHARGE converted to W at the design difference (R222, R233), and
every variable of the program with its multiplier (R229). -/
structure LayerResult where
  ended : PassEnd
  relax : Nat
  items : List PlanItem
  iters : Nat
  objective : F32
  cost : F32
  carbon : F32
  unmet : F32
  primal : F32
  epsP : F32
  storeCharge : List (Nat × F32)
  duals : List PlanItem
  deriving DecidableEq, Repr, Inhabited

/-- A unit of a rollout (R245) with its number. -/
inductive RollUnit where
  | zone (z : Nat)
  | plant (p : Nat)
  | store (k : Nat)
  deriving DecidableEq, Repr, Inhabited

/-- A change handed to the sequencer (R233): its unit, its plan's number, its items as (kind of R242, object, target), the plan's
boundary. -/
structure Change where
  unit : RollUnit
  plan : Nat
  items : List (Nat × Nat × F32)
  boundary : Nat
  deriving DecidableEq, Repr, Inhabited

end Sys2Proof
end

