-- ==== Sys2Proof/Syntax/KPanel.lean ====
section
/-! DEFINITION. What the panel's, tag's, monitor's, calibration's and firmware's commands carry
(spec/18_panel_and_tag.md, spec/19_service_monitor_calibration.md). -/

namespace Sys2Proof

/-- A rectangle of pixels (R629). -/
structure Rect where
  x : Nat
  y : Nat
  w : Nat
  h : Nat
  deriving DecidableEq, Repr, Inhabited

/-- PANEL_SET (R629). -/
structure PanelSet where
  bright : Nat
  ctl0 : Word
  ctl1 : Word
  alt0 : Word
  alt1 : Word
  deriving DecidableEq, Repr, Inhabited

/-- What the ageing measures of one block and primary (R616): the stress added since the last update, in units of 2⁻¹⁶ h. -/
structure Stress where
  block : Nat
  primary : Nat
  add : Nat
  deriving DecidableEq, Repr, Inhabited

/-- Where a firmware or page operation comes from: a host order or the monitor (R643). -/
inductive SvcSrc where
  | order (ref : OrderRef)
  | monitor
  deriving DecidableEq, Repr, Inhabited

/-- CALI's lines (R642): BEGIN, or END with its confirmation; `rawMv`: VHOLD as the energy check measures it. -/
inductive CaliArg where
  | start
  | finish (confirm : Word) (rawMv : Nat)
  deriving DecidableEq, Repr, Inhabited

/-- IMG's lines (R642): BEGIN with a length, or END with FW_LOAD's flags. -/
inductive ImgArg where
  | start (length : Nat)
  | finish (flags : Nat)
  deriving DecidableEq, Repr, Inhabited

/-- KEYFUSE's lines (R642): the hash with its CRC, or GO with the confirmation number. -/
inductive KeyfuseArg where
  | hash (bytes : List Byte) (crc : Word)
  | go (n : Nat)
  deriving DecidableEq, Repr, Inhabited

end Sys2Proof
end

