-- ==== Sys2Proof/Syntax/KReck.lean ====
section
/-! DEFINITION. What the Reckoner's commands carry (spec/05_state_reckoning.md). A solve's numbers follow from its laws up to the
rounding that the spec leaves open; SOLVE_END can name them instead, as one reading of that rounding. -/

namespace Sys2Proof

/-- RECKON_CFG (R175). -/
structure ReckonCfg where
  cadenceMs : Nat
  rejectT : F32
  rejectMax : Nat
  flags : Nat
  coverMin : F32
  pseudo : F32
  mergeDt : F32
  mismatchN : Nat
  reserved : Nat
  deriving DecidableEq, Repr, Inhabited

/-- One estimate of a solve: its index in the process-value area (byte offset ÷ 16), value and uncertainty, and whether it lies
outside a limit of its element (LIMIT, R169). -/
structure Estimate where
  index : Nat
  value : F32
  sigma : F32
  limit : Bool
  deriving DecidableEq, Repr, Inhabited

/-- How far a solve has come: iterations of the nodal solution and estimation steps. -/
structure SolveWork where
  iters : Nat
  steps : Nat
  deriving DecidableEq, Repr, Inhabited

/-- What one pass of the bad-data test finds: the normalised residual of each accepted measurement (R156). -/
abbrev ResidualPass := List (Nat × F32)

/-- The numeric outcome of a solve (R150–R162): whether it converged, whether it was restarted from design values (R153), the
nodal iterations, Gauss–Newton steps, the passes of the bad-data test, zone residuals, the estimates, J per accepted
measurement, whether the parcel pool was merged, the node with the largest continuity residual. -/
structure SolveResult where
  converged : Bool
  restarted : Bool
  iters : Nat
  steps : Nat
  passes : List ResidualPass
  zoneResid : List (Nat × F32)
  estimates : List Estimate
  jNorm : F32
  poolMerge : Bool
  worstNode : Nat
  deriving DecidableEq, Repr, Inhabited

end Sys2Proof
end

