-- ==== Sys2Proof/Syntax/KRoll.lean ====
section
/-! DEFINITION. What the rollout sequencer's commands carry (spec/08_rollouts.md). -/

namespace Sys2Proof

/-- ROLL_CFG (R273). -/
structure RollCfg where
  leadPlanMs : Nat
  startLeadMs : Nat
  stageMs : Nat
  sendAheadMs : Nat
  dpStep : F32
  pumpStep : F32
  valveStep : F32
  reshapeMax : Nat
  reshapeK : Nat
  flags : Nat
  reserved : Nat
  deriving DecidableEq, Repr, Inhabited

/-- ROLL_DEST (R274). -/
structure RollDest where
  kind : Nat
  index : Nat
  anchor : Nat
  reserved : Nat
  out : Nat
  temp : Nat
  run : Nat
  deriving DecidableEq, Repr, Inhabited

end Sys2Proof
end

