-- ==== Sys2Proof/Syntax/KStn.lean ====
section
/-! DEFINITION. What station exchange's commands carry (spec/09_station_exchange.md). A received frame is its UDP payload and the
address it came from; the model checks and parses it. -/

namespace Sys2Proof

/-- An IP address: IPv6 or IPv4, by its bits. -/
structure IpAddr where
  v6 : Bool
  bits : Nat
  deriving DecidableEq, Repr, Inhabited

/-- STN_CFG (R319). -/
structure StnCfg where
  port : Nat
  staleMs : Nat
  offlineMs : Nat
  timeoutMs : Nat
  refreshMs : Nat
  retries : Nat
  noackN : Nat
  dscp : Nat
  reserved : Nat
  deriving DecidableEq, Repr, Inhabited

/-- STN_CTX (R320). `addr` holds the 16 bytes of ADDR, the first the most significant. -/
structure StnCtxCfg where
  station : Nat
  flags : Nat
  rport : Nat
  qdepth : Nat
  reserved : Nat
  addr : Nat
  deriving DecidableEq, Repr, Inhabited

end Sys2Proof
end

