-- ==== Sys2Proof/Syntax/KTally.lean ====
section
/-! DEFINITION. What the Logic Tally's commands carry (spec/11_logic_tally.md). -/

namespace Sys2Proof

/-- TALLY_CFG (R395). -/
structure TallyCfg where
  restart : Nat
  flags : Nat
  exchWaitMs : Nat
  dioDir : Word
  safeDio : Word
  deriving DecidableEq, Repr, Inhabited

end Sys2Proof
end

