-- ==== Sys2Proof/Syntax/KTime.lean ====
section
/-! DEFINITION. What the ring's and the time unit's commands carry (spec/13_ring_bypass_time.md). -/

namespace Sys2Proof

/-- Whom a ring frame addresses: only this tablet, others only, or both. -/
inductive FrameDest where
  | me
  | others
  | group
  deriving DecidableEq, Repr, Inhabited

/-- A frame received on a ring port (R450–R453): its bytes with the HSR tag and the FCS, whether its HSR tag is good, its source MAC and
sequence number, its destination, whether it is one of this tablet's own supervision frames, and the address that an ARP request or a
neighbour solicitation in it asks for (R451). -/
structure RingFrame where
  length : Nat
  tagOk : Bool
  mac : Nat
  seq : Half
  dest : FrameDest
  ownSupervision : Bool
  asks : Option IpAddr
  deriving DecidableEq, Repr, Inhabited

/-- RING_SEND's LENGTH and ADDR (R479), and what host memory holds from there on. -/
structure SendFrame where
  length : Nat
  addr : Nat
  data : List Byte
  deriving DecidableEq, Repr, Inhabited

/-- A Sync of a domain with, where it is two-step, its Follow_Up (R467, R468): the port it came in by (0 Ring A, 1 Ring B, 2 twin port), the
origin time (TAI ns) and the correction (ns) they carry, how long ago the port stamped the Sync (ns), and, where it passes through,
how long after that stamp it was stamped leaving (ns). -/
structure SyncRx where
  port : Nat
  oneStep : Bool
  origin : Nat
  correction : Int
  age : Nat
  residence : Nat
  deriving DecidableEq, Repr, Inhabited

/-- TOUT_SET (R482). -/
structure ToutSet where
  output : Nat
  mode : Nat
  activeLow : Bool
  activeOnly : Bool
  startS : Nat
  startNs : Nat
  widthNs : Nat
  periodNs : Nat
  deriving DecidableEq, Repr, Inhabited

/-- An Announce message of a domain (R469): the port it came in by, its timescale is PTP, its grandmaster's rank in the dataset comparison (lower is
better), identity and currentUtcOffset. -/
structure Announce where
  port : Nat
  ptpScale : Bool
  rank : List Nat
  gmId : DWord
  utcOfs : Option Nat
  deriving DecidableEq, Repr, Inhabited

end Sys2Proof
end

