-- ==== Sys2Proof/Syntax/KTwin.lean ====
section
/-! DEFINITION. What the twin's commands carry (spec/14_twin_operation.md). -/

namespace Sys2Proof

/-- The twin port's path and the ring path (R497). -/
inductive TwinPath where
  | twin
  | ring
  deriving DecidableEq, Repr, Inhabited

/-- A received HEARTBEAT (R505). `good`: its CRC, VERSION, source MAC and KIND pass. `prefer` is the partner's TWIN_CFG.PREFER,
which the ranking of R496 needs and the frame does not carry. -/
structure Heartbeat where
  good : Bool
  house : Half
  epoch : Half
  role : TwinRole
  fit : Bool
  handover : Bool
  leaving : Bool
  unsynced : Bool
  resyncReq : Bool
  acked : Word
  modelRev : Word
  tallyRev : Word
  serial : Word
  prefer : Bool
  deriving DecidableEq, Repr, Inhabited

/-- The header of the MIRROR frame that ends a received record (R505): `first` is the SEQ of the frame the record began in, the same
for a record in one frame. `good`: CRC, VERSION, source MAC and KIND of its frames pass, and the parts run from FIRST to LAST. -/
structure MirrorHdr where
  good : Bool
  house : Half
  epoch : Half
  first : Word
  seq : Word
  deriving DecidableEq, Repr, Inhabited

end Sys2Proof
end

