-- ==== Sys2Proof/Syntax.lean ====
section
/-! DEFINITION. The commands: one constructor per row of spec/opcode_table.json. An order's `ref` says where it comes from; other
operands are what the event or the order carries, and what the spec takes from outside the state. `given`: the results of the
numerical laws, where the command names them. -/

namespace Sys2Proof

inductive Instr where
  /-- TOKEN_ARRIVAL (R48): A fabric token arrives at a port and is routed by role id and epoch, then answered with exactly one
  normal, void or poison acknowledge. `place`: the router or bead that it comes by. -/
  | tokenArrival (t : Token) (via : TokenVia) (place : Nat)
  /-- MEMORY_ACCESS (R52): A read of bead store, rod scratch, deck memory or LPDDR4X is checked by SECDED and corrected,
  poisoned or causes isolation. -/
  | memoryAccess (mem : MemKind) (idx addr : Nat) (what : MemAccess) (reader ckptOf : Option Half)
  /-- SCRUB_STEP (R54): The scrubber reads and corrects the next word of every scrubbed memory on its SCRUB_H period. -/
  | scrubStep (err : MemAccess) (w : ScrubWord)
  /-- PACE_STEP (R55): Every 50 µs the pace monitor applies the first applicable rule and steps the deck rail by 5 mV or holds.
  -/
  | paceStep (deck rate raw floor : Nat) (backlog hot : Bool)
  /-- RETENTION_ENTRY (R57): After 2 ms of continuous idleness with RET_EN set and no wake-pinned role, a deck enters retention
  at 0.45 V. -/
  | retentionEntry (deck quietNs : Nat)
  /-- DECK_WAKE (R59): A token or access reaching a deck in retention is held while the deck restores its rail directly. -/
  | deckWake (deck : Nat) (a : Arrival)
  /-- RETENTION_EXIT_DONE (R59): The restored deck admits the held token within the retention-exit bound, or raises
  RETENTION_FAULT. -/
  | retentionExitDone (deck : Nat) (restored : Bool) (railReached : Nat)
  /-- THERM_SHED (R61): A deck's junction exceeds SHED_C and the deck enters thermal shedding, ignoring backlog. -/
  | thermShed (deck raw : Nat)
  /-- THERM_SHED_END (R61): A shedding deck cools 3 °C below SHED_C and leaves shedding. -/
  | thermShedEnd (deck raw : Nat)
  /-- THERM_TRIP (R63): A deck above 125 °C completes handshakes void, isolates its rods and stays out until reset. -/
  | thermTrip (deck raw : Nat)
  /-- XING_TIMEOUT (R67): A fabric-side request unanswered for 64 µs is completed void and the crossing enters the stopped
  state. -/
  | xingTimeout (req : XingReq)
  /-- XING_RESTART (R67): A stopped crossing sees 16 consecutive island clock cycles and leaves the stopped state. -/
  | xingRestart (x : Nat)
  /-- ISLAND_COMPLETION (R68): An island-side completion reaches a crossing and is delivered, or discarded and counted late if
  the timeout was taken first. `n`: the number of the request that is answered; how many items the receiving side has room for; or,
  of an event, whether the event before it is still in the crossing (0 no) where R66 leaves that open. -/
  | islandCompletion (x : Nat) (what : IslandItem) (n : Nat)
  /-- HANDSHAKE_STALL (R70): A fabric handshake without acknowledge after 100 µs is completed void and the unresponsive part
  isolated. -/
  | handshakeStall (requester unresponsive : Part) (t : Token)
  /-- BEAD_FAULT (R20): A bead detecting a fault in itself isolates, completes open handshakes void and raises a fault event. -/
  | beadFault (bead check : Nat)
  /-- ROD_FAULT (R71): A rod failing its checks isolates with its eight beads. -/
  | rodFault (rod check : Nat)
  /-- DECK_FAULT (R71): A deck failing its checks isolates with its rods. -/
  | deckFault (deck check : Nat)
  /-- FRAME_LOSS (R24): A frame is lost and the tablet hands over, sheds roles, or reports itself unfit. -/
  | frameLoss (frame cause : Nat)
  /-- ROLE_REPLACED (R100): A re-placed role restarts from its checkpoint, or from its initial state raising CHECKPOINT_LOST. -/
  | roleReplaced (kind index bead run : Nat)
  /-- SHIFTER_EVALUATION (R92): Every 10 ms the Bead Shifter evaluates heat, pace, adjacency and sleep causes and starts up to 4
  moves. -/
  | shifterEvaluation (plans : List MovePlan)
  /-- MOVE_COMMIT (R94): A role's state copy completes and the directory takes the new bead and incremented epoch. -/
  | moveCommit (role : Half)
  /-- SWEEP_TOKEN (R94): A router's sweep token reaches the forwarding stub after the directory update. -/
  | sweepToken (role : Half) (router : Nat)
  /-- FENCE_CLOSE (R95): The fence-close token reaches the new holder, which releases its held direct tokens in order. -/
  | fenceClose (role : Half)
  /-- PLACE_ALLOC (R84): Order to change the bead counts of the solver kinds, refused whole if a condition breaks. -/
  | placeAlloc (ref : OrderRef) (c1 c2 c3 : Nat)
  /-- PLACE_SHIFT (R103): Order setting the Shifter enable and cause enables after the seal. -/
  | placeShift (ref : OrderRef) (bits4 : Nat)
  /-- MODEL_LOAD (R134): Order to read a model image from host memory into staging and start its load. -/
  | modelLoad (ref : OrderRef) (img : List Byte) (length : Nat) (validateOnly allowOlder forceTwin : Bool)
  /-- MODEL_CHECKS_DONE (R136): The load checks complete in order and report VALIDATE_ONLY results or proceed to the slot write.
  -/
  | modelChecksDone
  /-- MODEL_SLOT_WRITTEN (R136): The image is written and read back in the unused slot, retried once on failure. -/
  | modelSlotWritten (ok : Bool)
  /-- MODEL_COMMIT (R137): At the next Reckoner tick the standby and then the active write their activation marks. -/
  | modelCommit
  /-- MODEL_SWAP (R142): Once no solve runs and no Reckoner role is replacing, the new model replaces the old for every engine.
  -/
  | modelSwap
  /-- MODEL_ABORT (R138): Order ending a MODEL_LOAD before its commit point, answered ABORTED, COMMITTED or NO_LOAD. -/
  | modelAbort (ref : OrderRef)
  /-- MODEL_QUERY (R135): Order answered by MODEL_INFO with the running model, slot and counts. -/
  | modelQuery (ref : OrderRef)
  /-- RECKON_TICK (R146): At each CADENCE_MS TAI instant the input snapshot closes and a Reckoner solve starts, or the tick is
  skipped. -/
  | reckonTick
  /-- SOLVE_END (R169): A solve ends CONVERGED, DEGRADED, FAILED or DISABLED, publishing its state set and status block as
  applicable. `given`: the solve's numbers, where the command names them. -/
  | solveEnd (given : Option SolveResult)
  /-- SOLVE_LATE (R164): A solve still running two cadences after its tick is abandoned with status LATE. -/
  | solveLate (work : SolveWork) (worstNode : Nat) (passes : List ResidualPass)
  /-- MEAS_PUT (R146): Order placing a host measurement value into the input snapshot. -/
  | measPut (ref : OrderRef) (index quality : Nat) (stamp : Word) (raw : F32)
  /-- RECKON_CFG (R175): Order setting the Reckoner's cadence and estimation parameters from the next tick. -/
  | reckonCfg (ref : OrderRef) (c : ReckonCfg)
  /-- RECKON_CTL (R176): Order enabling or disabling the Reckoner, answered by RECKON_STATE. -/
  | reckonCtl (ref : OrderRef) (enable : Nat)
  /-- STATE_QUERY (R177): Order pinning the latest state set and copying entries to host memory, answered by STATE_DATA. -/
  | stateQuery (ref : OrderRef) (addr offset count : Nat)
  /-- LA_SUBMIT (R188): A rollout submission reaches look-ahead and starts a run, is queued, or is refused. -/
  | laSubmit (rollout : Nat)
  /-- LA_RUN_DEQUEUE (R200): A queued submission starts its run when one of the four run slots falls free. -/
  | laRunDequeue
  /-- LA_VERDICT (R195): A run reaches its horizon or first breach and produces a PASS, FAIL, SLOW or REFUSED verdict record. -/
  | laVerdict (run : Nat) (given : Option RunTrace)
  /-- LA_OVERRUN (R199): A run exceeds its worst-corner bound and raises LA_OVERRUN while continuing. -/
  | laOverrun (run : Nat)
  /-- LA_WITHDRAW (R201): The sequencer withdraws a submission, ending its run with SUPERSEDED unless a verdict was produced
  first. -/
  | laWithdraw (run : Nat)
  /-- LA_GRID_REBUILD (R181): The reach grid rebuild completes after a model swap or step change. -/
  | laGridRebuild
  /-- LA_CFG (R204): Order setting look-ahead step, horizon and guard from the next run. -/
  | laCfg (ref : OrderRef) (c : LaCfg)
  /-- LA_CTL (R205): Order enabling or disabling look-ahead, answered by LA_STATE. -/
  | laCtl (ref : OrderRef) (enable : Nat)
  /-- LA_DETAIL (R206): Order writing a recent run's breach entries to host memory. -/
  | laDetail (ref : OrderRef) (run addr : Nat)
  /-- LA_QUERY (R207): Order answered by LA_INFO with per-network reach totals and speed. -/
  | laQuery (ref : OrderRef)
  /-- LAYER_BOUNDARY (R209): A 900 s or 30 s TAI boundary arrives and schedules its layer's solve at the next tick, or is
  skipped. -/
  | layerBoundary (layer : Layer)
  /-- LAYER_SOLVE_START (R210): A layer solve starts once its tick's state is published or the wait bound expires, reading its
  inputs once. -/
  | layerSolveStart (layer : Layer)
  /-- LAYER_SOLVE_END (R232): A layer solve ends with its status, publishing the plan and handing over changes where allowed. -/
  | layerSolveEnd (layer : Layer) (given : Option LayerResult)
  /-- OPT_BUDGET_EXPIRY (R230): A layer solve reaches its time bound and publishes its best iterate INEXACT or ends FAILED. -/
  | optBudgetExpiry (layer : Layer) (iters : Nat) (given : Option LayerResult)
  /-- OPT_CFG (R239): LINK order setting the optimiser's weights, limits and tables. -/
  | optCfg (ref : OrderRef) (c : OptCfg)
  /-- OPT_CTL (R240): Order enabling or disabling both optimiser layers. -/
  | optCtl (ref : OrderRef) (enable : Nat)
  /-- TARIFF_PUT (R219): Order replacing one tariff table after checks, answered by OPT_RESULT. -/
  | tariffPut (ref : OrderRef) (table : List Byte) (length : Nat)
  /-- FORECAST_PUT (R221): Order replacing one forecast profile after checks. -/
  | forecastPut (ref : OrderRef) (profile : List Byte) (length : Nat)
  /-- PLAN_QUERY (R241): Order copying a layer's plan in force to host memory. -/
  | planQuery (ref : OrderRef) (layer addr maxItems : Nat)
  /-- ROLLOUT_HANDOVER (R261): A change reaches a unit, superseding any running rollout, and a new schedule is built and
  submitted or released. -/
  | rolloutHandover
  /-- ROLLOUT_VERDICT (R256): A verdict reaches the sequencer and the rollout is released, rebuilt, reshaped, shifted or held.
  -/
  | rolloutVerdict
  /-- COMMAND_SEND (R251): A scheduled command's apply-at comes within SEND_AHEAD_MS and it is handed to its receiver. -/
  | commandSend (rollout : Nat)
  /-- ROLLOUT_DONE (R259): A released rollout's last apply-at passes and it becomes DONE. -/
  | rolloutDone (rollout : Nat)
  /-- ROLL_CFG (R273): Order setting the rollout leads, stage and step parameters. -/
  | rollCfg (ref : OrderRef) (c : RollCfg)
  /-- ROLL_DEST (R274): Order setting the destinations and anchor of one plant or store. -/
  | rollDest (ref : OrderRef) (d : RollDest)
  /-- ROLL_HOLD (R265): Order holding or releasing a unit, stopping its rollout. -/
  | rollHold (ref : OrderRef) (kind object hold : Nat)
  /-- ROLL_CTL (R272): Order enabling or disabling the sequencer. -/
  | rollCtl (ref : OrderRef) (enable : Nat)
  /-- INPUT_FRAME_RX (R308): A station INPUT frame is checked and, if valid, replaces the context's input image and drives its
  state. -/
  | inputFrameRx (src : IpAddr) (payload : List Byte)
  /-- REPLY_FRAME_RX (R295): A station REPLY frame is checked and its ACK, STATUS, image, METER and APPLIED records are
  processed. -/
  | replyFrameRx (src : IpAddr) (payload : List Byte)
  /-- STN_STALE_TIMEOUT (R279): A context's latest input ages past STALE_MS and the context becomes STALE. -/
  | stnStaleTimeout (station : Nat)
  /-- STN_OFFLINE_TIMEOUT (R311): A context's latest input ages past OFFLINE_MS and it goes OFFLINE. -/
  | stnOfflineTimeout (station : Nat)
  /-- TXN_TIMEOUT (R297): No ACK within TXN_TIMEOUT_MS resends the frame with the next ATTEMPT or ends it NOACK. -/
  | txnTimeout (station tag gen : Nat)
  /-- SEND_ORDER_RELEASE (R289): A frame waiting for the rate limit, a free tag, QDEPTH or a transaction slot is sent. -/
  | sendOrderRelease (station : Nat)
  /-- OUTPUT_REFRESH (R306): REFRESH_MS passes since the last image frame and an OUTPUT frame is sent. -/
  | outputRefresh (station : Nat)
  /-- RESYNC_SEND (R314): Every writer has completed a fresh cycle and the RESYNC frame with the whole output image is sent. -/
  | resyncSend (station : Nat)
  /-- STN_CFG (R319): Order setting station exchange timing and port. -/
  | stnCfg (ref : OrderRef) (c : StnCfg)
  /-- STN_CTX (R320): Order setting one station context's address, port and queue depth. -/
  | stnCtx (ref : OrderRef) (c : StnCtxCfg)
  /-- STN_SAFE (R321): Order setting a context's 48-byte safe image. -/
  | stnSafe (ref : OrderRef) (station : Nat) (image : List Byte)
  /-- STN_CTL (R322): Order enabling or disabling one or every context. -/
  | stnCtl (ref : OrderRef) (station enable : Nat)
  /-- STN_QUERY (R323): Order writing context entries to host memory. -/
  | stnQuery (ref : OrderRef) (first count addr : Nat)
  /-- LOOP_SAMPLE (R331): A loop's trigger starts a sample that reads its sources, runs its sections and issues its output. -/
  | loopSample (loop : Nat) (x : LoopIn)
  /-- LOOP_TRIGGER_TIMEOUT (R326): No FIELDBUS trigger for PERIOD_US starts a sample with an unusable PV. -/
  | loopTriggerTimeout (loop : Nat) (x : LoopIn)
  /-- LOOP_CFG (R348): Order loading a loop descriptor after checks in order. -/
  | loopCfg (ref : OrderRef) (loop : Nat) (desc : List Byte)
  /-- LOOP_COEF (R349): Order writing one section's coefficients and zeroing its state. -/
  | loopCoef (ref : OrderRef) (c : LoopCoef)
  /-- LOOP_MODE (R350): Order setting a loop CLOSED, OPEN or TRACKING. -/
  | loopMode (ref : OrderRef) (loop mode : Nat) (outMan : F32)
  /-- LOOP_SP (R341): Order placing a timed set-point in a loop's queue. -/
  | loopSp (ref : OrderRef) (loop : Nat) (value : F32) (atS atNs : Nat)
  /-- LOOP_CTL (R347): Order enabling or disabling one or every loop. -/
  | loopCtl (ref : OrderRef) (loop enable : Nat)
  /-- LOOP_QUERY (R351): Order writing loop entries to host memory. -/
  | loopQuery (ref : OrderRef) (first count addr : Nat)
  /-- LOOP_TRACE (R352): Order starting a per-sample trace, answered after COUNT records. -/
  | loopTrace (ref : OrderRef) (loop count addr : Nat)
  /-- LOOP_TABLE (R340): Order writing one friction or cogging table. -/
  | loopTable (ref : OrderRef) (image : List Byte)
  /-- PWM_PERIOD_START (R330): A PWM period starts and takes the latest duty value. -/
  | pwmPeriodStart (output : Nat)
  /-- TALLY_CYCLIC_RELEASE (R369): A cyclic task is released at its TAI period instant, or the controller stops on period
  overrun. -/
  | tallyCyclicRelease (task : Nat)
  /-- TALLY_CYCLE_START (R372): A released task starts its cycle, stamping it and copying its read set. -/
  | tallyCycleStart (task : Nat)
  /-- TALLY_BUDGET_OVERRUN (R373): A cyclic or event task exceeds its budget and the controller stops. -/
  | tallyBudgetOverrun (task : Nat)
  /-- TALLY_BG_OVERRUN (R373): The background task exceeds BG_MAX_MS and the controller stops. -/
  | tallyBgOverrun
  /-- PSH (R362): Push the operand bit. -/
  | tPsh (area addr : Nat)
  /-- PSHN (R362): Push NOT the operand bit. -/
  | tPshn (area addr : Nat)
  /-- ANDB (R362): T0 becomes T0 AND operand. -/
  | tAndb (area addr : Nat)
  /-- ANDNB (R362): T0 becomes T0 AND NOT operand. -/
  | tAndnb (area addr : Nat)
  /-- ORB (R362): T0 becomes T0 OR operand. -/
  | tOrb (area addr : Nat)
  /-- ORNB (R362): T0 becomes T0 OR NOT operand. -/
  | tOrnb (area addr : Nat)
  /-- XORB (R362): T0 becomes T0 XOR operand. -/
  | tXorb (area addr : Nat)
  /-- PSH0 (R362): Push 0. -/
  | tPsh0
  /-- PSH1 (R362): Push 1. -/
  | tPsh1
  /-- AND (R362): Remove T0 and T1 and push their AND. -/
  | tAnd
  /-- OR (R362): Remove T0 and T1 and push their OR. -/
  | tOr
  /-- XOR (R362): Remove T0 and T1 and push their XOR. -/
  | tXor
  /-- NOT (R362): Invert T0. -/
  | tNot
  /-- DUP (R362): Push a copy of T0. -/
  | tDup
  /-- DROP (R362): Remove T0. -/
  | tDrop
  /-- OUTB (R362): Write T0 to the operand bit. -/
  | tOutb (area addr : Nat)
  /-- SETB (R362): Set the operand bit if T0. -/
  | tSetb (area addr : Nat)
  /-- CLRB (R362): Clear the operand bit if T0. -/
  | tClrb (area addr : Nat)
  /-- EDGR (R368): Replace T0 with the rising edge of T0 at an edge detector. -/
  | tEdgr (area addr : Nat)
  /-- EDGF (R368): Replace T0 with the falling edge of T0 at an edge detector. -/
  | tEdgf (area addr : Nat)
  /-- TON (R367): Evaluate an on-delay timer with input T0 and replace T0 with Q. -/
  | tTon (area addr : Nat)
  /-- TOF (R367): Evaluate an off-delay timer with input T0 and replace T0 with Q. -/
  | tTof (area addr : Nat)
  /-- TP (R367): Evaluate a pulse timer with input T0 and replace T0 with Q. -/
  | tTp (area addr : Nat)
  /-- TRST (R362): Reset a timer if T0. -/
  | tTrst (area addr : Nat)
  /-- CTU (R368): Count up on a rising T0 and replace T0 with Q. -/
  | tCtu (area addr : Nat)
  /-- CTD (R368): Count down on a rising T0 and replace T0 with Q. -/
  | tCtd (area addr : Nat)
  /-- CRST (R362): Reset a counter if T0. -/
  | tCrst (area addr : Nat)
  /-- CADD (R362): Add W to a counter, saturating, if T0. -/
  | tCadd (area addr : Nat)
  /-- LDW (R362): Load a 32-bit operand into W. -/
  | tLdw (area addr : Nat)
  /-- LDBU (R362): Load a byte zero-extended into W. -/
  | tLdbu (area addr : Nat)
  /-- LDHS (R362): Load a 16-bit operand sign-extended into W. -/
  | tLdhs (area addr : Nat)
  /-- LDHU (R362): Load a 16-bit operand zero-extended into W. -/
  | tLdhu (area addr : Nat)
  /-- LDQ (R377): Load the quality code of the module or entry into W. -/
  | tLdq (area addr : Nat)
  /-- LDS (R362): Load the stamp32 acquisition time of the module or entry into W. -/
  | tLds (area addr : Nat)
  /-- STW (R362): Store W as a 32-bit word. -/
  | tStw (area addr : Nat)
  /-- STB (R362): Store the low byte of W. -/
  | tStb (area addr : Nat)
  /-- STH (R362): Store the low half-word of W. -/
  | tSth (area addr : Nat)
  /-- ADD (R363): W becomes W plus operand, wrapping. -/
  | tAdd (area addr : Nat)
  /-- SUB (R363): W becomes W minus operand, wrapping. -/
  | tSub (area addr : Nat)
  /-- MUL (R363): W becomes W times operand, wrapping. -/
  | tMul (area addr : Nat)
  /-- DIV (R363): W becomes W divided by operand toward zero, or 0 with a fault on zero. -/
  | tDiv (area addr : Nat)
  /-- MOD (R363): W becomes W modulo operand with the dividend's sign, or 0 with a fault on zero. -/
  | tMod (area addr : Nat)
  /-- ANDW (R362): Bitwise AND of W and operand. -/
  | tAndw (area addr : Nat)
  /-- ORW (R362): Bitwise OR of W and operand. -/
  | tOrw (area addr : Nat)
  /-- XORW (R362): Bitwise XOR of W and operand. -/
  | tXorw (area addr : Nat)
  /-- SHL (R362): Shift W left by operand bits 4:0. -/
  | tShl (area addr : Nat)
  /-- SHR (R362): Shift W right logically. -/
  | tShr (area addr : Nat)
  /-- ASR (R362): Shift W right arithmetically. -/
  | tAsr (area addr : Nat)
  /-- FADD (R363): Float32 add into W. -/
  | tFadd (area addr : Nat)
  /-- FSUB (R363): Float32 subtract into W. -/
  | tFsub (area addr : Nat)
  /-- FMUL (R363): Float32 multiply into W. -/
  | tFmul (area addr : Nat)
  /-- FDIV (R363): Float32 divide into W. -/
  | tFdiv (area addr : Nat)
  /-- FMIN (R363): Float32 minimum into W. -/
  | tFmin (area addr : Nat)
  /-- FMAX (R363): Float32 maximum into W. -/
  | tFmax (area addr : Nat)
  /-- ITF (R362): Convert signed W to float32. -/
  | tItf
  /-- FTI (R363): Convert float32 W to the nearest signed integer, saturating. -/
  | tFti
  /-- FABS (R362): W becomes its absolute value. -/
  | tFabs
  /-- FNEG (R362): W becomes its negation. -/
  | tFneg
  /-- CEQ (R362): Push W equal to operand, integer. -/
  | tCeq (area addr : Nat)
  /-- CNE (R362): Push W not equal to operand, integer. -/
  | tCne (area addr : Nat)
  /-- CGT (R362): Push W greater than operand, integer. -/
  | tCgt (area addr : Nat)
  /-- CGE (R362): Push W greater or equal to operand, integer. -/
  | tCge (area addr : Nat)
  /-- CLT (R362): Push W less than operand, integer. -/
  | tClt (area addr : Nat)
  /-- CLE (R362): Push W less or equal to operand, integer. -/
  | tCle (area addr : Nat)
  /-- FCEQ (R363): Push W equal to operand, float32. -/
  | tFceq (area addr : Nat)
  /-- FCNE (R363): Push W not equal to operand, float32, 1 with a NaN. -/
  | tFcne (area addr : Nat)
  /-- FCGT (R363): Push W greater than operand, float32. -/
  | tFcgt (area addr : Nat)
  /-- FCGE (R363): Push W greater or equal to operand, float32. -/
  | tFcge (area addr : Nat)
  /-- FCLT (R363): Push W less than operand, float32. -/
  | tFclt (area addr : Nat)
  /-- FCLE (R363): Push W less or equal to operand, float32. -/
  | tFcle (area addr : Nat)
  /-- JMP (R362): Jump to an instruction index. -/
  | tJmp (addr : Nat)
  /-- JT (R362): Remove T0 and jump if it was 1. -/
  | tJt (addr : Nat)
  /-- JF (R362): Remove T0 and jump if it was 0. -/
  | tJf (addr : Nat)
  /-- TRIG (R371): Release an event task if T0. -/
  | tTrig (addr : Nat)
  /-- END (R375): End the cycle and commit output modules and published markers and data words atomically. -/
  | tEnd
  /-- NOP (R362): No effect. -/
  | tNop
  /-- TALLY_EXCHANGE_POINT (R390): No task runs or is released and the bank switch and carry-over take effect together. -/
  | tallyExchangePoint
  /-- TALLY_EXCH_TIMEOUT (R390): No exchange point within EXCH_WAIT_MS refuses the exchange. -/
  | tallyExchTimeout
  /-- DIO_EDGE (R357): A discrete-line edge crosses, incrementing its edge count and triggering bound event tasks. -/
  | dioEdge (line : Nat) (level : Bool)
  /-- TALLY_LOAD (R388): Order loading a program image into the other bank after checks. -/
  | tallyLoad (ref : OrderRef) (img : List Byte) (length flags : Nat)
  /-- TALLY_EXCHANGE (R390): Order making the loaded bank the running bank without a stop. -/
  | tallyExchange (ref : OrderRef)
  /-- TALLY_RUN (R381): Order restarting a stopped controller warm or cold. -/
  | tallyRun (ref : OrderRef) (mode : Nat)
  /-- TALLY_STOP (R380): Order stopping the controller with cause 4. -/
  | tallyStop (ref : OrderRef)
  /-- TALLY_CTL (R392): Order enabling or disabling the Tally. -/
  | tallyCtl (ref : OrderRef) (enable : Nat)
  /-- TALLY_TRIG (R371): Order releasing an event task. -/
  | tallyTrig (ref : OrderRef) (task : Nat)
  /-- TALLY_PEEK (R394): Order copying Tally memory to host memory. -/
  | tallyPeek (ref : OrderRef) (area start addr length : Nat)
  /-- TALLY_POKE (R394): Order writing markers or data words atomically at the next instruction boundary. -/
  | tallyPoke (ref : OrderRef) (area start length : Nat) (data : List Byte)
  /-- TALLY_CFG (R395): Order setting restart mode, exchange wait and DIO directions and safe levels. -/
  | tallyCfg (ref : OrderRef) (c : TallyCfg)
  /-- TALLY_SAFE (R395): Order setting one transmit object's safe data. -/
  | tallySafe (ref : OrderRef) (bus object flags : Nat) (data : List Byte)
  /-- TALLY_QUERY (R396): Order writing controller and task state to host memory. -/
  | tallyQuery (ref : OrderRef) (addr : Nat)
  /-- METER_SAMPLE (R402): Every 62.5 µs each enabled channel yields a decimated, stamped sample. -/
  | meterSample (xs : List ChanBits)
  /-- CH_INACTIVE (R399): A channel shows no transition in 64 bits and becomes INACTIVE. -/
  | chInactive (ch : Nat)
  /-- CH_ACQUIRE_DONE (R400): An acquisition over 1 024 bits chooses a tap, repeats, or enters EYE_CLOSED. -/
  | chAcquireDone (ch : Nat) (taps : EyeTaps)
  /-- CH_TRACK_WINDOW (R400): A 4 096-bit tracking window ends and moves the tap or re-acquires. -/
  | chTrackWindow (ch : Nat) (w : TrackWindow)
  /-- CH_ACQUIRE_RETRY (R400): A channel in EYE_CLOSED retries acquisition every 100 ms. -/
  | chAcquireRetry (ch : Nat)
  /-- LINE_CYCLE_END (R408): A line cycle of a voltage set ends and each circuit's quantities and energy registers are updated.
  -/
  | lineCycleEnd (vset : Nat) (end_ : Option Nat) (crossing : Bool) (low : Option (List F32)) (given : Option (List CycleQty))
  /-- FREE_RUN_ENTER (R409): No crossing within 1.5 nominal periods puts a set into FREE_RUN. -/
  | freeRunEnter (vset : Nat)
  /-- HALF_CYCLE_BOUNDARY (R423): At each half-cycle boundary the half-cycle RMS is refreshed and sag, swell and interruption
  judged. -/
  | halfCycleBoundary (vset : Nat) (at_ : Option Nat) (given : Option (List F32))
  /-- BILL_SNAPSHOT (R421): At each BILL_S instant circuit and point registers are copied, saved and METERS requested. -/
  | billSnapshot
  /-- BILL_AGGREGATE (R431): WAIT_S after the billing instant the aggregates are copied and BILL_DONE posted. -/
  | billAggregate
  /-- HEAT_SAMPLE (R427): A heat point samples its sources at PERIOD_MS and files power, energy and volume. -/
  | heatSample (point : Nat) (given : Option WaterIn)
  /-- BATT_BURST (R432): On battery, a burst acquires and measures RMS current and updates charge and episodes. -/
  | battBurst (qs : List BurstQty)
  /-- METER_VSET (R440): Order defining a voltage set. -/
  | meterVset (ref : OrderRef) (x : VsetCfg)
  /-- METER_CIRC (R440): Order defining a circuit. -/
  | meterCirc (ref : OrderRef) (x : CircCfg)
  /-- HEAT_CFG (R441): Order loading a heat point descriptor. -/
  | heatCfg (ref : OrderRef) (point : Nat) (desc : List Byte)
  /-- BILL_CFG (R440): Order setting BILL_S and WAIT_S. -/
  | billCfg (ref : OrderRef) (billS waitS : Nat)
  /-- METER_CTL (R436): Order enabling or disabling a circuit. -/
  | meterCtl (ref : OrderRef) (circuit enable : Nat)
  /-- HEAT_CTL (R437): Order enabling or disabling a heat point. -/
  | heatCtl (ref : OrderRef) (point enable : Nat)
  /-- METER_QUERY (R442): Order writing circuit blocks of a copy set to host memory. -/
  | meterQuery (ref : OrderRef) (set first count addr : Nat)
  /-- HEAT_QUERY (R442): Order writing point or aggregate blocks to host memory. -/
  | heatQuery (ref : OrderRef) (set kind first count addr : Nat)
  /-- RING_FRAME_RX (R450): An HSR frame arrives on a ring port and is discarded as duplicate, forwarded or taken up. -/
  | ringFrameRx (port : Nat) (f : RingFrame)
  /-- HSR_SUPERVISION (R450): Every LifeCheckInterval a supervision frame is sent on both ports. -/
  | hsrSupervision
  /-- RING_OPEN_DETECT (R454): Own supervision frames missing for 3 intervals set RING_OPEN. -/
  | ringOpenDetect
  /-- LINK_CHANGE (R490): A ring port's link goes up or down. -/
  | linkChange (port : Nat) (up speed100 : Bool)
  /-- LEGS_OPEN (R459): At least 2 ms after the ports are ready the legs open. -/
  | legsOpen
  /-- LEGS_SENSE_CHECK (R460): Every 1 ms the measured leg state is compared with the driven state. -/
  | legsSenseCheck (measuredClosed : Bool)
  /-- RING_BYPASS (R456): Order disabling or re-enabling the ring. -/
  | ringBypass (ref : OrderRef) (bypass force waiting : Nat)
  /-- RING_SEND (R479): Order sending a host frame on a port, optionally with a TX stamp request. -/
  | ringSend (ref : OrderRef) (port : Nat) (stamp : Bool) (frame : SendFrame)
  /-- TX_STAMP_CAPTURE (R476): A requested transmit stamp enters its port's queue, or is dropped or discarded late. -/
  | txStampCapture (q id gen : Nat)
  /-- TX_STAMP_EXPIRY (R476): A stamp request reaches 10 ms without its stamp and its id is freed. -/
  | txStampExpiry (q id gen : Nat)
  /-- TXQ_HEAD_WRITE (R478): A write of HEAD releases the TX stamp queue entries before it. -/
  | txqHeadWrite (q : Nat) (head : Word)
  /-- TIME_LATCH (R465): A write to LATCH latches the full clock for the host to read. -/
  | timeLatch
  /-- PTP_SYNC_RX (R472): A Sync and Follow_Up of a domain are received, steering the servo or measuring the domain offset. -/
  | ptpSyncRx (domain : Nat) (m : SyncRx)
  /-- PTP_ANNOUNCE_RX (R469): An Announce qualifies a domain and may switch the selected domain. -/
  | ptpAnnounceRx (domain : Nat) (m : Announce)
  /-- ANNOUNCE_TIMEOUT (R471): A domain's announce receipt timeout expires and it becomes unqualified, perhaps entering
  HOLDOVER. -/
  | announceTimeout (domB : Bool)
  /-- DOMAIN_REVERT (R473): Domain A qualified and ranked at least equal for 60 s makes the unit switch back with REVERT. -/
  | domainRevert
  /-- HOLDOVER_LONG (R471): HOLDOVER lasts HOLDOVER_S and a LONG event is raised. -/
  | holdoverLong
  /-- ACQ_TIMEOUT (R470): No source within ACQ_TIMEOUT_S sets the clock from the RTC or holds start-up. -/
  | acqTimeout
  /-- PDELAY_MEASURE (R468): Once per second each port measures its peer delay. -/
  | pdelayMeasure (port : Nat) (delayNs : Word)
  /-- PPS_EDGE (R483): A PPS_IN edge is stamped and steers the grandmaster clock or serves as a check. -/
  | ppsEdge
  /-- SLEW_DONE (R466): An offset being slewed out is removed and the slew ends. -/
  | slewDone
  /-- RTC_WRITE (R470): While LOCKED the battery clock is rewritten once per hour. -/
  | rtcWrite
  /-- TOUT_FIRE (R480): A timed output reaches its scheduled edge and pulses. -/
  | toutFire (output : Nat)
  /-- TOUT_SET (R482): Order arming, rearming or disabling a timed output. -/
  | toutSet (ref : OrderRef) (o : ToutSet)
  /-- TIME_SELECT (R483): Order forcing a domain or restoring automatic choice. -/
  | timeSelect (ref : OrderRef) (domain : Nat)
  /-- TIME_TOD (R475): Order giving the grandmaster time of day, applied at the next PPS edge. -/
  | timeTod (ref : OrderRef) (sec : DWord)
  /-- TIME_CFG (R483): Order setting TIME_CFG, TIME_SLEW and TIME_ACQ words. -/
  | timeCfg (ref : OrderRef) (cfg slew acq : Word)
  /-- HEARTBEAT_SEND (R497): Every 100 µs a tablet sends a HEARTBEAT on both twin paths. -/
  | heartbeatSend
  /-- HEARTBEAT_RX (R497): A partner heartbeat arrives, refreshing its path and settling negotiation, handover, step-down or
  ties. -/
  | heartbeatRx (p : TwinPath) (h : Heartbeat)
  /-- PATH_SILENT (R498): A path is silent for 300 µs, raising TWIN_PATH or, with both silent, promoting or isolating. -/
  | pathSilent (p : TwinPath)
  /-- NEGOTIATION_TIMEOUT (R495): NEG_MS elapse with no partner and the tablet becomes ACTIVE. -/
  | negotiationTimeout
  /-- RING_LOSS_HANDOVER (R501): Both active ring links down for HANDOVER_MS make the active hand over. -/
  | ringLossHandover
  /-- MIRROR_EMIT_STN (R508): A standby receives an EMIT_STN record and emits the station frame copy. -/
  | mirrorEmitStn (h : MirrorHdr) (station : Nat) (frame : List Byte)
  /-- MIRROR_EMIT_FBUS (R508): A standby receives an EMIT_FBUS record and hands the object copy to its controller. -/
  | mirrorEmitFbus (h : MirrorHdr) (bus object reserved : Nat) (data : List Byte)
  /-- MIRROR_LOOP_OUT (R345): A standby takes a loop's mirrored output and set-point as its track values. -/
  | mirrorLoopOut (h : MirrorHdr) (loop : Nat) (out sp : F32)
  /-- MIRROR_SNAPSHOT (R168): A standby takes the mirrored input snapshot for its own solve. -/
  | mirrorSnapshot (h : MirrorHdr) (solve : Nat) (tick : Word) (first : Nat) (entries : List Byte)
  /-- MIRROR_TALLY (R393): A standby applies mirrored Tally changes or an exchange point. -/
  | mirrorTally (h : MirrorHdr) (area start : Nat) (data : List Byte)
  /-- MIRROR_PLAN (R238): A standby stores a mirrored plan and its duals. -/
  | mirrorPlan (h : MirrorHdr) (body : List Byte)
  /-- MIRROR_ROLLOUT (R269): A standby stores a mirrored rollout state. -/
  | mirrorRollout (h : MirrorHdr) (body : List Byte)
  /-- MIRROR_CONTEXT (R506): A standby stores a mirrored station context and output image. -/
  | mirrorContext (h : MirrorHdr) (body : List Byte)
  /-- MIRROR_METER (R435): A twin publishes mirrored metering blocks with MIRRORED. -/
  | mirrorMeter (h : MirrorHdr) (kind set : Nat) (block : List Byte)
  /-- MIRROR_IMAGE (R506): A standby receives a part of a model or Tally image for its checks. -/
  | mirrorImage (h : MirrorHdr) (image offset total : Nat) (data : List Byte) (written : Bool)
  /-- MIRROR_VERDICT (R139): The active receives the standby's accept or reject of an image. -/
  | mirrorVerdict (h : MirrorHdr) (image status : Nat)
  /-- MIRROR_MARK (R137): A tablet learns of its twin's activation mark. -/
  | mirrorMark (h : MirrorHdr) (image : Nat) (revision : Word)
  /-- MIRROR_RESYNC (R507): A standby receives a resync start or end record and clears UNSYNCED at the end. -/
  | mirrorResync (h : MirrorHdr) (phase records : Nat)
  /-- TWIN_CTL (R510): Order enabling or disabling the twin function. -/
  | twinCtl (ref : OrderRef) (enable retired : Nat)
  /-- TWIN_SWITCH (R501): Order for a planned handover from the active. -/
  | twinSwitch (ref : OrderRef)
  /-- TWIN_PROMOTE (R512): Order promoting an ISOLATED tablet. -/
  | twinPromote (ref : OrderRef)
  /-- DOORBELL (R532): An 8-byte BAR2 write moves an order ring's tail or a report ring's head, or is discarded. -/
  | doorbell (ring width : Nat) (value : DWord)
  /-- ORDER_FETCH (R534): An order entry arrives from host memory, its tag goes live and it is handed to its function. -/
  | orderFetch (ring : Nat) (entry : OrderEntry)
  /-- HOST_MEMORY_TIMEOUT (R541): A host memory access gets no completion within 50 ms and the order ends HOST_MEMORY. -/
  | hostMemoryTimeout (a : HostAccess)
  /-- COALESCE_TIMER (R543): COAL_T passes since the first unsignalled report and the ring's MSI-X vector fires. -/
  | coalesceTimer (report : Nat)
  /-- HOST_RING_ENABLE (R548): A write of ENABLE 1 to a ring's CFG enables it or is refused with a code. -/
  | hostRingEnable (ring : Nat) (value : Word)
  /-- HOST_RING_DISABLE (R549): A write of ENABLE 0 quiesces a ring, answering fetched entries DISABLED. -/
  | hostRingDisable (ring : Nat) (value : Word)
  /-- SETUP_SEAL (R524): A write of 0x0000_5EA1 to GLB_SETUP_SEAL seals the registers and may complete start-up step 6. -/
  | setupSeal (value : Word)
  /-- SEAL_WAIT_EXPIRY (R559): No seal within SEAL_WAIT_S and the tablet seals itself. -/
  | sealWaitExpiry
  /-- W1C_WRITE (R16): A write to a W1C register clears the bits written as 1. -/
  | w1cWrite (offset : Nat) (value : Word)
  /-- REGISTER_WRITE (R16): A write to a BAR0 register with no row of its own, stored or ignored after the seal. -/
  | registerWrite (offset : Nat) (value : Word)
  /-- BAR_BAD_ACCESS (R521): A BAR0 or BAR4 access of wrong width or alignment is discarded and sets BAD_ACCESS. -/
  | barBadAccess
  /-- PCIE_LINK_UP (R565): The PCIe link comes up. -/
  | pcieLinkUp (width speed : Nat)
  /-- PCIE_LINK_DOWN (R551): The link goes down and every ring becomes DISABLED without quiescing. -/
  | pcieLinkDown
  /-- PCIE_FLR (R551): A Function Level Reset disables every ring without quiescing. -/
  | pcieFlr
  /-- HQ_NOP (R552): Order doing nothing, answered ORDER_DONE. -/
  | hqNop (ref : OrderRef)
  /-- HQ_ABORT (R538): Order ending a waiting order by tag and generation. -/
  | hqAbort (ref : OrderRef) (tag : Half) (gen : Byte)
  /-- SETUP_LOAD (R562): Order checking a set-up image and writing it to the unused slot. -/
  | setupLoad (ref : OrderRef) (img : List Byte) (length : Nat) (validateOnly newHouse : Bool)
  /-- SETUP_QUERY (R562): Order answered by SETUP_INFO. -/
  | setupQuery (ref : OrderRef)
  /-- CAN_FRAME_RX (R570): A CAN frame is received, stamped and stored whole in its receive object, or discarded. -/
  | canFrameRx (bus : Nat) (f : CanFrame)
  /-- FBUS_ATTEMPT_END (R575): A frame that won arbitration ends SENT or FAILED, updating error state, ALONE and bus-off. -/
  | fbusAttemptEnd (bus : Nat) (e : TxEnd)
  /-- FBUS_DEADLINE (R575): A queued frame not won by DEADLINE_US ends FAILED with cause DEADLINE. -/
  | fbusDeadline (bus object : Nat)
  /-- FBUS_PERIOD (R577): A periodic transmit object is handed over at its TAI multiple. -/
  | fbusPeriod (bus object : Nat)
  /-- FBUS_RECOVERY_DONE (R583): Bus-off recovery completes and must-deliver frames are re-queued once. -/
  | fbusRecoveryDone (bus : Nat)
  /-- FBUS_LOCK_READ (R572): A host read of word 0 of an object slot takes the bus read lock with a snapshot. -/
  | fbusLockRead (bus slot : Nat)
  /-- FBUS_UNLOCK_READ (R572): A host read of word 15 of the locked slot releases the lock. -/
  | fbusUnlockRead (bus slot : Nat)
  /-- FBUS_RX_CFG (R569): Order binding a receive object to an identifier. -/
  | fbusRxCfg (ref : OrderRef) (c : RxCfg)
  /-- FBUS_TX_CFG (R574): Order configuring a transmit object and its owner. -/
  | fbusTxCfg (ref : OrderRef) (c : TxCfg)
  /-- FBUS_SEND (R574): Order handing a host-owned object over for one-shot transmission. -/
  | fbusSend (ref : OrderRef) (bus object : Nat) (data : List Byte)
  /-- FBUS_CTL (R584): Order enabling or disabling a controller. -/
  | fbusCtl (ref : OrderRef) (bus enable : Nat)
  /-- FBUS_RECOVER (R583): Order starting bus-off recovery. -/
  | fbusRecover (ref : OrderRef) (bus : Nat)
  /-- REPORT_TIMER_EXPIRY (R704): A source's one-second report timer expires and raises one event with the held count or stops.
  -/
  | reportTimerExpiry (src key : Nat)
  /-- NLOG_RECORD_WRITE (R599): The record at the head of the queue is written to the next slot with its chain CRC. -/
  | nlogRecordWrite
  /-- NLOG_FREEZE_TIMEOUT (R601): TIMEOUT_S expires in FROZEN and the log enters DRAINING. -/
  | nlogFreezeTimeout
  /-- NLOG_DRAIN_DONE (R601): The queue is appended, NLOG_FROZEN written and the log returns to RECORDING. -/
  | nlogDrainDone
  /-- NLOG_ERASE_DONE (R603): The clear's erase completes and NLOG_CLEARED and the queue are written. -/
  | nlogEraseDone
  /-- NLOG_READY (R605): At start-up the log finds its write index and appends capture, battery and queued records and
  NLOG_CAPTURE. -/
  | nlogReady (bad : List Nat) (torn : Bool)
  /-- NLOG_SRC (R597): Order setting a source's bucket and snapshot, or reading them. -/
  | nlogSrc (ref : OrderRef) (x : NlogSrc)
  /-- NLOG_FREEZE (R601): Order freezing or unfreezing the log. -/
  | nlogFreeze (ref : OrderRef) (freeze timeoutS : Nat)
  /-- NLOG_READ (R602): Order copying and checking log records to host memory. -/
  | nlogRead (ref : OrderRef) (first count addr : Nat)
  /-- NLOG_CLEAR (R603): Order clearing the log when CONFIRM matches NLOG_LAST_CRC. -/
  | nlogClear (ref : OrderRef) (confirm : Word)
  /-- PANEL_LINE_PROGRAM (R613): The next dirty line is programmed, its dirty bit cleared, and the sweep ends after the last. -/
  | panelLineProgram
  /-- PANEL_WRITE_COMMIT (R612): A staged rectangle is committed between two line programmings and its lines marked dirty. -/
  | panelWriteCommit
  /-- PANEL_REFRESH_TICK (R614): Every REFRESH_MS ÷ HEIGHT the next line is marked dirty. -/
  | panelRefreshTick
  /-- BLINK_HALF_PERIOD (R615): A blink half-period boundary samples marker bits and dirties masked lines. -/
  | blinkHalfPeriod (plane : Nat)
  /-- PANEL_AGE_UPDATE (R616): Every 60 s ageing gains are recomputed and changed blocks dirtied. -/
  | panelAgeUpdate (given : Option (List Stress))
  /-- PANEL_STRESS_SAVE (R617): Hourly the stress counters are written to flash alternately. -/
  | panelStressSave (good : Bool)
  /-- CRACK_CHECK (R618): Every 100 ms the crack loop is sensed, and two open readings make the panel CRACKED. -/
  | crackCheck (isOpen : Bool)
  /-- PANEL_WRITE (R612): Order staging a pixel rectangle from host memory. -/
  | panelWrite (ref : OrderRef) (rect : Rect) (data : List Byte)
  /-- PANEL_MASK (R615): Order writing a blink plane mask. -/
  | panelMask (ref : OrderRef) (plane : Nat) (rect : Rect) (data : List Byte)
  /-- PANEL_CURVE (R611): Order setting one primary's current curve. -/
  | panelCurve (ref : OrderRef) (primary : Nat) (values : List Nat)
  /-- PANEL_SET (R629): Order setting brightness and blink control and colours. -/
  | panelSet (ref : OrderRef) (x : PanelSet)
  /-- PANEL_CTL (R621): Order enabling the panel after blanking, or disabling and discharging it. -/
  | panelCtl (ref : OrderRef) (enable : Nat)
  /-- TAG_PHASE_END (R623): A tag update phase ends and the next begins, finishing at REST with TAG_SHOWN updated. -/
  | tagPhaseEnd (rawMv : Nat)
  /-- TAG_UPDATE (R627): Order starting or queueing a tag update after its energy check. -/
  | tagUpdate (ref : OrderRef) (image : DWord) (flags : Nat)
  /-- TAG_CTL (R628): Order enabling or disabling the tag. -/
  | tagCtl (ref : OrderRef) (enable : Nat)
  /-- HELLO (R642): Monitor command reporting part, serial, firmware, role and level. -/
  | hello (bad : Bool)
  /-- STAT (R642): Monitor command reporting start-up step, role, time state and revisions. -/
  | stat (bad : Bool)
  /-- RD (R642): Monitor command reading BAR0 words. -/
  | rd (args : Option (Nat × Nat))
  /-- WR (R642): Monitor command writing a BAR0 register with the host's rules. -/
  | wr (args : Option (Nat × Word))
  /-- LOG (R642): Monitor command listing Notch Log records. -/
  | log (args : Option (Nat × Nat))
  /-- FRZ (R642): Monitor command freezing or unfreezing the log. -/
  | frz (args : Option (Nat × Option Nat))
  /-- CALX (R642): Monitor command exporting the calibration page. -/
  | calx (bad : Bool)
  /-- CALI (R647): Monitor command beginning or ending a page import. -/
  | cali (args : Option CaliArg)
  /-- CALC (R647): Monitor command capturing working values into the page. -/
  | calc (args : Option Word) (rawMv : Nat)
  /-- FWQ (R642): Monitor command reporting the firmware banks. -/
  | fwq (bad : Bool)
  /-- IMG (R642): Monitor command beginning or ending a firmware load. -/
  | img (args : Option ImgArg)
  /-- MONITOR_DATA_LINE (R640): A D line carries 64 bytes at the next consecutive offset of a transfer. -/
  | monitorDataLine (offset : Nat) (data : List Byte) (crc : Word)
  /-- RST (R642): Monitor command resetting the tablet. -/
  | rst (args : Option Bool)
  /-- KEYFUSE (R635): Monitor command confirming and fusing the house key hash. -/
  | keyfuse (args : Option KeyfuseArg)
  /-- UNLOCK (R639): Monitor command raising the level to SERVICE with the access code. -/
  | unlock (args : Option Word)
  /-- LOCK (R639): Monitor command returning to VIEW. -/
  | lock (bad : Bool)
  /-- MONITOR_IDLE_TIMEOUT (R639): 10 min without a command returns a SERVICE session to VIEW. -/
  | monitorIdleTimeout
  /-- MONITOR_BREAK (R639): SVC_RXD held low 10 ms returns the session to VIEW. -/
  | monitorBreak
  /-- LOCKOUT_END (R639): The 10 min UNLOCK lockout ends. -/
  | lockoutEnd
  /-- CAL_EXPORT (R656): Order writing the calibration page to host memory. -/
  | calExport (ref : OrderRef) (addr : Nat)
  /-- CAL_IMPORT (R647): Order importing a calibration page when CONFIRM matches. -/
  | calImport (ref : OrderRef) (page : List Byte) (confirm : Word) (validateOnly : Bool) (rawMv : Nat)
  /-- CAL_CAPTURE (R647): Order building the page from working registers when CONFIRM matches. -/
  | calCapture (ref : OrderRef) (confirm : Word) (rawMv : Nat)
  /-- CAL_WRITE_DONE (R648): A page write completes its erase, program and read-back. -/
  | calWriteDone (ok : Bool)
  /-- FW_LOAD (R655): Order loading a firmware image into the non-running bank. -/
  | fwLoad (ref : OrderRef) (img : List Byte) (length : Nat) (validateOnly allowOlder activate : Bool)
  /-- FW_LOAD_DONE (R655): A firmware load's write and read-back complete and the bank is activated if asked. -/
  | fwLoadDone (ok : Bool)
  /-- FW_QUERY (R656): Order answered by FW_INFO. -/
  | fwQuery (ref : OrderRef)
  /-- VIN_ACCEPT (R661): VIN at or above 5.5 V for 10 ms begins start-up. -/
  | vinAccept (svcEn : Bool)
  /-- BEAM_UP (R652): The beam comes up and the boot code checks and loads a firmware bank. -/
  | beamUp (lost : Nat)
  /-- SCAN_DONE (R72): The bead scan completes and marks failed parts. -/
  | scanDone (parts : List Part) (linkFailed : List Nat) (ps : List Placed)
  /-- SETUP_APPLY (R559): At step 5 the set-up image is checked, its entries applied in order and sealed if asked. -/
  | setupApply
  /-- RING_PORTS_READY (R459): The ring ports are declared ready at step 6. -/
  | ringPortsReady
  /-- POWER_FAIL_WARNING (R667): VIN below 5.2 V for 20 µs stops the Tally, disables the ring and runs the hold-up sequence. -/
  | powerFailWarning (rawVin rawVhold waiting : Nat)
  /-- HOLDUP_RESET (R663): The hold-up sequence completes and the tablet resets. -/
  | holdupReset (tallyDone meterDone vinBack : Bool)
  /-- RST_N_REQUEST (R673): RST_N low for 10 µs runs the hold-up sequence from VIN and resets. -/
  | rstNRequest (rawVin rawVhold waiting : Nat)
  /-- VIN_SURGE (R662): VIN enters or leaves 40–60 V. -/
  | vinSurge (enter : Bool) (rawPeak : Nat)
  /-- HOLD_ENERGY_REFRESH (R666): Every 10 ms the hold-up energy is recomputed and HOLD_LOW judged. -/
  | holdEnergyRefresh (rawVin rawVhold rawVbat : Nat)
  /-- VBAT_LOW (R675): VBAT crosses 2.7 V with VIN present. -/
  | vbatLow (rawVbat : Nat)
  /-- PPS_IN_LOSS (R469): PPS_IN edges stop arriving 1 s ± 10 µs apart, so PPS_IN becomes unqualified and a grandmaster enters
  HOLDOVER with clockClass 7. -/
  | ppsInLoss
  /-- MSIX_UNMASK (R542): The host clears a function or vector mask in the MSI-X table, and a vector with its pending bit set
  fires. -/
  | msixUnmask (m : MsixMask)
  /-- NODE_FORGET_TIME (R450): A node table entry unheard for NodeForgetTime of 60 s is removed, and RING_NODES falls. -/
  | nodeForgetTime (mac : Nat)
  /-- TALLY_BANK_WRITTEN (R388): A Tally load's write of the other bank and its flash copy finishes its read-back or fails
  FLASH_WRITE after a retry. -/
  | tallyBankWritten (ok : Bool)
  /-- SETUP_SLOT_WRITTEN (R562): A SETUP_LOAD's write of the unused set-up slot finishes, is marked active and answered by
  SETUP_RESULT, or fails FLASH_WRITE. -/
  | setupSlotWritten (ok : Bool)
  /-- ARBITRATION_WON (R575): At bus idle, a QUEUED frame wins arbitration and becomes ON_WIRE, which is its commit point. -/
  | arbitrationWon (bus : Nat)
  /-- BUS_ERROR_RX (R566): A CAN controller detects a bus error while receiving, raises REC, counts the error frame and may
  become error-passive. -/
  | busErrorRx (bus rise : Nat)
  /-- BEAM_LOSS (R25): The beam of a tablet fails, its bypass legs close and the tablet drops out of the house. -/
  | beamLoss (waiting : Nat)
  deriving DecidableEq, Repr

end Sys2Proof
end

