-- ==== Sys2Proof/Decode.lean ====
section
/-! DEFINITION. The command that a word spells: the table gives no row any bits, so no word spells a command. -/

namespace Sys2Proof

/-- Commands come from outside, each with its operands; spec/opcode_table.json gives them no encoding. -/
def decodeTableWord (_nbits _w : Nat) : Option Instr := none

end Sys2Proof
end

