-- ==== Sys2Proof/Config.lean ====
section
/-! DEFINITION. What the spec leaves open: free values without a body, which nothing can evaluate. -/

namespace Sys2Proof.Config

open Sys2Proof

/-- A free number, one for each place that asks and each count of free values taken so far. -/
opaque freeNat : Nat → Nat → Nat

/-- A free word. -/
opaque freeWord : Nat → Nat → BitVec 32

/-- DIV of −2³¹ by −1, whose quotient the word format does not hold (R363). -/
opaque divOverflow : BitVec 32

/-- Sign and payload of a NaN result, by the operation and its operands (R363: IEEE 754 leaves them open). -/
opaque nanBits : Nat → BitVec 32 → BitVec 32 → BitVec 32

/-- Whether FMIN or FMAX answers its second operand's side where IEEE 754 leaves the choice: one NaN operand (true: the NaN), or
two zeros of different sign (true: the operand). -/
opaque minMaxPick : Nat → BitVec 32 → BitVec 32 → Bool

/-- Whether the part is an OPZ4810-IE, whose pace is derated above +85 °C ambient (R7, R681). -/
opaque isIE : Bool

/-! ### The arithmetic of the numerical engines

The laws of the Reckoner, look-ahead, the optimiser, the meters and the water table are formulas over real numbers; the spec states
neither the format of the working numbers nor how an operation rounds. Each operation is a free function of its operands. -/

/-- A float32 value as a working number, a working number as a float32 value, and the constant (±) n / d. -/
opaque numOf : F32 → Num
opaque numTo : Num → F32
opaque numRat : Bool → Nat → Nat → Num

opaque numAdd : Num → Num → Num
opaque numSub : Num → Num → Num
opaque numMul : Num → Num → Num
opaque numDiv : Num → Num → Num
opaque numSqrt : Num → Num
opaque numExp : Num → Num
/-- Natural and decimal logarithm. -/
opaque numLn : Num → Num
opaque numLog10 : Num → Num
opaque numPow : Num → Num → Num
opaque numSin : Num → Num
opaque numCos : Num → Num

/-- Comparison of two working numbers, and whether one is finite. -/
opaque numLt : Num → Num → Bool
opaque numFinite : Num → Bool

/-- The kinematic viscosity of water by pressure and temperature (R183): the spec names no formulation for it. -/
opaque waterNu : Num → Num → Num

/-- The 1 kHz low-pass of R408: its output at the last of the values it has been given, the oldest first. Its form is not stated. -/
opaque lowPass1k : List Num → Num

/-- The cubic interpolation of R403, R411 and R428 between the second and the third of four values at a fraction of their distance: which
cubic is not stated. -/
opaque cubic4 : Num → Num → Num → Num → Num → Num

/-- The flow capacity of the secondary side of an exchanger whose secondary lies outside the model (R161), by branch. -/
opaque secCapacity : Nat → Num

/-- The penalty ρ that a pass of ADMM starts with (R228), by layer. -/
opaque admmRho : Nat → Num

/-- The published standard uncertainty of an estimate (SIGMA, R172), by solve and index: the spec states no formula for it. -/
opaque estSigma : Nat → Nat → F32

/-- POWER in an aggregate's block (R442), by aggregate and stamp: the spec states no value for it. -/
opaque aggPower : Nat → Nat → F32

/-- Whether an event that a merging crossing took at an instant (ns) still sits in it after 2 cycles of the island's clock (R66 leaves
2 to 3), by crossing and instant. -/
opaque xingStill : Nat → Nat → Bool

/-- The cause that LOOP_MODE_CHANGED names where enabling a loop opens it, by loop: R354 lists none for it. -/
opaque enableCause : Nat → Nat

/-- By how much an edge moves the count of a quadrature pair (R327), by the levels of its two lines before and after: R327 does not
say which transitions count, nor which way. -/
opaque quadStep : Bool → Bool → Bool → Bool → BitVec 32

/-- GLB_INFO.REV, the silicon revision, is 0x01 in the reset value of R523. -/
def rev : Nat := 1

end Sys2Proof.Config
end

