-- ==== Sys2Proof/Machine/Crypto.lean ====
section
/-! DEFINITION. The checks that images and frames carry: CRC-32C (R286 and the image CRCs), the CRC-32 of IEEE 802.3 (R593),
SHA-256 and ECDSA P-256 (R132, R133), as their published standards define them. -/

namespace Sys2Proof.Machine

open Sys2Proof

/-- One bit of a reflected CRC. -/
def crcBit (poly c : Nat) : Nat := if c % 2 = 1 then (c / 2) ^^^ poly else c / 2

def crcByte (poly c b : Nat) : Nat :=
  let c := c ^^^ b
  crcBit poly (crcBit poly (crcBit poly (crcBit poly (crcBit poly (crcBit poly (crcBit poly (crcBit poly c)))))))

/-- The bytes of a CRC in their order. The running value is matched on, so that it is worked out byte by byte. -/
def crcBytes (poly : Nat) : List Byte → Nat → Nat
  | [], c => c
  | b :: bs, 0 => crcBytes poly bs (crcByte poly 0 b.toNat)
  | b :: bs, c + 1 => crcBytes poly bs (crcByte poly (c + 1) b.toNat)

/-- A reflected 32-bit CRC with initial value and final XOR of ones. -/
def crc32With (poly : Nat) (bs : List Byte) : Word :=
  BitVec.ofNat 32 (crcBytes poly bs 0xFFFFFFFF ^^^ 0xFFFFFFFF)

/-- CRC-32C (Castagnoli). -/
def crc32c (bs : List Byte) : Word := crc32With 0x82F63B78 bs

/-- The CRC-32 of IEEE 802.3, polynomial 0x04C11DB7 reflected (R593). -/
def crc32 (bs : List Byte) : Word := crc32With 0xEDB88320 bs

/-! ### SHA-256 -/

/-- Word `i` from the low end of a number made of 32-bit words. -/
def wordAt (n i : Nat) : Nat := n / 2 ^ (32 * i) % 2 ^ 32

/-- The round constants, sixteen to a number, the last sixteen first and the earliest round's on top of its number: 32 bits of
the fractional part of the cube root of each of the first 64 primes. -/
def cubeBits : List Nat :=
  [0x19a4c1161e376c082748774c34b0bcb5391c0cb34ed8aa4a5b9cca4f682e6ff3748f82ee78a5636f84c878148cc7020890befffaa4506cebbef9a3f7c67178f2,
   0x27b70a852e1b21384d2c6dfc53380d13650a7354766a0abb81c2c92e92722c85a2bfe8a1a81a664bc24b8b70c76c51a3d192e819d6990624f40e3585106aa070,
   0xe49b69c1efbe47860fc19dc6240ca1cc2de92c6f4a7484aa5cb0a9dc76f988da983e5152a831c66db00327c8bf597fc7c6e00bf3d5a7914706ca635114292967,
   0x428a2f9871374491b5c0fbcfe9b5dba53956c25b59f111f1923f82a4ab1c5ed5d807aa9812835b01243185be550c7dc372be5d7480deb1fe9bdc06a7c19bf174]

/-- The constant of the round that `n` rounds follow. -/
def roundBits (n : Nat) : Nat := wordAt (cubeBits.getD (n / 16) 0) (n % 16)

/-- The digest's start value as one number, its first word on top: 32 bits of the fractional part of the square root of each of
the first 8 primes. -/
def squareBits : Nat := 0x6a09e667bb67ae853c6ef372a54ff53a510e527f9b05688c1f83d9ab5be0cd19

/-- A word turned right by `n` bits: two copies of it side by side, less the lowest `n` bits. -/
def turned (x n : Nat) : Nat := wordAt (x * (2 ^ 32 + 1) / 2 ^ n) 0

/-- The mixing of a word by two turns and a third figure. -/
def mixed (x m n y : Nat) : Nat := turned x m ^^^ (turned x n ^^^ y)

/-- The big-endian number of some bytes. -/
def beNat (bs : List Byte) : Nat := bs.foldl (fun a b => a * 256 + b.toNat) 0

/-- Big-endian bytes of a number. -/
def beBytes (n v : Nat) : List Byte := (List.range n).map (fun i => BitVec.ofNat 8 (v / 256 ^ (n - 1 - i)))

/-- What a round keeps: the last four words of either chain, latest first, and the sixteen message words to come. -/
structure Rounds where
  sums : List Nat
  mids : List Nat
  ahead : List Nat

/-- The message word that joins the sixteen to come when the first of them is used. -/
def Rounds.joining (q : Rounds) : Nat :=
  let x := q.ahead.getD 1 0
  let y := q.ahead.getD 14 0
  wordAt (mixed y 17 19 (y / 2 ^ 10) + q.ahead.getD 9 0 + mixed x 7 18 (x / 2 ^ 3) + q.ahead.headD 0) 0

/-- One round with its constant. The middle chain takes the oldest sum plus the round's figure; the sum chain the figure plus
the mix of the latest sums. -/
def Rounds.next (q : Rounds) (k : Nat) : Rounds :=
  let e := q.mids.headD 0
  let a := q.sums.headD 0
  let g := q.mids.getD 2 0
  let b := q.sums.getD 1 0
  let figure := k + q.ahead.headD 0 + q.mids.getD 3 0 + (g ^^^ (e &&& (q.mids.getD 1 0 ^^^ g))) + mixed e 6 11 (turned e 25)
  let top := mixed a 2 13 (turned a 22) + ((a &&& b) ||| (q.sums.getD 2 0 &&& (a ||| b)))
  { sums := wordAt (figure + top) 0 :: q.sums.take 3
    mids := wordAt (q.sums.getD 3 0 + figure) 0 :: q.mids.take 3
    ahead := q.ahead.tail ++ [q.joining] }

/-- The last `n` rounds of a block. -/
def Rounds.run : Nat → Rounds → Rounds
  | 0, q => q
  | n + 1, q => Rounds.run n (q.next (roundBits n))

/-- The running digest, one number of eight words, after a block of 64 bytes given as one number. -/
def digestBlock (h blk : Nat) : Nat :=
  let chain (i : Nat) := (List.range 4).map (fun j => wordAt h (i - j))
  let q := Rounds.run 64 { sums := chain 7, mids := chain 3, ahead := (List.range 16).map (fun j => wordAt blk (15 - j)) }
  (List.zipWith (fun x y => wordAt (x + y) 0) (chain 7 ++ chain 3) (q.sums ++ q.mids)).foldl (fun a w => a * 2 ^ 32 + w) 0

/-- The message with its end mark and its length, as a number of whole blocks, and how many blocks that is. -/
def padded (bs : List Byte) : Nat × Nat :=
  let blocks := (bs.length + 72) / 64
  ((beNat bs * 256 + 0x80) * 256 ^ (64 * blocks - bs.length - 1) + 8 * bs.length, blocks)

/-- The running digest over the blocks of a padded message that are still to come, counted down. -/
def digestBlocks (msg : Nat) : Nat → Nat → Nat
  | 0, h => h
  | n + 1, h => digestBlocks msg n (digestBlock h (msg / 2 ^ (512 * n) % 2 ^ 512))

/-- The 32 bytes of the SHA-256 digest. -/
def sha256 (bs : List Byte) : List Byte :=
  let p := padded bs
  beBytes 32 (digestBlocks p.1 p.2 squareBits)

/-! ### ECDSA over P-256 -/

def p256P : Nat := 0xffffffff00000001000000000000000000000000ffffffffffffffffffffffff
def p256N : Nat := 0xffffffff00000000ffffffffffffffffbce6faada7179e84f3b9cac2fc632551
def p256B : Nat := 0x5ac635d8aa3a93e7b3ebbd55769886bc651d06b0cc53b0f63bce3c3e27d2604b
def p256G : Nat × Nat :=
  (0x6b17d1f2e12c4247f8bce6e563a440f277037d812deb33a0f4a13945d898c296,
   0x4fe342e2fe1a7f9b8ee7eb4a7c0f9e162bce33576b315ececbb6406837bf51f5)

/-- A power modulo `m`, a byte of the exponent at a time from the top. -/
def powMod (m b : Nat) : Nat → Nat → Nat
  | 0, _ => 1 % m
  | n + 1, e => powMod m b n (e / 256) ^ 256 % m * (b ^ (e % 256) % m) % m

def invMod (m a : Nat) : Nat := powMod m (a % m) 32 (m - 2)

/-- Addition of points of P-256; none is the point at infinity. -/
def ecAdd (a b : Option (Nat × Nat)) : Option (Nat × Nat) :=
  match a, b with
  | none, b => b
  | a, none => a
  | some (x1, y1), some (x2, y2) =>
    let p := p256P
    if x1 = x2 && (y1 + y2) % p = 0 then none
    else
      let l := if x1 = x2 then (3 * x1 * x1 + (p - 3)) * invMod p (2 * y1) % p
               else (y2 + p - y1) * invMod p (x2 + p - x1) % p
      let x3 := (l * l + 2 * p - x1 - x2) % p
      some (x3, (l * (x1 + p - x3) + p - y1) % p)

def ecMul (q : Option (Nat × Nat)) : Nat → Nat → Option (Nat × Nat)
  | 0, _ => none
  | n + 1, k =>
    let r := ecMul q n (k / 2)
    let r2 := ecAdd r r
    if k % 2 = 1 then ecAdd r2 q else r2

/-- Verification of a signature (r, s) over a digest by the public key (x, y). -/
def ecdsaVerify (digest : List Byte) (x y r s : Nat) : Bool :=
  let n := p256N
  let p := p256P
  if r = 0 || s = 0 || n ≤ r || n ≤ s || p ≤ x || p ≤ y then false
  else if (y * y) % p ≠ (x * x * x + (p - 3) * x + p256B) % p then false
  else
    let w := invMod n s
    match ecAdd (ecMul (some p256G) 256 (beNat digest * w % n)) (ecMul (some (x, y)) 256 (r * w % n)) with
    | none => false
    | some (vx, _) => vx % n == r

end Sys2Proof.Machine
end

