-- ==== Sys2Proof/Machine/Float.lean ====
section
/-! DEFINITION. float32 arithmetic (R11): IEEE 754 binary32, round to nearest even, on bit patterns. -/

namespace Sys2Proof.Machine

open Sys2Proof

def fSign (x : F32) : Bool := x.getLsbD 31
def fExp (x : F32) : Nat := x.toNat / 2 ^ 23 % 256
def fMan (x : F32) : Nat := x.toNat % 2 ^ 23
def fIsNaN (x : F32) : Bool := fExp x == 255 && fMan x != 0
def fIsInf (x : F32) : Bool := fExp x == 255 && fMan x == 0
def fFinite (x : F32) : Bool := fExp x != 255
def fIsZero (x : F32) : Bool := x.toNat % 2 ^ 31 == 0
/-- A finite normal value or zero (R113). -/
def fImageOk (x : F32) : Bool := fFinite x && (fExp x != 0 || fMan x == 0)

/-- The quiet NaN that operations produce. -/
def fNaN : F32 := 0x7FC00000#32
def fInf (neg : Bool) : F32 := if neg then 0xFF800000#32 else 0x7F800000#32
def fZero (neg : Bool) : F32 := if neg then 0x80000000#32 else 0#32
def fOne : F32 := 0x3F800000#32

/-- The magnitude of a finite value in units of 2⁻¹⁴⁹. -/
def fMag (x : F32) : Nat :=
  if fExp x = 0 then fMan x else (2 ^ 23 + fMan x) * 2 ^ (fExp x - 1)

/-- A finite value in units of 2⁻¹⁴⁹. -/
def fInt (x : F32) : Int := if fSign x then -(fMag x : Int) else (fMag x : Int)

/-- The float nearest to (±) n / d, ties to even; d > 0. A value of `q` stands for 2^(q − 149) and the significand is below 2²⁴. -/
def fRound (neg : Bool) (n d : Nat) : F32 :=
  let s := BitVec.ofNat 32 (if neg then 2 ^ 31 else 0)
  if n = 0 then s
  else
    -- scale to units of 2⁻¹⁴⁹, then drop the bits above 24
    let t := n * 2 ^ 149 / d
    let q := if t < 2 ^ 24 then 0 else Nat.log2 t - 23
    let num := n * 2 ^ 149
    let den := d * 2 ^ q
    let m := num / den
    let r := num % den
    let m := if 2 * r > den || (2 * r = den && m % 2 = 1) then m + 1 else m
    let b := if m < 2 ^ 23 && q = 0 then m else q * 2 ^ 23 + m
    if 0x7F800000 ≤ b then fInf neg else s ||| BitVec.ofNat 32 b

/-- A constant n / d as the nearest float32. -/
def fc (n d : Nat) : F32 := fRound false n d

/-- The float nearest to an integer number of 1 / d. -/
def fOfInt (i : Int) (d : Nat) : F32 := fRound (i < 0) i.natAbs d

def fNeg (x : F32) : F32 := x ^^^ 0x80000000#32
def fAbs (x : F32) : F32 := x &&& 0x7FFFFFFF#32

def fAdd (x y : F32) : F32 :=
  if fIsNaN x || fIsNaN y then fNaN
  else if fIsInf x then (if fIsInf y && fSign x != fSign y then fNaN else x)
  else if fIsInf y then y
  else
    let i := fInt x + fInt y
    if i = 0 then fZero (fSign x && fSign y) else fRound (i < 0) i.natAbs (2 ^ 149)

def fSub (x y : F32) : F32 := if fIsNaN y then fNaN else fAdd x (fNeg y)

def fMul (x y : F32) : F32 :=
  let neg := fSign x != fSign y
  if fIsNaN x || fIsNaN y then fNaN
  else if fIsInf x || fIsInf y then (if fIsZero x || fIsZero y then fNaN else fInf neg)
  else fRound neg (fMag x * fMag y) (2 ^ 298)

def fDiv (x y : F32) : F32 :=
  let neg := fSign x != fSign y
  if fIsNaN x || fIsNaN y then fNaN
  else if fIsInf x then (if fIsInf y then fNaN else fInf neg)
  else if fIsInf y then fZero neg
  else if fIsZero y then (if fIsZero x then fNaN else fInf neg)
  else fRound neg (fMag x) (fMag y)

/-- Ordered comparisons: false with a NaN. -/
def fKey (x : F32) : Int :=
  if fIsInf x then (if fSign x then -(2 ^ 300 : Int) else 2 ^ 300) else fInt x
def fLt (x y : F32) : Bool := !fIsNaN x && !fIsNaN y && fKey x < fKey y
def fLe (x y : F32) : Bool := !fIsNaN x && !fIsNaN y && fKey x ≤ fKey y
def fEq (x y : F32) : Bool := !fIsNaN x && !fIsNaN y && fKey x == fKey y

/-- x within [lo, hi]. -/
def fBetween (lo hi x : F32) : Bool := fLe lo x && fLe x hi

def fMin (x y : F32) : F32 := if fLt y x then y else x
def fMax (x y : F32) : F32 := if fLt x y then y else x
def fClamp (lo hi x : F32) : F32 := if fLt x lo then lo else if fLt hi x then hi else x

/-- The nearest integer to a finite value, ties to even. -/
def fToInt (x : F32) : Int :=
  let m := fMag x
  let q0 : Nat := m / 2 ^ 149
  let r : Nat := m % 2 ^ 149
  let q : Nat := if 2 * r > 2 ^ 149 || (2 * r = 2 ^ 149 && q0 % 2 = 1) then q0 + 1 else q0
  if fSign x then -Int.ofNat q else Int.ofNat q

/-- floor and ceiling of a non-negative finite value. -/
def fFloor (x : F32) : Nat := if fSign x then 0 else fMag x / 2 ^ 149
def fCeil (x : F32) : Nat := if fSign x then 0 else (fMag x + 2 ^ 149 - 1) / 2 ^ 149

/-- The square root of a non-negative value, correctly rounded up to the choice of the last bit by the integer root. -/
def fSqrt (x : F32) : F32 :=
  if fIsNaN x || (fSign x && !fIsZero x) then fNaN
  else if fIsInf x then x
  else fRound false (Nat.sqrt (fMag x * 2 ^ 149 * 2 ^ 128)) (2 ^ 149 * 2 ^ 64)

end Sys2Proof.Machine
end

