-- ==== Sys2Proof/Machine/Image.lean ====
section
/-! DEFINITION. The network model image to the byte (R106–R133) and the load checks of R136, as functions of the image's
bytes. -/

namespace Sys2Proof.Machine

open Sys2Proof

/-! ### Reading bytes -/

/-- Little-endian bytes of a field. -/
def leBytes : Nat → Nat → List Byte
  | 0, _ => []
  | n + 1, v => BitVec.ofNat 8 v :: leBytes n (v / 256)

/-- The little-endian number of `n` bytes at an offset. -/
def leAt (n : Nat) (bs : List Byte) (o : Nat) : Nat := (((bs.drop o).take n).reverse.foldl (fun a b => a * 256 + b.toNat) 0)
def u8At (bs : List Byte) (o : Nat) : Nat := leAt 1 bs o
def u16At (bs : List Byte) (o : Nat) : Nat := leAt 2 bs o
def u32At (bs : List Byte) (o : Nat) : Nat := leAt 4 bs o
def f32At (bs : List Byte) (o : Nat) : F32 := BitVec.ofNat 32 (leAt 4 bs o)
/-- A float32 field of the image: a negative zero reads as zero (R113). -/
def fieldAt (bs : List Byte) (o : Nat) : F32 := if f32At bs o = 0x80000000 then 0 else f32At bs o
def zerosAt (bs : List Byte) (o n : Nat) : Bool := ((bs.drop o).take n).all (fun b => b == 0)
def inB (lo hi n : Nat) : Bool := lo ≤ n && n ≤ hi

/-! ### Header, directory and sections (R108–R112) -/

def imgRevision (img : List Byte) : Nat := u32At img 0x0C
def imgHouse (img : List Byte) : Nat := u16At img 0x08
def imgSections (img : List Byte) : Nat := u16At img 0x0A
def imgLength (img : List Byte) : Nat := u32At img 0x10
/-- DIGEST (R135): the first 8 bytes of the SHA-256 of the whole image, signature trailer included (DESIGN CHOICE: the spec does not
say which bytes; the signed digest of R132 stops at KEY_Y). -/
def imgDigest8 (img : List Byte) : Nat := leAt 8 (sha256 img) 0

/-- A directory entry (R109). -/
structure SecDir where
  type : Nat
  size : Nat
  off : Nat
  count : Nat
  crc : Word
  deriving DecidableEq, Repr, Inhabited

def secAt (img : List Byte) (i : Nat) : SecDir :=
  let o := 64 + 16 * i
  ⟨u16At img o, u16At img (o + 2), u32At img (o + 4), u32At img (o + 8), BitVec.ofNat 32 (u32At img (o + 12))⟩

def imgDir (img : List Byte) : List SecDir := (List.range (imgSections img)).map (secAt img)

/-- Record size and limit of a section type (R110). -/
def secShape : Nat → Option (Nat × Nat)
  | 1 => some (32, 4)
  | 2 => some (32, 8192)
  | 3 => some (32, 12288)
  | 4 => some (48, 128)
  | 5 => some (80, 512)
  | 6 => some (32, 256)
  | 7 => some (48, 1024)
  | 8 => some (48, 16)
  | 9 => some (48, 32)
  | 10 => some (32, 64)
  | 11 => some (48, 2048)
  | _ => none

/-- The records of a section type; none where it is omitted. -/
def recsOf (img : List Byte) (t : Nat) : List (List Byte) :=
  match (imgDir img).find? (fun d => d.type == t) with
  | some d => (List.range d.count).map (fun i => (img.drop (d.off + i * d.size)).take d.size)
  | none => []

def networks (img : List Byte) : List (List Byte) := recsOf img 1
def nodes (img : List Byte) : List (List Byte) := recsOf img 2
def pipes (img : List Byte) : List (List Byte) := recsOf img 3
def pumps (img : List Byte) : List (List Byte) := recsOf img 4
def valves (img : List Byte) : List (List Byte) := recsOf img 5
def exchangers (img : List Byte) : List (List Byte) := recsOf img 6
def stationRecs (img : List Byte) : List (List Byte) := recsOf img 7
def plants (img : List Byte) : List (List Byte) := recsOf img 8
def stores (img : List Byte) : List (List Byte) := recsOf img 9
def zones (img : List Byte) : List (List Byte) := recsOf img 10
def measRecs (img : List Byte) : List (List Byte) := recsOf img 11

/-- The key of a record, by section type (R110). -/
def keyOf (t : Nat) (r : List Byte) : Nat :=
  if t = 1 || t = 8 || t = 9 || t = 10 then u8At r 0 else u16At r 0
def keys (img : List Byte) (t : Nat) : List Nat := (recsOf img t).map (keyOf t)
def recByKey (img : List Byte) (t k : Nat) : Option (List Byte) := (recsOf img t).find? (fun r => keyOf t r == k)

/-- The record of a pump and of a valve by its PUMP or VALVE number (R120, R121). -/
def pumpRec (img : List Byte) (n : Nat) : Option (List Byte) := (pumps img).find? (fun r => u8At r 6 == n)
def valveRec (img : List Byte) (n : Nat) : Option (List Byte) := (valves img).find? (fun r => u16At r 6 == n)

/-- Where a branch record names its branch and its two nodes. -/
def branchOff (t : Nat) : Nat := if t = 7 then 2 else if t = 8 then 4 else if t = 9 then 8 else 0
def fromOff (t : Nat) : Nat := if t = 7 then 4 else if t = 8 then 8 else if t = 9 then 4 else 2
def toOff (t : Nat) : Nat := if t = 7 then 6 else if t = 8 then 6 else if t = 9 then 6 else 4
def branchTypes : List Nat := [3, 4, 5, 6, 7, 8, 9]

/-- Every branch: section type and record. -/
def branches (img : List Byte) : List (Nat × List Byte) :=
  (branchTypes.map (fun t => (recsOf img t).map (fun r => (t, r)))).flatten
def branchIds (img : List Byte) : List Nat := (branches img).map (fun p => u16At p.2 (branchOff p.1))

def nodeNet (img : List Byte) (n : Nat) : Option Nat := (recByKey img 2 n).map (fun r => u8At r 2)
def zoneNet (img : List Byte) (z : Nat) : Option Nat := (recByKey img 10 z).map (fun r => u8At r 1)

/-! ### The checks of R136 -/

/-- What a check reports (R135): status, section, record, field, detail. -/
structure CheckRes where
  status : Nat
  section_ : Nat
  record : Nat
  field : Nat
  detail : Nat
  deriving DecidableEq, Repr, Inhabited

def checkOk : CheckRes := ⟨0, 0, 0xFFFFFFFF, 0xFFFF, 0⟩
def failAt (st sec record field : Nat) : Option CheckRes := some ⟨st, sec, record, field, 0⟩
def failBare (st : Nat) : Option CheckRes := some ⟨st, 0, 0xFFFFFFFF, 0xFFFF, 0⟩

/-- What the checks need besides the image: the order's length (none at start-up), the house id, the fused key hash, the
running revision (none: not checked), ALLOW_OLDER, the station contexts, the tariff tables that exist, the look-ahead step. -/
structure CheckEnv where
  orderLen : Option Nat
  house : Nat
  keyHash : List Byte
  running : Option Nat
  allowOlder : Bool
  contexts : List Nat
  tariffs : List Nat
  stepMs : Nat
  deriving DecidableEq, Repr, Inhabited

/-- BAD_HEADER. NAME is informational: no check of R136 names it, and the model accepts any bytes there, as in NAME of R116 and R128
(DESIGN CHOICE). -/
def chkHeader (img : List Byte) : Option CheckRes :=
  let bad (o : Nat) : Option CheckRes := failAt 0x01 0 0xFFFFFFFF o
  if img.length < 64 then bad 0
  else if u32At img 0 ≠ 0x4D5A504F then bad 0x00
  else if u16At img 4 ≠ 1 then bad 0x04
  else if u16At img 6 ≠ 64 then bad 0x06
  else if !zerosAt img 0x1A 2 then bad 0x14
  else if !zerosAt img 0x1C 4 then bad 0x1C
  else if !zerosAt img 0x30 12 then bad 0x30
  else if u32At img 0x3C ≠ (crc32c (img.take 60)).toNat then bad 0x3C
  else none

def dirBytes (img : List Byte) : Nat := ((imgDir img).map (fun d => d.size * d.count)).sum

def chkLength (e : CheckEnv) (img : List Byte) : Option CheckRes :=
  let want := e.orderLen.getD (64 + 16 * imgSections img + dirBytes img + 128)
  if imgLength img ≠ want || 2097152 < imgLength img || img.length < imgLength img then failAt 0x02 0 0xFFFFFFFF 0x10
  else none

/-- Each entry known, in ascending order, of the right record size, and following the section before it without a gap. -/
def chkDirFrom : Nat → Nat → Nat → List SecDir → Option CheckRes
  | _, _, _, [] => none
  | i, prevType, pos, d :: ds =>
    match secShape d.type with
    | none => failAt 0x03 d.type i 0
    | some (sz, _) =>
      if d.type ≤ prevType then failAt 0x03 d.type i 0
      else if d.size ≠ sz then failAt 0x03 d.type i 2
      else if d.off ≠ pos then failAt 0x03 d.type i 4
      else chkDirFrom (i + 1) d.type (pos + d.size * d.count) ds

def chkDirectory (img : List Byte) : Option CheckRes :=
  let ds := imgDir img
  if ds.length = 0 || 11 < ds.length then failAt 0x03 0 0xFFFFFFFF 0x0A
  else match chkDirFrom 0 0 (64 + 16 * ds.length) ds with
    | some r => some r
    | none =>
      if 64 + 16 * ds.length + dirBytes img + 128 ≠ imgLength img then failAt 0x03 0 0xFFFFFFFF 0xFFFF
      else match [1, 2, 10].find? (fun t => !ds.any (fun d => d.type == t && d.count != 0)) with
        | some t => failAt 0x03 t 0xFFFFFFFF 0xFFFF
        | none => none

def chkCrc (img : List Byte) : Option CheckRes :=
  match (imgDir img).find? (fun d =>
    d.crc != (if d.count = 0 then 0 else crc32c ((img.drop d.off).take (d.size * d.count)))) with
  | some d => failAt 0x04 d.type 0xFFFFFFFF 0xFFFF
  | none => none

def keyBytes (img : List Byte) : List Byte := (img.drop (img.length - 128)).take 64

/-- R133: the SHA-256 of KEY_X and KEY_Y is the fused hash. -/
def keyTrusted (keyHash img : List Byte) : Bool := 64 ≤ (keyBytes img).length && sha256 (keyBytes img) == keyHash

/-- R132: ECDSA P-256 over the SHA-256 of every byte up to the end of KEY_Y. -/
def signatureOk (img : List Byte) : Bool :=
  let t := img.drop (img.length - 128)
  ecdsaVerify (sha256 (img.take (img.length - 64))) (beNat (t.take 32)) (beNat ((t.drop 32).take 32))
    (beNat ((t.drop 64).take 32)) (beNat ((t.drop 96).take 32))

def chkRevision (e : CheckEnv) (img : List Byte) : Option CheckRes :=
  match e.running with
  | none => none
  | some r =>
    if imgRevision img = r || (imgRevision img < r && !e.allowOlder) then failAt 0x08 0 0xFFFFFFFF 0x0C else none

def chkLimits (img : List Byte) : Option CheckRes :=
  match (imgDir img).find? (fun d => (secShape d.type).any (fun s => s.2 < d.count)) with
  | some d => some ⟨0x09, d.type, 0xFFFFFFFF, 0xFFFF, d.count⟩
  | none => if 12288 < (branches img).length then some ⟨0x09, 0, 0xFFFFFFFF, 0xFFFF, (branches img).length⟩ else none

/-- The first place where a list does not ascend strictly. -/
def firstNotAscending : Nat → List Nat → Option Nat
  | i, a :: b :: l => if a < b then firstNotAscending (i + 1) (b :: l) else some (i + 1)
  | _, _ => none

/-- The first element that occurs earlier in the list. -/
def firstRepeat : List Nat → List Nat → Option Nat
  | _, [] => none
  | seen, a :: l => if seen.contains a then some a else firstRepeat (a :: seen) l

def chkDuplicates (img : List Byte) : Option CheckRes :=
  match (List.range 11).findSome? (fun i => (firstNotAscending 0 (keys img (i + 1))).map (fun r => (i + 1, r))) with
  | some (t, r) => failAt 0x0A t r 0
  | none => match firstRepeat [] (branchIds img) with
    | some b => some ⟨0x0A, 0, 0xFFFFFFFF, 0xFFFF, b⟩
    | none => none

/-- The fields of one record: each with its offset and whether it is right. The first wrong one is named. -/
def firstBad : List (Nat × Bool) → Option Nat
  | [] => none
  | (o, ok) :: l => if ok then firstBad l else some o

/-- Apply a record's field checks to every record of a section. -/
def chkRecords (img : List Byte) (st t : Nat) (f : List Byte → List (Nat × Bool)) : Option CheckRes :=
  ((recsOf img t).zipIdx.findSome? (fun p => (firstBad (f p.1)).map (fun o => (p.2, o)))).bind
    (fun p => failAt st t p.1 p.2)

def orNone8 (ok : Bool) (n : Nat) : Bool := n == 0xFF || ok
def orNone16 (ok : Bool) (n : Nat) : Bool := n == 0xFFFF || ok

/-- References of a record (DANGLING_REFERENCE), by section type. -/
def refsOf (e : CheckEnv) (img : List Byte) (t : Nat) (r : List Byte) : List (Nat × Bool) :=
  let node (o : Nat) : Nat × Bool := (o, (keys img 2).contains (u16At r o))
  let net (o : Nat) : Nat × Bool := (o, (keys img 1).contains (u8At r o))
  let zone (o : Nat) : Nat × Bool := (o, orNone8 ((keys img 10).contains (u8At r o)) (u8At r o))
  let loop (o : Nat) : Nat × Bool := (o, orNone16 (u16At r o < 512) (u16At r o))
  let br (o : Nat) : Nat × Bool := (o, (branchIds img).contains (u16At r o))
  match t with
  | 1 => [node 2]
  | 2 => [net 2, zone 0x14]
  | 3 => [node 2, node 4]
  | 4 => [node 2, node 4, loop 0x2C, zone 0x2E]
  | 5 => [node 2, node 4, zone 0x0E, loop 0x1C]
  | 6 => [node 2, node 4, (6, orNone16 (br 6).2 (u16At r 6))]
  | 7 => [(0, e.contexts.contains (u16At r 0)), node 4, node 6, net 8, (9, (keys img 10).contains (u8At r 9)),
          (0x24, u16At r 0x24 < 256), (0x26, orNone16 (u16At r 0x26 < 64) (u16At r 0x26))]
  | 8 => [net 2, node 6, node 8, (0x28, e.tariffs.contains (u8At r 0x28)),
          (0x29, orNone8 (u8At r 0x29 < 12) (u8At r 0x29))]
  | 9 => [net 1, node 4, node 6]
  | 10 => [net 1, node 0x18, node 0x1A]
  | 11 =>
    let k := u8At r 2
    let o := u16At r 4
    let obj :=
      if k = 0 || k = 1 || k = 2 then (keys img 2).contains o
      else if k = 3 || k = 6 then (branchIds img).contains o
      else if k = 4 then (valves img).any (fun v => u16At v 6 == o)
      else if k = 5 then (pumps img).any (fun v => u8At v 6 == o)
      else if k = 7 then (stores img).any (fun v => u8At v 0 == o / 16 && o % 16 < u8At v 2)
      else true
    let src :=
      let i := u16At r 8
      if u8At r 3 = 0 then e.contexts.contains i
      else if u8At r 3 = 1 then i < 256
      else if u8At r 3 = 2 then i < 64 else true
    [(4, obj), (6, if k = 1 then (keys img 2).contains (u16At r 6) else true), (8, src)]
  | _ => []

/-- A float32 field is valid (R113) and within [lo, hi]. -/
def fIn (lo hi x : F32) : Bool := fImageOk x && fLe lo x && fLe x hi
def fPos (x : F32) : Bool := fImageOk x && fLt 0 x
def fNonNeg (x : F32) : Bool := fImageOk x && fLe 0 x
def fOk (x : F32) : Bool := fImageOk x

/-- Non-decreasing from 0 to 1 (R122). -/
def tableOk (r : List Byte) : Bool :=
  let f (i : Nat) : F32 := f32At r (0x20 + 4 * i)
  (List.range 11).all (fun i => fOk (f i)) && (List.range 10).all (fun i => fLe (f i) (f (i + 1)))
    && fEq (f 0) 0 && fEq (f 10) fOne

/-- Ranges of a record (FIELD_RANGE), by section type (R116–R130). -/
def rangesOf (t : Nat) (r : List Byte) : List (Nat × Bool) :=
  let f (o : Nat) : F32 := fieldAt r o
  let fin (o : Nat) (lo hi : F32) : Nat × Bool := (o, fIn lo hi (f o))
  let pos (o : Nat) : Nat × Bool := (o, fPos (f o))
  let nneg (o : Nat) : Nat × Bool := (o, fNonNeg (f o))
  let any (o : Nat) : Nat × Bool := (o, fOk (f o))
  let z (o n : Nat) : Nat × Bool := (o, zerosAt r o n)
  let below (o n : Nat) : Nat × Bool := (o, u8At r o < n)
  let flags (o n : Nat) : Nat × Bool := (o, u8At r o < n)
  let br (o : Nat) : Nat × Bool := (o, u16At r o < 0x3000)
  match t with
  | 1 => [below 0 4, below 1 2, fin 4 (fc 100000 1) (fc 2500000 1), fin 8 (fc 23315 100) (fc 32315 100),
          fin 0xC (fc 27315 100) (fc 42315 100), fin 0x10 (fc 27315 100) (fc 42315 100)]
  | 2 => [(0, u16At r 0 < 0x2000), below 2 4, flags 3 4, (4, fIn (fNeg (fc 500 1)) (fc 3000 1) (f 4)), nneg 8,
          (0xC, fOk (f 0xC) && fLt (f 8) (f 0xC) && fLe (f 0xC) (fc 4000000 1)), nneg 0x10, z 0x15 3, nneg 0x18, z 0x1C 4]
  | 3 => [br 0, (6, u16At r 6 < 2), fin 8 (fc 1 10) (fc 20000 1), fin 0xC (fc 1 100) (fc 2 1), fin 0x10 0 (fc 1 100),
          fin 0x14 0 (fc 1000 1), fin 0x18 (fc 100 1) (fc 1500 1), fin 0x1C 0 (fc 10 1)]
  | 4 => [br 0, below 6 128, flags 7 4, fin 8 fOne (fc 300 1), nneg 0xC, pos 0x10, fin 0x14 (fc 10 1) (fc 1000 1),
          (0x18, fIn 0 fOne (f 0x18) && (u8At r 7 % 2 == 1 || fEq (f 0x18) (f 0x1C))),
          (0x1C, fOk (f 0x1C) && fLe (f 0x18) (f 0x1C) && fLe (f 0x1C) (fc 12 10)), pos 0x20,
          fin 0x24 (fc 5 100) fOne, pos 0x28, z 0x2F 1]
  | 5 => [br 0, (6, u16At r 6 < 512), pos 8, below 0xC 4, (0xD, u8At r 0xD < 3), z 0xF 1,
          (0x10, if u8At r 0xC = 1 then fIn (fc 10 1) (fc 100 1) (f 0x10) else fEq (f 0x10) 0),
          fin 0x14 fOne (fc 600 1), fin 0x18 0 (fc 5 100), z 0x1E 2,
          (0x20, if u8At r 0xC = 3 then tableOk r else (List.range 11).all (fun i => fEq (f (0x20 + 4 * i)) 0)), z 0x4C 4]
  | 6 => [br 0, pos 8, pos 0xC, pos 0x10, fin 0x14 0 fOne, any 0x18, z 0x1D 3]
  | 7 => [(0, u16At r 0 < 1024), br 2, below 8 4, below 9 64, (0xA, u16At r 0xA < 4), pos 0xC, pos 0x10, pos 0x14, pos 0x18,
          any 0x1C, pos 0x20, z 0x28 8]
  | 8 => [below 0 16, below 1 6, below 2 4, z 3 1, br 4, z 0xA 2, nneg 0xC,
          (0x10, fOk (f 0x10) && fLt (f 0xC) (f 0x10)), pos 0x14, any 0x18, (0x1C, fOk (f 0x1C) && fLt (f 0x18) (f 0x1C)),
          pos 0x20, (0x24, if u8At r 1 = 1 then fOk (f 0x24) else fEq (f 0x24) 0), z 0x2A 2, nneg 0x2C]
  | 9 => [below 0 32, below 1 4, (2, inB 1 16 (u8At r 2)), z 3 1, br 8, z 0xA 2, pos 0xC, pos 0x10, nneg 0x14, pos 0x18,
          pos 0x1C, nneg 0x20, any 0x24, any 0x28, any 0x2C]
  | 10 => [below 0 64, below 1 4, z 2 2, pos 4, pos 8, (0xC, (List.range 100).any (fun i => f 0xC == fc (i + 1) 1000)),
           pos 0x10, (0x14, fOk (f 0x14) && fLt (f 0x10) (f 0x14))]
  | 11 =>
    -- images and objects hold 64 bytes (R278, R586)
    let size := if u8At r 0xB = 0 then 4 else 2
    [(0, u16At r 0 < 2048), below 2 8, below 3 4, (6, u8At r 2 == 1 || u16At r 6 == 0xFFFF),
     (8, u8At r 3 != 3 || u16At r 8 == 0), (0xA, u8At r 0xA % size == 0 && (1 < u8At r 3 || u8At r 0xA + size ≤ 64)), below 0xB 3,
     z 0xE 2, pos 0x10, (0x14, fOk (f 0x14) && !fEq (f 0x14) 0), any 0x18, any 0x1C,
     (0x20, fOk (f 0x20) && fLt (f 0x1C) (f 0x20)), z 0x24 12]
  | _ => []

/-- The network of a branch by its id: that of its FROM node. -/
def branchNet (img : List Byte) (b : Nat) : Option Nat :=
  ((branches img).find? (fun p => u16At p.2 (branchOff p.1) == b)).bind (fun p => nodeNet img (u16At p.2 (fromOff p.1)))
/-- A node is on the RETURN side (R117). -/
def returnSide (img : List Byte) (n : Nat) : Bool := ((recByKey img 2 n).map (fun r => u8At r 3 % 2 == 1)).getD false

/-- Where a field's meaning says on which side or in which network its object lies (R123, R124); a field that breaks it violates its
range (DESIGN CHOICE: no check of R136 names these). -/
def placesOf (img : List Byte) (t : Nat) (r : List Byte) : List (Nat × Bool) :=
  match t with
  | 6 => [(6, orNone16 (branchNet img (u16At r 6) != nodeNet img (u16At r 2)) (u16At r 6))]
  | 7 => [(6, returnSide img (u16At r 6) && nodeNet img (u16At r 6) == nodeNet img (u16At r 4)),
          (8, nodeNet img (u16At r 4) == some (u8At r 8))]
  | _ => []

/-- REVISION is at least 1 (R108): 0 violates its range. -/
def chkRevRange (img : List Byte) : Option CheckRes := if imgRevision img = 0 then failAt 0x0C 0 0xFFFFFFFF 0x0C else none

def chkSections (img : List Byte) (st : Nat) (f : Nat → List Byte → List (Nat × Bool)) : Option CheckRes :=
  (List.range 11).findSome? (fun i => chkRecords img st (i + 1) (f (i + 1)))

/-! TOPOLOGY -/

/-- Nodes reached from those of a set over one more branch. -/
def growNodes (img : List Byte) (s : List Nat) : List Nat :=
  (branches img).foldl (fun s p =>
    let a := u16At p.2 (fromOff p.1)
    let b := u16At p.2 (toOff p.1)
    if s.contains a && !s.contains b then b :: s else if s.contains b && !s.contains a then a :: s else s) s
def reachNodes (img : List Byte) : Nat → List Nat → List Nat
  | 0, s => s
  | n + 1, s =>
    let s' := growNodes img s
    if s'.length = s.length then s else reachNodes img n s'

def holdNodes (img : List Byte) (net : Nat) : List Nat :=
  ((nodes img).filter (fun n => u8At n 2 == net && u8At n 3 / 2 % 2 == 1)).map (fun n => u16At n 0)

/-- The zone a record names, where it names one, and the network it must then lie in (R129). -/
def zoneFits (img : List Byte) (z : Nat) (net : Option Nat) : Bool := z == 0xFF || zoneNet img z == net

/-- TOPOLOGY. CRIT_SUPPLY and CRIT_RETURN of R128 need only exist: no check asks that they lie in the zone's network or on their
sides (DESIGN CHOICE). -/
def chkTopology (img : List Byte) : Option CheckRes :=
  let bad (t i o : Nat) : Option CheckRes := failAt 0x0D t i o
  let cross := (branchTypes.map (fun t => ((recsOf img t).zipIdx.map (fun p => (t, p.2, p.1))))).flatten.find? (fun x =>
    nodeNet img (u16At x.2.2 (fromOff x.1)) != nodeNet img (u16At x.2.2 (toOff x.1)))
  match cross with
  | some x => bad x.1 x.2.1 (fromOff x.1)
  | none =>
    match (networks img).zipIdx.find? (fun p => holdNodes img (u8At p.1 0) != [u16At p.1 2]) with
    | some p => bad 1 p.2 2
    | none =>
      let reach := reachNodes img (nodes img).length ((networks img).map (fun n => u16At n 2))
      match (nodes img).zipIdx.find? (fun p => !reach.contains (u16At p.1 0)) with
      | some p => bad 2 p.2 0
      | none =>
        match (nodes img).zipIdx.find? (fun p => !zoneFits img (u8At p.1 0x14) (some (u8At p.1 2))) with
        | some p => bad 2 p.2 0x14
        | none =>
          match (pumps img).zipIdx.find? (fun p => !zoneFits img (u8At p.1 0x2E) (nodeNet img (u16At p.1 2))) with
          | some p => bad 4 p.2 0x2E
          | none =>
            match (valves img).zipIdx.find? (fun p => !zoneFits img (u8At p.1 0x0E) (nodeNet img (u16At p.1 2))) with
            | some p => bad 5 p.2 0x0E
            | none =>
              match (stationRecs img).zipIdx.find? (fun p => !zoneFits img (u8At p.1 9) (some (u8At p.1 8))) with
              | some p => bad 7 p.2 9
              | none =>
                let noPlant (net : Option Nat) : Bool := !(plants img).any (fun r => some (u8At r 2) == net)
                match (pumps img).zipIdx.find? (fun p =>
                    u8At p.1 0x2E == 0xFF && u16At p.1 0x2C != 0xFFFF && noPlant (nodeNet img (u16At p.1 2))) with
                | some p => bad 4 p.2 0x2E
                | none =>
                  match (valves img).zipIdx.find? (fun p =>
                      u8At p.1 0x0E == 0xFF && u16At p.1 0x1C != 0xFFFF && noPlant (nodeNet img (u16At p.1 2))) with
                  | some p => bad 5 p.2 0x0E
                  | none => none

/-- Reaches of one pipe: ceil(LENGTH ÷ (WAVE × Δt)), at least 1 (R119). -/
def pipeReaches (stepMs : Nat) (r : List Byte) : Nat :=
  let a := fMag (f32At r 8) * 1000
  let b := fMag (f32At r 0x18) * stepMs
  if b = 0 then 1 else max 1 ((a + b - 1) / b)

/-- The house reach total (R119). -/
def reachTotal (stepMs : Nat) (img : List Byte) : Nat :=
  ((pipes img).map (pipeReaches stepMs)).sum + ((branches img).length - (pipes img).length)

/-- The reach total of one network (R199, R207). -/
def reachOfNet (stepMs net : Nat) (img : List Byte) : Nat :=
  ((branches img).map (fun p =>
    if nodeNet img (u16At p.2 (fromOff p.1)) == some net then (if p.1 = 3 then pipeReaches stepMs p.2 else 1) else 0)).sum

def chkReach (e : CheckEnv) (img : List Byte) : Option CheckRes :=
  let n := reachTotal e.stepMs img
  if 131072 < n then some ⟨0x0E, 0, 0xFFFFFFFF, 0xFFFF, n / 16⟩ else none

/-- The checks in the order of R136; the first that fails ends them. -/
def modelChecks (e : CheckEnv) (img : List Byte) : CheckRes :=
  ((chkHeader img).or <| (chkLength e img).or <| (chkDirectory img).or <| (chkCrc img).or <|
    (if keyTrusted e.keyHash img then none else failBare 0x05).or <|
    (if signatureOk img then none else failBare 0x06).or <|
    (if imgHouse img = e.house then none else failAt 0x07 0 0xFFFFFFFF 8).or <|
    (chkRevision e img).or <| (chkLimits img).or <| (chkDuplicates img).or <|
    (chkSections img 0x0B (refsOf e img)).or <| (chkRevRange img).or <|
    (chkSections img 0x0C (fun t r => rangesOf t r ++ placesOf img t r)).or <|
    (chkTopology img).or <| chkReach e img).getD checkOk

end Sys2Proof.Machine
end

