-- ==== Sys2Proof/Machine/Page.lean ====
section
/-! DEFINITION. The calibration page and the firmware image to the byte (R644, R651), and the ones a tablet is delivered with
(R701). -/

namespace Sys2Proof.Machine

open Sys2Proof

/-! ### The calibration page (R644) -/

def pageFloats : List Nat := (List.range 144).map (fun i => 0x30 + 4 * i) ++ [0x270, 0x274, 0x278]
  ++ (List.range 8).map (fun d => 0x280 + 4 * d)

/-- A valid page. -/
def pageOk (p : List Byte) : Bool :=
  p.length == 4096 && u32At p 0 == 0x435A504F && u16At p 4 == 1 && zerosAt p 7 1 && zerosAt p 0x0C 4 && zerosAt p 0x1E 2
    && zerosAt p 0x28 8 && zerosAt p 0x27C 4 && zerosAt p 0x2A0 3420 && pageFloats.all (fun o => fImageOk (f32At p o))
    && (crc32c (p.take 0xFFC)).toNat == u32At p 0xFFC

def pageSerial (p : List Byte) : Nat := leAt 8 p 0x10

/-- A page from its head fields and its constants, the bytes 0x030 to 0xFFB. -/
def mkPage (origin writes serial : Nat) (mac : List Byte) (written : Nat) (consts : List Byte) : List Byte :=
  let body := leBytes 4 0x435A504F ++ leBytes 2 1 ++ leBytes 1 origin ++ leBytes 1 0 ++ leBytes 4 writes ++ leBytes 4 0
    ++ leBytes 8 serial ++ (mac ++ List.replicate 6 0).take 6 ++ leBytes 2 0 ++ leBytes 8 written ++ leBytes 8 0
    ++ (consts ++ List.replicate 4044 0).take 4044
  body ++ leBytes 4 (crc32c body).toNat

/-- The constants 0x030 to 0x29F from their values. -/
def pageConsts (chans circs sense tofs : List F32) : List Byte :=
  ((chans ++ circs ++ sense ++ [(0 : F32)] ++ tofs).map (fun x => leBytes 4 x.toNat)).flatten

/-! ### Firmware images (R651, R652) -/

def fwRevision (img : List Byte) : Nat := u32At img 8

def fwHeaderOk (img : List Byte) : Bool :=
  64 ≤ img.length && u32At img 0 == 0x465A504F && u16At img 4 == 1 && u16At img 6 == 64 && fwRevision img != 0
    && zerosAt img 0x12 14 && zerosAt img 0x34 8 && (crc32c (img.take 0x3C)).toNat == u32At img 0x3C

/-- The checks of R652 in their order; 0, or the status of R656. -/
def fwChecks (vendor img : List Byte) (length : Nat) : Nat :=
  if !fwHeaderOk img then 1
  else if u32At img 0x0C ≠ length || img.length ≠ length || 16777216 < length || length < 192 then 2
  else if (crc32c ((img.take (length - 128)).drop 0x40)).toNat ≠ u32At img 0x30 then 3
  else if !keyTrusted vendor img then 4
  else if !signatureOk img then 5
  else 0

/-! ### The state at delivery (R701) -/

/-- The public key that stands in for the vendor's. -/
def vendorKey : List Byte := beBytes 32 p256G.1 ++ beBytes 32 p256G.2

/-- The firmware image that stands in for the delivered one: revision 1, an empty body. -/
def deliveredFw : List Byte :=
  leBytes 4 0x465A504F ++ leBytes 2 1 ++ leBytes 2 64 ++ leBytes 4 1 ++ leBytes 4 192 ++ leBytes 2 1 ++ List.replicate 14 0
    ++ List.replicate 16 0 ++ leBytes 4 0 ++ List.replicate 8 0 ++ leBytes 4 0x497B4EA8 ++ vendorKey
    ++ beBytes 32 0x7cf27b188d034f7e8a52380304b51ac3c08969e277f21b35a60b48fc47669978
    ++ beBytes 32 0xa003fa16be58bbb96432e93dd06eddbadefcecd2cb9098bb7a31366b5db294fe

/-- The factory page that stands in for the tablet's own: gains 1, offsets, phases and DECK_TOFS 0. -/
def factoryPage : List Byte :=
  mkPage 0 0 0 [] 0 (pageConsts (List.replicate 32 fOne ++ List.replicate 64 0)
    ((List.replicate 12 [fOne, 0, fOne, 0]).flatten) (List.replicate 3 fOne) (List.replicate 8 0))

end Sys2Proof.Machine
end

