-- ==== Sys2Proof/Machine/StCan.lean ====
section
/-! DEFINITION. The state of the field buses (spec/16_field_buses.md). -/

namespace Sys2Proof.Machine

open Sys2Proof

/-- FBUSb_TXk_STAT.STATE (R589). -/
inductive TxSt where
  | idle
  | queued
  | onWire
  | sent
  | failed
  | stranded
  | replaced
  | disabled
  deriving DecidableEq, Repr, Inhabited

/-- A receive object (R569–R571). `data` is empty for all zero; `at_` is the acquisition time (TAI ns). -/
structure RxObj where
  cfg : Option RxCfg
  data : List Byte
  len : Nat
  fd : Bool
  esi : Bool
  isNew : Bool
  lost : Bool
  overwrites : Nat
  at_ : Option Nat
  /-- S of R579 and the instant of the last accepted frame. -/
  seq : Option (Byte × Nat)
  deriving DecidableEq, Repr, Inhabited

/-- A transmit object (R574, R579, R589), with the safe data of TALLY_SAFE (R395). -/
structure TxObj where
  cfg : Option TxCfg
  data : List Byte
  seqCount : Byte
  st : TxSt
  cause : Nat
  requeued : Bool
  seq : Byte
  fails : Nat
  /-- The last period at which the object was handed over (R577). -/
  lastPer : Nat
  safe : List Byte
  sendOnStop : Bool
  deriving DecidableEq, Repr, Inhabited

/-- A frame handed over and not yet ended. `id` numbers the hand-overs of the bus. -/
structure BusFrame where
  id : Nat
  object : Nat
  data : List Byte
  seq : Byte
  handedAt : Nat
  onWire : Bool
  requeued : Bool
  ref : Option OrderRef
  deriving DecidableEq, Repr, Inhabited

/-- The host's read lock (R572): slot, data, status and stamp. -/
structure BusLock where
  slot : Nat
  data : List Byte
  stat : Word
  stamp : Word
  deriving DecidableEq, Repr, Inhabited

/-- ESTATE (R588). -/
inductive EState where
  | active
  | passive
  | busOff
  | recovering
  deriving DecidableEq, Repr, Inhabited

structure Bus where
  en : Enable
  estate : EState
  btErr : Bool
  tec : Nat
  rxe : Nat
  ackRun : Nat
  alone : Bool
  /-- Bus-off since when; whether the recovery was ordered. -/
  offAt : Nat
  ordered : Bool
  rxCnt : Word
  txCnt : Word
  unmatched : Word
  short : Word
  errCnt : Word
  busoffCnt : Word
  rx : List (Nat × RxObj)
  tx : List (Nat × TxObj)
  handed : Nat
  frames : List BusFrame
  /-- Stranded must-deliver frames that recovery re-queues (R583). -/
  stranded : List BusFrame
  lock : Option BusLock
  retired : Nat
  deriving DecidableEq, Repr, Inhabited

end Sys2Proof.Machine
end

