-- ==== Sys2Proof/Machine/StReck.lean ====
section
/-! DEFINITION. The state of the Reckoner and of the process-value area (spec/05_state_reckoning.md). -/

namespace Sys2Proof.Machine

open Sys2Proof

/-- A process-value entry (R172), with its acquisition time (TAI ns), of which STAMP is the low word. `flags`: bit 0 LIMIT, 1 SUBST,
2 REJECTED. -/
structure PvEntry where
  value : F32
  at_ : Nat
  quality : Quality
  flags : Nat
  solve : Half
  sigma : F32
  deriving DecidableEq, Repr, Inhabited

/-- What the input snapshot holds for one measurement (R146): the value used, its quality and acquisition time at the tick. -/
structure Sample where
  value : F32
  quality : Quality
  /-- TAI ns. -/
  at_ : Nat
  /-- Excluded by quality, age or range (R147, R131). -/
  excluded : Bool
  deriving DecidableEq, Repr, Inhabited

/-- What the Reckoner carries from solve to solve in its working numbers: heads, flows, closed check valves, demands by branch
(R154), node temperatures, the parcels of each pipe from FROM to TO as volume and temperature, the temperatures that branches
delivered, store layers by store × 16 + layer, return temperatures of stations by branch (R160–R162), and speeds and openings of
pumps and valves by branch. An element without an entry starts from its design value (R142). -/
structure RecNum where
  heads : List (Nat × Num)
  flows : List (Nat × Num)
  closed : List Nat
  demand : List (Nat × Num)
  nodeT : List (Nat × Num)
  parcels : List (Nat × List (Num × Num))
  outT : List (Nat × Num)
  layers : List (Nat × Num)
  stnT : List (Nat × Num)
  settings : List (Nat × Num)
  deriving DecidableEq, Repr, Inhabited

/-- What a solve takes at its tick beside the snapshot: the last outputs of the loops that pumps and valves name, the stations'
forecast profile values, by branch, and the plants' last supply temperature set-points by plant (R154, R161). -/
structure SolveIn where
  driven : List (Nat × F32)
  profile : List (Nat × F32)
  plantT : List (Nat × F32)
  deriving DecidableEq, Repr, Inhabited

/-- A solve under way (R164). -/
structure Solve where
  number : Nat
  /-- The tick: its TAI ns, and `State.now` at it. -/
  tickTai : Nat
  tickAt : Nat
  /-- The tick of the latest published state (TAI ns), 0 for none: the parcels stand as of it (R160). -/
  prevTick : Nat
  cold : Bool
  cfg : ReckonCfg
  snapshot : List (Nat × Sample)
  inputs : SolveIn
  deriving DecidableEq, Repr, Inhabited

/-- A state set (R170): its solve and its entries by index of the process-value area. -/
structure StateSet where
  number : Nat
  tickTai : Nat
  tickAt : Nat
  status : Nat
  revision : Nat
  entries : List (Nat × PvEntry)
  deriving DecidableEq, Repr, Inhabited

/-- A zone's mismatch runs (R159). -/
structure ZoneRun where
  above : Nat
  below : Nat
  raised : Bool
  deriving DecidableEq, Repr, Inhabited

structure Reckoner where
  en : Enable
  cfg : ReckonCfg
  /-- Cadence grid: no tick before this instant (R175). -/
  pendingCfg : Option ReckonCfg
  lastTick : Nat
  solves : Nat
  running : Option Solve
  /-- MEAS_PUT values: raw value, quality, acquisition time (TAI ns). -/
  hostMeas : List (Nat × F32 × Quality × Nat)
  /-- The mirrored input snapshot of a standby (R168): solve, tick, entries. -/
  mirrorSnap : Option (Nat × Nat × List (Nat × Sample))
  /-- The nine state sets, the latest, and the pins: who pins which set (R170). -/
  sets : List (Option StateSet)
  latest : Option Nat
  pins : List (Nat × Nat)
  status : List PvEntry
  lastStatus : Option Nat
  failRun : Nat
  skippedSince : Bool
  /-- Ticks skipped since start-up (R164). -/
  skips : Nat
  num : RecNum
  zoneRuns : List (Nat × ZoneRun)
  /-- When the latest STATE_QUERY was taken: it pins its set and runs until that instant is over (R177). -/
  queryAt : Option Nat
  deriving DecidableEq, Repr, Inhabited

end Sys2Proof.Machine
end

