-- ==== Sys2Proof/Machine/StLook.lean ====
section
/-! DEFINITION. The state of surge look-ahead (spec/06_surge_lookahead.md). -/

namespace Sys2Proof.Machine

open Sys2Proof

/-- A command that a run plays (R189): what it moves by its branch, its value, and its apply-at in ns from the tick. -/
structure PlayCmd where
  branch : Nat
  value : F32
  at_ : Nat
  deriving DecidableEq, Repr, Inhabited

/-- What a run starts from (R188, R189): the pinned state in working numbers, the commands it plays, and the set-points last
commanded to DP_CTRL stations before it, by branch. -/
structure LaStart where
  num : RecNum
  played : List PlayCmd
  dpSp : List (Nat × F32)
  deriving DecidableEq, Repr, Inhabited

/-- A run in progress (R188, R199). -/
structure LaRun where
  number : Nat
  rollout : Nat
  zone : Nat
  network : Nat
  /-- The pinned state: its solve, its status and the zone's residual in it (R195, R197). -/
  solve : Nat
  degraded : Bool
  resid : Option F32
  acceptedAt : Nat
  startedAt : Nat
  horizonMs : Nat
  start : LaStart
  cfg : LaCfg
  stopFirst : Bool
  queued : Bool
  restarted : Bool
  overrun : Bool
  deriving DecidableEq, Repr, Inhabited

/-- A submission that waits for a slot or for the grid (R200, R181). -/
structure LaWaiting where
  run : Nat
  rollout : Nat
  zone : Nat
  network : Nat
  acceptedAt : Nat
  /-- It waited for a free slot. -/
  queued : Bool
  deriving DecidableEq, Repr, Inhabited

/-- A breach entry (R198). -/
structure Breach where
  object : Nat
  reach : Nat
  kind : Nat
  zone : Nat
  duration : Nat
  first : Nat
  excess : F32
  deriving DecidableEq, Repr, Inhabited

/-- A verdict (R197) with its breach entries; verdict and reason are their codes. -/
structure Verdict where
  run : Nat
  rollout : Nat
  zone : Nat
  network : Nat
  verdict : Nat
  reason : Nat
  breaches : Nat
  flags : Nat
  solve : Nat
  resid : F32
  horizon : Nat
  step : Nat
  duration : Nat
  leastMargin : F32
  worst : Option Breach
  entries : List Breach
  deriving DecidableEq, Repr, Inhabited

structure LookAhead where
  en : Enable
  cfg : LaCfg
  runs : List LaRun
  queue : List LaWaiting
  count : Nat
  /-- The grid is being rebuilt, and why (R181). -/
  rebuilding : Option Nat
  /-- The 16 most recent verdicts, newest first. -/
  recent : List Verdict
  /-- Verdicts that the sequencer has not taken yet, oldest first. -/
  delivered : List Verdict
  /-- Runs that the sequencer has asked to withdraw (R201). -/
  withdrawals : List Nat
  retired : Nat
  refused : Nat
  superseded : Nat
  deriving DecidableEq, Repr, Inhabited

end Sys2Proof.Machine
end

