-- ==== Sys2Proof/Machine/StLoop.lean ====
section
/-! DEFINITION. The state of the loop engine (spec/10_loop_engine.md). -/

namespace Sys2Proof.Machine

open Sys2Proof

inductive LoopMode where
  | closed
  | opened
  | tracking
  deriving DecidableEq, Repr, Inhabited

/-- A second-order section (R331); `written`: LOOP_COEF has set its coefficients. -/
structure Section where
  written : Bool
  integ : Bool
  b0 : F32
  b1 : F32
  b2 : F32
  a1 : F32
  a2 : F32
  s1 : F32
  s2 : F32
  deriving DecidableEq, Repr, Inhabited

/-- A timed set-point (R341): its value, apply-at (TAI ns) and rollout id, 0 for an order. -/
structure TimedSp where
  value : F32
  applyAt : Nat
  rollout : Nat
  /-- Its apply-at had passed on arrival. -/
  late : Bool
  /-- When it was accepted (TAI ns): it applies to samples from then on (R342). -/
  since : Nat
  deriving DecidableEq, Repr, Inhabited

/-- A LOOP_MODE accepted while a sample's instant had passed and its output was still to come: it applies after that sample (R342). -/
structure LoopOrder where
  mode : LoopMode
  outMan : F32
  since : Nat
  deriving DecidableEq, Repr, Inhabited

structure Loop where
  /-- The 128-byte descriptor (R348). -/
  desc : List Byte
  en : Enable
  mode : LoopMode
  sections : List Section
  outMan : F32
  /-- The last output issued and the set-point in force. -/
  out : F32
  sp : F32
  queue : List TimedSp
  badCount : Nat
  pvBad : Bool
  forcedOpen : Bool
  limited : Bool
  coefMissing : Bool
  /-- The track value (R336). -/
  track : F32
  /-- Closes at its first sample after promotion (R345). -/
  promote : Bool
  /-- The first sample after promotion is awaited: LOOP_TAKEOVER waits for it (R345). -/
  first : Bool
  /-- Closes at its first sample with a usable PV (R346). -/
  startClose : Bool
  /-- LOOP_MODE CLOSED has been accepted: the next sample closes the loop (R335, R336). -/
  closing : Bool
  samples : Word
  latLast : Nat
  latMax : Nat
  latAll : Nat
  overCnt : Word
  missed : Word
  /-- The instant of the last sample (TAI ns), none before the first. -/
  lastAt : Option Nat
  /-- The instant of the last trigger taken or timed out, or of the enable (TAI ns). -/
  lastTrig : Nat
  /-- The latest usable position and the instant of its sample (R339). -/
  posPrev : Option (F32 × Nat)
  /-- A MODULATOR or FIELDBUS trigger that has not been taken. -/
  trig : Bool
  /-- The instant of the one sample that a QUIESCING loop still takes (R347). -/
  due : Option Nat
  /-- A mode order that waits for the sample whose instant had passed (R342). -/
  later : Option LoopOrder
  /-- The eight process values (R353). -/
  pv : List PvEntry
  deriving DecidableEq, Repr, Inhabited

/-- A trace under way (R352). -/
structure LoopTrace where
  ref : OrderRef
  loop : Nat
  count : Nat
  addr : Nat
  done : Nat
  deriving DecidableEq, Repr, Inhabited

/-- A friction or cogging table (R338, R340): its kind and 256 entries. -/
structure LoopTable where
  kind : Nat
  entries : List F32
  deriving DecidableEq, Repr, Inhabited

structure LoopEngine where
  loops : List (Nat × Loop)
  tables : List (Nat × LoopTable)
  trace : Option LoopTrace
  /-- Counts of LOOP_TAKEOVER, while some loop awaits its first sample (R345). -/
  takeUsable : Nat
  takeBad : Nat
  taking : Bool
  /-- Duty values handed over, and those of the PWM period under way (R330). -/
  pwmNext : List (Nat × F32)
  pwm : List (Nat × F32)
  deriving DecidableEq, Repr, Inhabited

end Sys2Proof.Machine
end

