-- ==== Sys2Proof/Machine/StMeter.lean ====
section
/-! DEFINITION. The state of line and heat metering (spec/12_metering.md). -/

namespace Sys2Proof.Machine

open Sys2Proof

/-- METER_CH_STAT.STATE (R446). -/
inductive ChSt where
  | off
  | acquire
  | locked
  | inactive
  | eyeClosed
  deriving DecidableEq, Repr, Inhabited

/-- How the next bit is framed after a tap step across the period boundary (R401): as before; one period later, since the tap went
from 15 to 0; or from the period at hand again, since it went from 0 to 15. -/
inductive BitFrame where
  | even
  | skip
  | again
  deriving DecidableEq, Repr, Inhabited

/-- The third-order sinc filter (R402): its integrators and what its combs hold. -/
structure Sinc3 where
  i1 : DWord
  i2 : DWord
  i3 : DWord
  p1 : DWord
  p2 : DWord
  p3 : DWord
  deriving DecidableEq, Repr, Inhabited

/-- A decimated sample (R402, R404): its stamp (TAI ns), x, whether it was produced LOCKED, unclipped and delivered, and whether it is
clipped. -/
structure ChanSample where
  at_ : Nat
  x : F32
  ok : Bool
  clip : Bool
  deriving DecidableEq, Repr, Inhabited

/-- A modulator channel (R399–R404). `repeats` of the acquisition; `crowded`: consecutive windows with early and late edges. -/
structure Chan where
  st : ChSt
  tap : Nat
  eye : Nat
  steps : Nat
  clipSel : Bool
  repeats : Nat
  crowded : Nat
  retryAt : Nat
  /-- The latest sample: x, its stamp (TAI ns), whether it is clipped. -/
  x : F32
  at_ : Option Nat
  clipped : Bool
  /-- The latest sample was produced LOCKED and delivered. -/
  good : Bool
  /-- The latest samples, the newest first: what the quantities of a cycle are computed from (R410). -/
  hist : List ChanSample
  /-- Decimated samples so far. -/
  count : Nat
  /-- When LOCKED was last entered and last left (TAI ns). -/
  lockedAt : Nat
  lostAt : Nat
  sinc : Sinc3
  frame : BitFrame
  /-- The period taken last, its bit, and how many consecutive bits have been equal to it (R399). -/
  lastWord : TapWord
  lastBit : Bool
  same : Nat
  /-- The gain register has not been written since a reset without a valid page (R405). -/
  uncal : Bool
  deriving DecidableEq, Repr, Inhabited

/-- A forward, reverse and net register with their remainders (R413–R415), counts modulo 2⁵⁶. A remainder counts parts of one LSB in
the unit of the owner's additions; the net register's has the sign of what is carried. -/
structure EReg where
  fwd : Nat
  rev : Nat
  net : Nat
  fwdRem : Nat
  revRem : Nat
  netRem : Int
  deriving DecidableEq, Repr, Inhabited

/-- A sag, swell or interruption under way (R424): start (TAI ns), half-cycles, extreme and its channel, FREE_RUN seen. -/
structure PqEvent where
  start : Nat
  halves : Nat
  extreme : F32
  channel : Nat
  free : Bool
  deriving DecidableEq, Repr, Inhabited

/-- A voltage set (R406–R409, R423, R424). -/
structure Vset where
  cfg : VsetCfg
  freeRun : Bool
  /-- FREE_RUN has been left, and its cycle in progress ends at the next crossing (R409). -/
  ending : Bool
  /-- End of the last cycle (TAI ns), 0 before the first has begun. -/
  lastEnd : Nat
  /-- The last positive-going crossing (TAI ns), and how many periods up to it have been in range. -/
  lastCross : Option Nat
  goodRun : Nat
  /-- When the set was configured (TAI ns), and its cycles since. -/
  since : Nat
  cycles : Nat
  /-- The half-cycle RMS of each voltage channel. -/
  halfRms : List F32
  sag : Option PqEvent
  swell : Option PqEvent
  int_ : Option PqEvent
  /-- The last half-cycle boundary and the one before it (TAI ns). -/
  half1 : Nat
  half2 : Nat
  deriving DecidableEq, Repr, Inhabited

/-- What a window of a circuit has gathered (R410, R420): cycles, duration in ns, RMS squares in units of 2⁻²⁹⁸, energies in units
of 2⁻¹⁴⁹ W·ns. -/
structure Window where
  cycles : Nat
  bad : Bool
  clip : Bool
  free : Bool
  uncal : Bool
  durNs : Nat
  sq : List Nat
  phaseE : List Int
  pE : Int
  qE : Int
  sE : Int
  thdV : F32
  thdI : F32
  harm : List (List F32)
  /-- Least and greatest half-cycle RMS of the reference channel in the window, and how many there were. -/
  least : F32
  greatest : F32
  halves : Nat
  deriving DecidableEq, Repr, Inhabited

/-- A circuit (R407, R413–R422). The copies are the 128-byte blocks of R442. -/
structure Circ where
  cfg : CircCfg
  en : Enable
  /-- Enabled since the set's last cycle end: the cycle under way is not its own (R436). -/
  waitCycle : Bool
  win : Window
  /-- Windows published, and the FLAGS, cycles and quality of the last one. -/
  windows : Nat
  flags : Nat
  cyc : Nat
  quality : Quality
  a : EReg
  qr : EReg
  sr : EReg
  /-- FAULT time in 10 ms units, and the ns below one. -/
  fault : Nat
  faultNs : Nat
  /-- End of the last cycle included (TAI ns). -/
  lastAt : Nat
  winCopy : Option (List Byte)
  tickCopy : Option (List Byte)
  billCopy : Option (List Byte)
  pv : List PvEntry
  harm : List (List PvEntry)
  /-- Metered by the twin: what is published comes from its mirror records (R435). -/
  mirrored : Bool
  deriving DecidableEq, Repr, Inhabited

/-- A heat point (R426, R427). `desc` is the 64-byte descriptor (R441); the copies are the 96-byte blocks of R442. -/
structure HeatPoint where
  desc : List Byte
  en : Enable
  e : EReg
  v : EReg
  fault : Nat
  faultNs : Nat
  /-- The latest sample was valid; true before the first. -/
  valid : Bool
  /-- The latest sample's instant; the one since the last enable or configuration that dt counts from; when the point was enabled
  (TAI ns). -/
  lastAt : Option Nat
  prev : Option Nat
  onAt : Nat
  pulses : Word
  power : F32
  flow : F32
  tsup : F32
  tret : F32
  quality : Quality
  tickCopy : Option (List Byte)
  billCopy : Option (List Byte)
  winCopy : Option (List Byte)
  pv : List PvEntry
  mirrored : Bool
  deriving DecidableEq, Repr, Inhabited

/-- The last METER record of a station's INDEX (R429, R430): the reading, the frame's AT (ns) and its arrival. -/
structure StnMeter where
  station : Nat
  index : Nat
  fwd : Nat
  rev : Nat
  vol : Nat
  at_ : Nat
  heard : Nat
  /-- The next record sets a new baseline (R430). -/
  baseline : Bool
  deriving DecidableEq, Repr, Inhabited

/-- An aggregate (0–63 zones, 64–67 networks, R429, R431). -/
structure HeatAgg where
  e : EReg
  v : EReg
  tickCopy : Option (List Byte)
  billCopy : Option (List Byte)
  /-- Net count at the previous billing copy. -/
  billNet : Nat
  /-- Stamp (TAI ns) of the last record added; quality, REPORTED and MISSING as last judged. -/
  lastAt : Nat
  quality : Quality
  reported : Nat
  missing : Nat
  pv : List PvEntry
  deriving DecidableEq, Repr, Inhabited

/-- An episode record of battery metering (R433). -/
structure Episode where
  start : Nat
  end_ : Nat
  channel : Nat
  peak : F32
  deriving DecidableEq, Repr, Inhabited

/-- Battery metering (R432–R434): the copies of METER_BATT_CTL, METER_BATT_THR and F60 and of the channels' gains and offsets taken
at the seal, the charge per channel in units of 2⁻¹⁴⁹ A·ns, bursts, episodes. -/
structure BattMeter where
  ctl : Word
  thr : F32
  f60 : Bool
  cals : List (Nat × F32 × F32)
  charge : List (Nat × Nat)
  bursts : Nat
  episodes : List Episode
  unrecorded : Nat
  /-- The episode under way and the runs of bursts above and below the threshold. -/
  open_ : Option Episode
  above : Nat
  below : Nat
  /-- The burst before, where it was above the threshold: its channel and RMS current. -/
  first : Option (Nat × F32)
  /-- The end of the burst period under way (ns). -/
  nextAt : Nat
  /-- Channels that did not lock, with the burst's battery-clock time (ns). -/
  faults : List (Nat × Nat)
  deriving DecidableEq, Repr, Inhabited

/-- The metering flash sector (R419): registers, remainders and FAULT times of circuits, points and aggregates. -/
structure MeterSave where
  circs : List (Nat × (EReg × EReg × EReg) × Nat × Nat)
  points : List (Nat × (EReg × EReg) × Nat × Nat)
  aggs : List (Nat × EReg × EReg)
  good : Bool
  deriving DecidableEq, Repr, Inhabited

structure Metering where
  chans : List Chan
  vsets : List (Nat × Vset)
  circs : List (Nat × Circ)
  points : List (Nat × HeatPoint)
  aggs : List (Nat × HeatAgg)
  stnMeters : List StnMeter
  billS : Nat
  waitS : Nat
  bill : Nat
  lastBill : Nat
  /-- The aggregates of this billing instant wait (R431): the instant. -/
  billDue : Option Nat
  tickNo : Nat
  pqSeq : Nat
  batt : BattMeter
  /-- The two copies of the flash sector, the newer first. -/
  saves : List MeterSave
  deriving DecidableEq, Repr, Inhabited

end Sys2Proof.Machine
end

