-- ==== Sys2Proof/Machine/StModel.lean ====
section
/-! DEFINITION. The state of the network model's slots and load (spec/04_network_model.md). -/

namespace Sys2Proof.Machine

open Sys2Proof

/-- A model slot: its content and its activation sequence, 0 for none (R137). -/
structure ModelSlot where
  bytes : List Byte
  seq : Nat
  deriving DecidableEq, Repr, Inhabited

/-- The stages of the load sequence: checking, writing the slot, waiting for the standby's verdict, waiting for the commit tick,
committed and waiting for the swap, swapped and waiting for its first solve. -/
inductive LoadStage where
  | checking
  | writing
  | mirroring
  | ready
  | committed
  | firstSolve
  deriving DecidableEq, Repr, Inhabited

structure ModelLoad where
  ref : OrderRef
  bytes : List Byte
  length : Nat
  validateOnly : Bool
  allowOlder : Bool
  forceTwin : Bool
  stage : LoadStage
  /-- The slot being written, and whether its read-back has failed once. -/
  slot : Nat
  retried : Bool
  /-- The standby has accepted the image, and has marked its slot (step 5). -/
  twinOk : Bool
  twinMarked : Bool
  /-- When the load became ready to commit, TAI ns: the commit is due at the next tick (step 5). -/
  readyAt : Nat
  deriving DecidableEq, Repr, Inhabited

structure ModelSt where
  slots : List ModelSlot
  load : Option ModelLoad
  /-- The running model: its slot and its content. -/
  runSlot : Option Nat
  run : List Byte
  /-- A model has been committed and waits for the swap (R141). -/
  swapDue : Bool
  /-- When the last solve, or the last restart of a Reckoner role, that a swap waits for ended (R141), TAI ns. -/
  clearAt : Nat
  /-- A first solve on the running model is awaited (step 7). -/
  coldNext : Bool
  /-- A model swapped in has not yet published its first solve (R145). -/
  firstDue : Bool
  /-- On a standby: the image received in parts, and the slot written and accepted (R136 step 4), until the active leaves its role
  (R140). -/
  mirrorIn : List Byte
  mirrorReady : Option Nat
  deriving DecidableEq, Repr, Inhabited

end Sys2Proof.Machine
end

