-- ==== Sys2Proof/Machine/StOpt.lean ====
section
/-! DEFINITION. The state of the dispatch optimiser (spec/07_dispatch_optimiser.md). -/

namespace Sys2Proof.Machine

open Sys2Proof

/-- A plan (R242, R243). -/
structure Plan where
  number : Nat
  status : Nat
  relax : Nat
  /-- TAI seconds of step 0. -/
  boundary : Nat
  solve : Nat
  flags : Nat
  items : List PlanItem
  iters : Nat
  durationUs : Nat
  objective : F32
  cost : F32
  carbon : F32
  unmet : F32
  handed : Nat
  withheld : Nat
  primal : F32
  /-- Every variable of the program that gave the plan, its own auxiliary amounts included, with its multiplier: what a warm start takes
  (R229). A mirrored plan has its items' (R238). -/
  duals : List PlanItem
  deriving DecidableEq, Repr, Inhabited

/-- The inputs a layer solve takes at its start and holds (R213): tables and profiles, the pinned state in working numbers, the bias of
each zone and of the electrical base load (R214), plant outputs in W, plants that may run (R216), the plants that are on with the
seconds they must still run (R225), each network's reckoned pipe loss and supply temperature, the day plan in force, the plan to
warm-start from with its boundary (none: cold, R229), and the guard of look-ahead. -/
structure OptIn where
  tariffs : List (Nat × List Byte)
  profiles : List (Nat × List Byte)
  num : RecNum
  bias : List (Nat × Num)
  elecBias : Num
  pNow : List (Nat × Num)
  permits : List Nat
  runLeft : List (Nat × Nat)
  loss : List (Nat × Num)
  supply : List (Nat × Num)
  dayPlan : Option (Nat × List PlanItem)
  warm : Option (Nat × List PlanItem)
  guard : F32
  deriving DecidableEq, Repr, Inhabited

/-- A layer solve under way, with the inputs taken at its start (R213): its plan number, boundary, start, the Reckoner solve and
the set it pins, the flags of R243 its inputs have set, the first table or profile index behind each, and the configuration. -/
structure LayerRun where
  number : Nat
  boundary : Nat
  startedAt : Nat
  solve : Nat
  flags : Nat
  edges : List (Nat × Nat)
  inp : OptIn
  cfg : OptCfg
  deriving DecidableEq, Repr, Inhabited

/-- A boundary that waits for its tick and its state (R209, R210): `tick` holds the tick's instant and the solve it started. -/
structure LayerDue where
  boundary : Nat
  tick : Option (Nat × Option Nat)
  deriving DecidableEq, Repr, Inhabited

structure LayerSt where
  plans : Nat
  /-- The latest boundary taken (R209), TAI seconds. -/
  lastBoundary : Nat
  due : Option LayerDue
  run : Option LayerRun
  plan : Option Plan
  /-- The next solve starts cold (R229, R237). -/
  coldNext : Bool
  /-- Consecutive INFEASIBLE or FAILED solves. -/
  fails : Nat
  skippedSince : Bool
  skips : Nat
  /-- The relaxation stage of the last plan published. -/
  lastRelax : Nat
  /-- The flags 1–4 of R243 that stand, each with a table or profile index (OPT_DATA_EDGE). -/
  edges : List (Nat × Nat)
  /-- PLAN_SUMMARY with SHED has been posted for this shedding (R237). -/
  shedTold : Bool
  deriving DecidableEq, Repr, Inhabited

structure Optimiser where
  en : Enable
  cfg : OptCfg
  /-- The tables and profiles as they were put, by index (R217, R220). -/
  tariffs : List (Nat × List Byte)
  profiles : List (Nat × List Byte)
  day : LayerSt
  pressure : LayerSt
  /-- The zones, plants and stores that the latest plan of each layer withholds items from (R234). -/
  withheldDay : List RollUnit
  withheldPressure : List RollUnit
  /-- The last bias of the electrical base load, none before the first: 1 (R213, R214). -/
  elecBias : Option Num
  /-- After promotion nothing is handed over until a pressure solve publishes (R238). -/
  holdHandover : Bool
  retired : Nat
  /-- The tick in which the pressure layer last handed changes over, and how many (R235). -/
  lastHand : Nat × Nat
  /-- When the latest PLAN_QUERY was taken: it runs until that instant is over (R241). -/
  queryAt : Option Nat
  deriving DecidableEq, Repr, Inhabited

end Sys2Proof.Machine
end

