-- ==== Sys2Proof/Machine/StFabric.lean ====
section
/-! DEFINITION. The state of the fabric (spec/02_clockless_fabric.md) and of the placement (spec/03_role_placement.md). -/

namespace Sys2Proof.Machine

open Sys2Proof

/-- FAB_DECKn_STAT.STATE (R76). -/
inductive DeckSt where
  | active
  | retention
  | waking
  | shedding
  | isolated
  | tripped
  deriving DecidableEq, Repr, Inhabited

/-- A deck: FAB_DECKn_STAT (R76) and what R55 to R61 make it remember. `rail` is in 5 mV above 0.45 V, `pace` in 5 million
operations/s, `temp` in quarter degrees above −64 °C. -/
structure Deck where
  st : DeckSt
  temp : Nat
  rail : Nat
  pace : Nat
  lastRail : Nat
  /-- Since when R57's conditions that the model sees have held. -/
  idleSince : Nat
  lastBacklog : Nat
  lastStep : Nat
  /-- What is held at the deck boundary, in arrival order (R59). -/
  held : List Arrival
  ceiling : Bool
  ceilingAt : Option Nat
  /-- Thermal shedding is in force, also while the deck sleeps (R61). -/
  hot : Bool
  shedSince : Nat
  deriving DecidableEq, Repr, Inhabited

/-- A crossing (R64–R68, R73), with its counts as they stood when it stopped. -/
structure Crossing where
  stopped : Bool
  void : Word
  late : Word
  merges : Word
  voidAtStop : Word
  lateAtStop : Word
  /-- Fabric-side requests completed so far, in their order (R68). -/
  done : Nat
  /-- Items that wait because the receiving side is full (R65). -/
  waiting : Nat
  /-- When a merging crossing took the event it carried last (R64, R66). -/
  tookAt : Option Nat
  deriving DecidableEq, Repr, Inhabited

structure Fabric where
  decks : List Deck
  crossings : List Crossing
  /-- Failed or isolated beads, rods and decks (R71). -/
  beadFail : List Nat
  rodFail : List Nat
  deckFail : List Nat
  frameLost : List Nat
  eccCe : Word
  eccUe : Word
  /-- Poisoned 64-byte lines: memory, level index, line (R52). -/
  poisoned : List (MemKind × Nat × Nat)
  /-- The scrubber's place: memory, level index, 64-bit word (R54). -/
  scrubMem : MemKind
  scrubIdx : Nat
  scrubWord : Nat
  /-- When the pass began, and that it has read every word. -/
  scrubSince : Nat
  scrubIdle : Bool
  /-- Levels passed over asleep, each with the word its scrub goes on from once its deck wakes. -/
  scrubOwed : List (MemKind × Nat × Nat)
  scan : Word
  xingTo : Word
  xingMrg : Word
  beamLost : Bool
  /-- The ambient of an OPZ4810-IE stands above +85 °C (R681), as the latest pace step found it. -/
  hot : Bool
  deriving DecidableEq, Repr, Inhabited

/-- The states of a directory entry (R82). -/
inductive RoleSt where
  | running
  | moving
  | replacing
  | retired
  deriving DecidableEq, Repr, Inhabited

/-- A move under way (R93–R97). After commit, `sweeps` lists the routers whose cache of the directory still holds the old bead and
whose sweep has not reached the stub; every other router's cache agrees with the directory (R82). -/
structure Move where
  from_ : Nat
  target : Nat
  cause : MoveCause
  started : Nat
  committed : Bool
  sweeps : List Nat
  /-- Tokens queued at the old bead while the role is frozen; forwarded by the stub and not yet delivered; direct tokens held at the
  new bead; and those held in their senders behind 32 of them (R95, R96). -/
  queued : List Token
  forwarding : List Token
  held : List Token
  withheld : List Token
  deriving DecidableEq, Repr, Inhabited

/-- A directory entry (R82) with the deck of the role's checkpoint (none: lost, R53) and its move. -/
structure Role where
  id : Half
  bead : Nat
  epoch : Half
  st : RoleSt
  ckpt : Option Nat
  move : Option Move
  /-- While REPLACING: the failed bead, since when, the tokens held at the routers, and those that were answered void and are re-sent
  once the role runs (R97, R101). -/
  failedBead : Nat
  since : Nat
  waiting : List Token
  resend : List Token
  /-- A retirement that waits for the drain fence (R99). -/
  retireAfter : Bool
  deriving DecidableEq, Repr, Inhabited

structure Placement where
  roles : List Role
  shiftEn : Enable
  abandoned : Nat
  unfit : Bool
  /-- Bead counts in force per kind 1–8 (R83). -/
  counts : List Nat
  /-- Counts ordered by PLACE_ALLOC for kinds 1–3 that wait for their engines' boundaries (R85). -/
  pendingAlloc : List (Nat × Nat)
  lastEval : Nat
  retiredDrop : Word
  /-- Tokens dropped per role id (R98). -/
  drops : List (Nat × Nat)
  deriving DecidableEq, Repr, Inhabited

end Sys2Proof.Machine
end

