-- ==== Sys2Proof/Machine/StHost.lean ====
section
/-! DEFINITION. The state of the host interface (spec/15_host_rings.md), of the events on their way (R554, R704) and of the
Notch Log (spec/17_notch_log.md), and the outputs that leave the tablet. -/

namespace Sys2Proof.Machine

open Sys2Proof

/-- A report entry of R530; `phase` and `dup` are FLAGS bits 0 and 1. -/
structure Report where
  kind : Nat
  tag : Half
  gen : Byte
  status : Nat
  ring : Nat
  phase : Bool
  dup : Bool
  stamp : Word
  user : Word
  body : List Fld
  deriving DecidableEq, Repr, Inhabited

/-- An order between its fetch and its completion (R534, R537). `rpt` is the report ring whose slot is reserved. -/
structure LiveOrder where
  tag : Half
  gen : Byte
  ring : Nat
  rpt : Nat
  user : Word
  opcode : Nat
  /-- FLAGS.FENCE of the entry (R528). -/
  fence : Bool
  /-- The second entry of a LINK order has not been fetched (R529). -/
  waitSecond : Bool
  /-- Handed to its function: its commit point (R549). -/
  handed : Bool
  /-- The function has taken it. -/
  started : Bool
  /-- Fetched before its ring was disabled without quiescing: its completion is discarded (R539, R551). -/
  dead : Bool
  deriving DecidableEq, Repr, Inhabited

/-- An order ring (R527, R549); its base, size and report ring stand in its registers. -/
structure OrdRing where
  en : Enable
  head : Word
  tail : Word
  /-- Orders retired with DISABLED since the disable (parameter of HQ_RING_STATE). -/
  retired : Nat
  /-- The next slot is the second entry of an order that ended before it was fetched (R529). -/
  orphan : Bool
  deriving DecidableEq, Repr, Inhabited

/-- A report ring (R527, R535, R543, R545). -/
structure RptRing where
  en : Enable
  head : Word
  tail : Word
  /-- Completions reserved by fetched orders (R535). -/
  reserved : Nat
  unsignalled : Nat
  /-- When the first unsignalled report was written (R543). -/
  coalSince : Nat
  drops : Word
  dropStamp : Word
  deriving DecidableEq, Repr, Inhabited

/-- A one-second report timer of R704: source, the name of the thing it runs for, the parameters before the count. -/
structure ReportTimer where
  src : Nat
  key : Nat
  pre : List Fld
  /-- The held counts; `two` where the event carries two. -/
  two : Bool
  held : Nat
  held2 : Nat
  due : Nat
  deriving DecidableEq, Repr, Inhabited

structure HostIf where
  linkUp : Bool
  flrSeen : Bool
  live : List LiveOrder
  ord : List OrdRing
  rpt : List RptRing
  lateCnt : Word
  dropCnt : Word
  sealedWr : Word
  err : Word
  rerr0 : Word
  rerr1 : Word
  lastErr : Word
  /-- MSI-X: function mask, per-vector masks and pending bits (R542). -/
  funcMask : Bool
  vecMask : Word
  vecPend : Word
  timers : List ReportTimer
  deriving DecidableEq, Repr, Inhabited

/-- An event record of R554 with its parameter list of R555; `tai` is the time in ns. -/
structure Event where
  source : Nat
  role : Nat
  epoch : Half
  seq : Word
  tai : Nat
  suppressed : Nat
  params : List Fld
  deriving DecidableEq, Repr, Inhabited

/-- A Notch Log record (R592), its CRC computed when it is appended (R599). -/
structure LogRec where
  event : Event
  captured : Bool
  queued : Bool
  snapRev : Nat
  snap : Nat
  /-- One of the log's own records, which take no place of the queue (R599). -/
  own : Bool
  /-- A record torn in its slot, or whose capture copy fails its CRC (R605). -/
  damaged : Bool
  deriving DecidableEq, Repr, Inhabited

/-- The states of R598. -/
inductive LogState where
  | starting
  | recording
  | frozen
  | draining
  | clearing
  | full
  deriving DecidableEq, Repr, Inhabited

/-- One snapshot slot of a source (R594). -/
structure SnapSlot where
  offset : Nat
  lsb : Nat
  width : Nat
  deriving DecidableEq, Repr, Inhabited

/-- A source's bucket and snapshot (R595, R597). Tokens are counted in units of 10⁻¹¹, so that RATE / 100 per second is RATE
units per nanosecond. `cfg`: the rate and burst an NLOG_SRC set, none for NLOG_DEF_RATE. -/
structure SrcState where
  cfg : Option (Nat × Nat)
  tokens : Nat
  updated : Nat
  sup : Nat
  cfgCount : Nat
  slots : List SnapSlot
  deriving DecidableEq, Repr, Inhabited

structure NLog where
  state : LogState
  /-- The written slots in ascending order, each with its stored CRC. -/
  slots : List (LogRec × Word)
  lastCrc : Word
  clears : Word
  clearMark : Bool
  /-- The write index before the clear under way (NLOG_CLEARED). -/
  clearFrom : Nat
  lost : Word
  fullDrop : Word
  suppr : Word
  queue : List LogRec
  /-- The store of 64 records in the battery domain (R604). -/
  capture : List LogRec
  captureLost : Nat
  /-- The power-fail warning has been raised: records go to the capture store (R604). -/
  capturing : Bool
  freezeDue : Option Nat
  /-- Records appended, and LOST at the freeze, of the freeze episode (R601). -/
  drained : Nat
  lostAtFreeze : Word
  drainCode : Nat
  sources : List (Nat × SrcState)
  /-- The capture store has not been appended since start-up (R605). -/
  captureDue : Bool
  /-- The battery-domain records of metering that wait for the log (R605 group 2). -/
  battRecs : List LogRec
  /-- SEQ of the next event (R554). -/
  seq : Word
  deriving DecidableEq, Repr, Inhabited

end Sys2Proof.Machine
end

