-- ==== Sys2Proof/Machine/StTime.lean ====
section
/-! DEFINITION. The state of the ring ports, the bypass legs and the time unit (spec/13_ring_bypass_time.md), of the twin
function (spec/14_twin_operation.md) and of the supplies, start-up and set-up (spec/20_supplies_startup_ratings.md,
spec/15_host_rings.md). -/

namespace Sys2Proof.Machine

open Sys2Proof

/-- A pool of identifiers with generations (R39, R40): identifiers below `next` have been used; `freed` holds the free ones
of them, least recently freed first, each with the generation of its last use. -/
structure IdPool where
  next : Nat
  freed : List (Nat × Nat)
  deriving DecidableEq, Repr, Inhabited

/-- The states of R469. -/
inductive TimeSt where
  | unlocked
  | acquiring
  | locked
  | holdover
  deriving DecidableEq, Repr, Inhabited

/-- TIME_STAT.SOURCE (R486). -/
inductive TimeSrc where
  | none
  | domA
  | domB
  | pps
  | rtc
  deriving DecidableEq, Repr, Inhabited

/-- A PTP domain as the time unit sees it (R469, R472). `rank` is the grandmaster's dataset in the order IEEE 1588 compares it,
lower first. -/
structure PtpDomain where
  qual : Bool
  rank : List Nat
  gmId : DWord
  announced : Nat
  /-- Domain time minus local clock, ns, as last measured. -/
  ofs : Int
  /-- The same against the free-running count, which no step or slew moves; none while nothing has been measured since the domain became
  qualified. -/
  base : Option Int
  /-- Since when domain A has been qualified and ranked at least equal (R473). -/
  goodSince : Option Nat
  utcOfs : Option Nat
  deriving DecidableEq, Repr, Inhabited

/-- An offset being slewed out (R466): how much since when at which rate, and whether it was above 1 µs at its start. -/
structure Slew where
  offset : Int
  since : Nat
  ppm : Nat
  big : Bool
  deriving DecidableEq, Repr, Inhabited

/-- An entry of a TX stamp queue (R478). -/
structure StampEntry where
  id : Nat
  gen : Nat
  tai : Nat
  deriving DecidableEq, Repr, Inhabited

/-- One port's TX stamp queue (R476–R478). `live` holds each live request with the instant it expires. -/
structure TxQueue where
  pool : IdPool
  live : List (Nat × Nat × Nat)
  entries : List StampEntry
  /-- Next entry to read; the next to write is `head + entries.length`. -/
  head : Nat
  drop : Word
  late : Word
  deriving DecidableEq, Repr, Inhabited

/-- An edge that the island has armed: its instant and its width, with the flags of the setting that armed it (R481). -/
structure ArmedEdge where
  at_ : Nat
  widthNs : Nat
  activeLow : Bool
  activeOnly : Bool
  deriving DecidableEq, Repr, Inhabited

/-- A timed output (R480–R482). -/
structure TOut where
  en : Enable
  periodic : Bool
  activeLow : Bool
  activeOnly : Bool
  /-- The scheduled instant of the next edge (TAI ns). -/
  next : Option Nat
  widthNs : Nat
  periodNs : Nat
  late : Bool
  /-- An edge of the replaced setting that stands because it was due within 2 µs (R481). -/
  stands : Option ArmedEdge
  deriving DecidableEq, Repr, Inhabited

structure TimeUnit where
  st : TimeSt
  src : TimeSrc
  firstLock : Bool
  domA : PtpDomain
  domB : PtpDomain
  /-- The domain the servo follows: true for domain B. -/
  onB : Bool
  /-- TIME_SELECT's forced domain: none for the automatic choice. -/
  forced : Option Bool
  ppsQual : Bool
  ppsLast : Option Nat
  slew : Option Slew
  disagree : Bool
  /-- Consecutive Syncs or edges with the offset below 100 ns (R469). -/
  goodSyncs : Nat
  holdSince : Option Nat
  holdLong : Bool
  acqStart : Nat
  acqHeld : Bool
  tod : Option Nat
  /-- The TAI second of the last PPS edge, where TIME_TOD has given one (R475). -/
  edgeSec : Option Nat
  /-- The PPS check of the slave-only role (R483), ns. -/
  ppsCheck : Int
  pdelayA : Word
  pdelayB : Word
  pdelayT : Word
  /-- The latest measurement of each port (R468). -/
  pdelayAt : List Nat
  latchCount : Word
  latchTai : Nat
  latchState : TimeSt
  txq : List TxQueue
  txqOvf : Word
  touts : List TOut
  rtcWritten : Nat
  deriving DecidableEq, Repr, Inhabited

/-- The duplicate-discard key of R450. -/
structure DupEntry where
  mac : Nat
  seq : Half
  heard : Nat
  deriving DecidableEq, Repr, Inhabited

structure Ring where
  en : Enable
  /-- RING_BYPASS has disabled the ring (R456). -/
  bypassed : Bool
  legsClosed : Bool
  legsSense : Bool
  /-- The latest comparison of R460. -/
  senseAt : Nat
  /-- Consecutive comparisons in which measured and driven states differ (R460). -/
  senseDiff : Nat
  ready : Bool
  readyAt : Nat
  /-- The ports have been declared ready since start-up, so RING_BYPASS can bring them back (R456, R459). -/
  portsUp : Bool
  /-- RING_BYPASS with BYPASS = 0 has been accepted since start-up (R457). -/
  bypassReleased : Bool
  linkA : Bool
  linkB : Bool
  spdA : Bool
  spdB : Bool
  /-- Since when both links have been down (R501). -/
  bothDownSince : Option Nat
  ringOpen : Bool
  /-- When the earliest own supervision frame left that has not come back on port A, on port B, since one last did (R454). -/
  owedA : Option Nat
  owedB : Option Nat
  /-- The last supervision frames (R450). -/
  supAt : Option Nat
  hsrSeq : Half
  dups : List DupEntry
  nodes : List (Nat × Nat)
  dupDrop : Word
  dupEvict : Word
  nodeFull : Word
  foreign : Word
  openCnt : Word
  framesRetired : Nat
  deriving DecidableEq, Repr, Inhabited

/-- The partner as its latest heartbeat shows it (R505). -/
structure Partner where
  role : TwinRole
  epoch : Half
  fit : Bool
  leaving : Bool
  resyncReq : Bool
  acked : Word
  modelRev : Word
  tallyRev : Word
  serial : Word
  /-- Arrival of the last heartbeat on the twin path and on the ring path. -/
  lastT : Option Nat
  lastR : Option Nat
  deriving DecidableEq, Repr, Inhabited

structure Twin where
  role : TwinRole
  en : Enable
  epoch : Half
  heard : Half
  /-- H of R31: the highest epoch of a twin frame that was accepted. -/
  accepted : Half
  partner : Option Partner
  pathT : Bool
  pathR : Bool
  /-- The silences that TWIN_PATH has reported and whose end it has not (R498). -/
  lostT : Bool
  lostR : Bool
  /-- Whether the partner's model and Tally revisions differed at its latest heartbeat (TWIN_MISMATCH). -/
  differs : Bool × Bool
  fit : Bool
  unsynced : Bool
  emitOk : Bool
  /-- HANDOVER and RESYNC_REQ of this tablet's heartbeats (R501, R507). -/
  handover : Bool
  resyncReq : Bool
  leaving : Bool
  hbSeqT : Word
  hbSeqR : Word
  /-- The latest heartbeats of R497. -/
  hbAt : Nat
  mirrorSeq : Word
  /-- Mirror records handed over, which RESYNC counts (R506). -/
  mirrorRecs : Word
  mirrorRx : Word
  lastMirror : Nat
  /-- A resync under way: its start and whether a gap has occurred since (R507). -/
  resyncSince : Option Nat
  resyncGap : Bool
  /-- Sequence of the latest resync's end record. -/
  resyncEnd : Word
  negSince : Option Nat
  e0 : Half
  storedEpoch : Half
  flashEpoch : Half
  /-- The instants of the latest adoptions of R504 and the end of the contest. -/
  adoptions : List Nat
  contestedUntil : Option Nat
  pathLostT : Word
  pathLostR : Word
  promotions : Word
  discards : Word
  deriving DecidableEq, Repr, Inhabited

/-- The reset causes of R686. -/
inductive ResetCause where
  | powerOn
  | rstPin
  | monitor
  | brownout
  | recovery
  deriving DecidableEq, Repr, Inhabited

structure Supply where
  /-- GLB_START.STEP: 0 before step 1, 12 after step 11 (R686). -/
  step : Nat
  cause : ResetCause
  startedAt : Nat
  elapsed : Nat
  vinMv : Nat
  vholdMv : Nat
  vbatMv : Nat
  energyMj : Nat
  /-- The latest refresh of R666. -/
  energyAt : Nat
  charging : Bool
  holdLow : Bool
  surge : Bool
  surgeSince : Nat
  vbatLow : Bool
  battLost : Bool
  /-- The hold-up sequence is running (R663, R667). -/
  holdUp : Bool
  rstLow : Bool
  pfCnt : Nat
  /-- The battery clock: its TAI minus `State.now`, none when lost (R674). -/
  battClock : Option Int
  /-- The flushes left incomplete by the last hold-up sequence: bit 0 Tally, bit 1 metering (R687, HOLD_SPENT). -/
  flushesLost : Nat
  /-- Whether the hold-up sequence under way makes the Tally flush and the metering write (R670). -/
  tallyFlush : Bool
  meterFlush : Bool
  pfwLow : Bool
  /-- Step 6 holds for want of a house id (R561). -/
  held6 : Bool
  deriving DecidableEq, Repr, Inhabited

/-- A set-up slot (R559): its image and its activation sequence, 0 for none. -/
structure SetupSlot where
  bytes : List Byte
  seq : Nat
  deriving DecidableEq, Repr, Inhabited

/-- A SETUP_LOAD that writes the slot not in use (R562). -/
structure SetupLoad where
  ref : OrderRef
  bytes : List Byte
  retried : Bool
  deriving DecidableEq, Repr, Inhabited

/-- The seal, the set-up slots and the application of the set-up image (R523–R526, R559, R562). -/
structure Setup where
  slots : List SetupSlot
  load : Option SetupLoad
  sealed : Bool
  sealBy : Nat
  loaded : Bool
  faults : Bool
  slot : Nat
  refused : Nat
  rev : Word
  /-- When SEAL_WAIT_S ends (R559). -/
  sealDue : Option Nat
  deriving DecidableEq, Repr, Inhabited

end Sys2Proof.Machine
end

