-- ==== Sys2Proof/Machine/StOut.lean ====
section
/-! DEFINITION. What leaves the tablet: the outputs a step appends to `State.out`. -/

namespace Sys2Proof.Machine

open Sys2Proof

/-- The acknowledges of R48. -/
inductive Ack where
  | normal
  | void
  | poison
  deriving DecidableEq, Repr, Inhabited

/-- A VLAN tag (R488). -/
structure Vlan where
  vid : Nat
  pcp : Nat
  deriving DecidableEq, Repr, Inhabited

/-- How a station frame is addressed (R281, R310): source and destination, their UDP ports, the don't-fragment bit of IPv4, the DSCP
value, the HSR sequence number under which it leaves on both ring ports (R309, R451), and the ring's VLAN tag (R488). -/
structure StnHdr where
  src : IpAddr
  dst : IpAddr
  srcPort : Nat
  dstPort : Nat
  dontFragment : Bool
  dscp : Nat
  hsr : Half
  vlan : Option Vlan
  deriving DecidableEq, Repr, Inhabited

/-- A PTP message that the tablet sends (R467, R475): all are two-step. -/
inductive PtpMsg where
  | pdelayReq
  | announce (domain clockClass : Nat)
  | sync (domain : Nat)
  /-- With the origin time (TAI ns) and the correction (ns). -/
  | followUp (domain origin : Nat) (correction : Int)
  deriving DecidableEq, Repr, Inhabited

/-- An output of the tablet. The list of outputs is the model's own field (assumption 5). -/
inductive Output where
  /-- A report written into report ring `ring` at tail index `index` (R530, R531). -/
  | report (ring index : Nat) (r : Report)
  /-- The shadow of ring `ring` (0–63), holding `index` (R533). -/
  | shadow (ring : Nat) (index : Word)
  /-- MSI-X vector (R542). -/
  | msix (vector : Nat)
  /-- Data written to host memory from `addr` on, for the order answered in the same step. -/
  | hostData (addr : Nat) (data : List Fld)
  /-- The acknowledge of a fabric token (R48), and of a memory access. -/
  | ack (t : Token) (a : Ack)
  | memAck (a : Ack)
  /-- The acknowledge of a fabric-side request on a crossing (R67). -/
  | xingAck (x : Nat) (a : Ack)
  /-- A router's fence-close token for a role (step 6 of the move). -/
  | fenceClose (role : Half)
  /-- A token forwarded by a stub to the role's new holder (R95). -/
  | forward (t : Token) (bead : Nat)
  /-- A host's Ethernet frame leaves port 0 Ring A, 1 Ring B, 2 twin port, 3 both ring ports (R479), on the ring with an HSR sequence and
  the ring's VLAN tag, on the twin port with neither. -/
  | frameTx (port : Nat) (ring : Option (Half × Option Vlan)) (bytes : List Byte)
  /-- A PTP message leaves a port; one that the tablet originates on the ring carries its HSR sequence, one that passes through keeps
  its own (R451, R467). -/
  | ptp (port : Nat) (hsr : Option Half) (m : PtpMsg)
  /-- The answer to an ARP request or a neighbour solicitation for one of the tablet's addresses, to the asker's MAC (R451). -/
  | neighbour (hsr : Half) (vlan : Option Vlan) (mac : Nat) (addr : IpAddr)
  /-- A received ring frame is forwarded by the other port, or taken up (R450). -/
  | ringForward (port : Nat)
  | ringUp (port : Nat)
  /-- The HSR supervision frames of both ports (R450). -/
  | supervision (seq : Half) (vlan : Option Vlan)
  /-- A pulse of a timed output: output, instant, width, active low (R480). -/
  | toutPulse (n at_ width : Nat) (activeLow : Bool)
  /-- A HEARTBEAT frame's fields on path 0 twin, 1 ring (R497, R505). -/
  | heartbeat (path : Nat) (fields : List Fld)
  /-- A mirror record handed to crossing 0x08: the sequence of its first frame, type, body (R505, R506). -/
  | mirror (seq : Word) (typ : Nat) (body : List Fld)
  /-- A twin frame that leaves (R505): the MAC address it goes to, and its payload; on the ring with an HSR sequence and the ring's VLAN tag, on the twin port with
  neither. -/
  | twinFrame (dest : Nat) (ring : Option (Half × Option Vlan)) (payload : List Byte)
  /-- A station frame handed to a ring transmit crossing (R281, R289). -/
  | stnFrame (station : Nat) (hdr : StnHdr) (bytes : List Byte)
  /-- A CAN frame starts arbitration won (R575): bus, object, payload. -/
  | canFrame (bus object : Nat) (bytes : List Byte)
  /-- A PWM output's duty for the period that starts (R330). -/
  | pwm (n : Nat) (duty : F32)
  /-- The levels of the output lines (R357, R380). -/
  | dio (levels : Word)
  /-- A panel line's subpixel currents in nA, at its address (R610, R611), the blanking of every line, and the switches. -/
  | panelLine (address : Nat) (nA : List F32)
  | panelBlank
  | panelSwitch (en dis : Bool)
  /-- The tag drives segments dark and segments clear, or stops (R623). -/
  | tagDrive (dark clear : DWord)
  | tagRest
  /-- What a read of BAR4 returns (R572). -/
  | barRead (offset : Nat) (value : Word)
  /-- A line of the monitor: its fields, then the final line, code 0 for OK (R641). -/
  | monLine (fields : List Fld)
  | monDone (code : Nat)
  /-- The tablet resets (R642, R663, R673). -/
  | reset
  /-- An item or event delivered over a crossing (R65, R66). -/
  | crossed (id : Nat)
  deriving DecidableEq, Repr, Inhabited

end Sys2Proof.Machine
end

