-- ==== Sys2Proof/Machine/StPanel.lean ====
section
/-! DEFINITION. The state of the operator panel and the status tag (spec/18_panel_and_tag.md), and of the service monitor, the
calibration page and the firmware banks (spec/19_service_monitor_calibration.md). -/

namespace Sys2Proof.Machine

open Sys2Proof

/-- PANEL_STAT.STATE (R631). -/
inductive PanelSt where
  | off
  | running
  | blanked
  | cracked
  deriving DecidableEq, Repr, Inhabited

/-- A staged rectangle that waits for its commit (R612). -/
structure Staged where
  ref : OrderRef
  rect : Rect
  data : List Byte
  deriving DecidableEq, Repr, Inhabited

/-- The panel. The frame buffer and the masks are memories in canonical form: byte (y × 480 + x) × 3 + primary of the frame
buffer, bit y × 480 + x of a mask. -/
structure Panel where
  en : Enable
  st : PanelSt
  buf : List Host.Cell
  mask0 : List Host.Cell
  mask1 : List Host.Cell
  /-- Dirty lines, ascending. -/
  dirty : List Nat
  staged : List Staged
  /-- The line being programmed, none between sweeps. -/
  sweepAt : Option Nat
  lines : Word
  clamps : Word
  sweeps : Word
  /-- Curves set by PANEL_CURVE (R611), none for the default curve. -/
  curve0 : Option (List Nat)
  curve1 : Option (List Nat)
  curve2 : Option (List Nat)
  /-- The planes' active state and half-period as last sampled (R615). -/
  act0 : Bool
  act1 : Bool
  half0 : Bool
  half1 : Bool
  refreshAt : Nat
  refreshLine : Nat
  /-- When the line in progress began (R610). -/
  lineAt : Nat
  /-- The half-period, counted from TAI second 0, at whose beginning each plane was last sampled (R615). -/
  blink0 : Option Nat
  blink1 : Option Nat
  /-- The latest update of the gains, write of the stress counters and reading of the crack loop (R616–R618). -/
  ageAt : Nat
  savedAt : Nat
  crackAt : Nat
  /-- What each programmed line holds: since when, and the currents of its subpixels in nA (R610, R611). -/
  held : List (Nat × Nat × List F32)
  /-- Current × time not yet in a stress counter, by block × 3 + primary, summed over subpixels in units of 2⁻¹⁴⁹ nA·ns. -/
  carried : List (Nat × Nat)
  /-- Stress counters by block × 3 + primary, and the gains set (R616). -/
  stress : List (Nat × Nat)
  gains : List (Nat × F32)
  ageLimit : Bool
  ageRaised : Bool
  /-- The two flash copies of the stress counters, the newer first, each with its CRC's state (R617). -/
  saves : List (List (Nat × Nat) × Bool)
  crackRun : Nat
  crackOpen : Bool
  /-- PNL_EN and PNL_DIS. -/
  pnlEn : Bool
  pnlDis : Bool
  deriving DecidableEq, Repr, Inhabited

/-- A tag update (R623); `fail`: the update of R626. -/
structure TagUpd where
  ref : Option OrderRef
  image : DWord
  full : Bool
  fail : Bool
  deriving DecidableEq, Repr, Inhabited

/-- TAG_STAT.PHASE (R623, R633). -/
inductive TagPhase where
  | idle
  | check
  | mark
  | drive
  | unmark
  | rest
  deriving DecidableEq, Repr, Inhabited

structure Tag where
  en : Enable
  phase : TagPhase
  phaseAt : Nat
  /-- PULSE_MS of the running update. -/
  pulse : Nat
  run : Option TagUpd
  wait : Option TagUpd
  interrupted : Bool
  energyLow : Bool
  updates : Nat
  required : Nat
  measured : Nat
  /-- The battery domain's tag region (R674): in-progress flag, image last completed, image requested. -/
  flag : Bool
  shown : DWord
  wanted : DWord
  /-- The power-fail warning has been raised (R626). -/
  powerFail : Bool
  /-- The segments of the strip as they stand. -/
  segs : DWord
  deriving DecidableEq, Repr, Inhabited

/-- The monitor's access levels (R638). -/
inductive SvcLevel where
  | off
  | view
  | service
  deriving DecidableEq, Repr, Inhabited

/-- What a D-line transfer is for (R642). -/
inductive XferKind where
  | page
  | firmware (length : Nat)
  deriving DecidableEq, Repr, Inhabited

structure Svc where
  level : SvcLevel
  strap : Bool
  lockout : Option Nat
  /-- Wrong codes since reset, and consecutive ones (R639, R658). -/
  badCodes : Nat
  badRun : Nat
  lastCmd : Nat
  code : Word
  xfer : Option (XferKind × List Byte)
  /-- KEYFUSE's first line: the hash and the confirmation number. -/
  keyfuse : Option (List Byte × Nat)
  deriving DecidableEq, Repr, Inhabited

/-- A page write past its energy check (R648): its source, the page, ORIGIN, the old CRC, a read-back that has failed once. -/
structure PageWrite where
  src : SvcSrc
  page : List Byte
  origin : Nat
  oldCrc : Word
  retried : Bool
  deriving DecidableEq, Repr, Inhabited

structure Calib where
  page : List Byte
  write : Option PageWrite
  /-- CAL_STAT and the CAL_WRITTEN registers as loaded at reset or at the last write. -/
  valid : Bool
  /-- Writes of the sector since manufacture (R644). -/
  writes : Nat
  /-- SENSE and DECK_TOFS as loaded at reset (R646). -/
  sense : List F32
  tofs : List F32
  deriving DecidableEq, Repr, Inhabited

/-- A firmware bank (R651–R653). -/
structure FwBank where
  bytes : List Byte
  seq : Nat
  trial : Bool
  bad : Bool
  deriving DecidableEq, Repr, Inhabited

structure FwLoad where
  src : SvcSrc
  bytes : List Byte
  activate : Bool
  deriving DecidableEq, Repr, Inhabited

structure Firmware where
  banks : List FwBank
  running : Option Nat
  load : Option FwLoad
  fallback : Bool
  recovery : Bool
  deriving DecidableEq, Repr, Inhabited

/-- The fuses (R635, R645): the house key hash (empty: not fused), the vendor key hash, serial and MAC. -/
structure Fuses where
  house : List Byte
  vendor : List Byte
  serial : DWord
  mac : List Byte
  deriving DecidableEq, Repr, Inhabited

end Sys2Proof.Machine
end

