-- ==== Sys2Proof/Machine/StRoll.lean ====
section
/-! DEFINITION. The state of the rollout sequencer (spec/08_rollouts.md). -/

namespace Sys2Proof.Machine

open Sys2Proof

/-- The receivers of commands (R245, R274). -/
inductive Receiver where
  | station (id : Nat)
  | loop (n : Nat)
  | bus (b obj : Nat)
  deriving DecidableEq, Repr, Inhabited

/-- What has become of a command of a schedule: not sent, sent, withdrawn, refused (counts as never sent), not sent because its
station was OFFLINE (R267), or retired with status DISABLED before its frame was sent (R318). -/
inductive CmdSt where
  | new
  | sent
  | withdrawn
  | refused
  | skipped
  | disabled
  deriving DecidableEq, Repr, Inhabited

/-- A command of a schedule (R248): item kind and object (R242), receiver, value, apply-at (TAI ns), the sequence it was sent with. -/
structure RollCmd where
  kind : Nat
  object : Nat
  recv : Receiver
  value : F32
  applyAt : Nat
  seq : Word
  st : CmdSt
  late : Bool
  deriving DecidableEq, Repr, Inhabited

structure RollItem where
  kind : Nat
  object : Nat
  target : F32
  deriving DecidableEq, Repr, Inhabited

/-- The states of R260. -/
inductive RollSt where
  | queued
  | vetting
  | released
  | done
  | superseded
  | held
  | retired
  deriving DecidableEq, Repr, Inhabited

structure Rollout where
  id : Nat
  unit : RollUnit
  plan : Nat
  items : List RollItem
  /-- LAST of each item: the value last commanded when the schedule was last built (R248, R506). -/
  lasts : List F32
  cfg : RollCfg
  st : RollSt
  reason : Nat
  submits : Nat
  slow : Bool
  shifted : Bool
  reshaped : Bool
  supersedes : Bool
  twinContinued : Bool
  withheld : Bool
  /-- The run of the last verdict; the run of the submission that is out; a submission not yet taken by look-ahead. -/
  run : Nat
  pend : Option Nat
  submitted : Bool
  a1 : Option Nat
  stageMs : Nat
  staggerMs : Nat
  reshapes : Nat
  /-- The submission out was shifted (R258). -/
  afterShift : Bool
  cmds : List RollCmd
  stages : Nat
  stations : List Nat
  offline : List Nat
  /-- Stations that went OFFLINE while the rollout was RELEASED (R267). -/
  dropped : List Nat
  sent : Nat
  withdrawn : Nat
  pending : Nat
  late : Nat
  successor : Nat
  handedAt : Nat
  zone : Nat
  net : Nat
  deriving DecidableEq, Repr, Inhabited

/-- A command sent, for the last commanded values (R248) and for what stations report of it (R262). `alive`: not withdrawn and not
refused. -/
structure SentCmd where
  recv : Receiver
  kind : Nat
  object : Nat
  value : F32
  rollout : Nat
  seq : Word
  applyAt : Nat
  alive : Bool
  /-- Withdrawn by a cancel record (R262). -/
  cancelled : Bool
  /-- Counted as LATE (R252). -/
  late : Bool
  deriving DecidableEq, Repr, Inhabited

structure Roll where
  en : Enable
  cfg : RollCfg
  dests : List RollDest
  holds : List RollUnit
  nextId : Nat
  /-- Changes handed over and not yet taken, in order (R233, R235). -/
  incoming : List Change
  /-- The rollouts that have not ended, in hand-over order. -/
  rolls : List Rollout
  /-- Commands sent, oldest first. -/
  hist : List SentCmd
  /-- What a receiver held when the first command was sent to it (R248, R296). -/
  bases : List (Receiver × F32)
  /-- The mirrored rollouts of a standby (R269). -/
  mirror : List Rollout
  retired : Nat
  deriving DecidableEq, Repr, Inhabited

end Sys2Proof.Machine
end

