-- ==== Sys2Proof/Machine/StStn.lean ====
section
/-! DEFINITION. The state of station exchange (spec/09_station_exchange.md). -/

namespace Sys2Proof.Machine

open Sys2Proof

/-- The states of R279. -/
inductive CtxSt where
  | online
  | stale
  | offline
  | returning
  | disabled
  deriving DecidableEq, Repr, Inhabited

/-- A tablet-to-station frame before it is given its epoch, tag and attempt (R283): its kind and its records. OUTPUT and RESYNC
carry the image as it stands when they are sent. -/
inductive StnFrame where
  | command (sets : List (Nat × F32)) (applyAt : Nat)
  | output
  | resync
  | request (what : Nat)
  | cancel (targets : List Word)
  deriving DecidableEq, Repr, Inhabited

/-- A frame in a context's send order: a new one, or the retry of the transaction `retry` (R289, R297). -/
structure Waiting where
  seq : Word
  frame : StnFrame
  retry : Option (Nat × Nat)
  deriving DecidableEq, Repr, Inhabited

/-- A transaction in flight (R294). `sentAt` is none while its retry waits. -/
structure Txn where
  tag : Nat
  gen : Nat
  seq : Word
  frame : StnFrame
  attempt : Nat
  sentAt : Option Nat
  /-- The output image as it stood at the first sending, which a retry carries again (R297). -/
  image : List Byte
  deriving DecidableEq, Repr, Inhabited

/-- A station context (R278). -/
structure Ctx where
  cfg : StnCtxCfg
  /-- A change of ADDR, RPORT or QDEPTH that waits for the context to be DISABLED (R320). -/
  newCfg : Option StnCtxCfg
  en : Enable
  st : CtxSt
  inImg : List Byte
  outImg : List Byte
  safeImg : List Byte
  declared : Quality
  /-- Acquisition time of the input image (TAI ns), none before the first. -/
  acq : Option Nat
  nosync : Bool
  safe : Bool
  boot : Nat
  pending : Bool
  /-- The last send sequence, none before the first use (R289). -/
  txSeq : Option Word
  /-- Highest accepted station sequence, and the window's sequences, empty when emptied (R291). -/
  rxSeq : Word
  rxWin : List Word
  order : List Waiting
  txns : List Txn
  /-- Apply-ats of the timed commands sent (R303). -/
  outstanding : List Nat
  /-- Instants of the frames handed over (R289). -/
  sentAt : List Nat
  lastImage : Option Nat
  lastRx : Word
  offSince : Nat
  retSince : Nat
  /-- The writers that have completed a fresh cycle (R314 step 2). -/
  retDone : List Nat
  noackRun : Nat
  offlineCount : Nat
  noackCount : Nat
  discards : Word
  lateReplies : Word
  /-- Frames retired since the disable, and its instant (R318). -/
  retired : Nat
  quiSince : Nat
  deriving DecidableEq, Repr, Inhabited

structure StnX where
  cfg : StnCfg
  ctxs : List Ctx
  pool : IdPool
  /-- Since when all 2 048 transactions are in flight (R294). -/
  tagWaitSince : Option Nat
  houseDiscards : Word
  deriving DecidableEq, Repr, Inhabited

end Sys2Proof.Machine
end

