-- ==== Sys2Proof/Machine/StTally.lean ====
section
/-! DEFINITION. The state of the Logic Tally (spec/11_logic_tally.md). Memory areas are sparse: cells by byte address, ascending,
without zero bytes. -/

namespace Sys2Proof.Machine

open Sys2Proof

/-- A task table entry (R386). -/
structure TaskDef where
  kind : Nat
  prio : Nat
  entry : Nat
  param : Nat
  budgetUs : Nat
  deriving DecidableEq, Repr, Inhabited

/-- An instance record (R387). -/
structure InstDef where
  area : Nat
  kind : Nat
  inst : Nat
  preset : Word
  deriving DecidableEq, Repr, Inhabited

structure RetainDef where
  area : Nat
  start : Nat
  length : Nat
  deriving DecidableEq, Repr, Inhabited

/-- A module a task copies at its start (R374). -/
inductive TMod where
  | dio
  | station (id : Nat)
  | rx (bus obj : Nat)
  deriving DecidableEq, Repr, Inhabited

/-- A program as its image gives it (R385–R387), with the read set of each task and the writers of each station (R374, R313). -/
structure Prog where
  revision : Nat
  tasks : List TaskDef
  insts : List InstDef
  retains : List RetainDef
  inits : List (Nat × Word)
  code : List Word
  reads : List (List TMod)
  writers : List (Nat × List Nat)
  deriving DecidableEq, Repr, Inhabited

/-- A timer (R358, R366). `frac`: the part of dt below 1 ms, in ns; `last`: the release or start instant of its last evaluation. -/
structure Timer where
  elapsed : Nat
  preset : Nat
  q : Bool
  running : Bool
  inPrev : Bool
  frac : Nat
  last : Option Nat
  deriving DecidableEq, Repr, Inhabited

structure Counter where
  count : Word
  preset : Word
  q : Bool
  inPrev : Bool
  /-- The input that CTU and CTD each judge their rise by: an UPDOWN counter takes both steps in one cycle (R368). -/
  upPrev : Bool
  downPrev : Bool
  deriving DecidableEq, Repr, Inhabited

/-- An edge detector; `known` once PREV has taken an input (R368). -/
structure Edge where
  prev : Bool
  out : Bool
  known : Bool
  deriving DecidableEq, Repr, Inhabited

/-- A module's copy: bytes, quality, acquisition time and age at step 2 (R374, R377). -/
structure ModCopy where
  bytes : List Byte
  quality : Quality
  at_ : Nat
  aged : Bool
  deriving DecidableEq, Repr, Inhabited

/-- A task (R359, R369–R375). -/
structure TaskSt where
  /-- The pending release: its instant (TAI ns) and when it came (State.now). -/
  rel : Option (Nat × Nat)
  /-- A cycle is under way. -/
  started : Bool
  stack : List Bool
  w : Word
  pc : Nat
  /-- The cycle's release instant and start stamp (TAI ns), its start by State.now. -/
  relAt : Nat
  startTai : Nat
  startAt : Nat
  /-- Time spent in the cycle before `runFrom`; since when it runs, none while pre-empted. -/
  spent : Nat
  runFrom : Option Nat
  copies : List (TMod × ModCopy)
  /-- The change set: area, byte address, mask, value. -/
  writes : List (Nat × Nat × Byte × Byte)
  /-- Marker bits and data words written by the cycle. -/
  pubBits : List Nat
  pubWords : List Nat
  /-- Instances evaluated or written by the cycle: area and number. -/
  touched : List (Nat × Nat)
  lastPer : Nat
  cycles : Word
  execLast : Nat
  execMax : Nat
  merged : Nat
  arith : Nat
  deriving DecidableEq, Repr, Inhabited

inductive TallyRun where
  | stopped
  | running
  | exchanging
  deriving DecidableEq, Repr, Inhabited

/-- A bank (R389): its image and its activation sequence, 0 for none. -/
structure Bank where
  bytes : List Byte
  seq : Nat
  deriving DecidableEq, Repr, Inhabited

/-- The stages of a TALLY_LOAD: waiting for the standby's verdict, writing the bank. -/
inductive TLoadStage where
  | mirroring
  | writing
  deriving DecidableEq, Repr, Inhabited

structure TallyLoad where
  ref : OrderRef
  bytes : List Byte
  forceTwin : Bool
  stage : TLoadStage
  retried : Bool
  deriving DecidableEq, Repr, Inhabited

/-- An exchange under way (R390). -/
structure Exchange where
  ref : OrderRef
  since : Nat
  deriving DecidableEq, Repr, Inhabited

/-- The retentive flash sector (R382): area, address and byte of the retained ranges, the CRC stored, the part-way tasks. -/
structure Retentive where
  cells : List (Nat × Nat × Byte)
  crc : Word
  partWay : Nat
  deriving DecidableEq, Repr, Inhabited

structure Tally where
  en : Enable
  run : TallyRun
  cfg : TallyCfg
  prog : Option Prog
  bank : Nat
  banks : List Bank
  /-- A checked image waits in the other bank. -/
  loaded : Bool
  load : Option TallyLoad
  exch : Option Exchange
  tasks : List TaskSt
  markers : List Host.Cell
  words : List Host.Cell
  pubMarkers : List Host.Cell
  pubWords : List Host.Cell
  timers : List (Nat × Timer)
  counters : List (Nat × Counter)
  edges : List (Nat × Edge)
  /-- The committed local outputs, the levels and the rising-edge counts of the lines (R357). -/
  outImg : Word
  dioIn : Word
  dioCount : List (Nat × Word)
  /-- The quadrature counts of the line pairs, by their even line: the latest changes, each with its instant (TAI ns), the newest first
  (R327). -/
  quad : List (Nat × List (Nat × Word))
  stopCause : Nat
  stopIndex : Nat
  stopStamp : Word
  flash : Option Retentive
  quiesced : Nat
  /-- Mode of the last restart: 0 warm, 1 cold (R383). -/
  mode : Nat
  /-- The last mirrored commit on a standby (R393), and images received in parts. -/
  lastMirror : Nat
  mirrorIn : List Byte
  deriving DecidableEq, Repr, Inhabited

end Sys2Proof.Machine
end

