-- ==== Sys2Proof/Machine/State.lean ====
section
/-! DEFINITION. The state of the tablet as plain data, its faults and refusals, and the state right after reset. -/

namespace Sys2Proof.Machine

open Sys2Proof

/-- Faults: none of the spec's behaviours stops the tablet, so no meaning raises one; the constructor stands for a word of the
command queue that no step can take, and nothing raises it. Safe. -/
inductive Fault where
  /-- Raised by no step. Safe. -/
  | unreachable
  deriving DecidableEq, Repr, Inhabited

/-- Refusals. -/
inductive Refusal where
  /-- Raised by an arm of `exec` whose command has no meaning yet. Safe. -/
  | notModelled (mnemonic : String)
  deriving DecidableEq, Repr, Inhabited

structure State where
  /-- Time since manufacture in ns, the model's own measure: every interval is a difference of it. -/
  now : Nat
  /-- The local clock (R462) minus `now`, without a slew in progress. -/
  clockOfs : Int
  /-- How many free values have been taken: the model's own field. -/
  freeCnt : Nat
  /-- BAR0 words that hold something else than their reset value, by offset, ascending (R16, R522). -/
  regs : List (Nat × Word)
  fuses : Fuses
  host : HostIf
  nlog : NLog
  time : TimeUnit
  ring : Ring
  twin : Twin
  sup : Supply
  setup : Setup
  fab : Fabric
  place : Placement
  model : ModelSt
  reck : Reckoner
  la : LookAhead
  opt : Optimiser
  roll : Roll
  stn : StnX
  loops : LoopEngine
  tally : Tally
  meter : Metering
  can : List Bus
  panel : Panel
  tag : Tag
  svc : Svc
  cal : Calib
  fw : Firmware
  /-- What has left the tablet, oldest first: the model's own field. -/
  out : List Output
  /-- The commands that wait, first in, first out. -/
  pending : List Instr
  deriving DecidableEq, Repr

/-! ### The parts right after reset -/

def HostIf.init : HostIf :=
  { linkUp := false, flrSeen := false, live := [], ord := List.replicate 32 default, rpt := List.replicate 32 default,
    lateCnt := 0, dropCnt := 0, sealedWr := 0, err := 0, rerr0 := 0, rerr1 := 0, lastErr := 0,
    funcMask := false, vecMask := 0xFFFFFFFF#32, vecPend := 0, timers := [] }

def NLog.init : NLog :=
  { state := .starting, slots := [], lastCrc := 0, clears := 1, clearMark := false, clearFrom := 0, lost := 0, fullDrop := 0,
    suppr := 0, queue := [], capture := [], captureLost := 0, capturing := false, freezeDue := none, drained := 0,
    lostAtFreeze := 0, drainCode := 0, sources := [], captureDue := true, battRecs := [], seq := 0 }

def TimeUnit.init : TimeUnit :=
  { st := .unlocked, src := .none, firstLock := false, domA := default, domB := default, onB := false, forced := none,
    ppsQual := false, ppsLast := none, slew := none, disagree := false, goodSyncs := 0, holdSince := none, holdLong := false,
    acqStart := 0, acqHeld := false, tod := none, edgeSec := none, ppsCheck := 0, pdelayA := 0, pdelayB := 0, pdelayT := 0, pdelayAt := [0, 0, 0], latchCount := 0,
    latchTai := 0, latchState := .unlocked, txq := List.replicate 3 default, txqOvf := 0, touts := List.replicate 8 default,
    rtcWritten := 0 }

def Ring.init : Ring :=
  { en := .disabled, bypassed := false, legsClosed := true, legsSense := false, senseAt := 0, senseDiff := 0, ready := false, readyAt := 0,
    bypassReleased := false, linkA := false, linkB := false, spdA := false, spdB := false, bothDownSince := none, ringOpen := false,
    owedA := none, owedB := none, supAt := none, portsUp := false, hsrSeq := 0, dups := [], nodes := [], dupDrop := 0, dupEvict := 0, nodeFull := 0, foreign := 0,
    openCnt := 0, framesRetired := 0 }

def Twin.init : Twin :=
  { role := .negotiating, en := .disabled, epoch := 0, heard := 0, accepted := 0, partner := none, pathT := false, pathR := false, lostT := false, lostR := false,
    differs := (false, false), fit := false,
    unsynced := false, emitOk := false, handover := false, resyncReq := false, leaving := false, hbSeqT := 0, hbSeqR := 0, hbAt := 0,
    mirrorSeq := 0, mirrorRecs := 0, mirrorRx := 0, lastMirror := 0, resyncSince := none, resyncGap := false, resyncEnd := 0, negSince := none, e0 := 0,
    storedEpoch := 0, flashEpoch := 0, adoptions := [], contestedUntil := none, pathLostT := 0, pathLostR := 0, promotions := 0,
    discards := 0 }

def Supply.init : Supply :=
  { step := 0, cause := .powerOn, startedAt := 0, elapsed := 0, vinMv := 0, vholdMv := 0, vbatMv := 0, energyMj := 0, energyAt := 0,
    charging := false, holdLow := false, surge := false, surgeSince := 0, vbatLow := false, battLost := false, holdUp := false,
    rstLow := false, pfCnt := 0, battClock := none, flushesLost := 0, tallyFlush := false, meterFlush := false, pfwLow := false, held6 := false }

def Setup.init : Setup :=
  { slots := [default, default], load := none, sealed := false, sealBy := 0, loaded := false, faults := false, slot := 3,
    refused := 0, rev := 0, sealDue := none }

def Fabric.init : Fabric :=
  { decks := List.replicate 8 default, crossings := List.replicate 23 default,
    beadFail := [], rodFail := [], deckFail := [], frameLost := [], eccCe := 0, eccUe := 0, poisoned := [], scrubMem := .rodScratch,
    scrubIdx := 0, scrubWord := 0, scrubSince := 0, scrubIdle := false, scrubOwed := [], scan := 0, xingTo := 0, xingMrg := 0,
    beamLost := false, hot := false }

def Placement.init : Placement :=
  { roles := [], shiftEn := .disabled, abandoned := 0, unfit := false, counts := [96, 160, 96, 32, 32, 16, 16, 16],
    pendingAlloc := [], lastEval := 0, retiredDrop := 0, drops := [] }

def ModelSt.init : ModelSt :=
  { slots := [default, default], load := none, runSlot := none, run := [], swapDue := false, clearAt := 0, coldNext := true, firstDue := false, mirrorIn := [],
    mirrorReady := none }

/-- RECKON_CFG's defaults (R175). -/
def ReckonCfg.init : ReckonCfg :=
  { cadenceMs := 1000, rejectT := 0x40800000#32, rejectMax := 8, flags := 1, coverMin := 0x3F000000#32, pseudo := 0x3E99999A#32,
    mergeDt := 0x3D4CCCCD#32, mismatchN := 10, reserved := 0 }

def Reckoner.init : Reckoner :=
  { en := .enabled, cfg := ReckonCfg.init, pendingCfg := none, lastTick := 0, solves := 0, running := none, hostMeas := [],
    mirrorSnap := none, sets := List.replicate 9 none, latest := none, pins := [], status := [], lastStatus := none, failRun := 0,
    skippedSince := false, num := default, zoneRuns := [], queryAt := none, skips := 0 }

/-- LA_CFG's defaults (R204). -/
def LaCfg.init : LaCfg :=
  { stepMs := 10, horizonS := 20, settleS := 10, flags := 2, guardPa := 0x459C4000#32, stnTau := 0x41A00000#32,
    driveRamp := 0x3DCCCCCD#32 }

def LookAhead.init : LookAhead :=
  { en := .enabled, cfg := LaCfg.init, runs := [], queue := [], count := 0, rebuilding := none, recent := [], delivered := [],
    withdrawals := [], retired := 0, refused := 0, superseded := 0 }

/-- OPT_CFG's defaults (R239); the tables, the profile and the circuit name none. -/
def OptCfg.init : OptCfg :=
  { wCost := 0x3F800000#32, wCarbon := 0#32, wComfort := 0x358637BD#32, wMove := 0x3F800000#32, wRelax := 0x49742400#32, terminal := 0x3F800000#32,
    supplyDrop := 0x40A00000#32, importMax := 0#32, exportMax := 0#32, elecBase := 0#32, biasTau := 0x45E10000#32, epsRel := 0x3A83126F#32,
    importTable := 0xFF, exportTable := 0xFF, elecProfile := 0xFFFF, permitBase := 0, importCircuit := 0xFF, permitEn := false,
    summary := true }

def LayerSt.init : LayerSt :=
  { plans := 0, lastBoundary := 0, due := none, run := none, plan := none, coldNext := true, fails := 0, skippedSince := false, skips := 0,
    lastRelax := 0, edges := [], shedTold := false }

def Optimiser.init : Optimiser :=
  { en := .enabled, cfg := OptCfg.init, tariffs := [], profiles := [], day := LayerSt.init, pressure := LayerSt.init,
    withheldDay := [], withheldPressure := [], elecBias := none, holdHandover := false, retired := 0,
    lastHand := (0, 0), queryAt := none }

/-- ROLL_CFG's defaults (R273). -/
def RollCfg.init : RollCfg :=
  { leadPlanMs := 300, startLeadMs := 700, stageMs := 500, sendAheadMs := 2000, dpStep := 0x469C4000#32, pumpStep := 0x3E4CCCCD#32,
    valveStep := 0x3DCCCCCD#32, reshapeMax := 2, reshapeK := 4, flags := 2, reserved := 0 }

def Roll.init : Roll :=
  { en := .enabled, cfg := RollCfg.init, dests := [], holds := [], nextId := 1, incoming := [], rolls := [], hist := [], bases := [], mirror := [],
    retired := 0 }

/-- STN_CFG's defaults (R319). -/
def StnCfg.init : StnCfg :=
  { port := 40871, staleMs := 1000, offlineMs := 3000, timeoutMs := 20, refreshMs := 1000, retries := 3, noackN := 3, dscp := 46,
    reserved := 0 }

def StnX.init : StnX := { cfg := StnCfg.init, ctxs := [], pool := ⟨0, []⟩, tagWaitSince := none, houseDiscards := 0 }

def LoopEngine.init : LoopEngine :=
  { loops := [], tables := [], trace := none, takeUsable := 0, takeBad := 0, taking := false, pwmNext := [], pwm := [] }

/-- TALLY_CFG's defaults (R395). -/
def TallyCfg.init : TallyCfg := { restart := 0, flags := 0, exchWaitMs := 1000, dioDir := 0, safeDio := 0 }

def Tally.init : Tally :=
  { en := .enabled, run := .stopped, cfg := TallyCfg.init, prog := none, bank := 0, banks := [default, default], loaded := false,
    load := none, exch := none, tasks := List.replicate 25 default, markers := [], words := [], pubMarkers := [], pubWords := [],
    timers := [], counters := [], edges := [], outImg := 0, dioIn := 0, dioCount := [], quad := [], stopCause := 0, stopIndex := 0,
    stopStamp := 0, flash := none, quiesced := 0, mode := 0, lastMirror := 0, mirrorIn := [] }

def BattMeter.init : BattMeter :=
  { ctl := 8#32, thr := 0x3F000000#32, f60 := false, cals := [], charge := [], bursts := 0, episodes := [], unrecorded := 0, open_ := none, above := 0, below := 0,
    first := none, nextAt := 0, faults := [] }

/-- A channel after reset: no calibration has been loaded for it (R405). -/
def Chan.init : Chan :=
  { st := .off, tap := 0, eye := 0, steps := 0, clipSel := false, repeats := 0, crowded := 0, retryAt := 0, x := 0#32, at_ := none,
    clipped := false, good := false, hist := [], count := 0, lockedAt := 0, lostAt := 0, sinc := ⟨0, 0, 0, 0, 0, 0⟩, frame := .even,
    lastWord := 0, lastBit := false, same := 0, uncal := true }

/-- BILL_CFG's defaults (R440). -/
def Metering.init : Metering :=
  { chans := List.replicate 32 Chan.init, vsets := [], circs := [], points := [], aggs := [], stnMeters := [], billS := 900,
    waitS := 10, bill := 0, lastBill := 0, billDue := none, tickNo := 0, pqSeq := 0, batt := BattMeter.init, saves := [] }

def Panel.init : Panel :=
  { en := .disabled, st := .off, buf := [], mask0 := [], mask1 := [], dirty := [], staged := [], sweepAt := none, lines := 0,
    clamps := 0, sweeps := 0, curve0 := none, curve1 := none, curve2 := none, act0 := false, act1 := false, half0 := false,
    half1 := false, refreshAt := 0, refreshLine := 0, lineAt := 0, blink0 := none, blink1 := none,
    ageAt := 0, savedAt := 0, crackAt := 0, held := [], carried := [], stress := [], gains := [], ageLimit := false, ageRaised := false, saves := [],
    crackRun := 0, crackOpen := false, pnlEn := false, pnlDis := true }

def Tag.init : Tag :=
  { en := .disabled, phase := .idle, phaseAt := 0, pulse := 0, run := none, wait := none, interrupted := false, energyLow := false,
    updates := 0, required := 0, measured := 0, flag := false, shown := 0, wanted := 0, powerFail := false, segs := 0 }

def Svc.init : Svc :=
  { level := .off, strap := false, lockout := none, badCodes := 0, badRun := 0, lastCmd := 0, code := 0, xfer := none,
    keyfuse := none }

def Calib.init : Calib := { page := factoryPage, write := none, valid := false, writes := 0, sense := List.replicate 3 0x3F800000#32, tofs := List.replicate 8 0#32 }
def Firmware.init : Firmware :=
  { banks := [⟨deliveredFw, 1, false, false⟩, default], running := none, load := none, fallback := false, recovery := false }

/-- The tablet right after reset, as it is delivered (R701): set-up, model and Tally slots and battery domain empty, house key not
fused, firmware bank A confirmed, the factory page. What survives a reset is carried by the commands that reset it (Boot.lean). -/
def State.reset : State :=
  { now := 0, clockOfs := 0, freeCnt := 0, regs := [], fuses := ⟨[], sha256 vendorKey, 0, List.replicate 6 0⟩, host := HostIf.init, nlog := NLog.init,
    time := TimeUnit.init, ring := Ring.init, twin := Twin.init, sup := Supply.init, setup := Setup.init, fab := Fabric.init,
    place := Placement.init, model := ModelSt.init, reck := Reckoner.init, la := LookAhead.init, opt := Optimiser.init,
    roll := Roll.init, stn := StnX.init, loops := LoopEngine.init, tally := Tally.init, meter := Metering.init,
    can := [default, default], panel := Panel.init, tag := Tag.init, svc := Svc.init, cal := Calib.init, fw := Firmware.init,
    out := [], pending := [] }

end Sys2Proof.Machine
end

