-- ==== Sys2Proof/Machine/Regs.lean ====
section
/-! DEFINITION. The BAR0 register map (R16, R522): which offsets hold stored words, their reset values, what a write stores, and
what a read of every register returns. -/

namespace Sys2Proof.Machine

open Sys2Proof

/-- The access types of R16; `none` at an offset that no block assigns. -/
inductive Access where
  | ro
  | rw
  | rws
  | w1c
  | unassigned
  deriving DecidableEq, Repr, Inhabited

/-- Codes of R42, R33 and R491. -/
def enCode : Enable → Nat
  | .disabled => 0
  | .enabled => 1
  | .quiescing => 2

def qCode : Quality → Nat
  | .good => 0
  | .estimated => 1
  | .stale => 2
  | .offline => 3
  | .invalid => 4

def roleCode : TwinRole → Nat
  | .negotiating => 0
  | .active => 1
  | .standby => 2
  | .solo => 3
  | .isolated => 4

/-! ### Bytes (R14) -/

/-- `n` bytes of a list, filled up with zeros. -/
def padTo (n : Nat) (bs : List Byte) : List Byte := (bs ++ List.replicate n 0#8).take n

/-! ### Sorted association lists -/

/-- The value at a key. -/
def alGet {α : Type} (l : List (Nat × α)) (k : Nat) : Option α :=
  (l.find? (fun p => p.1 == k)).map Prod.snd

/-- Insert or replace, keeping the keys ascending. -/
def alPut {α : Type} : List (Nat × α) → Nat → α → List (Nat × α)
  | [], k, v => [(k, v)]
  | (k', v') :: l, k, v =>
    if k < k' then (k, v) :: (k', v') :: l
    else if k = k' then (k, v) :: l
    else (k', v') :: alPut l k v

/-- Remove a key. -/
def alDel {α : Type} (l : List (Nat × α)) (k : Nat) : List (Nat × α) :=
  l.filter (fun p => p.1 != k)

/-! ### The stored registers

Writable words stand in `State.regs`, sparse: an offset that is not listed holds its reset value. -/

/-- Offsets of the GLB_, HOSTQ_ and FAB_ registers (R523, R683, R546, R73, R102). -/
def rGlbHouse : Nat := 0x000C
def rGlbSeal : Nat := 0x0010
def rHoldCfg : Nat := 0x010C
def rShadowLo : Nat := 0x1004
def rShadowHi : Nat := 0x1008
def rRoute0 : Nat := 0x1020
def rRoute1 : Nat := 0x1024
def rRingLo (r : Nat) : Nat := 0x1100 + 16 * r
def rRingHi (r : Nat) : Nat := 0x1104 + 16 * r
def rRingCfg (r : Nat) : Nat := 0x1108 + 16 * r
def rPaceCtl : Nat := 0x2004
def rThermCtl : Nat := 0x2008
def rScrubCtl : Nat := 0x200C
def rXingSel : Nat := 0x2094
def rPlaceCtl : Nat := 0x20A4
/-- TIME_, RING_ and TWIN_ (R484, R487, R514). -/
def rTimeCfg : Nat := 0x3004
def rTimeSlew : Nat := 0x3008
def rTimeAcq : Nat := 0x300C
def rPpsCtl : Nat := 0x3044
def rRingCfgReg : Nat := 0x4004
def rIpv4 : Nat := 0x4014
def rIpv4Pfx : Nat := 0x401C
def rIpv6 (i : Nat) : Nat := 0x4020 + 4 * i
def rIpv6Pfx : Nat := 0x4030
def rTwinCfg : Nat := 0x5004
def rPeerMacLo : Nat := 0x5010
def rPeerMacHi : Nat := 0x5014
def rSeStn (k : Nat) : Nat := 0x5040 + 4 * k
def rSeFbus (b : Nat) : Nat := 0x50C0 + 4 * b
/-- FBUS_, METER_, HEAT_, PANEL_, TAG_, NLOG_, SVC_ (R586, R444, R448, R630, R633, R607, R657). -/
def rNlogDefRate : Nat := 0x901C

def between (lo hi n : Nat) : Bool := lo ≤ n && n ≤ hi

/-- The access type of an offset (R16, R522). -/
def accGlb (o : Nat) : Access :=
  if o = rGlbHouse || o = rHoldCfg then .rws
  else if o = rGlbSeal then .rw
  else if o ≤ 0x18 || between 0x100 0x118 o then .ro else .unassigned

def accHostq (o : Nat) : Access :=
  if between 0x1100 0x14FC o then (if o % 16 = 12 then .ro else .rw)
  else if o = 0x1004 || o = 0x1008 || o = 0x1020 || o = 0x1024 then .rw
  else if between 0x1010 0x1018 o then .w1c
  else if o ≤ 0x1030 then .ro else .unassigned

def accFab (o : Nat) : Access :=
  if o = 0x2004 || o = 0x2008 || o = 0x200C || o = 0x20A4 then .rws
  else if o = 0x2088 || o = 0x208C then .w1c
  else if o = 0x2094 then .rw
  else if o ≤ 0x20AC then .ro else .unassigned

def accTime (o : Nat) : Access :=
  if o = 0x3004 || o = 0x3008 || o = 0x300C || o = 0x3044 then .rws
  else if o = 0x301C then .w1c
  else if o ≤ 0x304C then .ro else .unassigned

def accRing (o : Nat) : Access :=
  if o = 0x4004 || between 0x4014 0x4030 o then .rws
  else if o ≤ 0x4048 then .ro else .unassigned

def accTwin (o : Nat) : Access :=
  if o = 0x5004 || o = 0x5010 || o = 0x5014 || between 0x5040 0x50C4 o then .rws
  else if o ≤ 0x5028 then .ro else .unassigned

def accNlog (o : Nat) : Access :=
  if o = rNlogDefRate then .rws else if o ≤ 0x9018 then .ro else .unassigned

/-! FBUS_, METER_, HEAT_, PANEL_, TAG_, SVC_ (R586, R444, R448, R630, R633, R657). -/

def rFbusCtl (b : Nat) : Nat := 0x6000 + 0x800 * b
def rFbusNbt (b : Nat) : Nat := 0x6004 + 0x800 * b
def rFbusDbt (b : Nat) : Nat := 0x6008 + 0x800 * b
def rClkCtl : Nat := 0x7004
def rChEn : Nat := 0x7008
def rChClk (n : Nat) : Nat := if n < 16 then 0x700C else 0x7010
def rChSel : Nat := 0x7018
def rBattCtl : Nat := 0x7024
def rBattThr : Nat := 0x7028
def rChGain (n : Nat) : Nat := 0x7080 + 4 * n
def rChOfs (n : Nat) : Nat := 0x7100 + 4 * n
def rChPhase (n : Nat) : Nat := 0x7180 + 4 * n
/-- PGAIN, POFS, QGAIN and QOFS (k = 0–3) of circuit c. -/
def rCirc (c k : Nat) : Nat := 0x7200 + 16 * c + 4 * k
def rHeatCtl : Nat := 0x7804
def rPanelCfg : Nat := 0x8004
def rPanelTiming : Nat := 0x8008
def rPanelBright : Nat := 0x800C
def rAgeK : Nat := 0x8010
def rAgeCtl : Nat := 0x8014
def rBlinkCtl (p : Nat) : Nat := 0x8024 + 4 * p
def rBlinkAlt (p : Nat) : Nat := 0x802C + 4 * p
def rTagCfg : Nat := 0x8804
def rSvcUart : Nat := 0xA004
def rSvcCode : Nat := 0xA008

def accFbus (o : Nat) : Access :=
  let f := (o - 0x6000) % 0x800
  if f ≤ 8 then .rws
  else if f ≤ 0x28 || between 0x100 0x57C f || o = 0x6F00 then .ro else .unassigned

def accMeter (o : Nat) : Access :=
  if o < 0x7800 then
    if o = rChSel then .rw
    else if between 0x7004 0x7010 o || o = rBattCtl || o = rBattThr || between 0x7080 0x72BC o then .rws
    else if o ≤ 0x7020 then .ro else .unassigned
  else if o = rHeatCtl then .rws else if o ≤ 0x781C then .ro else .unassigned

def accPanel (o : Nat) : Access :=
  if o < 0x8800 then
    if between 0x8004 0x8014 o || between 0x8024 0x8030 o then .rws else if o ≤ 0x8034 then .ro else .unassigned
  else if o = rTagCfg then .rws else if o ≤ 0x8814 then .ro else .unassigned

/-- SVC_CODE is write-only: `rws` here, with reads of 0. -/
def accSvc (o : Nat) : Access :=
  if o < 0xB000 then
    if o = rSvcUart || o = rSvcCode then .rws else if o ≤ 0xA02C then .ro else .unassigned
  else if o ≤ 0xB008 then .ro else .unassigned

/-- Reset values from 0x6000 on; gains hold 1.0 where no calibration page has been loaded (R405). -/
def resetIo (o : Nat) : Word :=
  if o = rFbusCtl 0 || o = rFbusCtl 1 then 4#32
  else if o = rFbusNbt 0 || o = rFbusNbt 1 then 0x09F0F1E0#32
  else if o = rFbusDbt 0 || o = rFbusDbt 1 then 0x07266780#32
  else if o = rClkCtl then 0x00000271#32
  else if o = rBattCtl then 8#32
  else if o = rBattThr then 0x3F000000#32
  else if between 0x7080 0x70FC o then 0x3F800000#32
  else if between 0x7200 0x72BC o && o % 8 == 0 then 0x3F800000#32
  else if o = rHeatCtl then 0x00000064#32
  else if o = rPanelCfg then 0x811001E0#32
  else if o = rPanelTiming then 0x07D007D0#32
  else if o = rPanelBright then 0x000000FF#32
  else if o = rAgeK then 0x3727C5AC#32
  else if o = rAgeCtl then 0x00000119#32
  else if o = rBlinkCtl 0 || o = rBlinkCtl 1 then 0x00640000#32
  else if o = rTagCfg then 0x000000FA#32
  else if o = rSvcUart then 0x0001C200#32
  else 0#32

/-- The reset value of a stored register. -/
def resetOf (o : Nat) : Word :=
  if o = rHoldCfg then 0x01D6001E#32
  else if between 0x1100 0x14FC o && o % 16 == 8 then 0x00010004#32
  else if o = rPaceCtl then 0x00000004#32
  else if o = rThermCtl then 0x0000006E#32
  else if o = rScrubCtl then 0x00000018#32
  else if o = rPlaceCtl then 0x0000050F#32
  else if o = rTimeCfg then 0x00010080#32
  else if o = rTimeSlew then 0x00000064#32
  else if o = rTimeAcq then 0x012C001E#32
  else if o = rRingCfgReg then 0x00500000#32
  else if o = rTwinCfg then 0x0BB83204#32
  else if o = rNlogDefRate then 0x002003E8#32
  else resetIo o

/-- The stored word at an offset. -/
def State.reg (s : State) (o : Nat) : Word := (alGet s.regs o).getD (resetOf o)

/-- Store a word, listing it only where it differs from the reset value. -/
def State.setReg (s : State) (o : Nat) (v : Word) : State :=
  { s with regs := if v = resetOf o then alDel s.regs o else alPut s.regs o v }

/-- Bits `hi` down to `lo` of a stored register. -/
def State.fld (s : State) (o hi lo : Nat) : Nat := bits (s.reg o).toNat hi lo

/-! ### Fields that several units read -/

def State.houseId (s : State) : Nat := s.fld rGlbHouse 15 0
def State.ringLog2 (s : State) (r : Nat) : Nat := s.fld (rRingCfg r) 4 0
def State.ringSize (s : State) (r : Nat) : Nat := 2 ^ s.ringLog2 r
def State.ringRpt (s : State) (r : Nat) : Nat := s.fld (rRingCfg r) 28 24
def State.ringBase (s : State) (r : Nat) : Nat :=
  (s.reg (rRingHi r)).toNat * 2 ^ 32 + (s.reg (rRingLo r)).toNat
def State.coalN (s : State) (k : Nat) : Nat := s.fld (rRingCfg (32 + k)) 23 16
def State.coalT (s : State) (k : Nat) : Nat := s.fld (rRingCfg (32 + k)) 15 8
def State.shadowAddr (s : State) : Nat := (s.reg rShadowHi).toNat * 2 ^ 32 + (s.reg rShadowLo).toNat
/-- Report ring of a class of unsolicited reports (R544, R546). -/
def State.routeOf (s : State) (cls : Nat) : Nat :=
  if cls < 4 then s.fld rRoute0 (8 * cls + 7) (8 * cls) else s.fld rRoute1 (8 * (cls - 4) + 7) (8 * (cls - 4))
def State.twinEn (s : State) : Bool := s.fld rTwinCfg 0 0 == 1
/-- How far a slew has come (R466). -/
def slewDone (now : Nat) (w : Slew) : Int :=
  let d : Int := ((now - w.since) * w.ppm / 1000000 : Nat)
  if 0 ≤ w.offset then min w.offset d else max w.offset (-d)

/-- The local clock: TAI in ns (R462). -/
def State.tai (s : State) : Nat :=
  (s.now + s.clockOfs + (match s.time.slew with
    | some w => slewDone s.now w
    | none => 0)).toNat

def State.stamp32 (s : State) : Word := BitVec.ofNat 32 s.tai

/-! ### Reading -/

def packBits (ns : List Nat) : Nat := ns.foldl (fun a n => a + 2 ^ n) 0

def word (n : Nat) : Word := BitVec.ofNat 32 n

/-- A signed number in a saturating 32-bit field. -/
def satInt32 (i : Int) : Word :=
  if i > 0x7FFFFFFF then 0x7FFFFFFF#32 else if i < -0x80000000 then 0x80000000#32 else BitVec.ofInt 32 i

def deckStCode : DeckSt → Nat
  | .active => 0
  | .retention => 1
  | .waking => 2
  | .shedding => 3
  | .isolated => 4
  | .tripped => 5

/-- FAB_DECKn_STAT (R76). -/
def deckStat (d : Deck) : Nat :=
  deckStCode d.st * 2 ^ 26 + (d.temp % 2 ^ 10) * 2 ^ 16 + (d.rail % 2 ^ 8) * 2 ^ 8 + d.pace % 2 ^ 8

def timeStCode : TimeSt → Nat
  | .unlocked => 0
  | .acquiring => 1
  | .locked => 2
  | .holdover => 3

def timeSrcCode : TimeSrc → Nat
  | .none => 0
  | .domA => 1
  | .domB => 2
  | .pps => 3
  | .rtc => 4

def logStCode : LogState → Nat
  | .starting => 0
  | .recording => 1
  | .frozen => 2
  | .draining => 3
  | .clearing => 4
  | .full => 5

def causeCode : ResetCause → Nat
  | .powerOn => 0
  | .rstPin => 1
  | .monitor => 2
  | .brownout => 3
  | .recovery => 4

/-- Holding-queue places taken (R599): the log's own records take none. -/
def NLog.queued (n : NLog) : Nat := (n.queue.filter (fun r => !r.own)).length

/-- Beads that hold no role and work (R83: the reserve). -/
def State.beadWorks (s : State) (b : Nat) : Bool :=
  b < 512 && !s.fab.beadFail.contains b && !s.fab.rodFail.contains (b / 8) && !s.fab.deckFail.contains (b / 64)
    && !s.fab.frameLost.contains (b / 256)
def Placement.live (p : Placement) : List Role := p.roles.filter (fun r => r.st != .retired)
def State.beadHeld (s : State) (b : Nat) : Bool :=
  s.place.live.any (fun r => r.bead == b ||
    (match r.move with
     | some m => m.from_ == b || m.target == b
     | none => false))
def State.workingBeads (s : State) : Nat := ((List.range 512).filter (s.beadWorks)).length
def State.reserve (s : State) : Nat :=
  ((List.range 512).filter (fun b => s.beadWorks b && !s.beadHeld b)).length

def minCounts : List Nat := [48, 64, 16, 32, 32, 16, 16, 16]
def defaultCounts : List Nat := [96, 160, 96, 32, 32, 16, 16, 16]
def State.kindCount (s : State) (k : Nat) : Nat := s.place.counts.getD (k - 1) 0
def State.degraded (s : State) : Bool :=
  [1, 2, 3].any (fun k => s.kindCount k < defaultCounts.getD (k - 1) 0)

def readGlb (s : State) (o : Nat) : Nat :=
  if o = 0x0000 then 0x48100000 + Config.rev * 2 ^ 8
  else if o = rGlbSeal then s.setup.sealBy * 2 + b01 s.setup.sealed
  else if o = 0x0014 then
    b01 s.setup.loaded * 2 ^ 31 + b01 s.setup.faults * 2 ^ 30 + (s.setup.slot % 4) * 2 ^ 28 + s.setup.refused % 2 ^ 16
  else if o = 0x0018 then s.setup.rev.toNat
  else if o = 0x0100 then
    b01 s.sup.charging * 2 ^ 31 + b01 s.sup.holdLow * 2 ^ 30 + b01 s.sup.surge * 2 ^ 29 + b01 s.sup.vbatLow * 2 ^ 28
      + b01 s.sup.battLost * 2 ^ 27
  else if o = 0x0104 then (s.sup.vholdMv % 2 ^ 16) * 2 ^ 16 + s.sup.vinMv % 2 ^ 16
  else if o = 0x0108 then s.sup.vbatMv % 2 ^ 16
  else if o = 0x0110 then 80 * 2 ^ 16 + min s.sup.energyMj 0xFFFF
  else if o = 0x0114 then
    s.sup.step * 2 ^ 28 + causeCode s.sup.cause * 2 ^ 24
      + min (if 1 ≤ s.sup.step && s.sup.step ≤ 11 then (s.now - s.sup.startedAt) / (10 * msNs) else s.sup.elapsed) 0xFFFF
  else if o = 0x0118 then s.sup.pfCnt
  else (s.reg o).toNat

def readHostq (s : State) (o : Nat) : Nat :=
  if o = 0x1000 then 0x00202020
  else if o = 0x100C then b01 s.host.linkUp * 2 ^ 31 + b01 s.host.flrSeen * 2 ^ 30 + s.host.live.length % 2 ^ 10
  else if o = 0x1010 then s.host.err.toNat
  else if o = 0x1014 then s.host.rerr0.toNat
  else if o = 0x1018 then s.host.rerr1.toNat
  else if o = 0x101C then s.host.lastErr.toNat
  else if o = 0x1028 then s.host.lateCnt.toNat
  else if o = 0x102C then s.host.dropCnt.toNat
  else if o = 0x1030 then s.host.sealedWr.toNat
  else if between 0x1100 0x14FC o then
    let r := (o - 0x1100) / 16
    let en := if r < 32 then (s.host.ord.getD r default).en else (s.host.rpt.getD (r - 32) default).en
    if o % 16 = 8 then
      (s.reg o).toNat % 2 ^ 29 + enCode en * 2 ^ 29 + b01 (en == .enabled) * 2 ^ 31
    else if o % 16 = 12 then
      if r < 32 then (s.host.ord.getD r default).head.toNat else (s.host.rpt.getD (r - 32) default).tail.toNat
    else (s.reg o).toNat
  else (s.reg o).toNat

def readFab (s : State) (o : Nat) : Nat :=
  let x := s.fab.crossings.getD (s.fld rXingSel 4 0) default
  if o = 0x2000 then 0x02080200
  else if between 0x2010 0x202C o then deckStat (s.fab.decks.getD ((o - 0x2010) / 4) default)
  else if between 0x2030 0x206C o then
    let k := (o - 0x2030) / 4
    packBits ((s.fab.beadFail.filter (fun b => b / 32 == k)).map (· % 32))
  else if o = 0x2070 || o = 0x2074 then
    packBits ((s.fab.rodFail.filter (fun b => b / 32 == (o - 0x2070) / 4)).map (· % 32))
  else if o = 0x2078 then packBits s.fab.deckFail
  else if o = 0x207C then s.fab.eccCe.toNat
  else if o = 0x2080 then s.fab.eccUe.toNat
  else if o = 0x2084 then s.fab.scan.toNat
  else if o = 0x2088 then s.fab.xingTo.toNat
  else if o = 0x208C then s.fab.xingMrg.toNat
  else if o = 0x2090 then
    packBits ((List.range 23).filter (fun n => (s.fab.crossings.getD n default).stopped))
  else if o = 0x2098 then x.void.toNat
  else if o = 0x209C then x.late.toNat
  else if o = 0x20A0 then x.merges.toNat
  else if o = 0x20A8 then
    b01 s.place.unfit * 2 ^ 19 + b01 s.degraded * 2 ^ 18 + enCode s.place.shiftEn * 2 ^ 16 + (if s.fab.scan = 0 then 0 else s.reserve % 2 ^ 10)
  else if o = 0x20AC then s.place.retiredDrop.toNat
  else (s.reg o).toNat

def readTime (s : State) (o : Nat) : Nat :=
  let t := s.time
  if o = 0x3000 then 0x00000820
  else if o = 0x3010 then
    timeStCode t.st * 2 ^ 29 + timeSrcCode t.src * 2 ^ 26 + b01 t.domA.qual * 2 ^ 25 + b01 t.domB.qual * 2 ^ 24
      + b01 t.ppsQual * 2 ^ 23 + b01 t.slew.isSome * 2 ^ 22 + b01 t.disagree * 2 ^ 21 + b01 t.firstLock * 2 ^ 20
  else if o = 0x3014 then (satInt32 t.domA.ofs).toNat
  else if o = 0x3018 then (satInt32 t.domB.ofs).toNat
  else if o = 0x301C then t.txqOvf.toNat
  else if between 0x3020 0x3028 o then (t.txq.getD ((o - 0x3020) / 4) default).drop.toNat
  else if between 0x302C 0x3034 o then (t.txq.getD ((o - 0x302C) / 4) default).late.toNat
  else if o = 0x3038 then t.pdelayA.toNat
  else if o = 0x303C then t.pdelayB.toNat
  else if o = 0x3040 then t.pdelayT.toNat
  else if o = 0x3048 then
    match (if t.onB then t.domB else t.domA).utcOfs with
    | some u => 2 ^ 16 + u % 2 ^ 16
    | none => 0
  else if o = 0x304C then
    ((List.range 8).map (fun n => enCode (t.touts.getD n default).en * 2 ^ (2 * n))).sum
  else (s.reg o).toNat

def readRing (s : State) (o : Nat) : Nat :=
  let r := s.ring
  if o = 0x4000 then 0x08001000
  else if o = 0x4008 then
    enCode r.en * 2 ^ 30 + b01 r.legsClosed * 2 ^ 29 + b01 r.legsSense * 2 ^ 28 + b01 r.ready * 2 ^ 27
      + b01 r.ringOpen * 2 ^ 26 + b01 r.linkB * 2 ^ 23 + b01 r.spdB * 2 ^ 22 + b01 r.linkA * 2 ^ 21 + b01 r.spdA * 2 ^ 20
  else if o = 0x4034 then r.dupDrop.toNat
  else if o = 0x4038 then r.dupEvict.toNat
  else if o = 0x403C then r.nodes.length % 2 ^ 12
  else if o = 0x4040 then r.nodeFull.toNat
  else if o = 0x4044 then r.foreign.toNat
  else if o = 0x4048 then r.openCnt.toNat
  else (s.reg o).toNat

/-- The revision of the running model and of the running Tally program, 0 for none. -/
def State.modelRev (s : State) : Nat := if s.model.run.isEmpty then 0 else imgRevision s.model.run
def State.tallyRev (s : State) : Nat := (s.tally.prog.map (·.revision)).getD 0

/-- TWIN_STAT (R516). -/
def State.twinStat (s : State) : Nat :=
  let w := s.twin
  let p := w.partner
  let pr := (p.map (fun x => roleCode x.role)).getD 0
  let mm := (p.map (fun x => x.modelRev == word s.modelRev)).getD false
  let tm := (p.map (fun x => x.tallyRev == word s.tallyRev)).getD false
  let lv := (p.map (·.leaving)).getD false
  roleCode w.role * 2 ^ 29 + enCode w.en * 2 ^ 27 + pr * 2 ^ 24 + b01 w.pathT * 2 ^ 23 + b01 w.pathR * 2 ^ 22 + b01 w.fit * 2 ^ 21
    + b01 w.emitOk * 2 ^ 20 + b01 w.unsynced * 2 ^ 19 + b01 mm * 2 ^ 18 + b01 tm * 2 ^ 17 + b01 lv * 2 ^ 16

def readTwin (s : State) (o : Nat) : Nat :=
  let w := s.twin
  if o = 0x5000 then 0x00000064
  else if o = 0x5008 then s.twinStat
  else if o = 0x500C then w.heard.toNat * 2 ^ 16 + w.epoch.toNat
  else if o = 0x5018 then w.pathLostT.toNat
  else if o = 0x501C then w.pathLostR.toNat
  else if o = 0x5020 then
    if w.role == .standby then min ((s.now - w.lastMirror) / usNs) 0xFFFFFFFF else 0
  else if o = 0x5024 then w.promotions.toNat
  else if o = 0x5028 then w.discards.toNat
  else (s.reg o).toNat

def readNlog (s : State) (o : Nat) : Nat :=
  let n := s.nlog
  if o = 0x9000 then 0x01000040
  else if o = 0x9004 then logStCode n.state * 2 ^ 29 + n.queued * 2 ^ 20 + n.slots.length
  else if o = 0x9008 then n.lastCrc.toNat
  else if o = 0x900C then n.clears.toNat
  else if o = 0x9010 then n.lost.toNat
  else if o = 0x9014 then n.fullDrop.toNat
  else if o = 0x9018 then n.suppr.toNat
  else (s.reg o).toNat

end Sys2Proof.Machine
end

