-- ==== Sys2Proof/Machine/Memory.lean ====
section
/-! DEFINITION. Byte memory as a list of cells in one canonical form: addresses strictly ascending, no zero byte listed; an
address that is not listed reads as zero. -/

namespace Sys2Proof.Machine

open Sys2Proof

/-- The canonical form. -/
abbrev Mem.wf (m : List Host.Cell) : Prop :=
  m.Pairwise (fun a b => a.1 < b.1) ∧ ∀ c ∈ m, c.2 ≠ 0

/-- Read one byte. -/
def Mem.read (m : List Host.Cell) (a : Nat) : Byte := (alGet m a).getD 0

/-- Write one byte, keeping the canonical form. -/
def Mem.write (m : List Host.Cell) (a : Nat) (v : Byte) : List Host.Cell := if v = 0 then alDel m a else alPut m a v

/-- Write bytes from an address on. -/
def Mem.writes : List Host.Cell → Nat → List Byte → List Host.Cell
  | m, _, [] => m
  | m, a, b :: bs => Mem.writes (Mem.write m a b) (a + 1) bs

/-- `n` bytes from an address on. -/
def Mem.reads (m : List Host.Cell) (a n : Nat) : List Byte := (List.range n).map (fun i => Mem.read m (a + i))

/-- The little-endian 32-bit word of an aligned address. -/
def Mem.word (m : List Host.Cell) (a : Nat) : Word :=
  BitVec.ofNat 32 ((Mem.reads m a 4).reverse.foldl (fun x b => x * 256 + b.toNat) 0)

/-- One bit, by its bit address. -/
def Mem.bit (m : List Host.Cell) (n : Nat) : Bool := (Mem.read m (n / 8)).getLsbD (n % 8)

/-- Set or clear one bit. -/
def Mem.setBit (m : List Host.Cell) (n : Nat) (v : Bool) : List Host.Cell :=
  let b := Mem.read m (n / 8)
  let k : Byte := BitVec.ofNat 8 (2 ^ (n % 8))
  Mem.write m (n / 8) (if v then b ||| k else b &&& ~~~k)

end Sys2Proof.Machine
end

