-- ==== Sys2Proof/Machine/RegsIo.lean ====
section
/-! DEFINITION. What reads of the FBUS_, METER_, HEAT_, PANEL_, TAG_, SVC_ and CAL_ registers return (R586, R444, R448, R630, R633,
R657), and the field buses' objects, which other engines read too (R569–R573). -/

namespace Sys2Proof.Machine

open Sys2Proof

/-! ### Objects -/

def State.bus (s : State) (b : Nat) : Bus := s.can.getD b default
def State.setBus (s : State) (b : Nat) (f : Bus → Bus) : State := { s with can := s.can.modify b f }
def Bus.rxObj (u : Bus) (k : Nat) : RxObj := (alGet u.rx k).getD default
def Bus.txObj (u : Bus) (k : Nat) : TxObj := (alGet u.tx k).getD default
def State.setRx (s : State) (b k : Nat) (x : RxObj) : State := s.setBus b (fun u => { u with rx := alPut u.rx k x })
def State.setTx (s : State) (b k : Nat) (x : TxObj) : State := s.setBus b (fun u => { u with tx := alPut u.tx k x })

def RxObj.bytes (x : RxObj) : List Byte := padTo 64 x.data
def TxObj.bytes (x : TxObj) : List Byte := padTo 64 x.data
def cfgBit (flags n : Nat) : Bool := flags / 2 ^ n % 2 == 1
def RxObj.big (x : RxObj) : Bool := (x.cfg.map (fun c => cfgBit c.flags 1)).getD false
def TxObj.big (x : TxObj) : Bool := (x.cfg.map (fun c => cfgBit c.flags 3)).getD false
def TxCfg.owner (c : TxCfg) : Nat := c.flags / 64 % 4
/-- Owner of a transmit object, none where it is not configured. -/
def State.busOwner (s : State) (b o : Nat) : Option Nat := ((s.bus b).txObj o).cfg.map TxCfg.owner

/-- The counting crossing of a bus (R567). -/
def busXing (b : Nat) : Nat := 0x0F + b
def State.xingStopped (s : State) (x : Nat) : Bool := (s.fab.crossings.getD x default).stopped

/-- An unsigned number in a byte order. -/
def ordNat (big : Bool) (bs : List Byte) : Nat :=
  (if big then bs else bs.reverse).foldl (fun a b => a * 256 + b.toNat) 0

/-- The bytes of a number in a byte order (R573). -/
def ordBytes (big : Bool) (n v : Nat) : List Byte := if big then (leBytes n v).reverse else leBytes n v

/-- A raw value of an encoding: 0 float32, 1 int16, 2 uint16, 3 int32 (R130, R327). -/
def rawOf (big : Bool) (enc offset : Nat) (bs : List Byte) : F32 :=
  let at_ (n : Nat) : Nat := ordNat big ((bs.drop offset).take n)
  match enc with
  | 0 => BitVec.ofNat 32 (at_ 4)
  | 1 => fOfInt (BitVec.ofNat 16 (at_ 2)).toInt 1
  | 2 => fOfInt (at_ 2) 1
  | _ => fOfInt (BitVec.ofNat 32 (at_ 4)).toInt 1

/-! ### Quality (R571) -/

def State.rxQuality (s : State) (b k : Nat) : Quality :=
  let u := s.bus b
  let x := u.rxObj k
  match x.cfg, x.at_ with
  | some c, some t =>
    let age := s.tai - t
    if u.estate = .busOff || u.estate = .recovering || u.en ≠ .enabled || s.xingStopped (busXing b) then .offline
    else if age ≤ c.freshMs * msNs then .good
    else if age ≤ 3 * (c.freshMs * msNs) then .stale
    else .offline
  | _, _ => .invalid

/-! ### Register words (R588, R589) -/

def eCode : EState → Nat
  | .active => 0
  | .passive => 1
  | .busOff => 2
  | .recovering => 3

def txCode : TxSt → Nat
  | .idle => 0
  | .queued => 1
  | .onWire => 2
  | .sent => 3
  | .failed => 4
  | .stranded => 5
  | .replaced => 6
  | .disabled => 7

def Bus.statWord (u : Bus) : Nat :=
  let off := u.estate == .busOff || u.estate == .recovering
  enCode u.en * 2 ^ 30 + eCode u.estate * 2 ^ 28 + b01 u.alone * 2 ^ 27 + b01 u.btErr * 2 ^ 26
    + (if off then 255 else min u.tec 255) * 2 ^ 16 + min u.rxe 255 * 2 ^ 8 + min u.ackRun 255

def State.rxStat (s : State) (b k : Nat) : Word :=
  let x := (s.bus b).rxObj k
  if x.cfg.isNone then 0
  else word (2 ^ 31 + b01 x.isNew * 2 ^ 30 + b01 x.lost * 2 ^ 29 + qCode (s.rxQuality b k) * 2 ^ 26 + b01 x.fd * 2 ^ 25
    + b01 x.esi * 2 ^ 24 + min x.overwrites 255 * 2 ^ 16 + x.len)

def TxObj.statWord (x : TxObj) : Word :=
  word (txCode x.st * 2 ^ 29 + x.cause * 2 ^ 25 + b01 x.requeued * 2 ^ 24 + x.seq.toNat * 2 ^ 16 + min x.fails 0xFFFF)

def Bus.rxStamp (u : Bus) (k : Nat) : Word := word ((u.rxObj k).at_.getD 0)

/-- What a read of an FBUS_ register returns (R586, R572). -/
def State.readFbus (s : State) (o : Nat) : Nat :=
  let b := (o - 0x6000) / 0x800
  let u := s.bus b
  let f := (o - 0x6000) % 0x800
  let locked (slot : Nat) : Option BusLock := u.lock.filter (fun l => l.slot == slot)
  if o = 0x6F00 then 0x00022080
  else if f = 0xC then u.statWord
  else if f = 0x10 then u.rxCnt.toNat
  else if f = 0x14 then u.txCnt.toNat
  else if f = 0x18 then u.unmatched.toNat
  else if f = 0x1C then u.short.toNat
  else if f = 0x20 then u.errCnt.toNat
  else if f = 0x24 then u.busoffCnt.toNat
  else if f = 0x28 then (match u.lock with
    | some l => 2 ^ 31 + l.slot
    | none => 0)
  else if between 0x100 0x2FC f then
    let k := (f - 0x100) / 4
    (match locked k with
      | some l => l.stat
      | none => s.rxStat b k).toNat
  else if between 0x300 0x4FC f then
    let k := (f - 0x300) / 4
    (match locked k with
      | some l => l.stamp
      | none => u.rxStamp k).toNat
  else if between 0x500 0x57C f then
    let k := (f - 0x500) / 4
    (match locked (128 + k) with
      | some l => l.stat
      | none => (u.txObj k).statWord).toNat
  else (s.reg o).toNat


/-! ### METER_ and HEAT_ (R444–R448) -/

def State.chan (s : State) (n : Nat) : Chan := s.meter.chans.getD n default
def State.circ (s : State) (c : Nat) : Option Circ := alGet s.meter.circs c
def State.point (s : State) (p : Nat) : Option HeatPoint := alGet s.meter.points p

def chCode : ChSt → Nat
  | .off => 0
  | .acquire => 1
  | .locked => 2
  | .inactive => 3
  | .eyeClosed => 4

def Chan.statWord (c : Chan) : Nat :=
  chCode c.st * 2 ^ 29 + b01 c.clipSel * 2 ^ 28 + c.tap % 16 * 2 ^ 24 + c.eye % 32 * 2 ^ 16 + c.steps % 2 ^ 16

def Chan.valid (c : Chan) : Bool := c.st == .locked && !c.clipped

/-- Enable read-backs of two bits each. -/
def packEn (n : Nat) (f : Nat → Enable) : Nat := ((List.range n).map (fun k => enCode (f k) * 2 ^ (2 * k))).sum

def State.readMeter (s : State) (o : Nat) : Nat :=
  if o = 0x7000 then 0x00000C20
  else if o = 0x7014 then packBits ((List.range 32).filter (fun n => (s.chan n).valid))
  else if o = 0x701C then (s.chan (s.fld rChSel 4 0)).statWord
  else if o = 0x7020 then packEn 12 (fun c => ((s.circ c).map (·.en)).getD .disabled)
  else if o = 0x7800 then 0x00000040
  else if between 0x7808 0x7814 o then
    packEn 16 (fun k => ((s.point (16 * ((o - 0x7808) / 4) + k)).map (·.en)).getD .disabled)
  else if o = 0x7818 || o = 0x781C then
    packBits ((List.range 32).filter (fun k => ((s.point (32 * ((o - 0x7818) / 4) + k)).map (fun p => p.valid && p.lastAt.isSome)).getD false))
  else (s.reg o).toNat

/-! ### PANEL_ and TAG_ (R630, R631, R633) -/

def panelCode : PanelSt → Nat
  | .off => 0
  | .running => 1
  | .blanked => 2
  | .cracked => 3

def tagCode : TagPhase → Nat
  | .idle => 0
  | .check => 1
  | .mark => 2
  | .drive => 3
  | .unmark => 4
  | .rest => 5

def State.readPanel (s : State) (o : Nat) : Nat :=
  let p := s.panel
  let t := s.tag
  if o = 0x8000 then 0x01E00110
  else if o = 0x8018 then
    enCode p.en * 2 ^ 30 + panelCode p.st * 2 ^ 27 + b01 p.crackOpen * 2 ^ 26 + b01 (p.ageLimit && s.fld rAgeCtl 8 8 == 1) * 2 ^ 25 + p.dirty.length % 2 ^ 9 * 2 ^ 16
  else if o = 0x801C then p.lines.toNat
  else if o = 0x8020 then p.clamps.toNat
  else if o = 0x8034 then p.sweeps.toNat
  else if o = 0x8800 then 0x00000040
  else if o = 0x8808 then
    enCode t.en * 2 ^ 30 + tagCode t.phase * 2 ^ 27 + b01 t.interrupted * 2 ^ 26 + b01 t.wait.isSome * 2 ^ 25
      + b01 t.energyLow * 2 ^ 24 + min t.updates 0xFFFF
  else if o = 0x880C then t.shown.toNat % 2 ^ 32
  else if o = 0x8810 then t.shown.toNat / 2 ^ 32 % 2 ^ 31 + b01 t.interrupted * 2 ^ 31
  else if o = 0x8814 then min t.required 0xFFFF * 2 ^ 16 + min t.measured 0xFFFF
  else (s.reg o).toNat

/-! ### SVC_ and CAL_ (R657, R658) -/

def levelCode : SvcLevel → Nat
  | .off => 0
  | .view => 1
  | .service => 2

def calOrigin (c : Calib) : Nat := u8At c.page 6
def calWrites (c : Calib) : Nat := u32At c.page 8
def calCrc (c : Calib) : Nat := if c.valid then u32At c.page 0xFFC else 0

def State.readSvc (s : State) (o : Nat) : Nat :=
  let v := s.svc
  let c := s.cal
  if o = 0xA000 then
    levelCode v.level * 2 ^ 30 + b01 v.strap * 2 ^ 29 + b01 s.fw.recovery * 2 ^ 28 + b01 v.lockout.isSome * 2 ^ 27 + min v.badCodes 255
  else if o = rSvcCode then 0
  else if o = 0xA00C then 2 * b01 (!s.fuses.house.isEmpty) + b01 (!s.fuses.vendor.isEmpty)
  else if between 0xA010 0xA02C o then leAt 4 s.fuses.house (o - 0xA010)
  else if o = 0xB000 then
    if c.valid then 2 ^ 31 + calOrigin c % 4 * 2 ^ 29 + b01 c.write.isSome * 2 ^ 28 + calWrites c % 2 ^ 16
    else b01 c.write.isSome * 2 ^ 28
  else if o = 0xB004 then if c.valid then leAt 4 c.page 0x20 else 0
  else if o = 0xB008 then if c.valid then leAt 2 c.page 0x24 else 0
  else (s.reg o).toNat

end Sys2Proof.Machine
end

