-- ==== Sys2Proof/Machine/Ops.lean ====
section
/-! DEFINITION. The operations every unit shares: record layout, the report rings, events with their buckets and report
timers, the holding queue of the Notch Log, the answer of an order, the enable of R42, identifier pools (R40) and epochs
(R31, R32). -/

namespace Sys2Proof.Machine

open Sys2Proof

/-! ### Layout of fields (R14, R555) -/

def fldBytes (f : Fld) : List Byte := leBytes f.size f.val

/-- A field's alignment: its own size up to 4 bytes, and 4 for anything larger that is a whole record (R555). -/
def fldAlign (f : Fld) : Nat := if f.size ≤ 4 then f.size else 4

/-- Parameter bytes in the listed order, each aligned to its own size (R555). -/
def layAligned : Nat → List Fld → List Byte
  | _, [] => []
  | at_, f :: fs =>
    let pad := (fldAlign f - at_ % fldAlign f) % fldAlign f
    List.replicate pad 0#8 ++ fldBytes f ++ layAligned (at_ + pad + f.size) fs

/-- Fields one after another, as report bodies and data blocks list them. -/
def layPacked (fs : List Fld) : List Byte := (fs.map fldBytes).flatten

/-- Fields one after another in network order (R14). -/
def layNet (fs : List Fld) : List Byte := (fs.map (fun f => beBytes f.size f.val)).flatten

/-- The 32 bytes of an event record (R554). -/
def Event.bytes (e : Event) : List Byte :=
  let sec := e.tai / secNs
  padTo 20 (layPacked [u8 e.source, u8 e.role, u16 e.epoch.toNat, u32 e.seq.toNat, u32 (sec % 2 ^ 32),
    u32 (e.tai % secNs), u16 (sec / 2 ^ 32), u16 e.suppressed]) ++ padTo 12 (layAligned 0 e.params)

/-- Body of an EVENT report: the record, then parameter bytes 12–27 (R555). -/
def Event.body (e : Event) : List Fld :=
  (Event.bytes e ++ (padTo 28 (layAligned 0 e.params)).drop 12).map (fun b => u8 b.toNat)

/-! ### Saturating counters and bit sets in words -/

def satAdd (w : Word) (n : Nat) : Word := BitVec.ofNat 32 (min (w.toNat + n) 0xFFFFFFFF)
def setBit (w : Word) (n : Nat) : Word := w ||| BitVec.ofNat 32 (2 ^ n)
def clrBit (w : Word) (n : Nat) : Word := w &&& ~~~ BitVec.ofNat 32 (2 ^ n)
def getBit (w : Word) (n : Nat) : Bool := w.getLsbD n

/-! ### Report rings (R527, R530, R531, R533, R535, R543) -/

def State.rptRing (s : State) (k : Nat) : RptRing := s.host.rpt.getD k default
def State.ordRing (s : State) (r : Nat) : OrdRing := s.host.ord.getD r default
def State.setRpt (s : State) (k : Nat) (f : RptRing → RptRing) : State :=
  { s with host := { s.host with rpt := s.host.rpt.modify k f } }
def State.setOrd (s : State) (r : Nat) (f : OrdRing → OrdRing) : State :=
  { s with host := { s.host with ord := s.host.ord.modify r f } }
def State.emit (s : State) (o : Output) : State := { s with out := s.out ++ [o] }

def State.xing (s : State) (x : Nat) : Crossing := s.fab.crossings.getD x default
def State.modXing (s : State) (x : Nat) (f : Crossing → Crossing) : State :=
  { s with fab := { s.fab with crossings := s.fab.crossings.modify x f } }
/-- A crossing enters the stopped state (R67). -/
def State.stopXing (s : State) (x : Nat) : State :=
  if s.xingStopped x then s
  else { s with fab := { s.fab with
    crossings := s.fab.crossings.modify x (fun c => { c with stopped := true, voidAtStop := c.void, lateAtStop := c.late })
    xingTo := setBit s.fab.xingTo x } }
/-- A void request is counted. -/
def State.xingCount (s : State) (x : Nat) : State := s.modXing x (fun c => { c with void := satInc c.void })
/-- A request on a stopped crossing is completed void at once and counted (R67). -/
def State.xingVoid (s : State) (x : Nat) : State := (s.xingCount x).emit (.xingAck x .void)
/-- Hand an output to the crossings it leaves by: a stopped one counts a void request, and the output leaves by those that run (R67). -/
def State.cross (s : State) (xs : List Nat) (o : Output) : State :=
  let t : State := (xs.filter s.xingStopped).foldl State.xingVoid s
  if xs.all s.xingStopped then t else t.emit o
/-- One request that leaves as several outputs. -/
def State.crossAll (s : State) (xs : List Nat) (os : List Output) : State :=
  let t : State := (xs.filter s.xingStopped).foldl State.xingVoid s
  if xs.all s.xingStopped then t else os.foldl State.emit t
/-- Direction of a crossing (R69): 0 island to fabric, 1 fabric to island, 2 both. -/
def xingDir (x : Nat) : Nat :=
  if [0x01, 0x04, 0x06, 0x08, 0x12, 0x16].contains x then 1
  else if [0x0A, 0x0F, 0x10, 0x14].contains x then 2 else 0
/-- The merging crossings of R69. -/
def xingMerging (x : Nat) : Bool := [0x02, 0x09, 0x0C, 0x0E, 0x11, 0x13].contains x

/-- Three cycles of a merging crossing's island clock in ns (R69); the modulator's at its slowest (assumption). -/
def xingThreeCycles (x : Nat) : Nat :=
  if x = 0x02 || x = 0x0C then 12 else if x = 0x09 then 24 else if x = 0x0E then 600 else if x = 0x11 then 38 else 60

/-- The event before still sits in a merging crossing: surely for 2 cycles, at most for 3 (R66). -/
def Crossing.carries (c : Crossing) (x now : Nat) (inside : Bool) : Bool :=
  match c.tookAt with
  | some t => decide (now < t + xingThreeCycles x * 2 / 3) || (inside && decide (now < t + xingThreeCycles x))
  | none => false

/-- An event reaches a merging crossing (R64): it is taken, or merges with the one that is still being carried. -/
def State.xingEvent (s : State) (x : Nat) (inside : Bool) : State :=
  if (s.xing x).carries x s.now inside then
    let s : State := s.modXing x (fun c => { c with merges := satInc c.merges })
    { s with fab := { s.fab with xingMrg := setBit s.fab.xingMrg x } }
  else (s.modXing x (fun c => { c with tookAt := some s.now })).emit (.crossed x)

/-- A state change or an alarm of an island on its merging crossing (R64, R69); while the crossing is stopped its island has no clock. -/
def State.alarm (s : State) (x : Nat) : State :=
  if s.xingStopped x then s else s.xingEvent x (Config.xingStill x ((s.xing x).tookAt.getD 0))

/-- The VLAN tag of the ring's frames: none while VID is 0 (R488). -/
def State.ringVlan (s : State) : Option Vlan :=
  let vid := s.fld rRingCfgReg 19 8
  if vid = 0 then none else some ⟨vid, s.fld rRingCfgReg 22 20⟩
/-- The transmit crossings of port 0 Ring A, 1 Ring B, 2 twin port, 3 both ring ports (R69). -/
def txXings (port : Nat) : List Nat := if port = 3 then [0x04, 0x06] else [0x04 + 2 * port]

/-- Hand an output to the host, over crossing 0x01 (R69, R521). -/
def State.toHost (s : State) (o : Output) : State := s.cross [0x01] o

/-- The free count of a report ring (R535). -/
def State.freeCount (s : State) (k : Nat) : Nat :=
  let g := s.rptRing k
  s.ringSize (32 + k) - (g.tail - g.head).toNat - g.reserved

/-- The shadow of a ring, unless shadows are off (R533). -/
def State.writeShadow (s : State) (ring : Nat) (idx : Word) : State :=
  if s.shadowAddr = 0 then s else s.toHost (.shadow ring idx)

/-- MSI-X vector `k`: fires, or sets its pending bit while masked (R542). -/
def State.fireVector (s : State) (k : Nat) : State :=
  if s.host.funcMask || getBit s.host.vecMask k then
    { s with host := { s.host with vecPend := setBit s.host.vecPend k } }
  else s.toHost (.msix k)

/-- Signal the unsignalled reports of a ring: its shadow, then its vector (R533, R543). -/
def State.signal (s : State) (k : Nat) : State :=
  let s : State := s.setRpt k (fun g => { g with unsignalled := 0 })
  (s.writeShadow (32 + k) (s.rptRing k).tail).fireVector k

/-- Write one report at the tail of report ring `k`, and signal it where COAL_N or COAL_T asks (R531, R543). -/
def State.putReport (s : State) (k : Nat) (r : Report) : State :=
  let g := s.rptRing k
  let size := s.ringSize (32 + k)
  let idx := g.tail.toNat % size
  let r := { r with phase := g.tail.toNat / size % 2 == 0, stamp := s.stamp32 }
  let s : State := s.toHost (.report k idx r)
  let s : State := s.setRpt k (fun g => { g with
    tail := g.tail + 1, unsignalled := g.unsignalled + 1,
    coalSince := if g.unsignalled = 0 then s.now else g.coalSince })
  if s.coalT k = 0 || s.coalN k ≤ (s.rptRing k).unsignalled then s.signal k else s

/-- A report of class `cls` (R544): written while its ring is ENABLED and two slots are free, else dropped and counted (R545).
Answers the ring of a drop from an ENABLED ring. -/
def State.tryReport (s : State) (cls kind : Nat) (body : List Fld) : State × Option Nat :=
  let k := s.routeOf cls
  let g := s.rptRing k
  if g.en = .enabled && 2 ≤ s.freeCount k then
    (s.putReport k ⟨kind, 0, 0, 0, 0xFF, false, false, 0, 0, body⟩, none)
  else
    let s : State := { s with host := { s.host with dropCnt := satInc s.host.dropCnt } }
    let s : State := s.setRpt k (fun g => { g with
      drops := satInc g.drops, dropStamp := if g.drops = 0 then s.stamp32 else g.dropStamp })
    (s, if g.en = .enabled then some k else none)

/-! ### Events (R554, R555, R595, R598, R599, R604) -/

/-- One token in units of 10⁻¹¹ (see `SrcState`). -/
def tokenUnit : Nat := 10 ^ 11

/-- RATE and BURST of a source (R595, R597). -/
def State.bucketOf (s : State) (cfg : Option (Nat × Nat)) : Nat × Nat :=
  cfg.getD (s.fld rNlogDefRate 15 0, s.fld rNlogDefRate 31 16)

/-- A source's bucket and snapshot: full and without a snapshot where nothing is stored. -/
def State.srcOf (s : State) (src : Nat) : SrcState :=
  (alGet s.nlog.sources src).getD
    { cfg := none, tokens := (s.bucketOf none).2 * tokenUnit, updated := s.now, sup := 0, cfgCount := 0, slots := [] }

def State.setSrc (s : State) (src : Nat) (x : SrcState) : State :=
  { s with nlog := { s.nlog with sources := alPut s.nlog.sources src x } }

/-- Sources without a bucket (R595). -/
def ownSource (src : Nat) : Bool := 0xE8 ≤ src && src ≤ 0xEB

/-- Tokens after the refill (R595). -/
def State.refilled (s : State) (x : SrcState) : Nat :=
  let rb := s.bucketOf x.cfg
  min (rb.2 * tokenUnit) (x.tokens + rb.1 * (s.now - x.updated))

/-- What a read of BAR0 returns at an offset (R521, R522). -/
def State.readBar0 (s : State) (o : Nat) : Word :=
  word (
    if o < 0x1000 then (if accGlb o = .unassigned then 0 else readGlb s o)
    else if o < 0x2000 then (if accHostq o = .unassigned then 0 else readHostq s o)
    else if o < 0x3000 then (if accFab o = .unassigned then 0 else readFab s o)
    else if o < 0x4000 then (if accTime o = .unassigned then 0 else readTime s o)
    else if o < 0x5000 then (if accRing o = .unassigned then 0 else readRing s o)
    else if o < 0x6000 then (if accTwin o = .unassigned then 0 else readTwin s o)
    else if o < 0x7000 then (if accFbus o = .unassigned then 0 else s.readFbus o)
    else if o < 0x8000 then (if accMeter o = .unassigned then 0 else s.readMeter o)
    else if o < 0x9000 then (if accPanel o = .unassigned then 0 else s.readPanel o)
    else if o < 0xA000 then (if accNlog o = .unassigned then 0 else readNlog s o)
    else if o < 0xC000 then (if accSvc o = .unassigned then 0 else s.readSvc o)
    else 0)

/-- The snapshot fields of a source, packed from bit 0 (R594). -/
def State.snapshot (s : State) : Nat → List SnapSlot → Nat
  | _, [] => 0
  | at_, x :: xs =>
    (bits (s.readBar0 x.offset).toNat (x.lsb + x.width - 1) x.lsb) * 2 ^ at_ + s.snapshot (at_ + x.width) xs

/-- A record enters the log by its state (R598), or the capture store after the power-fail warning (R604). -/
def State.logRecord (s : State) (r : LogRec) : State :=
  let n := s.nlog
  if n.capturing then
    if n.capture.length < 64 then { s with nlog := { n with capture := n.capture ++ [r] } }
    else { s with nlog := { n with captureLost := n.captureLost + 1, lost := satInc n.lost } }
  else match n.state with
    | .full => { s with nlog := { n with fullDrop := satInc n.fullDrop } }
    | st =>
      let held := st == .starting || st == .frozen || st == .clearing
      if r.own || n.queued < 256 then
        { s with nlog := { n with queue := n.queue ++ [{ r with queued := held }] } }
      else { s with nlog := { n with lost := satInc n.lost } }

/-- The event that a raise at this moment forms. -/
def State.eventOf (s : State) (src sup : Nat) (params : List Fld) : Event :=
  { source := src, role := roleCode s.twin.role, epoch := s.twin.epoch, seq := s.nlog.seq, tai := s.tai,
    suppressed := sup, params := params }

/-- The log record of an event, with its source's snapshot (R592, R594). -/
def State.recordOf (s : State) (x : SrcState) (e : Event) : LogRec :=
  { event := e, captured := false, queued := false, snapRev := x.cfgCount % 256, snap := s.snapshot 0 x.slots,
    own := ownSource e.source, damaged := false }

/-- An event passes its bucket, takes its number, is reported (class 0) and, where `logged`, recorded; or it is suppressed
(R595). Answers the ring of a dropped report. -/
def State.raiseCore (s : State) (src : Nat) (params : List Fld) (logged : Bool) : State × Option Nat :=
  let x := s.srcOf src
  let tokens := s.refilled x
  if ownSource src || tokenUnit ≤ tokens then
    let e := s.eventOf src (if ownSource src then 0 else x.sup) params
    let rc := s.recordOf x e
    let s : State := { s with nlog := { s.nlog with seq := s.nlog.seq + 1 } }
    let s : State := if ownSource src then s
      else s.setSrc src { x with tokens := tokens - tokenUnit, updated := s.now, sup := 0 }
    let rd := s.tryReport 0 0x0001 e.body
    (if logged then rd.1.logRecord rc else rd.1, rd.2)
  else
    let s : State := s.setSrc src { x with tokens := tokens, updated := s.now, sup := min (x.sup + 1) 0xFFFF }
    ({ s with nlog := { s.nlog with suppr := satInc s.nlog.suppr } }, none)

def ReportTimer.is (t : ReportTimer) (src key : Nat) : Bool := t.src == src && t.key == key

/-- The parameters of a timed event: the listed ones, then the count or counts. -/
def timedParams (pre : List Fld) (two : Bool) (n m : Nat) : List Fld :=
  pre ++ (if two then [u32 n, u32 m] else [u32 n])

def State.timerRuns (s : State) (src key : Nat) : Bool := s.host.timers.any (fun t => t.is src key)

def State.holdCount (s : State) (src key : Nat) (pre : List Fld) (n m : Nat) : State :=
  let add (t : ReportTimer) : ReportTimer :=
    if t.is src key then { t with pre := pre, held := t.held + n, held2 := if src = 0x72 then max t.held2 m else if src = 0x86 then m else t.held2 + m } else t
  { s with host := { s.host with timers := s.host.timers.map add } }

def State.startTimer (s : State) (src key : Nat) (pre : List Fld) (two : Bool) : State :=
  { s with host := { s.host with timers := s.host.timers ++
      [{ src := src, key := key, pre := pre, two := two, held := 0, held2 := 0, due := s.now + secNs }] } }

/-- HQ_REPORT_DROP for drops from an ENABLED ring, per ring under R704; a drop of its own report is counted the same way
(R545). The first argument bounds the chain: the second drop of a ring finds its timer running. -/
def State.noteDrop : Nat → State → Option Nat → State
  | 0, s, _ => s
  | _, s, none => s
  | n + 1, s, some k =>
    if s.timerRuns 0xD6 k then s.holdCount 0xD6 k [u16 k] 1 0
    else
      let r := (s.startTimer 0xD6 k [u16 k] false).raiseCore 0xD6 [u16 k, u32 1] true
      State.noteDrop n r.1 r.2

/-- Raise an event. -/
def State.raise (s : State) (src : Nat) (params : List Fld) : State :=
  let r := s.raiseCore src params true
  r.1.noteDrop 3 r.2

/-- Raise an event that is reported but not recorded (R601: NLOG_FROZEN with code 0). -/
def State.raiseReportOnly (s : State) (src : Nat) (params : List Fld) : State :=
  let r := s.raiseCore src params false
  r.1.noteDrop 3 r.2

/-- Count `n` (and `m`) occurrences of an event raised at most once per second for `key` (R704): the first one raises it, with a
count of 1, and the others are held. -/
def State.raiseTimed2 (s : State) (src key : Nat) (pre : List Fld) (two : Bool) (n m : Nat) : State :=
  if s.timerRuns src key then s.holdCount src key pre n m
  else
    let s : State := (s.startTimer src key pre two).raise src (timedParams pre two (min n 1) m)
    if 1 < n then s.holdCount src key pre (n - 1) 0 else s

def State.raiseTimed (s : State) (src key : Nat) (pre : List Fld) : State := s.raiseTimed2 src key pre false 1 0

/-- An unsolicited report of a class (R544, R545). -/
def State.report (s : State) (cls kind : Nat) (body : List Fld) : State :=
  let r := s.tryReport cls kind body
  r.1.noteDrop 3 r.2

/-! ### Orders (R534–R541) -/

/-- What a function answers: the STATUS byte, the function's own status where the report has one (0: accepted), the body. -/
structure Answer where
  status : Nat
  code : Nat
  body : List Fld
  deriving DecidableEq, Repr, Inhabited

/-- ORDER_DONE with a status (R540, R541). -/
def orderDone (st : Nat) : Answer := { status := st, code := st, body := [] }
/-- A report of its own with a status field. -/
def ownReport (code : Nat) (body : List Fld) : Answer := { status := 0, code := code, body := body }
/-- A report of its own without one: refusals stand in STATUS (R705). -/
def stateReport (st : Nat) (body : List Fld) : Answer := { status := st, code := st, body := body }

/-- Status codes of R541. -/
def stDone : Nat := 0
def stRange : Nat := 3
def stDisabled : Nat := 5
def stQuiescing : Nat := 6
def stBusy : Nat := 7
def stHostMemory : Nat := 8
def stStandby : Nat := 12
def stSealed : Nat := 13

def LiveOrder.is (l : LiveOrder) (tag : Half) (gen : Byte) : Bool := l.tag == tag && l.gen == gen

def State.findLive (s : State) (tag : Half) (gen : Byte) : Option LiveOrder := s.host.live.find? (fun l => l.is tag gen)

/-- Orders are handed over in ring order; one with FENCE waits until no earlier order of its ring is outstanding (R528, R534). -/
def handOver : List Nat → List Nat → List LiveOrder → List LiveOrder
  | _, _, [] => []
  | seen, blocked, l :: ls =>
    let free := !blocked.contains l.ring && !(l.fence && seen.contains l.ring) && !l.waitSecond && !l.dead
    let l' := { l with handed := l.handed || free }
    l' :: handOver (if l.dead then seen else l.ring :: seen) (if l'.handed || l.dead then blocked else l.ring :: blocked) ls

def State.handOverAll (s : State) : State := { s with host := { s.host with live := handOver [] [] s.host.live } }

/-- A quiescing order ring with nothing left becomes DISABLED and posts HQ_RING_STATE (R549). -/
def State.settleRing (s : State) (r : Nat) : State :=
  let o := s.ordRing r
  if o.en = .quiescing && o.head = o.tail && !s.host.live.any (fun l => l.ring == r && !l.dead) then
    (s.setOrd r (fun o => { o with en := .disabled })).raise 0xD2 [u16 r, u16 0, u32 o.retired]
  else s

/-- Remove the first live order of a tag and generation. -/
def eraseLive (tag : Half) (gen : Byte) : List LiveOrder → List LiveOrder
  | [] => []
  | l :: ls => if l.is tag gen then ls else l :: eraseLive tag gen ls

/-- Write the completion of a live order (R535, R540) and let the orders behind it go on. -/
def State.finish (s : State) (l : LiveOrder) (kind status : Nat) (body : List Fld) : State :=
  let s : State := s.setRpt l.rpt (fun g => { g with reserved := g.reserved - 1 })
  let s : State := s.putReport l.rpt ⟨kind, l.tag, l.gen, status, l.ring, false, false, 0, l.user, body⟩
  let s : State := { s with host := { s.host with live := eraseLive l.tag l.gen s.host.live } }
  s.handOverAll.settleRing l.ring

/-- A completion that has no live use is discarded and counted (R539). -/
def State.lateCompletion (s : State) : State :=
  ({ s with host := { s.host with lateCnt := satInc s.host.lateCnt } }).raiseTimed 0xD5 0 []

/-- An order's one completion (R540). For an entry of the set-up image, a refusal is reported through SETUP_ENTRY (R559). -/
def State.answer (s : State) (ref : OrderRef) (opcode : Nat) (a : Answer) : State :=
  match ref with
  | .host tag gen =>
    match s.findLive tag gen with
    | some l =>
      if l.dead then ({ s with host := { s.host with live := eraseLive tag gen s.host.live } }).lateCompletion
      else s.finish l (0x8000 + opcode) a.status a.body
    | none => s.lateCompletion
  | .setup i =>
    if a.code = 0 && a.status = 0 then s
    else
      let c := if a.status = 0 then a.code else a.status
      ({ s with setup := { s.setup with faults := true, refused := min (s.setup.refused + 1) 0xFFFF } }).raise
        0xDB [u16 i, u16 opcode, u16 c]

/-- Whether an order is at its function's entry: handed over and not yet taken (R534), an order whose completion will be
discarded (R551), or an entry of the set-up image. -/
def State.orderReady (s : State) (ref : OrderRef) (opcode : Nat) : Bool :=
  match ref with
  | .host tag gen =>
    match s.findLive tag gen with
    | some l => l.handed && !l.started && l.opcode == opcode
    | none => true
  | .setup _ => true

def State.markStarted (s : State) (ref : OrderRef) : State :=
  match ref with
  | .host tag gen =>
    { s with host := { s.host with live := s.host.live.map (fun l => if l.is tag gen then { l with started := true } else l) } }
  | .setup _ => s

/-- Run an order's function when the order has reached it. -/
def State.runOrder (s : State) (ref : OrderRef) (opcode : Nat) (f : State → State) : State :=
  if s.orderReady ref opcode then f (s.markStarted ref) else s

/-! ### The enable of R42 to R46 -/

inductive EnAnswer where
  | accepted
  | quiescingRefused
  | quiescedNow
  deriving DecidableEq, Repr, Inhabited

/-- An enable or disable request: the new state, and whether it is refused or reaches DISABLED at once (R43, R44, R46). -/
def enRequest (en : Enable) (want busy : Bool) : Enable × EnAnswer :=
  match want, en with
  | true, .quiescing => (.quiescing, .quiescingRefused)
  | true, _ => (.enabled, .accepted)
  | false, .enabled => if busy then (.quiescing, .accepted) else (.disabled, .quiescedNow)
  | false, e => (e, .accepted)

/-! ### Identifier pools (R40) -/

/-- Issue an identifier: a never used one while there is one (they have been free longest), else the least recently freed, its
generation incremented. -/
def IdPool.issue (p : IdPool) (size genMod : Nat) : Option ((Nat × Nat) × IdPool) :=
  if p.next < size then some ((p.next, 0), { p with next := p.next + 1 })
  else match p.freed with
    | [] => none
    | (i, g) :: l => some ((i, (g + 1) % genMod), { p with freed := l })

def IdPool.free (p : IdPool) (i g : Nat) : IdPool := { p with freed := p.freed ++ [(i, g)] }

/-! ### Free values and calibrated readings (R644, R646) -/

/-- A free value for a place, and the state with the count advanced. -/
def State.takeFree (s : State) (site : Nat) : Word × State := (Config.freeWord site s.freeCnt, { s with freeCnt := s.freeCnt + 1 })

/-- A whole number next to `num` × 2⁻¹⁴⁹: the spec states no rounding, so a value between two numbers is either. -/
def State.openRound (s : State) (site : Nat) (num : Int) : State × Nat :=
  let q : Int := num / 2 ^ 149
  if num % 2 ^ 149 = 0 then (s, q.toNat)
  else
    let r := s.takeFree site
    (r.2, (q + ((r.1.toNat % 2 : Nat) : Int)).toNat)

/-- A reading of VIN (0), VHOLD (1) or VBAT (2) in mV, scaled by its SENSE gain. -/
def State.sensed (s : State) (k rawMv : Nat) : State × Nat :=
  s.openRound 6 (fInt (s.cal.sense.getD k fOne) * (rawMv : Int))

/-- A deck's thermal reading in quarter degrees above −64 °C, with the deck's DECK_TOFS. -/
def State.deckTemp (s : State) (d raw : Nat) : State × Nat :=
  let r := s.openRound 7 (4 * fInt (s.cal.tofs.getD d 0) + (raw : Int) * 2 ^ 149)
  (r.1, min r.2 1023)

/-! ### Command epochs (R31, R32) -/

inductive EpochRel where
  | newer
  | equal
  | older
  deriving DecidableEq, Repr, Inhabited

def epochRel (h e : Half) : EpochRel :=
  if h = 0 then .newer
  else if e = h then .equal
  else if (e - h).toNat ≤ 32767 then .newer else .older

/-- The epoch step skips 0x0000. -/
def epochStep (e : Half) : Half := if e = 0xFFFF#16 then 1#16 else e + 1

/-- The newer of two epochs. -/
def epochMax (a b : Half) : Half :=
  if b = 0 then a else match epochRel a b with
    | .newer => b
    | _ => a

/-! ### Derating (R681) -/

/-- An OPZ4810-IE above +85 °C ambient. -/
def State.derated (s : State) : Bool := s.fab.hot && Config.isIE
/-- A worst-corner time bound, and a worst-corner rate, as R681 derates them. -/
def State.derateTime (s : State) (t : Nat) : Nat := if s.derated then t * 5 / 3 else t
def State.derateRate (s : State) (r : Nat) : Nat := if s.derated then r * 3 / 5 else r

/-! ### Fitness (R492, R496) -/

/-- Fitness in negotiation (R496). -/
def State.negFit (s : State) : Bool :=
  !s.place.unfit && s.fab.frameLost.isEmpty && s.time.firstLock && s.ring.en == .enabled && (s.ring.linkA || s.ring.linkB)

/-- FIT of R492. -/
def State.twinFit (s : State) : Bool :=
  s.negFit && (s.twin.role != .standby ||
    (!s.twin.unsynced &&
      (s.twin.partner.map (fun p => p.modelRev == word s.modelRev && p.tallyRev == word s.tallyRev)).getD false))

/-- FIT as it stands is noted. -/
def State.fitNow (s : State) : State := { s with twin := { s.twin with fit := s.twinFit } }
/-- TWIN_UNFIT where FIT has changed: its parameter holds bits 21 to 16 of TWIN_STAT (R492, R520; assumption). -/
def State.judgeFit (s : State) : State :=
  if s.twinFit = s.twin.fit then s else s.fitNow.raise 0xCC [u16 (s.fitNow.twinStat / 2 ^ 16 % 2 ^ 6)]

/-- The partner is FIT and STANDBY, as its latest heartbeat shows while a path is alive (R501, R516). -/
def State.partnerFit (s : State) : Bool :=
  (s.twin.pathT || s.twin.pathR) && (s.twin.partner.map (fun p => p.fit && p.role == .standby)).getD false

/-- The PHYs are off: in the hold-up sequence (R667), and without a beam (R25). -/
def State.phyOff (s : State) : Bool := s.sup.holdUp || s.fab.beamLost

/-! ### Outputs that hold (R88, R101) -/

/-- A role that is REPLACING: its engine's outputs hold (R101). -/
def State.roleDown (s : State) (id : Half) : Bool := s.place.roles.any (fun r => r.id == id && r.st == .replacing)
/-- An unfit SOLO tablet holds every output at its last commanded value (R88). -/
def State.unfitSolo (s : State) : Bool := s.place.unfit && s.twin.role == .solo

/-! ### Quality (R33, R35, R34) -/

def qOfCode (n : Nat) : Quality :=
  if n = 0 then .good else if n = 1 then .estimated else if n = 2 then .stale else if n = 3 then .offline else .invalid

/-- The more severe of two qualities (R35). -/
def qMax (a b : Quality) : Quality := if qCode a ≤ qCode b then b else a

/-- A value older than its freshness limit is treated as STALE, whatever code it carries (R34); a more severe code stays. -/
def qAged (q : Quality) (ageNs limitNs : Nat) : Quality := if limitNs < ageNs then qMax q .stale else q

end Sys2Proof.Machine
end

