-- ==== Sys2Proof/Machine/Units.lean ====
section
/-! DEFINITION. What several units share beyond Ops: the twin's role, epoch, fitness and mirror (spec/14_twin_operation.md), stamps
(R464), process values and state sets (R170–R174), the published copy of the Tally (R376), who holds what. -/

namespace Sys2Proof.Machine

open Sys2Proof

/-! ### Free values -/

/-! ### Stamps (R464) -/

/-- A stamp32 extended to TAI ns: from 2³¹ ns before now to 2³¹ − 1 ns after it. -/
def State.extendStamp (s : State) (st : Word) : Nat := ((s.tai : Int) + (st - word s.tai).toInt).toNat

/-! ### The twin (R491–R494, R505, R506) -/

def State.activeOrSolo (s : State) : Bool := s.twin.role == .active || s.twin.role == .solo
/-- Outputs are driven from start-up step 11 on (R346, R384, R578), until the power-fail warning (R667). -/
def State.driven (s : State) : Bool := 11 ≤ s.sup.step && !s.sup.holdUp && !s.fab.beamLost

/-- A tablet whose loops and Tally follow another one (R345, R393). -/
def State.follows (s : State) : Bool := s.twin.role == .standby || s.twin.role == .isolated

/-- Causes of TWIN_ROLE and TWIN_PROMOTED. -/
def cNegotiation : Nat := 0
def cSilence : Nat := 1
def cHandover : Nat := 2
def cLeaving : Nat := 3
def cDisabled : Nat := 4
def cNewerEpoch : Nat := 5
def cTie : Nat := 6
def cHeard : Nat := 7
def cOrder : Nat := 8
def cEnabled : Nat := 9
def cStart : Nat := 10

/-- Take an epoch and store it (R494, R499, R502). -/
def State.setEpoch (s : State) (e : Half) : State :=
  { s with twin := { s.twin with epoch := e, heard := epochMax s.twin.heard e, storedEpoch := e, flashEpoch := e } }

/-- A change of role raises TWIN_ROLE (R493). -/
def State.setRole (s : State) (r : TwinRole) (cause : Nat) : State :=
  let old := s.twin.role
  let s : State := { s with twin := { s.twin with role := r }, model := { s.model with mirrorReady := none } }
  (s.raise 0xC8 [u16 (roleCode old), u16 (roleCode r), u16 s.twin.epoch.toNat, u16 cause]).judgeFit

/-- NEGOTIATING begins (R493–R495). -/
def State.beginNegotiation (s : State) (cause : Nat) : State :=
  let s : State := { s with twin := { s.twin with
    negSince := some s.now, partner := none, pathT := false, pathR := false, lostT := false,
    lostR := false, differs := (false, false),
    e0 := epochMax s.twin.storedEpoch s.twin.flashEpoch } }
  s.setRole .negotiating cause

/-! ### Twin frames (R505) -/

/-- The partner's MAC address, TWIN_PEER_MAC (R497). -/
def State.peerMac (s : State) : Nat := s.fld rPeerMacHi 15 0 * 2 ^ 32 + (s.reg rPeerMacLo).toNat

/-- FLAGS of this tablet's twin frames (R505). -/
def State.twinFlags (s : State) : Nat :=
  let w := s.twin
  let fit := if w.role = .negotiating then s.negFit else s.twinFit
  b01 w.pathT + 2 * b01 w.pathR + 4 * b01 fit + 8 * b01 w.handover + 16 * b01 w.leaving + 32 * b01 w.unsynced
    + 64 * b01 w.resyncReq

/-- The fields of a twin frame after VERSION and KIND, up to STAMP. -/
def State.twinHead (s : State) (seq : Word) : List Fld :=
  [u16 s.houseId, u16 s.twin.epoch.toNat, u8 (roleCode s.twin.role), u8 s.twinFlags, u32 seq.toNat, u32 s.stamp32.toNat]

/-- The payload of a twin frame of KIND 1 HEARTBEAT or 2 MIRROR, its CRC last. -/
def State.twinPayload (s : State) (kind : Nat) (seq : Word) (body : List Byte) : List Byte :=
  let bs := layNet ([u8 1, u8 kind] ++ s.twinHead seq) ++ body
  bs ++ beBytes 4 (crc32c bs).toNat

/-- The bytes of a record's body that one MIRROR frame holds: a payload has at most 1 500. -/
def mirrorPart : Nat := 1476

/-- The frames that carry a record: its parts, each with TYPE, PFLAGS and LEN in front, in consecutive frames. -/
def mirrorParts (body : List Fld) : Nat := max 1 (((body.map (·.size)).sum + mirrorPart - 1) / mirrorPart)

def State.mirrorOuts (s : State) (typ : Nat) (body : List Fld) : List Output :=
  let q := s.twin.mirrorSeq
  let n := mirrorParts body
  let bs := layNet body
  let part (k : Nat) : Output :=
    let b := (bs.drop (mirrorPart * k)).take mirrorPart
    let b := b ++ List.replicate ((4 - b.length % 4) % 4) 0#8
    let head := [u8 typ, u8 (b01 (k == 0) + 2 * b01 (k + 1 == n)), u16 (b.length + 4)]
    .twinFrame s.peerMac none (s.twinPayload 2 (q + word k) (layNet head ++ b))
  .mirror q typ body :: (List.range n).map part

/-- Hand a record to crossing 0x08: none with house id 0x0000 (R29). -/
def State.mirrorAny (s : State) (typ : Nat) (body : List Fld) : State :=
  if s.houseId = 0 then s
  else
    let w := s.twin
    ({ s with twin := { w with mirrorSeq := w.mirrorSeq + word (mirrorParts body), mirrorRecs := w.mirrorRecs + 1 } }).crossAll
      (txXings 2) (s.mirrorOuts typ body)

/-- A record of the active to its standby. -/
def State.mirror (s : State) (typ : Nat) (body : List Fld) : State :=
  if s.twin.role = .active && s.twin.en ≠ .disabled then s.mirrorAny typ body else s

/-- A record between twins in either direction: METER, VERDICT and MARK (R506). -/
def State.mirrorTwin (s : State) (typ : Nat) (body : List Fld) : State :=
  if s.twin.en = .disabled || s.twin.role = .solo then s else s.mirrorAny typ body

/-- The IMAGE records of an image: parts of at most 1 024 bytes, in order (R506). -/
def State.mirrorImage (s : State) (image : Nat) (bs : List Byte) : State :=
  (List.range ((bs.length + 1023) / 1024)).foldl (fun s k =>
    let part := (bs.drop (1024 * k)).take 1024
    s.mirror 0x0A ([u8 image, u8 0, u16 part.length, u32 (1024 * k), u32 bs.length] ++ part.map (fun b => u8 b.toNat))) s

/-- The single-emitter bit of a station (R509). -/
def State.seStation (s : State) (id : Nat) : Bool := s.fld (rSeStn (id / 32)) (id % 32) (id % 32) == 1

/-! ### The Reckoner's ticks and state sets (R146, R163, R170, R171) -/

/-- The tick's instant: the latest whole multiple of the cadence. -/
def tickOf (cfg : ReckonCfg) (tai : Nat) : Nat := tai / (cfg.cadenceMs * msNs) * (cfg.cadenceMs * msNs)
/-- The latest Reckoner tick, on the grid in force (R146, R175). -/
def State.tickNow (s : State) : Nat := tickOf (s.reck.pendingCfg.getD s.reck.cfg) s.tai

def State.latestSet (s : State) : Option StateSet := s.reck.latest.bind (fun i => (s.reck.sets.getD i none))
def State.latestSolve (s : State) : Nat := (s.latestSet.map (·.number)).getD 0

/-- The full-solve bound in force, µs (R163, R681): it grows as kind 1 shrinks. -/
def State.fullSolveUs (s : State) : Nat :=
  let n := s.kindCount 1
  s.derateTime (if n < 96 && 0 < n then 40000 * 96 / n else 40000)

/-- The freshness limit of the reckoned state, ns (R171). -/
def State.stateLimit (s : State) : Nat := 2 * s.reck.cfg.cadenceMs * msNs + s.fullSolveUs * usNs
/-- No state, or one older than its limit. -/
def State.stateStale (s : State) : Bool := match s.latestSet with
  | some x => decide (x.tickTai + s.stateLimit < s.tai)
  | none => true
def State.stateDegraded (s : State) : Bool := (s.latestSet.map (fun x => x.status == 1)).getD false

/-- Pin the latest set for an owner, and release an owner's pin (R170). -/
def State.pinLatest (s : State) (owner : Nat) : State :=
  match s.reck.latest with
  | some i => { s with reck := { s.reck with pins := s.reck.pins ++ [(owner, i)] } }
  | none => s
def State.unpin (s : State) (owner : Nat) : State :=
  { s with reck := { s.reck with pins := s.reck.pins.filter (fun p => p.1 != owner) } }

/-! ### Process values (R172, R173, R353, R438, R439) -/

def PvEntry.stamp (e : PvEntry) : Word := word e.at_
def pvInvalid : PvEntry := ⟨0, 0, .invalid, 0, 0, 0⟩
def pvZero : PvEntry := ⟨0, 0, .good, 0, 0, 0⟩

/-- An entry of the Reckoner's part, by its index (byte offset ÷ 16). -/
def State.reckEntry (s : State) (i : Nat) : PvEntry :=
  if i < 0x8B60 then
    if between 0x8B40 0x8B5F i && i % 8 == 7 then pvZero
    else (s.latestSet.bind (fun x => alGet x.entries i)).getD pvInvalid
  else if i < 0x8B68 then s.reck.status.getD (i - 0x8B60) pvZero
  else pvZero

/-- The nominal line period in ns (R445). -/
def State.nominalNs (s : State) : Nat := if s.fld rClkCtl 24 24 = 1 then 16666667 else 20000000

/-- The latest decimated sample of a channel (R403): scaled value, quality, stamp. -/
def State.chanSample (s : State) (n : Nat) : F32 × Quality × Nat :=
  let c := s.chan n
  let v := fMul (fSub c.x (s.reg (rChOfs n))) (s.reg (rChGain n))
  let bad := c.st != .locked || !c.good || c.clipped || c.at_.isNone || s.xingStopped 0x0D || c.uncal
  (v, if bad then .invalid else .good, c.at_.getD 0)

/-- A mirrored value reads OFFLINE while the twin port is down (R435). -/
def State.mirroredPv (s : State) (mirrored : Bool) (e : PvEntry) : PvEntry :=
  if mirrored && !s.twin.pathT then { e with quality := .offline } else e

def State.meterEntry (s : State) (i : Nat) : PvEntry :=
  if between 0xA000 0xA17F i then
    let c := (i - 0xA000) / 32
    let k := (i - 0xA000) % 32
    match s.circ c with
    | some x => if k < 23 then s.mirroredPv x.mirrored (x.pv.getD k pvInvalid) else pvZero
    | none => pvInvalid
  else if between 0xA200 0xA21F i then
    let v := s.chanSample (i - 0xA200)
    ⟨v.1, v.2.2, v.2.1, 0, 0, 0⟩
  else if between 0xB000 0xB8FF i then
    let c := (i - 0xB000) / 192
    let j := (i - 0xB000) / 32 % 6
    match s.circ c with
    | some x => s.mirroredPv x.mirrored ((x.harm.getD j []).getD (i % 32) pvInvalid)
    | none => pvInvalid
  else pvZero

def State.heatEntry (s : State) (i : Nat) : PvEntry :=
  if between 0xD000 0xD1FF i then
    let k := (i - 0xD000) % 8
    match s.point ((i - 0xD000) / 8) with
    | some x => if k < 7 then s.mirroredPv x.mirrored (x.pv.getD k pvInvalid) else pvZero
    | none => pvInvalid
  else if between 0xD400 0xD50F i then
    let k := (i - 0xD400) % 4
    match alGet s.meter.aggs ((i - 0xD400) / 4) with
    | some x => if k < 3 then x.pv.getD k pvInvalid else pvZero
    | none => pvInvalid
  else pvZero

def State.loopOf (s : State) (n : Nat) : Option Loop := alGet s.loops.loops n

def State.loopEntry (s : State) (i : Nat) : PvEntry :=
  if between 0xE000 0xEFFF i then
    match s.loopOf ((i - 0xE000) / 8) with
    | some x => x.pv.getD (i % 8) pvInvalid
    | none => pvInvalid
  else pvZero

/-- An entry of the process-value area. -/
def State.pvEntry (s : State) (i : Nat) : PvEntry :=
  if i < 0xA000 then s.reckEntry i
  else if i < 0xD000 then s.meterEntry i
  else if i < 0xE000 then s.heatEntry i
  else s.loopEntry i

/-- The freshness limit of an entry in ns, none where no limit is given. -/
def State.pvLimit (s : State) (i : Nat) : Option Nat :=
  if i < 0x8B70 then some s.stateLimit
  else if between 0xA000 0xA17F i then (s.circ ((i - 0xA000) / 32)).map (fun x => 3 * x.cfg.windowN * s.nominalNs)
  else if between 0xB000 0xB8FF i then (s.circ ((i - 0xB000) / 192)).map (fun x => 3 * x.cfg.windowN * s.nominalNs)
  else if between 0xD000 0xD1FF i then some (3 * s.fld rHeatCtl 9 0 * msNs)
  else if between 0xD400 0xD50F i then some (2 * s.meter.billS * secNs)
  else if between 0xE000 0xEFFF i then (s.loopOf ((i - 0xE000) / 8)).map (fun x => 2 * u32At x.desc 4 * usNs)
  else none

/-- The quality of an entry now, its age held to its freshness limit (R34, R439). -/
def State.pvQuality (s : State) (i : Nat) : Quality :=
  let e := s.pvEntry i
  match s.pvLimit i with
  | some lim => qAged e.quality (s.tai - e.at_) lim
  | none => e.quality

/-! ### The Tally's published copy (R313, R376) -/

def State.tallyStopped (s : State) : Bool := s.tally.run == .stopped
def State.pubMarker (s : State) (n : Nat) : Bool := Mem.bit s.tally.pubMarkers n
def State.pubWord (s : State) (n : Nat) : Word := Mem.word s.tally.pubWords (4 * n)
/-- The writers of a station in the running program. -/
def State.tallyWriters (s : State) (id : Nat) : List Nat := ((s.tally.prog.bind (fun p => alGet p.writers id))).getD []

/-! ### Who is configured, and what receivers hold -/

def State.stnConfigured (s : State) : List Nat := s.stn.ctxs.map (fun c => c.cfg.station)
def State.circConfigured (s : State) (c : Nat) : Bool := (s.circ c).isSome
def State.loopExists (s : State) (n : Nat) : Bool := (s.loopOf n).isSome
def State.loopSp (s : State) (n : Nat) : F32 := ((s.loopOf n).map (·.sp)).getD 0
/-- A transmit object that the rollout sequencer owns (R274, R574). -/
def State.busTxExists (s : State) (b o : Nat) : Bool := s.busOwner b o == some 2
def State.busFloat (s : State) (b o : Nat) : F32 :=
  let x := (s.bus b).txObj o
  rawOf x.big 0 0 x.bytes

/-- The house key hash that images are checked against (R133, R635). -/
def State.fuse (s : State) : List Byte := s.fuses.house

end Sys2Proof.Machine
end

