-- ==== Sys2Proof/Machine/OptCore.lean ====
section
/-! DEFINITION. The optimiser's layers, their summaries and how both layers stop (spec/07_dispatch_optimiser.md, R232, R236, R237,
R243). -/

namespace Sys2Proof.Machine

open Sys2Proof

/-! ### Layers -/

def layerCode : Layer → Nat
  | .day => 0
  | .pressure => 1
def layerPeriod : Layer → Nat
  | .day => 900
  | .pressure => 30
def layerSteps : Layer → Nat
  | .day => 96
  | .pressure => 20
/-- The owner number of a layer solve's pin (R170). -/
def pinLayer : Layer → Nat
  | .day => 1
  | .pressure => 2

def State.layer (s : State) : Layer → LayerSt
  | .day => s.opt.day
  | .pressure => s.opt.pressure
def State.setLayer (s : State) (y : Layer) (x : LayerSt) : State :=
  { s with opt := match y with
    | .day => { s.opt with day := x }
    | .pressure => { s.opt with pressure := x } }

/-! ### Summaries (R243) -/

/-- PLAN_SUMMARY's body (R243). -/
def planBody (y : Layer) (p : Plan) (reason : Nat) : List Fld :=
  [u32 p.number, u8 (layerCode y), u8 p.status, u8 reason, u8 p.relax, u32 (p.boundary % 2 ^ 32), u32 p.solve, u16 p.iters,
   u16 p.flags, u32 p.durationUs, f32 p.objective, f32 p.cost, f32 p.carbon, f32 p.unmet, u16 p.handed, u16 p.withheld,
   f32 p.primal]

/-- Post PLAN_SUMMARY while SUMMARY is 1 in the configuration of the solve (R239); its SKIPPED flag is that of the layer. -/
def State.postPlan (s : State) (c : OptCfg) (y : Layer) (p : Plan) (reason : Nat) : State :=
  let x := s.layer y
  if c.summary then
    let p := { p with flags := p.flags + (if x.skippedSince then 128 else 0) }
    (s.setLayer y { x with skippedSince := false }).report 3 0x0005 (planBody y p reason)
  else s

/-- A plan record without numbers. -/
def barePlan (number status boundary solve flags durationUs : Nat) : Plan :=
  { (default : Plan) with
    number := number, status := status, boundary := boundary, solve := solve, flags := flags, durationUs := durationUs }

/-! ### Ends of both layers (R236–R238) -/

/-- The optimiser reaches DISABLED when both layers are idle (R236). -/
def State.settleOpt (s : State) : State :=
  if s.opt.en = .quiescing && s.opt.day.run.isNone && s.opt.pressure.run.isNone then
    ({ s with opt := { s.opt with en := .disabled } }).raise 0x47 [u16 s.opt.retired]
  else s

/-- A layer's solve under way ends without report, its pin is released, and no boundary waits (R238). -/
def State.layerDrop (s : State) (y : Layer) : State :=
  let x := s.layer y
  let s : State := (s.setLayer y { x with due := none, run := none }).unpin (pinLayer y)
  if x.run.isSome then { s with opt := { s.opt with retired := s.opt.retired + 1 } } else s

/-- The layers' solves under way end without report (R238, R502). -/
def State.optDrop (s : State) : State := ((s.layerDrop .day).layerDrop .pressure).settleOpt

/-- A layer of an optimiser without beads (R237): a solve under way publishes nothing, its plan in force stands, and PLAN_SUMMARY is
posted once, FAILED with the flag SHED. -/
def State.layerShed (s : State) (y : Layer) : State :=
  let x := s.layer y
  let p : Plan := match x.run with
    | some r => barePlan r.number 4 r.boundary r.solve (r.flags + 64) ((s.now - r.startedAt) / usNs)
    | none => barePlan x.plans 4 (s.tai / secNs / layerPeriod y * layerPeriod y) 0 64 0
  let c := (x.run.map (·.cfg)).getD s.opt.cfg
  let s : State := s.layerDrop y
  let s : State := s.setLayer y { s.layer y with coldNext := true, shedTold := true }
  if x.shedTold then s else s.postPlan c y p 0

def State.optShed (s : State) : State := ((s.layerShed .day).layerShed .pressure).settleOpt

end Sys2Proof.Machine
end

