-- ==== Sys2Proof/Machine/Fabric.lean ====
section
/-! DEFINITION. The fabric's commands (spec/02_clockless_fabric.md) and the placement's (spec/03_role_placement.md). -/

namespace Sys2Proof.Machine

open Sys2Proof

/-! ### Parts, roles and the directory -/

def State.deck (s : State) (d : Nat) : Deck := s.fab.decks.getD d default
def State.modDeck (s : State) (d : Nat) (f : Deck → Deck) : State :=
  { s with fab := { s.fab with decks := s.fab.decks.modify d f } }

def deckOf (bead : Nat) : Nat := bead / 64
def frameOf (bead : Nat) : Nat := bead / 256
/-- Role kind, incarnation and move count (R80, R81). -/
def roleKind (id : Half) : Nat := id.toNat / 4096
def roleIdOf (kind index : Nat) : Half := BitVec.ofNat 16 (kind * 4096 + index)
def incarnation (e : Half) : Nat := e.toNat / 256
/-- The epoch with its move count incremented (R81). -/
def epochMoved (e : Half) : Half := BitVec.ofNat 16 (e.toNat / 256 * 256 + (e.toNat + 1) % 256)
/-- The epoch of a role created anew: incarnation incremented, move count 0 (R81). -/
def epochReborn (e : Half) : Half := BitVec.ofNat 16 ((e.toNat / 256 + 1) % 256 * 256)
/-- Kinds 4–8 are wake-pinned (R58, R83). -/
def wakePinned (kind : Nat) : Bool := between 4 8 kind

def State.role (s : State) (id : Half) : Option Role := s.place.roles.find? (fun r => r.id == id)
def State.modRole (s : State) (id : Half) (f : Role → Role) : State :=
  { s with place := { s.place with roles := s.place.roles.map (fun r => if r.id == id then f r else r) } }

/-- The deck temperature in quarter degrees above −64 °C that a number of °C stands for (R76). -/
def tempOf (c : Nat) : Nat := (c + 64) * 4
def State.shedC (s : State) : Nat := s.fld rThermCtl 6 0

/-- A deck a role may move to: not in thermal shedding, isolated or tripped, and not within 5 °C of SHED_C (R89 rule 7). -/
def State.deckEligible (s : State) (d : Nat) : Bool :=
  d < 8 && (match (s.deck d).st with
    | .isolated | .tripped => false
    | _ => true) && !(s.deck d).hot && !s.fab.deckFail.contains d && !s.fab.frameLost.contains (d / 4)
    && (s.deck d).temp < tempOf (s.shedC - 5)

def DeckSt.awake : DeckSt → Bool
  | .active | .shedding => true
  | _ => false
def State.deckAwake (s : State) (d : Nat) : Bool := (s.deck d).st.awake
def DeckSt.asleep : DeckSt → Bool
  | .retention | .waking => true
  | _ => false
def State.deckAsleep (s : State) (d : Nat) : Bool := (s.deck d).st.asleep

/-- The 2 ms of R57 start again. -/
def State.stir (s : State) (d : Nat) : State := s.modDeck d (fun k => { k with idleSince := s.now })
/-- A deck in retention begins to wake. -/
def State.wakeDeck (s : State) (d : Nat) : State :=
  s.modDeck d (fun k => { k with st := if k.st = .retention then .waking else k.st })

def State.deckHoldsPinned (s : State) (d : Nat) : Bool :=
  s.place.live.any (fun r => wakePinned (roleKind r.id) && deckOf r.bead == d)
/-- A move leaves or reaches the deck: handshakes are open in it. -/
def State.deckMoves (s : State) (d : Nat) : Bool :=
  s.place.live.any (fun r => match r.move with
    | some m => deckOf m.from_ == d || deckOf m.target == d
    | none => false)

/-- The frame that a wake-pinned role on `bead` may have its checkpoint in (R89 rule 3, R91). -/
def State.ckptFrameOk (s : State) (bead ck : Nat) : Bool :=
  if s.fab.frameLost.isEmpty then ck / 4 != frameOf bead else ck / 4 == frameOf bead

/-- Where a checkpoint of a role on `bead` may be written (R89 rules 2 and 3, R91). -/
def State.ckptOk (s : State) (id : Half) (bead ck : Nat) : Bool :=
  ck < 8 && ck != deckOf bead && !s.fab.deckFail.contains ck && !s.fab.frameLost.contains (ck / 4) &&
  (!wakePinned (roleKind id) || (s.ckptFrameOk bead ck && s.deckHoldsPinned ck))

/-- The deck that a role's checkpoint is written to: the one that holds it while R89 to R91 allow that, else the lowest-numbered one
they allow (assumption). -/
def State.ckptPlace (s : State) (r : Role) : Option Nat :=
  match r.ckpt.filter (s.ckptOk r.id r.bead) with
  | some d => some d
  | none => (List.range 8).find? (s.ckptOk r.id r.bead)

/-- A role at a checkpoint point of its kind writes its checkpoint (R83, R90, R91): an access of the memory of the deck that holds it,
which wakes one in retention (R57). -/
def State.checkpoint (s : State) (id : Half) : State :=
  match s.role id with
  | some r =>
    if r.st = .running then match s.ckptPlace r with
      | some d => ((s.modRole id (fun r => { r with ckpt := some d })).wakeDeck d).stir d
      | none => s
    else s
  | none => s

/-- Every role of a kind writes its checkpoint. -/
def State.checkpointKind (s : State) (k : Nat) : State :=
  (s.place.live.filter (fun r => roleKind r.id == k)).foldl (fun s r => s.checkpoint r.id) s

/-- A role may restart on `bead` with the checkpoint where it stands (R100, R89 rules 2 and 3). -/
def State.restartOk (s : State) (r : Role) (bead : Nat) : Bool :=
  match r.ckpt with
  | some ck => ck != deckOf bead && (!wakePinned (roleKind r.id) || s.ckptFrameOk bead ck)
  | none => true

/-- A bead a role may take: working, holding no role, on an eligible deck (R89 rules 1, 4 and 7). -/
def State.beadFree (s : State) (b : Nat) : Bool := s.beadWorks b && !s.beadHeld b && s.deckEligible (deckOf b)
/-- Beads that a re-placed role could take now. -/
def State.freeBeads (s : State) : Nat := ((List.range 512).filter s.beadFree).length

/-- A role that waits for a bead, its own having been lost. -/
def State.needsBead (s : State) (r : Role) : Bool := r.st == .replacing && !s.beadWorks r.bead

/-! ### Degradation, shedding and fitness (R86–R88) -/

def State.setCount (s : State) (k n : Nat) : State :=
  { s with place := { s.place with counts := s.place.counts.set (k - 1) n } }

/-- The scaled bounds of R87: µs of a full solve, thousandths of real time as the look-ahead speed, µs of the day layer's solve and
of the pressure layer's (assumption), derated where R681 asks. -/
def State.scaledBounds (s : State) (k n : Nat) : List Nat :=
  let time (v : Nat) : Nat := if n = 0 then 0 else s.derateTime (v * 96 / n)
  if k = 1 then [time 40000]
  else if k = 2 then [s.derateRate (40000 * n / 160)]
  else [time 20000000, time 2000000]

/-- DEGRADED_BOUNDS (R87, R105). -/
def State.tellBounds (s : State) (k n : Nat) : State := s.raise 0x24 ([u16 k, u16 n] ++ (s.scaledBounds k n).map u32)

/-- A new bead count of a solver kind, with DEGRADED_BOUNDS where it changes below its default (R87). -/
def State.changeCount (s : State) (k n : Nat) : State :=
  let s' : State := s.setCount k n
  if n < defaultCounts.getD (k - 1) 0 && n != s.kindCount k then s'.tellBounds k n else s'

/-- RESERVE_LOW when the reserve falls below 8. -/
def State.noteReserve (s : State) (before : Nat) : State :=
  if 8 ≤ before && s.reserve < 8 then s.raise 0x28 [u16 s.reserve] else s

/-- Acknowledge tokens. -/
def State.ackAll (s : State) (a : Ack) (ts : List Token) : State :=
  { s with out := s.out ++ ts.map (fun t => Output.ack t a) }

/-- A token for a retired role or a stale incarnation is dropped and counted, for the tablet and for the role id (R98). -/
def State.dropRetired (s : State) (t : Token) : State :=
  let n := t.role.toNat
  let s : State := { s with place := { s.place with
    retiredDrop := satInc s.place.retiredDrop
    drops := alPut s.place.drops n ((alGet s.place.drops n).getD 0 + 1) } }
  (s.emit (.ack t .void)).raiseTimed 0x26 n [u16 n]

/-- The Shifter reaches DISABLED once no move is past its commit point (R93). -/
def State.settleShifter (s : State) : State :=
  if s.place.shiftEn = .quiescing && !s.place.roles.any (fun r => r.move.isSome) then
    ({ s with place := { s.place with shiftEn := .disabled } }).raise 0x2A [u32 s.place.abandoned]
  else s

/-- A role without a move retires: the tokens that waited for it meet a RETIRED entry and are dropped (R98, R99). -/
def State.retireNow (s : State) (id : Half) : State :=
  match s.role id with
  | some r => (r.waiting ++ r.resend).foldl State.dropRetired
      (s.modRole id (fun r => { r with st := .retired, move := none, waiting := [], resend := [], retireAfter := false }))
  | none => s

/-- Retire a role: at once, or after the drain fence of its move has closed (R99). -/
def State.retire (s : State) (id : Half) : State :=
  match s.role id with
  | some r => if r.move.isSome then s.modRole id (fun r => { r with retireAfter := true }) else s.retireNow id
  | none => s

/-- Retirements whose moves have ended. -/
def State.settleRetire (s : State) : State :=
  (s.place.roles.filter (fun r => r.retireAfter && r.move.isNone && r.st != .retired)).foldl (fun s r => s.retireNow r.id) s

/-- The live role of a kind with the highest index that is not retiring yet and passes `p`: the one that is retired first. -/
def State.lastRole (s : State) (k : Nat) (p : Role → Bool) : Option Role :=
  (s.place.live.filter (fun r => roleKind r.id == k && !r.retireAfter && p r)).foldl
    (fun a r => match a with
      | some b => if b.id.toNat < r.id.toNat then some r else a
      | none => some r) none

def State.retireN : Nat → Nat → State → State
  | 0, _, s => s
  | n + 1, k, s =>
    match s.lastRole k (fun _ => true) with
    | some r => State.retireN n k (s.retire r.id)
    | none => s

/-- Roles that wait for a bead, less the beads that are free or about to be: what R86 must still free. -/
def State.shortage (s : State) : Nat :=
  (s.place.roles.filter s.needsBead).length
    - (s.freeBeads + (s.place.live.filter (fun r => r.retireAfter && s.deckEligible (deckOf r.bead))).length)

/-- Retire roles of kind `k` that stand on eligible decks, or that wait for a bead themselves, until no shortage is left: at most
`n` of them. Answers how many. -/
def State.shedRoles : Nat → Nat → State → State × Nat
  | 0, _, s => (s, 0)
  | n + 1, k, s =>
    if s.shortage = 0 then (s, 0)
    else match s.lastRole k (fun r => s.needsBead r || s.deckEligible (deckOf r.bead)) with
      | some r =>
        let q := State.shedRoles n k (s.retire r.id)
        (q.1, q.2 + 1)
      | none => (s, 0)

/-- One shed step: shrink kind `k` toward `floor` by as many beads as the fault requires (R86). -/
def State.shedStep (s : State) (k floor : Nat) : State :=
  let have_ := s.kindCount k
  let r := State.shedRoles (have_ - floor) k s
  if r.2 = 0 then s else (r.1.changeCount k (have_ - r.2)).raise 0x23 [u16 k, u16 have_, u16 (have_ - r.2)]

/-- The shed order of R86. -/
def State.shed (s : State) : State :=
  let t : State := (((s.shedStep 3 16).shedStep 2 64).shedStep 1 48).shedStep 3 0
  if s.kindCount 3 ≠ 0 && t.kindCount 3 = 0 then t.optShed else t

/-- An ACTIVE with a FIT partner sets HANDOVER (R501). -/
def State.startHandover (s : State) : State :=
  if s.twin.role = .active && s.partnerFit then
    { s with twin := { s.twin with handover := true } }
  else s

/-- UNFIT when fewer than 224 beads still work (R88). -/
def State.judgeUnfit (s : State) : State :=
  if s.workingBeads < 224 && !s.place.unfit then
    (({ s with place := { s.place with unfit := true } }).raise 0x29 [u16 s.workingBeads]).startHandover
  else s

/-! ### Isolation (R20, R71, R97, R100) -/

def partBeads : Part → List Nat
  | .bead n => [n]
  | .rod n => (List.range 8).map (fun i => n * 8 + i)
  | .deck n => (List.range 64).map (fun i => n * 64 + i)

def partRods : Part → List Nat
  | .bead _ => []
  | .rod n => [n]
  | .deck n => (List.range 8).map (fun i => n * 8 + i)

def addAll (l m : List Nat) : List Nat := l ++ m.filter (fun n => !l.contains n)

/-- What the loss of beads does to one role (R97, R100): the role afterwards, the tokens it completes void and those the role takes on
its old bead, and whether a move of it ends before commit. -/
structure Loss where
  role : Role
  void : List Token
  normal : List Token
  abandoned : Bool

/-- Direct tokens join those held at the new bead, up to 32 of them; the rest are held in their senders (R96). -/
def Move.hold (m : Move) (ts : List Token) : Move :=
  let all := m.held ++ m.withheld ++ ts
  { m with held := all.take 32, withheld := all.drop 32 }

/-- A role's checkpoint is lost with its deck (R53, R91). -/
def Role.loseCkpt (r : Role) (lostDecks : List Nat) : Role :=
  { r with ckpt := r.ckpt.filter (fun d => !lostDecks.contains d) }

/-- A move of the role under way, with the tokens it keeps. -/
def Move.tokens (m : Move) : List Token := m.queued ++ m.forwarding ++ m.held ++ m.withheld

/-- The role's own bead is lost: REPLACING, its move's tokens completed void and re-sent later. -/
def Role.loseBead (r : Role) (now : Nat) : Loss :=
  let ts := (r.move.map (·.tokens)).getD []
  { role := { r with
      st := .replacing, failedBead := r.bead, since := if r.st = .replacing then r.since else now, move := none,
      resend := r.resend ++ ts }
    void := ts, normal := [], abandoned := (r.move.map (fun m => !m.committed)).getD false }

def loseRole (now : Nat) (dead lostDecks : List Nat) (r : Role) : Loss :=
  let r := r.loseCkpt lostDecks
  if r.st = .retired then ⟨r, [], [], false⟩
  else if dead.contains r.bead then r.loseBead now
  else match r.move with
    | some m =>
      if !m.committed && dead.contains m.target then ⟨{ r with st := .running, move := none }, [], m.queued, true⟩
      else if m.committed && dead.contains m.from_ then
        let m' : Move := { m with sweeps := [], forwarding := [] }
        if r.st = .replacing then ⟨{ r with move := some m', resend := r.resend ++ m.forwarding }, m.forwarding, [], false⟩
        else ⟨{ r with move := some (m'.hold m.forwarding) }, m.forwarding, [], false⟩
      else ⟨r, [], [], false⟩
    | none => ⟨r, [], [], false⟩

/-- Beads and decks are lost: the roles they held are re-placed, shedding where the reserve is too small; retirements and the
Shifter's quiescing whose moves have ended complete (R93, R99). -/
def State.loseBeads (s : State) (dead lostDecks : List Nat) : State :=
  let before := s.reserve
  let ls := s.place.roles.map (loseRole s.now dead lostDecks)
  let gone := ls.filter (·.abandoned)
  let s : State := { s with place := { s.place with
    roles := ls.map (·.role), abandoned := s.place.abandoned + gone.length } }
  let s : State := (s.ackAll .void (ls.flatMap (·.void))).ackAll .normal (ls.flatMap (·.normal))
  let s : State := gone.foldl (fun s l => s.raise 0x22 [u16 l.role.id.toNat, u16 2]) s
  let s : State := s.settleRetire.shed.judgeUnfit.noteReserve before
  s.settleShifter.judgeFit

/-- What is held at a deck's boundary is completed void. -/
def Arrival.void : Arrival → Output
  | .token t _ _ => .ack t .void
  | .access _ => .memAck .void

/-- The tokens and accesses held at the boundary of an isolated deck are completed void (R71). -/
def State.voidHeld (s : State) (p : Part) : State :=
  match p with
  | .deck d => { s with out := s.out ++ (s.deck d).held.map Arrival.void }
  | _ => s

/-- Mark a part and everything in it as isolated (R71). -/
def State.markFailed (s : State) (p : Part) : State :=
  let f := s.fab
  let s : State := { s with fab := { f with
    beadFail := addAll f.beadFail (partBeads p), rodFail := addAll f.rodFail (partRods p),
    deckFail := match p with
      | .deck d => addAll f.deckFail [d]
      | _ => f.deckFail } }
  match p with
  | .deck d => s.modDeck d (fun k => { k with st := if k.st = .tripped then .tripped else .isolated, held := [] })
  | _ => s

/-- A frame is lost (R24): its beads are gone, its checkpoints too (R91); the tablet hands over where it can. -/
def State.loseFrame (s : State) (fr cause : Nat) : State :=
  if s.fab.frameLost.contains fr then s
  else
    let s : State := ({ s with fab := { s.fab with frameLost := s.fab.frameLost ++ [fr] } }).raise 0x13 [u16 fr, u16 cause]
    (s.loseBeads ((List.range 256).map (fun i => fr * 256 + i)) ((List.range 4).map (fun i => fr * 4 + i))).startHandover

/-- Isolate a part after its fault event has been raised: open handshakes void, bits set, roles re-placed; a frame whose four
decks are all isolated is lost (cause 3). -/
def State.isolate (s : State) (p : Part) : State :=
  let s : State := (s.voidHeld p).markFailed p
  let lostDecks := match p with
    | .deck d => [d]
    | _ => []
  let s : State := s.loseBeads (partBeads p) lostDecks
  match p with
  | .deck d =>
    let fr := d / 4
    if (List.range 4).all (fun i => s.fab.deckFail.contains (fr * 4 + i)) then s.loseFrame fr 3 else s
  | _ => s

/-- The fault event of a part (R78). -/
def State.faultEvent (s : State) (p : Part) (check : Nat) : State :=
  match p with
  | .bead n => s.raise 0x10 [u16 n, u16 check]
  | .rod n => s.raise 0x11 [u16 n, u16 check]
  | .deck n => s.raise 0x12 [u16 n, u16 check, u16 (s.deck n).rail, u16 (s.deck n).temp]

/-- A part that has isolated already does nothing more. -/
def State.partDown (s : State) : Part → Bool
  | .bead n => !s.beadWorks n
  | .rod n => s.fab.rodFail.contains n || s.fab.deckFail.contains (n / 8)
  | .deck n => s.fab.deckFail.contains n || 8 ≤ n

def State.partFault (s : State) (p : Part) (check : Nat) : State :=
  if s.partDown p then s else (s.faultEvent p check).isolate p

/-! ### Tokens (R48, R95–R98, R101) -/

/-- What reaches the boundary of a sleeping deck is held there, and the deck wakes (R59). -/
def State.holdAtDeck (s : State) (d : Nat) (a : Arrival) : State :=
  s.modDeck d (fun k => { k with st := if k.st = .retention then .waking else k.st, held := k.held ++ [a] })

/-- A token for a REPLACING role is held at the routers, up to 32; a further one is answered void and re-sent later (R101). -/
def State.waitToken (s : State) (id : Half) (t : Token) : State :=
  match s.role id with
  | some r =>
    if r.waiting.length < 32 then s.modRole id (fun r => { r with waiting := r.waiting ++ [t] })
    else (s.modRole id (fun r => { r with resend := r.resend ++ [t] })).emit (.ack t .void)
  | none => s.dropRetired t

/-- A token reaches `bead` for a role with a move under way (R95, R96). -/
def State.tokenMoving (s : State) (r : Role) (m : Move) (t : Token) (bead : Nat) (forwarded : Bool) : State :=
  let put (f : Move → Move) : State := s.modRole r.id (fun r => { r with move := some (f m) })
  if !m.committed then
    if bead = r.bead then put (fun m => { m with queued := m.queued ++ [t] }) else s.emit (.ack t .void)
  else if forwarded then
    -- delivered as it arrives, or never again
    if bead = r.bead && m.forwarding.contains t then (put (fun m => { m with forwarding := m.forwarding.erase t })).emit (.ack t .normal)
    else s.emit (.ack t .void)
  else if bead = m.from_ then (put (fun m => { m with forwarding := m.forwarding ++ [t] })).emit (.forward t r.bead)
  else if bead = r.bead then put (fun m => m.hold [t])
  else s.emit (.ack t .void)

/-- A token reaches `bead` for a live role that runs or moves. -/
def State.tokenAt (s : State) (r : Role) (t : Token) (bead : Nat) (forwarded : Bool) : State :=
  match r.move with
  | some m => s.tokenMoving r m t bead forwarded
  | none => s.emit (.ack t (if bead = r.bead then .normal else .void))

/-- A token for a REPLACING role; a forwarded one leaves the stub's list. -/
def State.tokenWaits (s : State) (r : Role) (t : Token) (forwarded : Bool) : State :=
  match r.move with
  | some m =>
    if forwarded then (s.modRole r.id (fun r => { r with move := some { m with forwarding := m.forwarding.erase t } })).waitToken r.id t
    else s.waitToken r.id t
  | none => s.waitToken r.id t

/-- A token is on its way to `bead` (R48): one acknowledge, or it is held. -/
def State.tokenComes (s : State) (t : Token) (bead : Nat) (forwarded : Bool) : State :=
  match s.role t.role with
  | none => s.dropRetired t
  | some r =>
    if r.st = .retired || incarnation t.epoch ≠ incarnation r.epoch then s.dropRetired t
    else if r.st = .replacing then s.tokenWaits r t forwarded
    else if s.deckAsleep (deckOf bead) then s.holdAtDeck (deckOf bead) (.token t bead forwarded)
    else
      let s : State := s.stir (deckOf bead)
      if s.beadWorks bead then s.tokenAt r t bead forwarded else s.emit (.ack t .void)

/-- The bead that a router's cache of the directory holds for a role (R82): the old one until the router's sweep (step 4). -/
def Role.cachedBead (r : Role) (router : Nat) : Nat :=
  match r.move with
  | some m => if m.committed && m.sweeps.contains router then m.from_ else r.bead
  | none => r.bead

/-- TOKEN_ARRIVAL (R82, R95): a token is routed by the cache of the router it first enters; a forwarded one goes to the new holder. -/
def State.tokenArrival (s : State) (t : Token) (via : TokenVia) (place : Nat) : State :=
  match via, s.role t.role with
  | .router, some r => s.tokenComes t (r.cachedBead place) false
  | .stub, some r => s.tokenComes t r.bead true
  | .port, _ => s.tokenComes t place false
  | _, none => s.dropRetired t

def execTokenArrival (t : Token) (via : TokenVia) (place : Nat) (s : State) : Host.Outcome State Fault Refusal :=
  .next (s.tokenArrival t via place)

/-! ### Memories (R52–R54) -/

def memCode : MemKind → Nat
  | .beadStore => 0
  | .rodScratch => 1
  | .deckMemory => 2
  | .lpddr => 3
  | .tallyCode => 4

/-- A single-bit error is corrected, written back and counted. -/
def State.eccSingle (s : State) (m : MemKind) (idx addr : Nat) : State :=
  ({ s with fab := { s.fab with eccCe := satInc s.fab.eccCe } }).raise 0x14 [u16 (memCode m), u16 idx, u32 addr]

def addLine (l : List (MemKind × Nat × Nat)) (x : MemKind × Nat × Nat) : List (MemKind × Nat × Nat) :=
  if l.contains x then l else l ++ [x]

/-- The checkpoint that a poisoned line of deck memory held is lost (R53). -/
def State.poisonCkpt (s : State) (m : MemKind) (idx : Nat) (ckptOf : Option Half) : State :=
  match m, ckptOf with
  | .deckMemory, some id => s.modRole id (fun r => { r with ckpt := r.ckpt.filter (fun d => d != idx) })
  | _, _ => s

/-- A double-bit error is counted and isolates the bead or rod by its first check, or poisons the 64-byte line. -/
def State.eccDouble (s : State) (m : MemKind) (idx addr : Nat) (ckptOf : Option Half) : State :=
  let s : State := ({ s with fab := { s.fab with eccUe := satInc s.fab.eccUe } }).raise 0x15
    [u16 (memCode m), u16 idx, u32 (addr / 64 * 64)]
  match m with
  | .beadStore => s.partFault (.bead idx) 0
  | .rodScratch => s.partFault (.rod idx) 0
  | _ => ({ s with fab := { s.fab with poisoned := addLine s.fab.poisoned (m, idx, addr / 64) } }).poisonCkpt m idx ckptOf

/-- A role receives a poison acknowledge (R53): it restarts from its checkpoint; a move of it that has not committed is abandoned, and
the tokens queued at the bead wait with the others (assumption). -/
def State.poisonReader (s : State) (id : Half) : State :=
  let down (r : Role) : Role := { r with st := .replacing, failedBead := r.bead, since := s.now }
  match s.role id with
  | some r =>
    match r.st, r.move with
    | .running, _ => s.modRole id down
    | .moving, some m =>
      let s : State := { s with place := { s.place with abandoned := s.place.abandoned + 1 } }
      let s : State := (s.modRole id (fun r => { down r with move := none })).raise 0x22 [u16 id.toNat, u16 3]
      (m.queued.foldl (fun s t => s.waitToken id t) s).settleRetire.settleShifter
    | _, _ => s
  | none => s

/-- The write of a whole line replaces a poisoned one; where it completes a checkpoint, the role's checkpoint stands there from now
on and the old one is released (R53, R89, R90). -/
def State.lineWritten (s : State) (m : MemKind) (idx addr : Nat) (ckptOf : Option Half) : State :=
  let s : State := { s with fab := { s.fab with poisoned := s.fab.poisoned.filter (fun x => x != (m, idx, addr / 64)) } }
  match m, ckptOf with
  | .deckMemory, some id => s.modRole id (fun r => { r with ckpt := if s.ckptOk id r.bead idx then some idx else r.ckpt })
  | _, _ => s

/-- A read of a word (R52, R53). -/
def State.lineRead (s : State) (a : MemReq) : State :=
  let s : State := match a.what with
    | .single => s.eccSingle a.mem a.idx a.addr
    | .double => s.eccDouble a.mem a.idx a.addr a.ckptOf
    | _ => s
  if s.fab.poisoned.contains (a.mem, a.idx, a.addr / 64) then
    let s : State := s.emit (.memAck .poison)
    match a.reader with
    | some id => s.poisonReader id
    | none => s
  else s.emit (.memAck (if a.what = .double then .void else .normal))

/-- The part that holds a memory has been isolated: its handshakes complete void (R71). -/
def State.memDown (s : State) (m : MemKind) (idx : Nat) : Bool :=
  match m with
  | .beadStore => !s.beadWorks idx
  | .rodScratch => s.fab.rodFail.contains idx || s.fab.deckFail.contains (idx / 8) || s.fab.frameLost.contains (idx / 32)
  | .deckMemory => s.fab.deckFail.contains idx || s.fab.frameLost.contains (idx / 4)
  | _ => false

/-- The deck a memory lies in; the LPDDR4X and the Tally's code memory lie in none. -/
def memDeck (m : MemKind) (idx : Nat) : Option Nat :=
  match m with
  | .beadStore => some (deckOf idx)
  | .rodScratch => some (idx / 8)
  | .deckMemory => some idx
  | _ => none
/-- A memory whose deck sleeps. -/
def State.memAsleep (s : State) (m : MemKind) (idx : Nat) : Bool := ((memDeck m idx).map s.deckAsleep).getD false

/-- MEMORY_ACCESS: held while its deck sleeps, which wakes (R59); void on a stopped LPDDR4X crossing (R67). -/
def State.memoryAccess (s : State) (a : MemReq) : State :=
  if s.memDown a.mem a.idx then s.emit (.memAck .void)
  else if s.memAsleep a.mem a.idx then s.holdAtDeck ((memDeck a.mem a.idx).getD 0) (.access a)
  else if a.mem = .lpddr && s.xingStopped 0x14 then (s.xingCount 0x14).emit (.memAck .void)
  else
    let s : State := if a.mem = .deckMemory then s.stir a.idx else s
    match a.what with
    | .writeLine => (s.lineWritten a.mem a.idx a.addr a.ckptOf).emit (.memAck .normal)
    | _ => s.lineRead a

/-- A token or an access reaches a deck (R59, R60). -/
def State.arrives (s : State) (a : Arrival) : State :=
  match a with
  | .token t bead forwarded => s.tokenComes t bead forwarded
  | .access a => s.memoryAccess a

/-- 64-bit words of one level of a scrubbed memory, and how many of them there are. -/
def scrubWords : MemKind → Nat
  | .beadStore => 0
  | .rodScratch => 32768
  | .deckMemory => 262144
  | .lpddr => 536870912
  | .tallyCode => 0
def scrubLevels : MemKind → Nat
  | .beadStore => 0
  | .rodScratch => 64
  | .deckMemory => 8
  | .lpddr => 1
  | .tallyCode => 0
def scrubNext : MemKind → MemKind
  | .rodScratch => .deckMemory
  | .deckMemory => .lpddr
  | _ => .rodScratch

/-- The place after a level's word, and the place after a level; none at the end of a pass. Rod scratch comes first, then deck memory,
then the LPDDR4X (assumption). -/
def scrubSkip (m : MemKind) (idx : Nat) : Option (MemKind × Nat × Nat) :=
  if idx + 1 < scrubLevels m then some (m, idx + 1, 0)
  else if m = .lpddr then none else some (scrubNext m, 0, 0)
def scrubAdvance (m : MemKind) (idx w : Nat) : Option (MemKind × Nat × Nat) :=
  if w + 1 < scrubWords m then some (m, idx, w + 1) else scrubSkip m idx

def State.scrubTo (s : State) (p : Option (MemKind × Nat × Nat)) : State :=
  let q := p.getD (.rodScratch, 0, 0)
  { s with fab := { s.fab with scrubMem := q.1, scrubIdx := q.2.1, scrubWord := q.2.2, scrubIdle := p.isNone } }

/-- One word is read and corrected, unless a role writes it at the same moment (R54). -/
def State.scrubRead (s : State) (m : MemKind) (idx w : Nat) (err : MemAccess) (roleWrites : Bool) (ckptOf : Option Half) : State :=
  if roleWrites || s.memDown m idx then s
  else if m = .lpddr && s.xingStopped 0x14 then s.xingVoid 0x14
  else match err with
    | .single => s.eccSingle m idx (8 * w)
    | .double => s.eccDouble m idx (8 * w) ckptOf
    | _ => s

/-- A level that was passed over asleep and is awake now. -/
def State.scrubOwes (s : State) : Option (MemKind × Nat × Nat) := s.fab.scrubOwed.find? (fun p => !s.memAsleep p.1 p.2.1)
/-- The levels owed but for one. -/
def State.scrubRest (s : State) (m : MemKind) (idx : Nat) : List (MemKind × Nat × Nat) :=
  s.fab.scrubOwed.filter (fun p => !(p.1 == m && p.2.1 == idx))
/-- The word a level that is owed goes on from. -/
def State.scrubFrom (s : State) (m : MemKind) (idx : Nat) : Option Nat :=
  (s.fab.scrubOwed.find? (fun p => p.1 == m && p.2.1 == idx)).map (·.2.2)

/-- A pass begins once per SCRUB_H hours. -/
def State.scrubDue (s : State) : Bool :=
  !s.fab.scrubIdle || decide (s.fab.scrubSince + s.fld rScrubCtl 7 0 * 3600 * secNs ≤ s.now)

/-- SCRUB_STEP (R54): the next word of a level that was passed over asleep and has woken, else the next word of the pass; a sleeping
deck is not woken, the words of its memory and of its rods wait until it wakes. -/
def State.scrubStep (s : State) (err : MemAccess) (roleWrites : Bool) (ckptOf : Option Half) : State :=
  match s.scrubOwes with
  | some (m, d, w) =>
    let rest := s.scrubRest m d
    let owed := if w + 1 < scrubWords m then rest ++ [(m, d, w + 1)] else rest
    let s : State := s.scrubRead m d w err roleWrites ckptOf
    { s with fab := { s.fab with scrubOwed := owed } }
  | none =>
    if !s.scrubDue then s
    else
      let s : State := if s.fab.scrubIdle then { s with fab := { s.fab with scrubIdle := false, scrubSince := s.now } } else s
      let f := s.fab
      if s.memAsleep f.scrubMem f.scrubIdx then
        let from_ := min f.scrubWord ((s.scrubFrom f.scrubMem f.scrubIdx).getD f.scrubWord)
        let owed := s.scrubRest f.scrubMem f.scrubIdx ++ [(f.scrubMem, f.scrubIdx, from_)]
        ({ s with fab := { f with scrubOwed := owed } }).scrubTo (scrubSkip f.scrubMem f.scrubIdx)
      else (s.scrubRead f.scrubMem f.scrubIdx f.scrubWord err roleWrites ckptOf).scrubTo
        (scrubAdvance f.scrubMem f.scrubIdx f.scrubWord)

def execScrubStep (err : MemAccess) (w : ScrubWord) (s : State) : Host.Outcome State Fault Refusal :=
  .next (s.scrubStep err w.roleWrites w.ckptOf)

/-! ### Pace, retention, heat (R55–R63) -/

/-- The rail levels of R55: 0.60 V and 0.90 V (0.80 V for a derated OPZ4810-IE, R681). -/
def railMin : Nat := 30
def railMax (hot : Bool) : Nat := if hot && Config.isIE then 70 else 90
/-- The pace floor in units of 5 million operations/s. -/
def paceFloor (hot : Bool) : Nat := if hot && Config.isIE then 24 else 40

def stepUp (hot : Bool) (rail : Nat) : Nat := min (railMax hot) (max railMin (rail + 1))
/-- Step down, but not below the level at which rule 1 holds. -/
def stepDown (floor rail : Nat) : Nat := if floor < rail then max railMin (rail - 1) else rail

/-- The rail after one pace step: the first rule of R55 that applies, with POLICY FULL as R56 has it; a rail above the cap of R681
steps down to it first. -/
def paceRule (d : Deck) (now rate floor : Nat) (backlog full hot : Bool) : Nat :=
  if railMax hot < d.rail then d.rail - 1
  else if rate < paceFloor hot then stepUp hot d.rail
  else if d.hot then stepDown floor d.rail
  else if full then stepUp hot d.rail
  else if backlog then stepUp hot d.rail
  else if d.lastBacklog + msNs ≤ now then stepDown floor d.rail
  else d.rail

/-- PACE_STEP of an awake deck: what the replica and the sensor measure is `rate` and `raw`; `floor` is the lowest rail level at
which the replica still measures the pace floor. -/
def State.paceStep (s : State) (dn rate raw floor : Nat) (backlog hot : Bool) : State :=
  let d := s.deck dn
  if dn < 8 && d.st.awake && d.lastStep + 50 * usNs ≤ s.now then
    let full := s.fld rPaceCtl 1 0 == 1
    let rail := paceRule d s.now rate floor backlog full hot
    let atTop := rail = 90 && backlog
    let t := s.deckTemp dn raw
    let s : State := { t.1 with fab := { t.1.fab with hot := hot } }
    let temp := t.2
    let s : State := s.modDeck dn (fun d => { d with
      rail := rail, pace := rate, temp := temp, lastStep := s.now,
      lastBacklog := if backlog then s.now else d.lastBacklog,
      ceiling := atTop, ceilingAt := if atTop && !d.ceiling then some s.now else d.ceilingAt })
    if atTop && !d.ceiling then s.raise 0x1B [u16 dn, u16 temp, u16 rate] else s
  else s

def execPaceStep (deck rate raw floor : Nat) (backlog hot : Bool) (s : State) : Host.Outcome State Fault Refusal :=
  .next (s.paceStep deck rate raw floor backlog hot)

/-- RETENTION_ENTRY (R57, R58, R60): an awake deck whose conditions have held for 2 ms; `quietNs` is for how long no handshake has
been open in it. -/
def State.retentionEntry (s : State) (dn quietNs : Nat) : State :=
  let d := s.deck dn
  if dn < 8 && d.st.awake && 2 * msNs ≤ quietNs && d.idleSince + 2 * msNs ≤ s.now && s.fld rPaceCtl 2 2 = 1
      && !s.deckHoldsPinned dn && !s.deckMoves dn then
    s.modDeck dn (fun d => { d with st := .retention, lastRail := d.rail, rail := 0 })
  else s

def execRetentionEntry (deck quietNs : Nat) (s : State) : Host.Outcome State Fault Refusal :=
  .next (s.retentionEntry deck quietNs)

/-- The deck whose boundary an arrival reaches; the LPDDR4X lies in none. -/
def Arrival.deck : Arrival → Option Nat
  | .token _ bead _ => some (deckOf bead)
  | .access a => memDeck a.mem a.idx

/-- DECK_WAKE (R59, R60): what reaches the deck is held and the deck restores its rail; where it is awake it is taken as it arrives. -/
def State.deckWake (s : State) (deck : Nat) (a : Arrival) : State := if Arrival.deck a = some deck then s.arrives a else s

def execDeckWake (deck : Nat) (a : Arrival) (s : State) : Host.Outcome State Fault Refusal := .next (s.deckWake deck a)

/-- RETENTION_EXIT_DONE (R59): the rail is back at its last level and what was held is admitted, in order; or the deck fails to
restore it, and stays WAKING with what it holds (assumption). -/
def State.retentionExit (s : State) (dn : Nat) (restored : Bool) (railReached : Nat) : State :=
  let d := s.deck dn
  if d.st ≠ .waking then s
  else if restored then
    d.held.foldl State.arrives (s.modDeck dn (fun d => { d with
      st := if d.hot then .shedding else .active, rail := d.lastRail, idleSince := s.now, held := [] }))
  else s.raise 0x1D [u16 dn, u16 railReached]

def execRetentionExitDone (deck : Nat) (restored : Bool) (railReached : Nat) (s : State) :
    Host.Outcome State Fault Refusal :=
  .next (s.retentionExit deck restored railReached)

/-- THERM_SHED (R61): the junction exceeds SHED_C; the status word of a sleeping deck stays frozen (R76). -/
def execThermShed (deck raw : Nat) (s : State) : Host.Outcome State Fault Refusal :=
  let t := s.deckTemp deck raw
  let temp := t.2
  .next (if deck < 8 && !s.fab.deckFail.contains deck && !(s.deck deck).hot && tempOf s.shedC < temp then
    (t.1.modDeck deck (fun d => { d with
      st := if d.st = .active then .shedding else d.st, hot := true, temp := if d.st.awake then temp else d.temp,
      shedSince := s.now })).raise 0x16 [u16 deck, u16 temp]
  else s)

/-- THERM_SHED_END (R61): 3 °C below SHED_C. -/
def execThermShedEnd (deck raw : Nat) (s : State) : Host.Outcome State Fault Refusal :=
  let t := s.deckTemp deck raw
  let temp := t.2
  .next (if deck < 8 && !s.fab.deckFail.contains deck && (s.deck deck).hot && temp ≤ tempOf (s.shedC - 3) then
    (t.1.modDeck deck (fun d => { d with
      st := if d.st = .shedding then .active else d.st, hot := false, temp := if d.st.awake then temp else d.temp })).raise 0x17
      [u16 deck, u16 temp, u32 ((s.now - (s.deck deck).shedSince) / usNs)]
  else s)

/-- THERM_TRIP (R63): above 125 °C the deck trips and its roles are re-placed as for a deck fault. -/
def execThermTrip (deck raw : Nat) (s : State) : Host.Outcome State Fault Refusal :=
  let t := s.deckTemp deck raw
  let temp := t.2
  .next (if deck < 8 && tempOf 125 < temp && !s.fab.deckFail.contains deck then
    ((t.1.modDeck deck (fun d => { d with st := .tripped, temp := temp })).raise 0x18 [u16 deck, u16 temp]).isolate (.deck deck)
  else s)

/-! ### Crossings (R64–R68, R79) -/


/-- XING_TIMEOUT of the crossing's request number `req` (R67, R68): one that the island has completed before the timeout stays
completed; the first unanswered one is completed void and stops the crossing; a request while it is stopped is completed void at
once and counted. -/
def State.xingTimeout (s : State) (x req : Nat) : State :=
  if 23 ≤ x then s
  else
    let past (s : State) : State := s.modXing x (fun c => { c with done := max c.done (req + 1) })
    if (s.xing x).stopped then (past s).xingVoid x
    else if req < (s.xing x).done then s
    else (((past s).stopXing x).emit (.xingAck x .void)).raise 0x19 [u16 x, u16 (xingDir x)]

def execXingTimeout (req : XingReq) (s : State) : Host.Outcome State Fault Refusal :=
  .next (s.xingTimeout req.crossing req.number)

/-- XING_RESTART (R67): after 16 consecutive island cycles. -/
def execXingRestart (x : Nat) (s : State) : Host.Outcome State Fault Refusal :=
  .next (if x < 23 && (s.xing x).stopped then
    let c := s.xing x
    (s.modXing x (fun c => { c with stopped := false })).raise 0x1A
      [u16 x, u32 (c.void - c.voidAtStop).toNat, u32 (c.late - c.lateAtStop).toNat]
  else s)

/-- Of the `n` items at a counting crossing, as many cross as the receiving side has room for; the rest wait (R65). -/
def State.xingItems (s : State) (x n room : Nat) : State :=
  let goes := min n room
  let s : State := s.modXing x (fun c => { c with waiting := n - goes })
  { s with out := s.out ++ List.replicate goes (.crossed x) }

/-- ISLAND_COMPLETION (R64–R66, R68): the completion of a request is delivered, or discarded and counted late where the timeout was
taken first; an item crosses, or waits; an event crosses, or merges. -/
def State.islandCompletion (s : State) (x : Nat) (what : IslandItem) (n : Nat) : State :=
  let c := s.xing x
  if 23 ≤ x then s
  else match what with
    | .answer =>
      if n < c.done then s.modXing x (fun c => { c with late := satInc c.late })
      else (s.modXing x (fun c => { c with done := n + 1 })).emit (.crossed x)
    | .event => if xingMerging x then s.xingEvent x (n != 0) else s.xingItems x (c.waiting + 1) 1
    | .item => if xingMerging x then s.xingEvent x false else s.xingItems x (c.waiting + 1) n
    | .room => s.xingItems x c.waiting n

def execIslandCompletion (x : Nat) (what : IslandItem) (n : Nat) (s : State) : Host.Outcome State Fault Refusal :=
  .next (s.islandCompletion x what n)

/-! ### Faults of parts (R20, R70, R71, R24) -/

def partCode : Part → Nat
  | .bead n => n
  | .rod n => 0x1000 + n
  | .deck n => 0x2000 + n

/-- Whether what is held at a deck's boundary is the token. -/
def Arrival.isToken (t : Token) : Arrival → Bool
  | .token u _ _ => u == t
  | .access _ => false

/-- A token that was completed void waits nowhere: not in its role's lists, not at a deck's boundary (R48). -/
def State.dropToken (s : State) (t : Token) : State :=
  let move (m : Move) : Move := { m with
    queued := m.queued.erase t, forwarding := m.forwarding.erase t, held := m.held.erase t, withheld := m.withheld.erase t }
  let s : State := s.modRole t.role (fun r => { r with waiting := r.waiting.erase t, move := r.move.map move })
  { s with fab := { s.fab with decks := s.fab.decks.map (fun d => { d with held := d.held.eraseP (Arrival.isToken t) }) } }

/-- HANDSHAKE_STALL (R70): completed void after 100 µs; the unresponsive part is isolated, its check numbered behind the three of its
level (assumption). -/
def State.handshakeStall (s : State) (requester unresponsive : Part) (t : Token) : State :=
  ((((s.dropToken t).emit (.ack t .void)).raise 0x1C [u16 (partCode requester), u16 (partCode unresponsive)])).partFault unresponsive 3

def execHandshakeStall (requester unresponsive : Part) (t : Token) (s : State) : Host.Outcome State Fault Refusal :=
  .next (s.handshakeStall requester unresponsive t)

def execBeadFault (bead check : Nat) (s : State) : Host.Outcome State Fault Refusal :=
  .next (s.partFault (.bead bead) check)

def execRodFault (rod check : Nat) (s : State) : Host.Outcome State Fault Refusal :=
  .next (if rod < 64 then s.partFault (.rod rod) check else s)

def execDeckFault (deck check : Nat) (s : State) : Host.Outcome State Fault Refusal :=
  .next (s.partFault (.deck deck) check)

def execFrameLoss (frame cause : Nat) (s : State) : Host.Outcome State Fault Refusal :=
  .next (if frame < 2 then s.loseFrame frame cause else s)

end Sys2Proof.Machine
end

