-- ==== Sys2Proof/Machine/Clock.lean ====
section
/-! DEFINITION. The tablet with no command waiting: time passes. -/

namespace Sys2Proof.Machine

open Sys2Proof

/-- The checkpoints of every 10 ms: metering and housekeeping roles (R83), at the multiples of 10 ms of the local clock (assumption). -/
def State.clockCkpt (s : State) : State :=
  if s.now % (10 * msNs) = 0 then (s.checkpointKind 7).checkpointKind 8 else s

/-- DESIGN CHOICE: a step without a command is 1 ns of local clock (R462). -/
def State.idle (s : State) : State := ({ s with now := s.now + 1 } : State).clockCkpt

end Sys2Proof.Machine
end

