-- ==== Sys2Proof/Machine/StnCore.lean ====
section
/-! DEFINITION. Station exchange: contexts, frames and sending (spec/09_station_exchange.md, R278–R299, R303–R307). -/

namespace Sys2Proof.Machine

open Sys2Proof

/-! ### Contexts -/

def State.ctxOf (s : State) (id : Nat) : Option Ctx := s.stn.ctxs.find? (fun c => c.cfg.station == id)

def State.setCtx (s : State) (id : Nat) (f : Ctx → Ctx) : State :=
  { s with stn := { s.stn with ctxs := s.stn.ctxs.map (fun c => if c.cfg.station = id then f c else c) } }

/-- ONLINE or STALE: every kind of frame is sent (R279). -/
def CtxSt.up : CtxSt → Bool
  | .online | .stale => true
  | _ => false

def ctxCode : CtxSt → Nat
  | .online => 0
  | .stale => 1
  | .offline => 2
  | .returning => 3
  | .disabled => 4

def State.stnUp (s : State) (id : Nat) : Bool := ((s.ctxOf id).map (fun c => c.st.up && c.en == .enabled)).getD false

/-- The age of a context's input, from its acquisition (R279, R280). -/
def State.inputAge (s : State) (c : Ctx) : Option Nat := c.acq.map (fun a => s.tai - a)

/-- The quality of a context's input image (R279, R280). -/
def State.inputQuality (s : State) (c : Ctx) : Quality :=
  if c.st = .offline || c.st = .disabled then qMax c.declared .offline
  else match s.inputAge c with
    | none => qMax c.declared .offline
    | some a =>
      qMax c.declared (if a ≤ s.stn.cfg.staleMs * msNs then .good else if a ≤ s.stn.cfg.offlineMs * msNs then .stale else .offline)

/-- Timed commands outstanding (R303). -/
def State.outstandingOf (s : State) (c : Ctx) : Nat := (c.outstanding.filter (fun a => s.tai < a)).length

/-- Every writer of a RETURNING context has completed a fresh cycle (R313–R315). -/
def State.writersDone (s : State) (c : Ctx) : Bool :=
  s.tallyStopped || (s.tallyWriters c.cfg.station).all (fun t => c.retDone.contains t)

/-! ### Frames (R281–R286) -/

/-- A record with its header: TYPE, LEN in words. -/
def stnRec (type : Nat) (body : List Byte) : List Byte :=
  beBytes 1 type ++ beBytes 1 ((body.length + 4) / 4) ++ [0#8, 0#8] ++ body

def txnRec (tag gen attempt : Nat) : List Byte := stnRec 8 (beBytes 2 tag ++ beBytes 1 gen ++ beBytes 1 attempt)

def StnFrame.kind : StnFrame → Nat
  | .command _ _ => 1
  | .output => 2
  | .resync => 3
  | .request _ => 4
  | .cancel _ => 5

/-- Whether a frame is a transaction (R283). -/
def StnFrame.isTxn : StnFrame → Bool
  | .output => false
  | _ => true

/-- The records of a frame after its TXN record. -/
def StnFrame.records (f : StnFrame) (image : List Byte) : List Byte :=
  match f with
  | .command sets _ => (sets.map (fun p => stnRec 1 (beBytes 1 p.1 ++ [0#8, 0#8, 0#8] ++ beBytes 4 p.2.toNat))).flatten
  | .output => stnRec 3 image
  | .resync => stnRec 0x0A image
  | .request what => stnRec 0x0B (beBytes 1 what ++ [0#8, 0#8, 0#8])
  | .cancel ts => (ts.map (fun t => stnRec 2 (beBytes 4 t.toNat))).flatten

def StnFrame.applyAt : StnFrame → Nat
  | .command _ a => a
  | _ => 0

/-- A whole frame: header, records, trailer. -/
def State.frameBytes (s : State) (c : Ctx) (seq : Word) (f : StnFrame) (txn : Option (Nat × Nat × Nat)) : List Byte :=
  let t := match txn with
    | some x => txnRec x.1 x.2.1 x.2.2
    | none => []
  let body := beBytes 1 1 ++ beBytes 1 f.kind ++ beBytes 2 s.houseId ++ beBytes 2 c.cfg.station ++ beBytes 2 s.twin.epoch.toNat
    ++ beBytes 4 seq.toNat ++ beBytes 4 (f.applyAt / secNs) ++ beBytes 4 (f.applyAt % secNs) ++ t ++ f.records c.outImg
  body ++ beBytes 4 (crc32c body).toNat

/-! ### Sending (R289, R294, R303, R309) -/

/-- The next send sequence of a context, seeded with the TAI milliseconds (R289). -/
def State.nextSeq (s : State) (c : Ctx) : Word :=
  match c.txSeq with
  | some q => q + 1
  | none => word (s.tai / msNs)

def State.inFlight (s : State) : Nat := (s.stn.ctxs.map (fun c => c.txns.length)).sum

/-- The CONTEXT record of the mirror: the entry of R323, then the output image (R506). -/
def State.ctxEntry (s : State) (c : Ctx) : List Fld :=
  let waits := c.st == .returning && !s.writersDone c
  [u16 c.cfg.station, u8 (ctxCode c.st), u8 (enCode c.en), u8 (qCode (s.inputQuality c)),
   u8 (b01 c.pending + 2 * b01 c.safe + 4 * b01 c.nosync + 8 * b01 waits), u8 c.txns.length, u8 (min (s.outstandingOf c) 255),
   u32 (c.txSeq.getD 0).toNat, u32 c.rxSeq.toNat, u32 c.lastRx.toNat, u16 (min c.offlineCount 0xFFFF), u16 (min c.noackCount 0xFFFF),
   u32 c.discards.toNat, u32 c.lateReplies.toNat]

/-- The role of a station's context (R83, R278; assumption). -/
def stnRole (station : Nat) : Half := BitVec.ofNat 16 (0x5000 + station / 32)

/-- A context that has changed is written through to its role's checkpoint (R83) and to the mirror (R506). -/
def State.mirrorCtx (s : State) (id : Nat) : State :=
  match s.ctxOf id with
  | some c => (s.checkpoint (stnRole id)).mirror 0x08 (s.ctxEntry c ++ c.outImg.map (fun b => u8 b.toNat))
  | none => s

/-- The tablet may emit station frames at all (R29, R279, R455, R491). -/
def State.stnMay (s : State) : Bool := s.activeOrSolo && s.time.firstLock && s.houseId ≠ 0 && s.ring.en ≠ .disabled

/-- An address family is on: its prefix length is not 0 (R451). -/
def State.familyUp (s : State) (v6 : Bool) : Bool := if v6 then s.fld rIpv6Pfx 7 0 != 0 else s.fld rIpv4Pfx 5 0 != 0
def State.familyOn (s : State) (c : StnCtxCfg) : Bool := s.familyUp (c.flags % 2 == 1)

/-- The tablet's own address of a family (R451). -/
def State.ownIp (s : State) (v6 : Bool) : IpAddr :=
  ⟨v6, if v6 then (List.range 4).foldl (fun a i => a * 2 ^ 32 + (s.reg (rIpv6 i)).toNat) 0 else (s.reg rIpv4).toNat⟩

/-- Whether a waiting frame may be sent now; nothing leaves while the context's role is REPLACING (R101). -/
def State.sendable (s : State) (c : Ctx) (w : Waiting) : Bool :=
  s.stnMay && s.familyOn c.cfg && !s.roleDown (stnRole c.cfg.station)
    && (c.st.up || (c.st == .returning && w.frame == .resync))
    && (c.sentAt.filter (fun t => s.now < t + secNs)).length < 250
    && (w.retry.isSome || !w.frame.isTxn ||
        (c.txns.length < 8 && s.inFlight < 2048
          && (match w.frame with
              | .command _ _ => s.outstandingOf c < c.cfg.qdepth
              | _ => true)))
    && (match w.frame, w.retry with
        | .command _ a, some _ => s.tai ≤ a
        | _, _ => true)

/-- Take the first frame that may be sent out of a send order. -/
def takeFirst (p : Waiting → Bool) : List Waiting → Option (Waiting × List Waiting)
  | [] => none
  | w :: ws => if p w then some (w, ws) else (takeFirst p ws).map (fun r => (r.1, w :: r.2))

/-- The pool of 2 048 is in use: an episode of STN_TAG_WAIT begins (R294). -/
def State.noteTags (s : State) : State :=
  if s.stn.tagWaitSince.isNone && 2048 ≤ s.inFlight then { s with stn := { s.stn with tagWaitSince := some s.now } }
  else match s.stn.tagWaitSince with
    | some t => if s.inFlight < 2048 then
        ({ s with stn := { s.stn with tagWaitSince := none } }).raise 0x5B [u32 (min ((s.now - t) / usNs) 0xFFFFFFFF)] else s
    | none => s

/-- How the tablet addresses a context (R281, R310, R488): from its own address of the context's family. -/
def State.stnHdr (s : State) (c : StnCtxCfg) : StnHdr :=
  let v6 := c.flags % 2 == 1
  ⟨s.ownIp v6, ⟨v6, if v6 then c.addr else c.addr / 2 ^ 96⟩, s.stn.cfg.port, c.rport, !v6, s.stn.cfg.dscp, s.ring.hsrSeq, s.ringVlan⟩

/-- A station frame leaves on both ring ports under the next HSR sequence number (R309, R451). -/
def State.sendStn (s : State) (c : StnCtxCfg) (bs : List Byte) : State :=
  ({ s with ring := { s.ring with hsrSeq := s.ring.hsrSeq + 1 } }).cross (txXings 3) (.stnFrame c.station (s.stnHdr c) bs)

/-- Hand a frame to the ring, its copy first to the standby (R292, R506, R509). -/
def State.emitFrame (s : State) (c : Ctx) (seq : Word) (f : StnFrame) (txn : Option (Nat × Nat × Nat)) : State :=
  let bs := s.frameBytes c seq f txn
  let s : State := if s.seStation c.cfg.station then s
    else s.mirror 0x01 ([u16 c.cfg.station, u16 bs.length] ++ bs.map (fun b => u8 b.toNat))
  s.sendStn c.cfg bs

/-- Send one frame of a context. -/
def State.sendOne (s : State) (c : Ctx) (w : Waiting) (rest : List Waiting) : State :=
  let id := c.cfg.station
  let stampSent (c : Ctx) : Ctx := { c with order := rest, sentAt := s.now :: c.sentAt.filter (fun t => s.now < t + secNs) }
  match w.retry with
  | some (tag, gen) =>
    let again (t : Txn) : Txn := if t.tag = tag && t.gen = gen then { t with sentAt := some s.now } else t
    match c.txns.find? (fun t => t.tag == tag && t.gen == gen) with
    | some t =>
      (s.setCtx id (fun c => { stampSent c with
        txns := c.txns.map again, lastImage := if w.frame = .resync then some s.now else c.lastImage })).emitFrame
        { c with outImg := t.image } w.seq w.frame (some (tag, gen, t.attempt))
    | none => s.setCtx id (fun c => { c with order := rest })
  | none =>
    if w.frame.isTxn then
      match s.stn.pool.issue 65536 256 with
      | some ((tag, gen), pool) =>
        let t : Txn := ⟨tag, gen, w.seq, w.frame, 0, some s.now, c.outImg⟩
        let out : List Nat := match w.frame with
          | .command _ a => [a]
          | _ => []
        let s : State := { s with stn := { s.stn with pool := pool } }
        let s : State := s.setCtx id (fun c => { stampSent c with
          txns := c.txns ++ [t], outstanding := c.outstanding.filter (fun a => s.tai < a) ++ out,
          lastImage := if w.frame = .resync then some s.now else c.lastImage })
        (s.emitFrame c w.seq w.frame (some (tag, gen, 0))).noteTags
      | none => s
    else (s.setCtx id (fun c => { stampSent c with lastImage := some s.now })).emitFrame c w.seq w.frame none

/-- Send what may be sent of a context, in its send order. -/
def State.pumpN : Nat → State → Nat → State
  | 0, s, _ => s
  | n + 1, s, id =>
    match s.ctxOf id with
    | some c => match takeFirst (s.sendable c) c.order with
      | some (w, rest) => State.pumpN n (s.sendOne c w rest) id
      | none => s
    | none => s

def State.pump (s : State) (id : Nat) : State :=
  State.pumpN (((s.ctxOf id).map (fun c => c.order.length)).getD 0) s id

/-- Put a new frame into a context's send order and send what may be sent; answers its sequence. -/
def State.queueFrame (s : State) (id : Nat) (f : StnFrame) : State × Word :=
  match s.ctxOf id with
  | some c =>
    let q := s.nextSeq c
    ((s.setCtx id (fun c => { c with txSeq := some q, order := c.order ++ [⟨q, f, none⟩] })).pump id, q)
  | none => (s, 0)

/-- An OUTPUT frame, unless one is waiting already: it carries the image as it stands when it is sent (R306). -/
def State.queueOutput (s : State) (id : Nat) : State :=
  match s.ctxOf id with
  | some c => if c.order.any (fun w => w.frame == .output) then s.pump id else (s.queueFrame id .output).1
  | none => s

/-! ### The output image (R305–R307, R311) -/

/-- Put bytes into an image from an offset on. -/
def putBytes (img : List Byte) (o : Nat) (bs : List Byte) : List Byte := img.take o ++ bs ++ img.drop (o + bs.length)

/-- A value becomes pending in the set-point block of an output image (R267, R305). -/
def State.stnPend (s : State) (id slot : Nat) (v : F32) : State :=
  (s.setCtx id (fun c => { c with
    outImg := putBytes c.outImg (48 + 4 * slot) (beBytes 4 v.toNat), pending := true })).mirrorCtx id

/-- The latest value commanded for a slot. -/
def slotValue (c : Ctx) (slot : Nat) : F32 :=
  BitVec.ofNat 32 (((c.outImg.drop (48 + 4 * slot)).take 4).foldl (fun a b => a * 256 + b.toNat) 0)

/-- A timed set-point for a station: sent as a COMMAND, or pending while none may be sent. Answers its sequence. -/
def State.stnCommand (s : State) (id slot : Nat) (v : F32) (applyAt : Nat) : State × Option Word :=
  if s.stnUp id && s.stnMay then
    let s : State := s.setCtx id (fun c => { c with outImg := putBytes c.outImg (48 + 4 * slot) (beBytes 4 v.toNat) })
    let r := s.queueFrame id (.command [(slot, v)] applyAt)
    (r.1.mirrorCtx id, some r.2)
  else (s.stnPend id slot v, none)

/-- Add a target to the CANCEL frame that waits last and has not been sent yet (R283, R297). -/
def joinCancel (seq : Word) : List Waiting → Option (List Waiting)
  | [] => none
  | [w] => match w.frame with
    | .cancel ts => if ts.length < 16 && w.retry.isNone then some [{ w with frame := .cancel (ts ++ [seq]) }] else none
    | _ => none
  | w :: ws => (joinCancel seq ws).map (w :: ·)

/-- Withdraw a command: removed from the send order, or a cancel record is handed over (R262). -/
def State.stnCancel (s : State) (id : Nat) (seq : Word) : State :=
  match s.ctxOf id with
  | none => s
  | some c =>
    let isIt (w : Waiting) : Bool := w.seq == seq && w.retry.isNone && w.frame.kind == 1
    if c.order.any isIt then s.setCtx id (fun c => { c with order := c.order.filter (fun w => !isIt w) })
    else if !s.stnUp id then s
    else match joinCancel seq c.order with
      | some o => (s.setCtx id (fun c => { c with order := o })).pump id
      | none => (s.queueFrame id (.cancel [seq])).1

/-- A task's writes reach bytes 0–47 of an output image (R305, R306, R311, R312). -/
def State.stnOutputs (s : State) (id : Nat) (new : List Byte) (blocked : Bool) : State :=
  match s.ctxOf id with
  | none => s
  | some c =>
    let s : State := if blocked then s.setCtx id (fun c => { c with discards := satInc c.discards }) else s
    if c.outImg.take 48 = new then s
    else
      let up := s.stnUp id && s.stnMay
      let s : State := s.setCtx id (fun c => { c with outImg := new ++ c.outImg.drop 48, pending := c.pending || !up })
      (if up then s.queueOutput id else s).mirrorCtx id

/-- The Tally stops: every output image takes its safe image, and every ONLINE and STALE context is sent an OUTPUT frame (R307). -/
def State.stnSafe (s : State) : State :=
  (s.stn.ctxs.map (fun c => c.cfg.station)).foldl (fun s id => match s.ctxOf id with
    | some c =>
      if c.outImg.take 48 = padTo 48 c.safeImg then (if s.stnUp id && s.stnMay then (s.queueOutput id).mirrorCtx id else s)
      else s.stnOutputs id (padTo 48 c.safeImg) false
    | none => s) s

/-! ### Ends of transactions and of contexts (R298, R299, R311, R318) -/

def State.freeTag (s : State) (tag gen : Nat) : State := { s with stn := { s.stn with pool := s.stn.pool.free tag gen } }

/-- Drop what a context has on its way: transactions end without retry, frames not sent are discarded (R299, R316). -/
def State.dropFrames (s : State) (id : Nat) (count : Bool) : State :=
  match s.ctxOf id with
  | none => s
  | some c =>
    let s : State := c.txns.foldl (fun s t => s.freeTag t.tag t.gen) s
    let held := c.order.any (fun w => w.frame.kind == 1 || w.frame.kind == 2)
    (s.setCtx id (fun c => { c with
      txns := [], order := [], pending := c.pending || held,
      noackCount := c.noackCount + (if count then c.txns.length else 0) })).noteTags

/-- A context that is QUIESCING without a transaction in flight reaches DISABLED (R318). -/
def State.settleCtx (s : State) (id : Nat) : State :=
  match s.ctxOf id with
  | some c =>
    if c.en = .quiescing && c.txns.isEmpty then
      let s : State := s.setCtx id (fun c => { c with
        en := .disabled, st := .disabled, order := [], rxWin := [], newCfg := none, cfg := c.newCfg.getD c.cfg })
      (s.raise 0x5C [u16 id, u16 (min c.retired 0xFFFF)]).mirrorCtx id
    else s
  | none => s

end Sys2Proof.Machine
end

