-- ==== Sys2Proof/Machine/CanCore.lean ====
section
/-! DEFINITION. The field buses: objects, hand-overs, ends of frames, fault confinement (spec/16_field_buses.md). -/

namespace Sys2Proof.Machine

open Sys2Proof

/-! ### Ends of frames (R578, R585) -/

/-- FBUS_RESULT. -/
def busResult (bus object status cause : Nat) (stamp seq : Nat) : List Fld :=
  [u8 bus, u8 object, u8 status, u8 cause, u32 stamp, u8 seq, u8 0, u8 0, u8 0]

def endStatus : TxSt → Nat
  | .sent => 0
  | .failed => 5
  | .stranded => 6
  | _ => 7

/-- The rollout command of a hand-over counts as never sent, or as sent after all (R578, R248). -/
def State.rollBus (s : State) (b : Nat) (f : BusFrame) (alive : Bool) : State :=
  let mark (h : SentCmd) : SentCmd :=
    if h.recv == .bus b f.object && h.seq == word f.id then { h with alive := alive } else h
  { s with roll := { s.roll with hist := s.roll.hist.map mark } }

/-- A frame's attempt ends: its object's status, the counts, the report of R578 and the answer of its FBUS_SEND. -/
def State.endFrame (s : State) (b : Nat) (f : BusFrame) (st : TxSt) (cause : Nat) : State :=
  let x := (s.bus b).txObj f.object
  let s : State := s.setTx b f.object { x with
    st := st, cause := cause, requeued := f.requeued, seq := f.seq,
    fails := x.fails + b01 (st == .failed || st == .stranded) }
  let s : State := if st = .sent then s.setBus b (fun u => { u with txCnt := satInc u.txCnt })
    else s.raiseTimed 0xE1 b [u16 b, u16 f.object, u16 cause]
  let s : State := s.rollBus b f (st == .sent)
  match f.ref with
  | some ref =>
    if st = .disabled then s.answer ref 0x0E03 (orderDone stDisabled)
    else s.answer ref 0x0E03 (ownReport (endStatus st) (busResult b f.object (endStatus st) cause s.stamp32.toNat f.seq.toNat))
  | none => s

/-- A frame of an object that remains shows in its status: the one on the wire, else the one queued (R589). -/
def State.showFrame (s : State) (b o : Nat) : State :=
  let fs := (s.bus b).frames.filter (fun f => f.object == o)
  let x := (s.bus b).txObj o
  match (fs.find? (·.onWire)).or fs.head? with
  | some f =>
    s.setTx b o { x with st := if f.onWire then .onWire else .queued, cause := 0, requeued := f.requeued, seq := f.seq }
  | none => s

def State.dropFrame (s : State) (b id : Nat) : State :=
  s.setBus b (fun u => { u with frames := u.frames.filter (fun f => f.id != id) })

/-! ### Fault confinement (R566, R581, R582) -/

/-- FBUS_STATE where ESTATE changes. -/
def State.setEState (s : State) (b : Nat) (e : EState) : State :=
  let u := s.bus b
  if u.estate = e then s
  else ((s.setBus b (fun u => { u with estate := e })).alarm 0x11).raise 0xE0
    [u16 b, u16 (eCode u.estate), u16 (eCode e), u16 (if e = .busOff || e = .recovering then 255 else min u.tec 255), u16 (min u.rxe 255)]

/-- Error-active or error-passive by the counters. -/
def State.judgeErrors (s : State) (b : Nat) : State :=
  let u := s.bus b
  if u.estate = .busOff || u.estate = .recovering then s
  else s.setEState b (if 127 < u.tec || 127 < u.rxe then .passive else .active)

/-- Bus-off: every other QUEUED frame ends STRANDED; must-deliver frames wait for the recovery (R582, R583). -/
def State.goBusOff (s : State) (b : Nat) : State :=
  let fs := (s.bus b).frames
  let must (f : BusFrame) : Bool := (((s.bus b).txObj f.object).cfg.map (fun c => cfgBit c.flags 5)).getD false
  let s : State := s.setBus b (fun u => { u with
    frames := [], stranded := fs.filter (fun f => must f && !f.requeued), offAt := s.now, ordered := false, busoffCnt := satInc u.busoffCnt })
  let s : State := s.setEState b .busOff
  let s : State := fs.foldl (fun s f => s.endFrame b f .stranded 7) s
  let s : State := s.raise 0xE2 [u16 b, u16 fs.length, u16 (fs.filter must).length]
  if s.fld (0x6000 + 0x800 * b) 2 2 = 1 then s.setEState b .recovering else s

/-! ### Hand-over (R574–R580) -/

/-- Put the sequence byte into an object's data (R579). -/
def seqData (c : TxCfg) (bs : List Byte) (q : Byte) : List Byte :=
  if cfgBit c.flags 4 then bs.take c.seqPos ++ [q] ++ bs.drop (c.seqPos + 1) else bs

/-- A frame reaches its controller. -/
def State.queueBus (s : State) (b : Nat) (f : BusFrame) : State :=
  let u := s.bus b
  if !s.driven || s.houseId = 0 then s.endFrame b f .failed 9
  else if u.en ≠ .enabled then
    (s.setBus b (fun u => { u with retired := u.retired + b01 (u.en == .quiescing) })).endFrame b f .disabled 0
  else if u.estate = .busOff || u.estate = .recovering then
    let must := ((u.txObj f.object).cfg.map (fun c => cfgBit c.flags 5)).getD false
    (s.setBus b (fun u => { u with stranded := if must then u.stranded ++ [f] else u.stranded })).endFrame b f .stranded 7
  else if s.xingStopped (busXing b) then (s.xingVoid (busXing b)).endFrame b f .failed 8
  else
    let s : State := match u.frames.find? (fun g => g.object == f.object && !g.onWire) with
      | some g => (s.dropFrame b g.id).endFrame b g .replaced 0
      | none => s
    (s.setBus b (fun u => { u with frames := u.frames ++ [f] })).showFrame b f.object

/-- Hand a transmit object over with its current data, the copy first to the standby unless the object or its writer is
single-emitter (R509, R575, R579, R580). Only an ACTIVE or SOLO tablet hands over frames of its own (R491, R580). -/
def State.handOwn (s : State) (b o : Nat) (single : Bool) (ref : Option OrderRef) : State :=
  let x := (s.bus b).txObj o
  match x.cfg with
  | none => s
  | some c =>
    if !s.activeOrSolo then s else
    let q := x.seqCount + 1
    let bs := seqData c x.bytes q
    let s : State := s.setTx b o { x with seqCount := q }
    let s : State := if single || s.fld (rSeFbus b) o o = 1 then s
      else s.mirror 0x02 ([u8 b, u8 o, u16 0] ++ bs.map (fun y => u8 y.toNat))
    let id := (s.bus b).handed
    let s : State := s.setBus b (fun u => { u with handed := u.handed + 1 })
    s.queueBus b ⟨id, o, bs.take c.len, if cfgBit c.flags 4 then q else 0, s.now, false, false, ref⟩

def State.handBus (s : State) (b o : Nat) (ref : Option OrderRef) : State := s.handOwn b o false ref

/-- Load a transmit object's data. -/
def State.loadTx (s : State) (b o : Nat) (bs : List Byte) : State :=
  s.setTx b o { (s.bus b).txObj o with data := padTo 64 bs }

/-- A float32 at byte 0 of a transmit object, and its hand-over (R274, R330). -/
def State.busPutFloat (s : State) (b o : Nat) (v : F32) : State :=
  let x := (s.bus b).txObj o
  (s.loadTx b o (ordBytes x.big 4 v.toNat ++ x.bytes.drop 4)).handBus b o none

/-- The same for a loop (R330, R509). -/
def State.busPutLoop (s : State) (b o : Nat) (v : F32) (single : Bool) : State :=
  let x := (s.bus b).txObj o
  (s.loadTx b o (ordBytes x.big 4 v.toNat ++ x.bytes.drop 4)).handOwn b o single none

def State.busNextId (s : State) (b : Nat) : Word := word (s.bus b).handed

/-- A transmit object that the Tally owns may take a commit (R574). -/
def State.tallyOwns (s : State) (b o : Nat) : Bool := s.busOwner b o == some 0

/-- A commit of the Tally to a transmit object (R375, R574). -/
def State.busCommit (s : State) (b o : Nat) (bs : List Byte) : State :=
  if s.tallyOwns b o then (s.loadTx b o bs).handBus b o none
  else (s.setBus b (fun u => { u with unmatched := satInc u.unmatched })).raiseTimed 0xE5 b
    [u16 b, u32 ((((s.bus b).txObj o).cfg.map (·.id)).getD 0)]

/-- The Tally stops: objects with SEND_ON_STOP take their safe data and are sent once (R380). -/
def State.busSafe (s : State) : State :=
  let one (s : State) (b o : Nat) : State :=
    let x := (s.bus b).txObj o
    if x.sendOnStop && x.cfg.isSome then (s.loadTx b o x.safe).handBus b o none else s
  (List.range 2).foldl (fun s b => ((s.bus b).tx.map Prod.fst).foldl (fun s o => one s b o) s) s

/-- A receive object read by a consumer inside the tablet: bytes, quality, acquisition time. -/
def State.busRead (s : State) (b k : Nat) : List Byte × Quality × Nat :=
  let x := (s.bus b).rxObj k
  (x.bytes, s.rxQuality b k, x.at_.getD 0)

end Sys2Proof.Machine
end

