-- ==== Sys2Proof/Machine/LoopCore.lean ====
section
/-! DEFINITION. The loop engine: sources, the sections, set-points, role changes (spec/10_loop_engine.md, R325–R346). -/

namespace Sys2Proof.Machine

open Sys2Proof

/-! ### The descriptor (R348) -/

def Loop.cls (l : Loop) : Nat := u8At l.desc 2
def Loop.nSec (l : Loop) : Nat := u8At l.desc 3
def Loop.periodUs (l : Loop) : Nat := u32At l.desc 4
def Loop.trigger (l : Loop) : Nat := u8At l.desc 8
def Loop.flag (l : Loop) (n : Nat) : Bool := cfgBit (u16At l.desc 0x0A) n
def Loop.trigIndex (l : Loop) : Nat := u16At l.desc 0x0C
def Loop.pvBadN (l : Loop) : Nat := u16At l.desc 0x0E
def Loop.dest (l : Loop) : Nat := u16At l.desc 0x40
def Loop.fricTable (l : Loop) : Nat := u16At l.desc 0x42
def Loop.cogTable (l : Loop) : Nat := u16At l.desc 0x44
def Loop.trackWord (l : Loop) : Nat := u16At l.desc 0x46
def Loop.gain (l : Loop) : F32 := f32At l.desc 0x48
def Loop.ffSp (l : Loop) : F32 := f32At l.desc 0x4C
def Loop.outMin (l : Loop) : F32 := f32At l.desc 0x50
def Loop.outMax (l : Loop) : F32 := f32At l.desc 0x54
def Loop.rate (l : Loop) : F32 := f32At l.desc 0x58
def Loop.safeOut (l : Loop) : F32 := f32At l.desc 0x5C
def Loop.posMin (l : Loop) : F32 := f32At l.desc 0x60
def Loop.posMax (l : Loop) : F32 := f32At l.desc 0x64
def Loop.velDb (l : Loop) : F32 := f32At l.desc 0x68
def Loop.eDb (l : Loop) : F32 := f32At l.desc 0x6C
def Loop.freshUs (l : Loop) : Nat := u32At l.desc 0x70
def Loop.forceBit (l : Loop) : Nat := u32At l.desc 0x74
/-- KIND and INDEX of the source at an offset: 0x10 PV, 0x20 SP, 0x30 POS. -/
def Loop.srcKind (l : Loop) (o : Nat) : Nat := u8At l.desc o
def Loop.srcIndex (l : Loop) (o : Nat) : Nat := u16At l.desc (o + 2)

def oPv : Nat := 0x10
def oSp : Nat := 0x20
def oPos : Nat := 0x30

/-- Flag bits of the descriptor. -/
def fReverse : Nat := 0
def fSafeOnStop : Nat := 1
def fPvBadSafe : Nat := 2
def fSingle : Nat := 3
def fStartClosed : Nat := 4
def fPosWrap : Nat := 5

def modeCode : LoopMode → Nat
  | .closed => 0
  | .opened => 1
  | .tracking => 2

def State.setLoop (s : State) (n : Nat) (l : Loop) : State :=
  { s with loops := { s.loops with loops := alPut s.loops.loops n l } }

/-- The role of a loop (R325). -/
def loopRole (n : Nat) : Half := BitVec.ofNat 16 (0x4000 + n / 16)
/-- A loop whose role is REPLACING takes no sample (R344). -/
def State.loopRoleDown (s : State) (n : Nat) : Bool := s.roleDown (loopRole n)

/-- Least period of a class in µs and its latency bound in ns (R325). -/
def classLeastUs (c : Nat) : Nat := if c = 0 then 50 else 10000
def classMostUs (c : Nat) : Nat := if c = 0 then 10000 else 10000000
/-- Derated as R681 asks where it is used. -/
def classBoundNs (c : Nat) : Nat := if c = 0 then 8000 else 50000

/-! ### Sources (R327, R328) -/

/-- The quadrature count of a line pair, latched at an instant (R327). -/
def State.quadAt (s : State) (line inst : Nat) : Word :=
  ((((alGet s.tally.quad line).getD []).find? (fun c => decide (c.1 ≤ inst))).map Prod.snd).getD 0

/-- Value, quality and acquisition time (TAI ns) of a source before SCALE and BIAS. -/
def State.loopRaw (s : State) (l : Loop) (o : Nat) (inst : Nat) : F32 × Quality × Nat :=
  let i := l.srcIndex o
  let enc := u8At l.desc (o + 1)
  let off := u8At l.desc (o + 4)
  match l.srcKind o with
  | 1 => s.chanSample i
  | 2 => (fOfInt (s.quadAt i inst).toInt 1, if s.xingStopped 0x0B then .invalid else .good, inst)
  | 3 =>
    let r := s.busRead (i / 128) (i % 128)
    (rawOf ((s.bus (i / 128)).rxObj (i % 128)).big enc off r.1, r.2.1, r.2.2)
  | 4 => match s.ctxOf i with
    | some c => (rawOf true enc off c.inImg, s.inputQuality c, c.acq.getD 0)
    | none => (0, .invalid, 0)
  | 5 =>
    let e := s.pvEntry i
    (e.value, s.pvQuality i, e.at_)
  | 6 => match s.loopOf i with
    | some m => (m.out, if m.lastAt.isSome then .good else .invalid, m.lastAt.getD 0)
    | none => (0, .invalid, 0)
  | 7 => (rawOf false enc off (leBytes 4 (s.pubWord i).toNat), .good, inst)
  | 8 => (l.sp, .good, inst)
  | _ => (0, .good, inst)

/-- A source as a sample uses it: scaled, INVALID where a value is not finite. A timed set-point is taken as it stands. -/
def State.loopSrc (s : State) (l : Loop) (o : Nat) (inst : Nat) : F32 × Quality × Nat :=
  let r := s.loopRaw l o inst
  let k := l.srcKind o
  if k = 0 || k = 8 then r
  else
    let v := fAdd (fMul r.1 (f32At l.desc (o + 8))) (f32At l.desc (o + 12))
    (v, if fFinite r.1 && fFinite v then r.2.1 else .invalid, r.2.2)

/-- A usable quality (R333). -/
def qUsable (q : Quality) : Bool := q == .good || q == .estimated

/-- PV may be used (R333). -/
def Loop.pvUsable (l : Loop) (r : F32 × Quality × Nat) (inst : Nat) : Bool :=
  qUsable r.2.1 && inst - r.2.2 ≤ l.freshUs * usNs

/-! ### Sections (R331, R336) -/

def secZero : Section := ⟨false, false, 0, 0, 0, 0, 0, 0, 0⟩

/-- The output of one section, and its next states. -/
def secRun (c : Section) (x : F32) : F32 × F32 × F32 :=
  let y := fAdd (fMul c.b0 x) c.s1
  (y, fAdd (fSub (fMul c.b1 x) (fMul c.a1 y)) c.s2, fSub (fMul c.b2 x) (fMul c.a2 y))

/-- The input of the last section. -/
def lastInput : List Section → F32 → F32
  | [], x => x
  | [_], x => x
  | c :: cs, x => lastInput cs (secRun c x).1

/-- The cascade: its output and the next states of each section. -/
def secRunAll : List Section → F32 → F32 × List (F32 × F32)
  | [], x => (x, [])
  | c :: cs, x =>
    let r := secRun c x
    let t := secRunAll cs r.1
    (t.1, r.2 :: t.2)

/-- The last section's states for the input `x`, `d` = u − ff and GAIN `g` (R336). -/
def secBumpless : List Section → F32 → F32 → F32 → List Section
  | [], _, _, _ => []
  | [c], x, d, g =>
    [{ c with s1 := fSub (fDiv d g) (fMul c.b0 x), s2 := fSub (fMul c.b2 x) (fDiv (fMul c.a2 d) g) }]
  | c :: cs, x, d, g => c :: secBumpless cs x d g

/-- Conditional integration (R331): an INTEG section keeps its state while `limited`. -/
def secStep (limited : Bool) : List Section → List (F32 × F32) → List Section
  | c :: cs, n :: ns => (if limited && c.integ then c else { c with s1 := n.1, s2 := n.2 }) :: secStep limited cs ns
  | cs, _ => cs

/-! ### Tables (R338, R339) -/

def fZeroF : F32 := 0#32
def fSgn (x : F32) : Int := if fLt 0 x then 1 else if fLt x 0 then -1 else 0

/-- A value modulo a positive span, in 0 to the span. -/
def fModSpan (x span : F32) : F32 := if fInt span = 0 then 0 else fOfInt (fInt x % fInt span) (2 ^ 149)

/-- The position within the table's range: clamped or wrapped. -/
def Loop.posIn (l : Loop) (p : F32) : F32 :=
  if l.flag fPosWrap then fModSpan (fSub p l.posMin) (fSub l.posMax l.posMin)
  else fSub (fClamp l.posMin l.posMax p) l.posMin

/-- The looked-up value of a table, 0 where none is named. -/
def State.tableAt (s : State) (l : Loop) (t : Nat) (p : F32) : F32 :=
  if t = 0xFFFF then 0
  else match alGet s.loops.tables t with
    | none => 0
    | some tb =>
      let wrap := l.flag fPosWrap
      let f := fMul (fDiv (l.posIn p) (fSub l.posMax l.posMin)) (fOfInt (if wrap then 256 else 255) 1)
      let i := min (fFloor f) (if wrap then 255 else 254)
      let a := tb.entries.getD i 0
      let b := tb.entries.getD ((i + 1) % 256) 0
      fAdd a (fMul (fSub f (fOfInt i 1)) (fSub b a))

/-- The position's difference from the previous one, the shortest where it wraps. -/
def Loop.posDiff (l : Loop) (p prev : F32) : F32 :=
  let d := fSub p prev
  if l.flag fPosWrap then
    let span := fSub l.posMax l.posMin
    let m := fModSpan d span
    if fLt (fDiv span (fOfInt 2 1)) m then fSub m span else m
  else d

/-- The friction direction of a sample at an instant (R339). -/
def Loop.dir (l : Loop) (p : F32) (inst : Nat) (e : F32) : F32 :=
  let v := match l.posPrev with
    | some q => fDiv (l.posDiff p q.1) (fOfInt (inst - q.2) secNs)
    | none => 0
  if fLt l.velDb (fAbs v) then fOfInt (fSgn v) 1
  else fClamp (fOfInt (-1) 1) (fOfInt 1 1) (fDiv (fMul l.gain e) (fMul (fAbs l.gain) l.eDb))

/-! ### Set-points (R341) -/

/-- The status of a timed set-point that a loop refuses: 11 SP_SOURCE, 10 BEYOND_HORIZON, 9 QUEUE_FULL, 6 NO_LOOP; 0 accepted. -/
def State.loopSpIn (s : State) (n : Nat) (value : F32) (applyAt rollout : Nat) : State × Nat :=
  let refuse (st : Nat) : State × Nat := (s.raise 0x75 [u16 n, u16 st, u16 rollout], st)
  match s.loopOf n with
  | none => refuse 6
  | some l =>
    if l.srcKind oSp ≠ 8 then refuse 11
    else if s.tai + 60 * secNs < applyAt then refuse 10
    else if 8 ≤ l.queue.length then refuse 9
    else (s.setLoop n { l with queue := l.queue ++ [⟨value, applyAt, rollout, decide (applyAt < s.tai), s.tai⟩] }, 0)

/-- Of the entries accepted by the instant, the latest one due comes into force, and it and those before it leave the queue (R341,
R342); answers whether it was late. -/
def Loop.takeSp (l : Loop) (inst : Nat) : Loop × Bool :=
  let isDue (q : TimedSp) : Bool := decide (q.applyAt ≤ inst) && decide (q.since ≤ inst)
  let due := l.queue.filter isDue
  let pick (a : Option TimedSp) (q : TimedSp) : Option TimedSp := match a with
    | some b => if b.applyAt ≤ q.applyAt then some q else a
    | none => some q
  match due.foldl pick none with
  | some q => ({ l with sp := q.value, queue := l.queue.filter (fun r => !isDue r) }, q.late)
  | none => (l, false)

/-! ### Traces (R352) -/

/-- LOOP_TRACE_DATA. -/
def traceData (st count : Nat) : List Fld := [u8 st, u8 0, u8 0, u8 0, u32 count]

def State.endTrace (s : State) : State :=
  match s.loops.trace with
  | some t => ({ s with loops := { s.loops with trace := none } }).answer t.ref 0x0907 (ownReport 0 (traceData 0 t.done))
  | none => s

/-! ### Role changes and the Tally's stop (R335, R345, R346) -/

/-- A loop changes state other than by LOOP_MODE. -/
def State.loopMode (s : State) (n : Nat) (l : Loop) (m : LoopMode) (cause : Nat) : State :=
  let s' : State := s.setLoop n { l with mode := m }
  if l.mode = m then s' else s'.raise 0x70 [u16 n, u16 (modeCode l.mode), u16 (modeCode m), u16 cause]

/-- Every loop by its number. -/
def State.eachLoop (s : State) (f : State → Nat → Loop → State) : State :=
  (s.loops.loops.map Prod.fst).foldl (fun s n => match s.loopOf n with
    | some l => f s n l
    | none => s) s

/-- The takeover is complete once every enabled loop has taken its first sample (R345). -/
def State.settleTakeover (s : State) : State :=
  if s.loops.taking && !s.loops.loops.any (fun p => p.2.first) then
    ({ s with loops := { s.loops with taking := false } }).raise 0x77 [u16 s.loops.takeUsable, u16 s.loops.takeBad]
  else s

/-- The tablet becomes STANDBY or ISOLATED: every loop tracks (R335, R345). -/
def State.loopsFollow (s : State) : State :=
  let one (s : State) (n : Nat) (l : Loop) : State :=
    s.loopMode n { l with
      track := l.out, promote := false, first := false, closing := false, startClose := false, later := none, queue := [] } .tracking 3
  let s : State := { s with loops := { s.loops with taking := false, pwm := [], pwmNext := [] } }
  (s.eachLoop one).endTrace

/-- The tablet is promoted: every enabled loop that tracks closes at its first sample, from its track value, which is what the active
issued last (R345). -/
def State.loopsPromote (s : State) : State :=
  let one (s : State) (n : Nat) (l : Loop) : State :=
    let on := l.en == .enabled && l.mode == .tracking
    s.setLoop n { l with promote := on, first := on, out := if on then l.track else l.out }
  let s : State := s.eachLoop one
  ({ s with loops := { s.loops with taking := true, takeUsable := 0, takeBad := 0 } }).settleTakeover

/-- A SOLO tablet begins to negotiate: its loops stand OPEN at their last outputs (R491; assumption). -/
def State.loopsOpen (s : State) : State :=
  let one (s : State) (n : Nat) (l : Loop) : State :=
    s.loopMode n { l with outMan := l.out, promote := false, first := false, closing := false, later := none } .opened 3
  (s.eachLoop one).endTrace

/-- Start-up step 11: loops with START_CLOSED close at their first usable sample (R346). -/
def State.loopsStart (s : State) : State :=
  s.eachLoop (fun s n l => s.setLoop n { l with startClose := l.flag fStartClosed && l.mode == .opened })

/-! ### Triggers (R326, R342, R344) -/

/-- The sample instant that a loop's trigger has reached and that no sample has taken yet (R326); a QUIESCING loop takes one that had
passed at the disable, and no other (R347). -/
def State.loopDue (s : State) (l : Loop) : Option Nat :=
  if l.en = .quiescing then l.due
  else if l.trigger = 0 then
    let p := l.periodUs * usNs
    let t := s.tai / p * p
    if 0 < p && l.lastTrig < t then some t else none
  else if l.trig then some l.lastTrig else none

/-- A mode order takes effect (R335): what opens, closes or tracks by order waits for no promotion and no start-up any more. -/
def Loop.ordered (l : Loop) (m : LoopMode) (outMan : F32) : Loop :=
  let l : Loop := { l with promote := false, startClose := false, later := none }
  match m with
  | .closed => { l with mode := .closed, closing := l.closing || l.mode != .closed, forcedOpen := false }
  | .opened => { l with mode := .opened, closing := false, outMan := fClamp l.outMin l.outMax outMan }
  | .tracking => { l with mode := .tracking, closing := false }

/-- The mode order that waited takes effect, where it was accepted by an instant (R342). -/
def Loop.settleLater (l : Loop) (inst : Nat) : Loop := match l.later with
  | some o => if o.since ≤ inst then l.ordered o.mode o.outMan else l
  | none => l

/-- A loop reaches DISABLED: its trace ends, and nothing waits any more (R347, R352). -/
def State.loopOff (s : State) (n : Nat) (l : Loop) : State :=
  let s : State := match s.loops.trace with
    | some t => if t.loop = n then s.endTrace else s
    | none => s
  ((s.setLoop n { l with
    en := .disabled, promote := false, first := false, startClose := false, trig := false, due := none, later := none
    }).raise 0x78 [u16 n]).settleTakeover

/-- Triggers that start no sample because the role is REPLACING, up to an instant (R344). -/
def State.loopMiss (s : State) (n : Nat) (l : Loop) (inst count : Nat) : State :=
  let l : Loop := { l.settleLater s.tai with missed := satAdd l.missed count, lastTrig := inst, trig := false, due := none }
  let s : State := (s.setLoop n l).raiseTimed2 0x73 n [u16 n] true count 0
  if l.en = .quiescing then s.loopOff n l else s

/-- A trigger that is merged (R326). -/
def State.loopMerge (s : State) (n : Nat) (l : Loop) (inst : Nat) : State :=
  (s.setLoop n { l with
    missed := satInc l.missed, lastTrig := if l.trig then l.lastTrig else inst }).raiseTimed2 0x73 n [u16 n] true 0 1

/-- While its role is REPLACING, and as it restarts, a loop misses every instant reached and not taken (R344): of PERIODIC, each
multiple of its period since its last one, or since the role failed where that is later, and the one that was under way then. -/
def State.loopCatchUp (s : State) (n : Nat) (l : Loop) (downNs : Nat) : State :=
  match s.loopDue l with
  | none => s
  | some t =>
    let p := l.periodUs * usNs
    let since := max l.lastTrig ((s.tai - downNs) / p * p - 1)
    s.loopMiss n l t (if l.trigger = 0 && l.en == .enabled then t / p - since / p else 1)

/-- How long a role has been REPLACING. -/
def State.downFor (s : State) (id : Half) : Nat := ((s.role id).map (fun r => s.now - r.since)).getD 0

/-- A trigger reaches an enabled loop at this instant (R326): one whose role is REPLACING misses it. -/
def State.loopTrig (s : State) (n : Nat) (l : Loop) : State :=
  if s.loopRoleDown n then s.loopMiss n l s.tai 1 else s.setLoop n { l with trig := true, lastTrig := s.tai }

/-- The `count`-th sample of a modulator channel is available at the beam: every Nth one triggers (R326). -/
def State.chanTrigger (s : State) (ch count : Nat) : State :=
  s.eachLoop (fun s n l =>
    if l.en = .enabled && l.trigger == 1 && l.trigIndex == ch && count % (l.periodUs * 16 / 1000) == 0 then s.loopTrig n l else s)

end Sys2Proof.Machine
end

