-- ==== Sys2Proof/Machine/Num.lean ====
section
/-! DEFINITION. Sums, vectors and linear systems over the engines' working numbers (`Num`), whose arithmetic the spec leaves open. -/

namespace Sys2Proof.Machine

open Sys2Proof

/-- The constant n / d. -/
def nc (n d : Nat) : Num := Config.numRat false n d
def nZero : Num := nc 0 1
def nOne : Num := nc 1 1

def nAdd (x y : Num) : Num := Config.numAdd x y
def nSub (x y : Num) : Num := Config.numSub x y
def nMul (x y : Num) : Num := Config.numMul x y
def nDiv (x y : Num) : Num := Config.numDiv x y
def nLt (x y : Num) : Bool := Config.numLt x y
def nLe (x y : Num) : Bool := !nLt y x
def nNeg (x : Num) : Num := nSub nZero x
def nAbs (x : Num) : Num := if nLt x nZero then nNeg x else x
def nMin (x y : Num) : Num := if nLt y x then y else x
def nMax (x y : Num) : Num := if nLt x y then y else x
def nClamp (lo hi x : Num) : Num := nMin hi (nMax lo x)
def nSq (x : Num) : Num := nMul x x
/-- x·|x|. -/
def nSqS (x : Num) : Num := nMul x (nAbs x)
def nDbl (x : Num) : Num := nMul (nc 2 1) x

/-- A float32 field of a record. -/
def nF (x : F32) : Num := Config.numOf x
def nToF (x : Num) : F32 := Config.numTo x

/-- Sums run from the first term to the last. -/
def nSum (l : List Num) : Num := l.foldl nAdd nZero
def nDot (a b : List Num) : Num := nSum (List.zipWith nMul a b)
def nMaxAbs (l : List Num) : Num := l.foldl (fun a x => nMax a (nAbs x)) nZero
def nMean (l : List Num) : Num := nDiv (nSum l) (nc l.length 1)

/-- A matrix by its rows. -/
abbrev Mat := List (List Num)

def matVec (m : Mat) (v : List Num) : List Num := m.map (fun r => nDot r v)
def matCol (m : Mat) (j : Nat) : List Num := m.map (fun r => r.getD j nZero)
/-- The transpose of a matrix of `n` columns. -/
def matT (n : Nat) (m : Mat) : Mat := (List.range n).map (matCol m)
def vecAdd (a b : List Num) : List Num := List.zipWith nAdd a b
def vecSub (a b : List Num) : List Num := List.zipWith nSub a b
def vecScale (k : Num) (a : List Num) : List Num := a.map (nMul k)

/-- Triangular factors of a symmetric matrix, row by row: each row of the unit lower factor (its entries before the diagonal) with
its pivot. -/
abbrev Ldl := List (List Num × Num)

/-- The entries l₀ … of one row against the rows above it, and its pivot. -/
def ldlRow (above : Ldl) (row : List Num) : List Num × Num :=
  -- w collects l_j × d_j for j before the one at hand
  let w := above.foldl (fun (w : List Num) p =>
    w ++ [nSub (row.getD w.length nZero) (nDot p.1 w)]) []
  let l := List.zipWith (fun x p => nDiv x p.2) w above
  (l, nSub (row.getD above.length nZero) (nDot l w))

/-- Factorise a symmetric matrix. -/
def ldlFactor (m : Mat) : Ldl := m.foldl (fun f row => f ++ [ldlRow f row]) []

/-- Forward substitution with the unit lower factor. -/
def ldlForward (f : Ldl) (b : List Num) : List Num :=
  f.foldl (fun y p => y ++ [nSub (b.getD y.length nZero) (nDot p.1 y)]) []

/-- Back substitution with its transpose: the rows are taken from the last. -/
def ldlBack (f : Ldl) (y : List Num) : List Num :=
  let z := List.zipWith (fun v p => nDiv v p.2) y f
  (List.range f.length).reverse.foldl (fun x i =>
    let below := (f.drop (i + 1)).map (fun p => p.1.getD i nZero)
    nSub (z.getD i nZero) (nDot below x) :: x) []

/-- Solve with a factorised symmetric matrix. -/
def ldlSolve (f : Ldl) (b : List Num) : List Num := ldlBack f (ldlForward f b)

/-- The inverse of a factorised matrix of order `n`, by columns; it is symmetric. -/
def ldlInverse (n : Nat) (f : Ldl) : Mat :=
  (List.range n).map (fun j => ldlSolve f ((List.range n).map (fun i => if i = j then nOne else nZero)))

end Sys2Proof.Machine
end

