-- ==== Sys2Proof/Machine/Water.lean ====
section
/-! DEFINITION. The tablet's water table (R149, R428): IAPWS-IF97 region 1 by pressure and temperature, in SI units, and the saturation
line. R428 names the formulation and gives its table's steps and bounds; the formulation's equations and coefficients are those of
IAPWS-IF97 (PRESUMED, see the assumption log). -/

namespace Sys2Proof.Machine

open Sys2Proof

/-- A term of the region 1 equation: the powers of 7.1 − π and of τ − 1.222, and the coefficient ± man ÷ 10^places. -/
structure If97Term where
  i : Nat
  j : Int
  neg : Bool
  man : Nat
  places : Nat
  deriving DecidableEq, Repr, Inhabited

def if97Low : List If97Term :=
  [⟨0, -2, false, 14632971213167, 14⟩, ⟨0, -1, true, 84548187169114, 14⟩, ⟨0, 0, true, 3756360367204, 12⟩,
   ⟨0, 1, false, 33855169168385, 13⟩, ⟨0, 2, true, 95791963387872, 14⟩, ⟨0, 3, false, 15772038513228, 14⟩,
   ⟨0, 4, true, 16616417199501, 15⟩, ⟨0, 5, false, 81214629983568, 17⟩, ⟨1, -9, false, 28319080123804, 17⟩,
   ⟨1, -7, true, 60706301565874, 17⟩, ⟨1, -1, true, 18990068218419, 15⟩, ⟨1, 0, true, 32529748770505, 15⟩]
def if97Mid : List If97Term :=
  [⟨1, 1, true, 21841717175414, 15⟩, ⟨1, 3, true, 5283835796993, 17⟩, ⟨2, -3, true, 47184321073267, 17⟩,
   ⟨2, 0, true, 30001780793026, 17⟩, ⟨2, 1, false, 47661393906987, 18⟩, ⟨2, 3, true, 44141845330846, 19⟩,
   ⟨2, 17, true, 72694996297594, 29⟩, ⟨3, -4, true, 31679644845054, 18⟩, ⟨3, 0, true, 28270797985312, 19⟩,
   ⟨3, 6, true, 85205128120103, 23⟩, ⟨4, -5, true, 22425281908, 16⟩, ⟨4, -2, true, 65171222895601, 20⟩]
def if97High : List If97Term :=
  [⟨4, 10, true, 14341729937924, 26⟩, ⟨5, -8, true, 40516996860117, 20⟩, ⟨8, -11, true, 12734301741641, 22⟩,
   ⟨8, -6, true, 17424871230634, 23⟩, ⟨21, -29, true, 68762131295531, 32⟩, ⟨23, -31, false, 14478307828521, 33⟩,
   ⟨29, -38, false, 26335781662795, 36⟩, ⟨30, -39, true, 11947622640071, 36⟩, ⟨31, -40, false, 18228094581404, 37⟩,
   ⟨32, -41, true, 93537087292458, 39⟩]
def if97Terms : List If97Term := if97Low ++ if97Mid ++ if97High

def If97Term.coef (t : If97Term) : Num := Config.numRat t.neg t.man (10 ^ t.places)

/-- Whole powers of a working number. -/
def nPowNat (x : Num) : Nat → Num
  | 0 => nOne
  | n + 1 => nMul (nPowNat x n) x
def nPowInt (x : Num) (n : Int) : Num := if n < 0 then nDiv nOne (nPowNat x n.natAbs) else nPowNat x n.natAbs

/-- An integer as a working number. -/
def nInt (n : Int) : Num := Config.numRat (n < 0) n.natAbs 1

/-- π = p ÷ 16.53 MPa, τ = 1 386 K ÷ T, and R in J/(kg·K). -/
def if97Pi (p : Num) : Num := nDiv p (nc 16530000 1)
def if97Tau (t : Num) : Num := nDiv (nc 1386 1) t
def if97R : Num := nc 461526 1000

/-- The sum over the terms with the powers (7.1 − π)^(I − a)·(τ − 1.222)^(J − b), each by its own factor. -/
def if97Sum (p t : Num) (a : Nat) (b : Int) (factor : If97Term → Int) : Num :=
  let x := nSub (nc 71 10) (if97Pi p)
  let y := nSub (if97Tau t) (nc 1222 1000)
  nSum ((if97Terms.filter (fun k => factor k != 0)).map (fun k =>
    nMul (nMul (nInt (factor k)) k.coef) (nMul (nPowNat x (k.i - a)) (nPowInt y (k.j - b)))))

/-- γ_π, γ_τ and γ_ττ. -/
def if97GammaPi (p t : Num) : Num := if97Sum p t 1 0 (fun k => -(k.i : Int))
def if97GammaTau (p t : Num) : Num := if97Sum p t 0 1 (fun k => k.j)
def if97GammaTauTau (p t : Num) : Num := if97Sum p t 0 2 (fun k => k.j * (k.j - 1))

/-- Density p ÷ (R·T·π·γ_π), specific enthalpy R·T·τ·γ_τ and heat capacity −R·τ²·γ_ττ. -/
def if97Rho (p t : Num) : Num := nDiv p (nMul (nMul if97R t) (nMul (if97Pi p) (if97GammaPi p t)))
def if97H (p t : Num) : Num := nMul (nMul if97R t) (nMul (if97Tau t) (if97GammaTau p t))
def if97Cp (p t : Num) : Num := nNeg (nMul if97R (nMul (nSq (if97Tau t)) (if97GammaTauTau p t)))

/-- A node of the table: 273.15 K and every 0.25 K up to 423.15 K. -/
def waterNode (k : Nat) : Num := nc (27315 + 25 * min k 600) 100

/-- The table's value between the nodes `k` and `k` + 1 about `t`, by cubic interpolation, within `bound` of the formulation's. -/
def tabled (f : Num → Num → Num) (bound : Num → Num) (p t : Num) : Num :=
  let k := min (fFloor (nToF (nMul (nSub t (waterNode 0)) (nc 4 1)))) 599
  let y (j : Nat) : Num := f p (waterNode j)
  let v := Config.cubic4 (y (k - 1)) (y k) (y (k + 1)) (y (k + 2)) (nMul (nSub t (waterNode k)) (nc 4 1))
  let exact := f p t
  nClamp (nSub exact (bound exact)) (nAdd exact (bound exact)) v

/-- Density, within 0.01 %, and specific enthalpy, within 0.05 kJ/kg (R428). -/
def waterRho (p t : Num) : Num := tabled if97Rho (fun x => nMul (nc 1 10000) x) p t
def waterH (p t : Num) : Num := tabled if97H (fun _ => nc 50 1) p t

/-- Heat capacity: that of the formulation. -/
def waterCp (p t : Num) : Num := if97Cp p t

/-- Coefficients of the saturation line, in its order. -/
def satTerms : List (Bool × Nat × Nat) :=
  [(false, 11670521452767, 10), (true, 72421316703206, 8), (true, 17073846940092, 12), (false, 1202082470247, 8),
   (true, 32325550322333, 7), (false, 1491510861353, 11), (true, 48232657361591, 10), (false, 40511340542057, 8),
   (true, 23855557567849, 14), (false, 65017534844798, 11)]
def satN (k : Nat) : Num :=
  let c := satTerms.getD (k - 1) (false, 0, 0)
  Config.numRat c.1 c.2.1 (10 ^ c.2.2)

/-- Vapour pressure in Pa: region 4 of the formulation, with A, B and C of its quadratic. -/
def waterPv (t : Num) : Num :=
  let th := nAdd t (nDiv (satN 9) (nSub t (satN 10)))
  let quad (u v w : Num) : Num := nAdd (nMul u (nSq th)) (nAdd (nMul v th) w)
  let a := quad nOne (satN 1) (satN 2)
  let b := quad (satN 3) (satN 4) (satN 5)
  let c := quad (satN 6) (satN 7) (satN 8)
  let root := Config.numSqrt (nSub (nSq b) (nMul (nMul (nc 4 1) a) c))
  nMul (nc 1000000 1) (nPowNat (nDiv (nDbl c) (nAdd (nNeg b) root)) 4)

end Sys2Proof.Machine
end

