-- ==== Sys2Proof/Machine/Hydra.lean ====
section
/-! DEFINITION. The hydraulic laws and the nodal solution (spec/05_state_reckoning.md, R148–R153), over the engines' working
numbers. -/

namespace Sys2Proof.Machine

open Sys2Proof

/-- Look a working number up by its key. -/
def nAt (d : Num) (l : List (Nat × Num)) (k : Nat) : Num := (alGet l k).getD d

/-- A float32 field of a record as a working number. -/
def nField (r : List Byte) (o : Nat) : Num := nF (fieldAt r o)

/-- g = 9.806 65 m/s², and π. -/
def gravity : Num := nc 980665 100000
def nPi : Num := nc 314159265358979 100000000000000

/-- The bore area of a diameter. -/
def boreArea (d : Num) : Num := nDiv (nMul nPi (nSq d)) (nc 4 1)

/-! ### Networks -/

def netRec (img : List Byte) (n : Nat) : List Byte := (recByKey img 1 n).getD []
def nodeRec (img : List Byte) (n : Nat) : List Byte := (recByKey img 2 n).getD []
def holdP (img : List Byte) (n : Nat) : Num := nField (netRec img n) 4
def supplyT (img : List Byte) (n : Nat) : Num := nField (netRec img n) 0xC
def returnT (img : List Byte) (n : Nat) : Num := nField (netRec img n) 0x10
/-- The mean of a network's SUPPLY_T and RETURN_T, and the reference density ρ0 there (R149). -/
def meanT (img : List Byte) (n : Nat) : Num := nMean [supplyT img n, returnT img n]
def rho0 (img : List Byte) (n : Nat) : Num := waterRho (holdP img n) (meanT img n)

/-- A node's side gives its design temperature (R142). -/
def designT (img : List Byte) (node : Nat) : Num :=
  let r := nodeRec img node
  if u8At r 3 % 2 = 1 then returnT img (u8At r 2) else supplyT img (u8At r 2)

/-! ### Branches -/

/-- A branch of the graph: section type, record, id and ends. -/
structure Br where
  type : Nat
  rcd : List Byte
  id : Nat
  fr : Nat
  to_ : Nat
  net : Nat
  deriving DecidableEq, Repr, Inhabited

def brOf (img : List Byte) (p : Nat × List Byte) : Br :=
  let f := u16At p.2 (fromOff p.1)
  ⟨p.1, p.2, u16At p.2 (branchOff p.1), f, u16At p.2 (toOff p.1), (nodeNet img f).getD 0⟩

def brsOf (img : List Byte) : List Br := (branches img).map (brOf img)

/-- A pipe's or pump's check valve (R118, R120). -/
def Br.check (b : Br) : Bool :=
  match b.type with
  | 3 => u16At b.rcd 6 % 2 == 1
  | 4 => u8At b.rcd 7 / 2 % 2 == 1
  | _ => false

/-- The characteristic f(x) of a valve and its slope (R122). -/
def valveF (r : List Byte) (x : Num) : Num × Num :=
  match u8At r 0xC with
  | 0 => (x, nOne)
  | 1 =>
    let a := nField r 0x10
    if nLt nZero x then
      let v := Config.numPow a (nSub x nOne)
      (v, nMul v (Config.numLn a))
    else (nZero, nZero)
  | 2 => (Config.numSqrt x, nDiv (nc 1 2) (Config.numSqrt x))
  | _ =>
    -- the segment of TABLE that holds x
    let i := ((List.range 9).filter (fun i => nLe (nc (i + 1) 10) x)).length
    let a := nField r (0x20 + 4 * i)
    let k := nMul (nc 10 1) (nSub (nField r (0x20 + 4 * (i + 1))) a)
    (nAdd a (nMul k (nSub x (nc i 10))), k)

/-- AV_S·max(f(x), LEAK) and its slope with the opening. -/
def valveC (r : List Byte) (x : Num) : Num × Num :=
  let av := nField r 8
  let f := valveF r x
  let leak := nField r 0x18
  if nLt f.1 leak then (nMul av leak, nZero) else (nMul av f.1, nMul av f.2)

/-- The friction factor above Reynolds number 4 000 and its slope. -/
def frictionTurb (rough diam re : Num) : Num × Num :=
  let e := nc 9 10
  let arg := nAdd (nDiv rough (nMul (nc 37 10) diam)) (nDiv (nc 574 100) (Config.numPow re e))
  let l := Config.numLog10 arg
  let f := nDiv (nc 25 100) (nSq l)
  -- d f / d Re = 0.5 ÷ l³ × (0.9 × 5.74 ÷ Re^1.9) ÷ (arg × ln 10)
  let slope := nDiv (nMul (nc 5 10) (nDiv (nc 5166 1000) (Config.numPow re (nc 19 10))))
    (nMul (nMul l (nSq l)) (nMul arg (Config.numLn (nc 10 1))))
  (f, slope)

/-- The friction factor and its slope with the Reynolds number (R148); the cubic matches values and slopes at 2 000 and 4 000. -/
def friction (rough diam re : Num) : Num × Num :=
  let lam (r : Num) : Num × Num := (nDiv (nc 64 1) r, nNeg (nDiv (nc 64 1) (nSq r)))
  if nLt re (nc 2000 1) then lam re
  else if nLt (nc 4000 1) re then frictionTurb rough diam re
  else
    let w := nc 2000 1
    let a := lam (nc 2000 1)
    let b := frictionTurb rough diam (nc 4000 1)
    let t := nDiv (nSub re w) w
    let da := nMul w a.2
    let db := nMul w b.2
    let d := nSub b.1 a.1
    let c2 := nSub (nSub (nMul (nc 3 1) d) (nDbl da)) db
    let c3 := nSub (nAdd da db) (nDbl d)
    let v := nAdd a.1 (nMul t (nAdd da (nMul t (nAdd c2 (nMul t c3)))))
    let s := nAdd da (nMul t (nAdd (nDbl c2) (nMul t (nMul (nc 3 1) c3))))
    (v, nDiv s w)

/-- What the laws of a branch take beside its record: ρ and ν at its mean temperature, ρ0, cp, pump speed, valve opening. -/
structure BrEnv where
  rho : Num
  nu : Num
  cp : Num
  rho0 : Num
  speed : Num
  opening : Num
  deriving DecidableEq, Repr, Inhabited

/-- A square law of `dp` Pa at the flow `qd`: head drop and gradient. -/
def squareLaw (rho0 dp qd q : Num) : Num × Num :=
  let k := nDiv dp (nMul (nMul rho0 gravity) (nSq qd))
  (nMul k (nSqS q), nMul (nDbl k) (nAbs q))

/-- Head drop and gradient of a pipe; below Re 2 000 the friction term is linear in the flow. -/
def pipeDrop (r : List Byte) (nu q : Num) : Num × Num :=
  let len := nField r 8
  let d := nField r 0xC
  let a := boreArea d
  let per := nMul (nDbl gravity) (nSq a)
  let aq := nAbs q
  let re := nDiv (nMul aq d) (nMul a nu)
  let minor := nField r 0x14
  if nLt re (nc 2000 1) then
    let k := nDiv (nMul (nMul (nc 64 1) (nMul a nu)) (nDiv len (nSq d))) per
    (nAdd (nMul k q) (nDiv (nMul minor (nSqS q)) per), nAdd k (nDiv (nMul (nDbl minor) aq) per))
  else
    let f := friction (nField r 0x10) d re
    let k := nAdd (nDiv (nMul f.1 len) d) minor
    let dre := nDiv d (nMul a nu)
    (nDiv (nMul k (nSqS q)) per,
     nAdd (nDiv (nMul (nDbl k) aq) per) (nDiv (nMul (nMul (nMul f.2 dre) (nDiv len d)) (nSq q)) per))

/-- A plant's flow at P_MAX over its network's design difference (R148). -/
def plantQn (img : List Byte) (b : Br) (e : BrEnv) : Num :=
  nDiv (nField b.rcd 0x10) (nMul (nMul e.rho e.cp) (nAbs (nSub (supplyT img b.net) (returnT img b.net))))

/-- Head drop Δh from FROM to TO at a flow, and its gradient (R148). -/
def headDrop (img : List Byte) (b : Br) (e : BrEnv) (q : Num) : Num × Num :=
  let r := b.rcd
  match b.type with
  | 3 => pipeDrop r e.nu q
  | 4 =>
    let c1 := nField r 0xC
    let c2 := nField r 0x10
    let h := nSub (nSub (nMul (nField r 8) (nSq e.speed)) (nMul (nMul c1 e.speed) q)) (nMul c2 (nSqS q))
    (nNeg h, nAdd (nMul c1 e.speed) (nMul (nDbl c2) (nAbs q)))
  | 5 =>
    let c := (valveC r e.opening).1
    let k := nDiv e.rho (nMul (nMul e.rho0 gravity) (nSq c))
    (nMul k (nSqS q), nMul (nDbl k) (nAbs q))
  | 6 => squareLaw e.rho0 (nField r 0x10) (nField r 0xC) q
  | 7 => squareLaw e.rho0 (nField r 0x14) (nField r 0x10) q
  | 8 => squareLaw e.rho0 (nc 1000 1) (plantQn img b e) q
  | _ => squareLaw e.rho0 (nc 1000 1) (nField r 0x18) q

/-- The buoyancy head of a branch (R149). -/
def buoyancy (img : List Byte) (b : Br) (e : BrEnv) : Num :=
  let elev (n : Nat) : Num := nField (nodeRec img n) 4
  nMul (nDiv (nSub e.rho e.rho0) e.rho0) (nSub (elev b.to_) (elev b.fr))

/-- Head drop with the buoyancy head. -/
def dropOf (img : List Byte) (b : Br) (e : BrEnv) (q : Num) : Num × Num :=
  let d := headDrop img b e q
  (nAdd d.1 (buoyancy img b e), d.2)

/-! ### The nodal solution (R149–R152) -/

/-- What a nodal solution is given: the model, the branches with their environments, and the demand of every station's branch. -/
structure HydIn where
  img : List Byte
  brs : List (Br × BrEnv)
  demand : List (Nat × Num)
  deriving DecidableEq, Repr, Inhabited

/-- Where the iteration stands. `closed`: branches closed by a check valve; `flips`: how often each has changed; `under`: stations
taken as fully open. -/
structure Hyd where
  heads : List (Nat × Num)
  flows : List (Nat × Num)
  closed : List Nat
  flips : List (Nat × Nat)
  under : List Nat
  deriving DecidableEq, Repr, Inhabited

def elevOf (img : List Byte) (n : Nat) : Num := nField (nodeRec img n) 4
def isHold (r : List Byte) : Bool := u8At r 3 / 2 % 2 == 1
/-- The design head of a node: HOLD_P adjusted for elevation, which is the head of the network's HOLD node (R142). -/
def designHead (img : List Byte) (n : Nat) : Num := elevOf img (u16At (netRec img ((nodeNet img n).getD 0)) 2)

/-- The head of a node; a HOLD node's is its ELEV (R150). -/
def Hyd.head (h : Hyd) (img : List Byte) (n : Nat) : Num :=
  if isHold (nodeRec img n) then elevOf img n else nAt (designHead img n) h.heads n
def Hyd.flow (h : Hyd) (b : Nat) : Num := nAt nZero h.flows b

/-- The nodes whose heads are unknown. -/
def freeNodes (img : List Byte) : List Nat := ((nodes img).filter (fun r => !isHold r)).map (fun r => u16At r 0)

/-- A station that carries its demand has no head law (R148). -/
def setFlow (h : Hyd) (b : Br) : Bool := b.type == 7 && !h.under.contains b.id

/-- p_j and y_j of a branch (R150, R152). -/
def pyOf (i : HydIn) (h : Hyd) (x : Br × BrEnv) : Num × Num :=
  if h.closed.contains x.1.id then (nc 1 100000000, nZero)
  else
    let d := dropOf i.img x.1 x.2 (h.flow x.1.id)
    let p := nDiv nOne (nMax d.2 (nc 1 1000000))
    (p, nMul p d.1)

/-- The branches with a head law, each with p and y. -/
def lawful (i : HydIn) (h : Hyd) : List (Br × Num × Num) :=
  (i.brs.filter (fun x => !setFlow h x.1)).map (fun x => (x.1, pyOf i h x))

/-- d_i: WITHDRAW, plus the demands of set-flow stations leaving node i, less those entering it. -/
def nodeDemand (i : HydIn) (h : Hyd) (n : Nat) : Num :=
  nSum (nField (nodeRec i.img n) 0x10 :: i.brs.filterMap (fun x =>
    if !setFlow h x.1 then none
    else
      let q := nAt nZero i.demand x.1.id
      if x.1.fr = n then some q else if x.1.to_ = n then some (nNeg q) else none))

/-- The matrix of step 1, over the free nodes. -/
def nodalMatrix (ns : List Nat) (ls : List (Br × Num × Num)) : Mat :=
  ns.map (fun a => ns.map (fun b =>
    if a = b then nSum (ls.filterMap (fun l => if l.1.fr = a || l.1.to_ = a then some l.2.1 else none))
    else nSum (ls.filterMap (fun l =>
      if (l.1.fr = a && l.1.to_ = b) || (l.1.fr = b && l.1.to_ = a) then some (nNeg l.2.1) else none))))

/-- The right-hand side: what flows in less what flows out, the demand, and the fixed heads that a free node's branches reach. -/
def nodalRhs (i : HydIn) (h : Hyd) (ns : List Nat) (ls : List (Br × Num × Num)) : List Num :=
  ns.map (fun a => nSub (nSum (ls.filterMap (fun l =>
    let q := nSub (h.flow l.1.id) l.2.2
    let fixed (n : Nat) : Num := if isHold (nodeRec i.img n) then nMul l.2.1 (elevOf i.img n) else nZero
    if l.1.to_ = a then some (nAdd q (fixed l.1.fr))
    else if l.1.fr = a then some (nAdd (nNeg q) (fixed l.1.to_)) else none))) (nodeDemand i h a))

/-- A check valve, or a stopped pump with one, is closed while the head difference would drive flow from TO to FROM (R152). -/
def wantsClosed (i : HydIn) (h : Hyd) (x : Br × BrEnv) : Bool :=
  x.1.check && nLt (nSub (h.head i.img x.1.fr) (h.head i.img x.1.to_)) (dropOf i.img x.1 x.2 nZero).1

/-- Re-evaluate the check valves; a branch that has changed 10 times is frozen. A branch that closes carries no flow. -/
def checkValves (i : HydIn) (h : Hyd) : Hyd :=
  i.brs.foldl (fun h x =>
    let was := h.closed.contains x.1.id
    let n := (alGet h.flips x.1.id).getD 0
    if was == wantsClosed i h x || 10 ≤ n then h
    else { h with closed := if was then h.closed.filter (fun c => c != x.1.id) else x.1.id :: h.closed,
                  flows := if was then h.flows else alPut h.flows x.1.id nZero,
                  flips := alPut h.flips x.1.id (n + 1) }) h

/-- A station passes its demand q while the pressure difference across it is at least DP_MIN·(q ÷ Q_D)² (R149). -/
def underSupplied (i : HydIn) (h : Hyd) (x : Br × BrEnv) : Bool :=
  let q := nAt nZero i.demand x.1.id
  let need := nMul (nField x.1.rcd 0x14) (nSq (nDiv q (nField x.1.rcd 0x10)))
  let dh := nSub (h.head i.img x.1.fr) (h.head i.img x.1.to_)
  let z := nSub (elevOf i.img x.1.fr) (elevOf i.img x.1.to_)
  nLt (nMul (nMul x.2.rho0 gravity) (nSub dh z)) need

def judgeStations (i : HydIn) (h : Hyd) : Hyd :=
  { h with under := (i.brs.filter (fun x => x.1.type == 7 && underSupplied i h x)).map (fun x => x.1.id) }

/-- The continuity residual of a node. -/
def residualAt (i : HydIn) (h : Hyd) (n : Nat) : Num :=
  nSub (nSum (i.brs.filterMap (fun x =>
    if setFlow h x.1 then none
    else if x.1.to_ = n then some (h.flow x.1.id)
    else if x.1.fr = n then some (nNeg (h.flow x.1.id)) else none))) (nodeDemand i h n)

/-- One iteration (R150): the heads, then the flows; `damped` halves the flow updates (R153). The answer says whether the three
conditions of R151 hold after it. -/
def nodalStep (i : HydIn) (damped : Bool) (h : Hyd) : Hyd × Bool :=
  let ns := freeNodes i.img
  let ls := lawful i h
  let heads := ns.zip (ldlSolve (ldlFactor (nodalMatrix ns ls)) (nodalRhs i h ns ls))
  let h1 : Hyd := { h with heads := heads }
  let upd (x : Br × BrEnv) : Nat × Num :=
    let q := h.flow x.1.id
    if setFlow h x.1 then (x.1.id, nAt nZero i.demand x.1.id)
    else
      let py := pyOf i h x
      let q' := nAdd (nSub q py.2) (nMul py.1 (nSub (h1.head i.img x.1.fr) (h1.head i.img x.1.to_)))
      (x.1.id, if damped then nAdd q (nDiv (nSub q' q) (nc 2 1)) else q')
  let h2 : Hyd := { h1 with flows := i.brs.map upd }
  let okHead := ns.all (fun n => nLe (nAbs (nSub (h2.head i.img n) (h.head i.img n))) (nc 1 10000))
  let okFlow := i.brs.all (fun x =>
    let a := h.flow x.1.id
    let b := h2.flow x.1.id
    nLe (nAbs (nSub b a)) (nAdd (nc 1 1000000) (nMul (nc 1 10000) (nAbs b))))
  let okRes := ns.all (fun n => nLe (nAbs (residualAt i h2 n)) (nc 1 1000000))
  (judgeStations i (checkValves i h2), okHead && okFlow && okRes)

/-- Iterate at most `fuel` times: the iteration, whether it converged, and the iterations used. -/
def nodalRun (i : HydIn) (damped : Bool) : Nat → Hyd → Hyd × Bool × Nat
  | 0, h => (h, false, 0)
  | fuel + 1, h =>
    let r := nodalStep i damped h
    if r.2 then (r.1, true, 1)
    else
      let x := nodalRun i damped fuel r.1
      (x.1, x.2.1, x.2.2 + 1)

/-- Design values of heads and flows: HOLD_P adjusted for elevation, no flow (R142). -/
def Hyd.design : Hyd := ⟨[], [], [], [], []⟩

/-- The restart keeps the change counts of the check valves, and the status of a branch that has frozen: it is frozen for the rest of
the solve (R152). -/
def Hyd.restart (h : Hyd) : Hyd :=
  { Hyd.design with closed := h.closed.filter (fun b => 10 ≤ (alGet h.flips b).getD 0), flips := h.flips }

/-- The first nodal solution of a solve within the budget of 60 (R153): after 40 iterations it restarts once from design values,
damped. The answer: the iteration, converged, iterations used, restarted. -/
def firstNodal (i : HydIn) (h : Hyd) : Hyd × Bool × Nat × Bool :=
  let a := nodalRun i false 40 h
  if a.2.1 then (a.1, true, a.2.2, false)
  else
    let b := nodalRun i true 20 a.1.restart
    (b.1, b.2.1, 40 + b.2.2, true)

/-- The pressure of a node: HOLD_P + ρ0·g·(H − ELEV) (R149). -/
def nodeP (img : List Byte) (h : Hyd) (n : Nat) : Num :=
  let net := (nodeNet img n).getD 0
  nAdd (holdP img net) (nMul (nMul (rho0 img net) gravity) (nSub (h.head img n) (elevOf img n)))

/-- The node with the largest continuity residual. -/
def worstNode (i : HydIn) (h : Hyd) : Nat :=
  (((freeNodes i.img).foldl (fun (a : Option (Nat × Num)) n =>
    let r := nAbs (residualAt i h n)
    match a with
    | some b => if nLt b.2 r then some (n, r) else a
    | none => some (n, r)) none).map Prod.fst).getD 0

end Sys2Proof.Machine
end

