-- ==== Sys2Proof/Machine/MeterCore.lean ====
section
/-! DEFINITION. Metering: energy registers, blocks and copies, station meters (spec/12_metering.md, R413–R422, R429–R431, R435). -/

namespace Sys2Proof.Machine

open Sys2Proof

/-! ### Energy registers (R413–R416) -/

/-- 1 mJ in units of 2⁻¹⁴⁹ W·ns, and 1 mL in units of 2⁻¹⁴⁹ m³/s·ns. -/
def lsbEnergy : Nat := 10 ^ 6 * 2 ^ 149
def lsbVolume : Nat := 10 ^ 3 * 2 ^ 149

/-- Add an energy or volume, filed by its sign; only whole LSBs enter, the remainder is carried (R415). -/
def EReg.add (r : EReg) (x : Int) (lsb : Nat) : EReg :=
  let f := r.fwdRem + (if 0 < x then x.natAbs else 0)
  let v := r.revRem + (if x < 0 then x.natAbs else 0)
  let n := r.netRem + x
  { fwd := (r.fwd + f / lsb) % 2 ^ 56, rev := (r.rev + v / lsb) % 2 ^ 56,
    net := (((r.net : Int) + n.tdiv lsb) % (2 ^ 56 : Int)).toNat, fwdRem := f % lsb, revRem := v % lsb, netRem := n.tmod lsb }

/-- Add whole LSBs to the forward and reverse register, their difference to the net register (R429). -/
def EReg.addWhole (r : EReg) (f v : Nat) : EReg :=
  { r with fwd := (r.fwd + f) % 2 ^ 56, rev := (r.rev + v) % 2 ^ 56,
           net := (((r.net : Int) + f - v) % (2 ^ 56 : Int)).toNat }

/-- The 64-bit word of a register (R414). -/
def eWord (n : Nat) : Nat := n / 2 ^ 48 % 256 * 2 ^ 56 + n % 2 ^ 48

/-- The primary register of a copy (R416). -/
def EReg.primary (r : EReg) (abs : Bool) : Nat := if abs then (r.fwd + r.rev) % 2 ^ 56 else r.net

def EReg.flds (r : EReg) : List Fld := [u64 (eWord r.fwd), u64 (eWord r.rev), u64 (eWord r.net)]

/-- Add time to a FAULT time, in 10 ms units, saturating (R418). -/
def faultAdd (fault ns add : Nat) : Nat × Nat :=
  (min (fault + (ns + add) / (10 * msNs)) 0xFFFFFFFF, (ns + add) % (10 * msNs))

/-! ### Blocks (R442) -/

def State.setCirc (s : State) (c : Nat) (x : Circ) : State := { s with meter := { s.meter with circs := alPut s.meter.circs c x } }
def State.setPoint (s : State) (p : Nat) (x : HeatPoint) : State :=
  { s with meter := { s.meter with points := alPut s.meter.points p x } }
def State.setVset (s : State) (v : Nat) (x : Vset) : State := { s with meter := { s.meter with vsets := alPut s.meter.vsets v x } }
def State.setAgg (s : State) (a : Nat) (x : HeatAgg) : State := { s with meter := { s.meter with aggs := alPut s.meter.aggs a x } }
def State.vset (s : State) (v : Nat) : Option Vset := alGet s.meter.vsets v
def State.agg (s : State) (a : Nat) : HeatAgg := (alGet s.meter.aggs a).getD default

def Circ.pvVal (c : Circ) (k : Nat) : F32 := (c.pv.getD k pvInvalid).value
def circAbs (c : CircCfg) : Bool := c.flags % 2 == 1
def circInvert (c : CircCfg) : Bool := c.flags / 2 % 2 == 1

/-- FLAGS of a circuit's block: those of its last window, with PRIMARY_ABS and MIRRORED as they stand. -/
def Circ.blockFlags (c : Circ) : Nat := c.flags ||| 2 * b01 (circAbs c.cfg) ||| 16 * b01 c.mirrored

/-- The 128-byte block of a circuit: the last window's quantities and the registers as they stand. -/
def Circ.block (c : Circ) : List Byte :=
  layPacked ([u16 c.cfg.circuit, u8 (qCode c.quality), u8 c.blockFlags, u32 c.windows, u32 (c.lastAt % 2 ^ 32), u16 c.cyc, u16 0,
    f32 (c.pvVal 14), f32 (c.pvVal 10), f32 (c.pvVal 11), f32 (c.pvVal 12), f32 (c.pvVal 13), u32 c.fault]
    ++ c.a.flds ++ c.qr.flds ++ c.sr.flds ++ [u64 (eWord (c.a.primary (circAbs c.cfg))), u64 0])

def HeatPoint.flag (p : HeatPoint) (n : Nat) : Bool := u8At p.desc 1 / 2 ^ n % 2 == 1

/-- The 96-byte block of a heat point. -/
def HeatPoint.block (p : HeatPoint) : List Byte :=
  layPacked ([u8 (u8At p.desc 0), u8 0, u8 (qCode p.quality), u8 (b01 (p.flag 1) + 2 * b01 (p.flag 0) + 4 * b01 p.mirrored),
    u32 (p.lastAt.getD 0 % 2 ^ 32), f32 p.power, f32 p.flow, f32 p.tsup, f32 p.tret, u32 p.fault, u16 0, u16 0]
    ++ p.e.flds ++ p.v.flds ++ [u64 (eWord (p.e.primary (p.flag 1))), u64 0])

/-- The 96-byte block of an aggregate: kind 1 zone, 2 network; the primary is the net register, and POWER, for which
no rule states a value, is free (R442). -/
def aggBlock (a : Nat) (x : HeatAgg) : List Byte :=
  layPacked ([u8 (if a < 64 then a else a - 64), u8 (if a < 64 then 1 else 2), u8 (qCode x.quality), u8 0, u32 (x.lastAt % 2 ^ 32),
    f32 (Config.aggPower a x.lastAt), f32 0, f32 0, f32 0, u32 0, u16 x.reported, u16 x.missing]
    ++ x.e.flds ++ x.v.flds ++ [u64 (eWord x.e.net), u64 0])

/-- The metering role of a circuit or a point: while it is REPLACING, neither takes a cycle or a sample (R83, R101; assumption). -/
def meterRole (n : Nat) : Half := BitVec.ofNat 16 (0x7000 + n % 16)

/-! ### Mirroring (R435, R506) -/

/-- The field sizes of a circuit's and of a point's block (R442). -/
def meterSizes (kind : Nat) : List Nat :=
  if kind = 0 then [2, 1, 1, 4, 4, 2, 2, 4, 4, 4, 4, 4, 4] ++ List.replicate 11 8
  else [1, 1, 1, 1, 4, 4, 4, 4, 4, 4, 2, 2] ++ List.replicate 8 8

/-- Each field of a block in the other byte order: little-endian in host memory, network order on the twin port (R14, R506). -/
def swapFields : List Nat → List Byte → List Byte
  | [], bs => bs
  | n :: ns, bs => (bs.take n).reverse ++ swapFields ns (bs.drop n)

/-- A METER record to the twin, in network order: KIND 0 circuit, 1 point; SET of R442. -/
def State.mirrorMeter (s : State) (kind set : Nat) (block : List Byte) : State :=
  s.mirrorTwin 0x09 ([u8 kind, u8 set, u16 0] ++ (swapFields (meterSizes kind) block).map (fun b => u8 b.toNat))

/-- A register copy of a circuit or point goes to the twin. -/
def State.copyCirc (s : State) (set c : Nat) (x : Circ) : State :=
  let b := x.block
  let x : Circ := match set with
    | 0 => { x with winCopy := some b }
    | 1 => { x with tickCopy := some b }
    | _ => { x with billCopy := some b }
  (s.setCirc c x).mirrorMeter 0 set b

def State.copyPoint (s : State) (set p : Nat) (x : HeatPoint) : State :=
  let b := x.block
  let x : HeatPoint := match set with
    | 0 => { x with winCopy := some b }
    | 1 => { x with tickCopy := some b }
    | _ => { x with billCopy := some b }
  (s.setPoint p x).mirrorMeter 1 set b

/-- Copy every circuit and point of this tablet into a set (R421). -/
def State.copyAll (s : State) (set : Nat) : State :=
  let s : State := s.meter.circs.foldl (fun s p => if p.2.mirrored then s else s.copyCirc set p.1 p.2) s
  s.meter.points.foldl (fun s p => if p.2.mirrored then s else s.copyPoint set p.1 p.2) s

/-- Every metering record of this tablet again, for a resync (R507). -/
def State.mirrorAllMeter (s : State) : State :=
  let one (s : State) (kind set : Nat) (b : Option (List Byte)) : State := match b with
    | some b => s.mirrorMeter kind set b
    | none => s
  let s : State := s.meter.circs.foldl (fun s p =>
    if p.2.mirrored then s else one (one (one s 0 0 p.2.winCopy) 0 1 p.2.tickCopy) 0 2 p.2.billCopy) s
  s.meter.points.foldl (fun s p =>
    if p.2.mirrored then s else one (one (one s 1 0 p.2.winCopy) 1 1 p.2.tickCopy) 1 2 p.2.billCopy) s

/-! ### Flash copies (R419) -/

/-- The registers as they stand, kept also for owners that are not configured now. -/
def State.meterSave (s : State) (good : Bool) : State :=
  let old : MeterSave := ((s.meter.saves.filter (·.good)).head?).getD ⟨[], [], [], true⟩
  let circs := s.meter.circs.foldl (fun l p =>
    if p.2.mirrored then l else alPut l p.1 ((p.2.a, p.2.qr, p.2.sr), p.2.fault, p.2.faultNs)) old.circs
  let points := s.meter.points.foldl (fun l p =>
    if p.2.mirrored then l else alPut l p.1 ((p.2.e, p.2.v), p.2.fault, p.2.faultNs)) old.points
  let aggs := s.meter.aggs.foldl (fun l p => alPut l p.1 (p.2.e, p.2.v)) old.aggs
  { s with meter := { s.meter with saves := ⟨circs, points, aggs, good⟩ :: s.meter.saves.take 1 } }

/-- The newest copy that passes its CRC: 0 the newer, 1 the older (R419). -/
def State.goodSave (s : State) : Option MeterSave := (s.meter.saves.filter (·.good)).head?

/-! ### Station meters (R429, R430) -/

/-- The record of a station's STATIONS entry. -/
def State.stationRec (s : State) (id : Nat) : Option (List Byte) := recByKey s.model.run 7 id
def meteredRec (r : List Byte) : Bool := u16At r 0xA / 2 % 2 == 1
def State.metered (s : State) (id : Nat) : Bool := ((s.stationRec id).map meteredRec).getD false
def State.networkKind (s : State) (n : Nat) : Option Nat := (recByKey s.model.run 1 n).map (fun r => u8At r 1)

/-- Increments reach an aggregate. -/
def State.addAgg (s : State) (a df dr dv at_ : Nat) : State :=
  let x := s.agg a
  s.setAgg a { x with e := x.e.addWhole df dr, v := x.v.addWhole dv 0, lastAt := at_ }

/-- A METER record (R429): the frame's AT is `at_`, in TAI ns. -/
def State.stationMeter (s : State) (station mkind index fwd rev vol at_ : Nat) : State :=
  let ignored (s : State) : State := s.raiseTimed 0xA2 station [u16 station]
  match s.stationRec station with
  | none => ignored s
  | some r =>
    if !meteredRec r || s.networkKind (u8At r 8) != some mkind then ignored s
    else
      let old := s.meter.stnMeters.find? (fun m => m.station == station && m.index == index)
      let others := s.meter.stnMeters.filter (fun m => !(m.station == station && m.index == index))
      let keep (s : State) : State :=
        { s with meter := { s.meter with stnMeters := others ++ [⟨station, index, fwd, rev, vol, at_, s.tai, false⟩] } }
      match old with
      | none => keep s
      | some m =>
        if m.baseline then keep s
        else
          let df := (fwd + 2 ^ 64 - m.fwd) % 2 ^ 64
          let dr := (rev + 2 ^ 64 - m.rev) % 2 ^ 64
          let dv := (vol + 2 ^ 64 - m.vol) % 2 ^ 64
          -- the limit in units of 2⁻¹⁴⁹ W·ns: 4 × LOAD_D × Δt + 1 MJ
          let limit : Int := 4 * fInt (f32At r 0xC) * (at_ - m.at_ : Nat) + (10 ^ 6 * 10 ^ 9 * 2 ^ 149 : Nat)
          let jump (d : Nat) : Bool := limit < ((d * 10 ^ 9 * 2 ^ 149 : Nat) : Int)
          if jump df || jump dr then (keep s).raise 0xA1 [u16 station, u16 index, u64 df, u64 dr]
          else
            -- the record counts J, the registers mJ
            ((keep s).addAgg (u8At r 9) (1000 * df) (1000 * dr) dv at_).addAgg (64 + u8At r 8) (1000 * df) (1000 * dr) dv at_

/-- A station has restarted (JOIN or a new BOOT): its next records set baselines. -/
def State.meterRebase (s : State) (station : Nat) : State :=
  { s with meter := { s.meter with
      stnMeters := s.meter.stnMeters.map (fun m => if m.station = station then { m with baseline := true } else m) } }

/-- The METERED stations of the model. -/
def State.meteredStations (s : State) : List Nat := (s.model.run |> stationRecs).filterMap (fun r => if meteredRec r then some (u16At r 0) else none)

/-- Whether a METERED station has delivered a record within 2 × BILL_S (R431). -/
def State.stnReported (s : State) (id : Nat) : Bool :=
  s.meter.stnMeters.any (fun m => m.station == id && s.tai ≤ m.heard + 2 * s.meter.billS * secNs)

/-! ### Aggregates (R421, R431) -/

/-- The aggregates of the running model, 0–63 zones and 64–67 networks, and those with a history. -/
def State.aggIds (s : State) : List Nat :=
  (keys s.model.run 10 ++ (keys s.model.run 1).map (64 + ·) ++ s.meter.aggs.map Prod.fst).eraseDups

/-- The METERED stations of an aggregate. -/
def State.aggStations (s : State) (a : Nat) : List Nat :=
  ((stationRecs s.model.run).filter (fun r => meteredRec r && (if a < 64 then u8At r 9 == a else 64 + u8At r 8 == a))).map (u16At · 0)

/-- An aggregate with its quality, REPORTED and MISSING as they stand. -/
def State.judgeAgg (s : State) (a : Nat) : HeatAgg :=
  let ids := s.aggStations a
  let rep := (ids.filter s.stnReported).length
  { s.agg a with quality := if rep = ids.length then .good else .stale, reported := rep, missing := ids.length - rep }

/-- The tick copy at a Reckoner tick, of every circuit, point and aggregate (R421). -/
def State.meterTick (s : State) : State :=
  let one (s : State) (a : Nat) : State :=
    let x := s.judgeAgg a
    s.setAgg a { x with tickCopy := some (aggBlock a x) }
  let s : State := s.aggIds.foldl one (s.copyAll 1)
  { s with meter := { s.meter with tickNo := s.meter.tickNo + 1 } }

end Sys2Proof.Machine
end

