-- ==== Sys2Proof/Machine/Phasor.lean ====
section
/-! DEFINITION. What a line cycle gives: RMS, powers, phasors, harmonics (R403, R410, R411, R423), and the water of a heat point
(R427, R428). The order of the sums is the model's, since the working numbers' rounding is open. -/

namespace Sys2Proof.Machine

open Sys2Proof

/-- A channel's samples with their stamps, the oldest first. -/
abbrev Wave := List (Nat × Num)

/-- The scaled samples of a channel (R403). -/
def State.wave (s : State) (n : Nat) : Wave :=
  ((s.chan n).hist.map (fun p => (p.at_, nMul (nSub (nF p.x) (nF (s.reg (rChOfs n)))) (nF (s.reg (rChGain n)))))).reverse

/-- A wave's value `back` samples before sample `k`; beyond either end the end's sample stands. -/
def waveAt (w : List Num) (k : Int) : Num := w.getD (min k.toNat (w.length - 1)) nZero

/-- Cubic interpolation between samples `k` and `k` + 1 at the fraction `t`. -/
def cubicAt (w : List Num) (k : Int) (t : Num) : Num :=
  Config.cubic4 (waveAt w (k - 1)) (waveAt w k) (waveAt w (k + 1)) (waveAt w (k + 2)) t

/-- A wave delayed by `d` samples, −1 to +1. -/
def delayed (d : F32) (w : Wave) : Wave :=
  if fIsZero d then w
  else
    let xs := w.map Prod.snd
    let at_ (k : Nat) : Num := if fSign d then cubicAt xs k (nNeg (nF d)) else cubicAt xs ((k : Int) - 1) (nSub nOne (nF d))
    (List.range w.length).map (fun k => ((w.getD k (0, nZero)).1, at_ k))

/-- A current channel as the quantities take it. -/
def State.currentWave (s : State) (n : Nat) : Wave := delayed (s.reg (rChPhase n)) (s.wave n)

/-- The samples whose stamps fall within a cycle. -/
def within (start till : Nat) (w : Wave) : Wave := w.filter (fun p => start ≤ p.1 && p.1 < till)

/-- √(Σx² ÷ K). -/
def waveRms (w : Wave) : Num := Config.numSqrt (nMean (w.map (fun p => nSq p.2)))

/-- The products of two waves at common instants, and their mean Σ v·i ÷ K. -/
def waveProd (v i : Wave) : List Num := v.filterMap (fun p => (alGet i p.1).map (nMul p.2))
def wavePower (v i : Wave) : Num := nMean (waveProd v i)

/-- The sum of two waves at common instants. -/
def waveSum (v i : Wave) : Wave := v.filterMap (fun p => (alGet i p.1).map (fun x => (p.1, nAdd p.2 x)))

/-! ### Phasors (R411) -/

/-- A cycle resampled to 64 equally spaced points. -/
def resample (start till : Nat) (w : Wave) : List Num :=
  let xs := w.map Prod.snd
  (List.range 64).map (fun j =>
    -- 64 times the instant, and the last sample not after it
    let t64 := 64 * start + j * (till - start)
    let k := (w.takeWhile (fun p => 64 * p.1 ≤ t64)).length - 1
    cubicAt xs k (nc (t64 - 64 * (w.getD k (0, nZero)).1) (64 * 62500)))

/-- X(h) of the 64-point DFT, real and imaginary part. -/
def dft (ys : List Num) (h : Nat) : Num × Num :=
  let angle (j : Nat) : Num := nMul (nc (2 * h * j) 64) nPi
  (nDot ys ((List.range 64).map (fun j => Config.numCos (angle j))),
   nNeg (nDot ys ((List.range 64).map (fun j => Config.numSin (angle j)))))

/-- √2 × X(1) ÷ 64. -/
def fundamental (ys : List Num) : Num × Num :=
  let k := nDiv (Config.numSqrt (nc 2 1)) (nc 64 1)
  let x := dft ys 1
  (nMul k x.1, nMul k x.2)

/-- The filter's gain at harmonic `h` of a cycle of `dur` ns (R411). -/
def State.filterGain (s : State) (h dur : Nat) : Num :=
  let d := s.fld rClkCtl 10 0
  let f := nDiv (nc (h * 10 ^ 9) 1) (nc dur 1)
  let at_ (hz : Nat) : Num := Config.numSin (nDiv (nMul nPi f) (nc hz 1))
  let g := nDiv (at_ 16000) (nMul (nc d 1) (at_ (16000 * d)))
  nMul (nSq g) g

/-- Entry 0 the mean, entries 1–31 the harmonics' RMS magnitudes. -/
def State.harmonics (s : State) (dur : Nat) (ys : List Num) : List Num :=
  nDiv (dft ys 0).1 (nc 64 1) :: (List.range 31).map (fun j =>
    let x := dft ys (j + 1)
    let m := Config.numSqrt (nAdd (nSq x.1) (nSq x.2))
    nDiv (nDiv (nMul (Config.numSqrt (nc 2 1)) m) (nc 64 1)) (s.filterGain (j + 1) dur))

/-- √(Σ H(h)², h = 2–31) ÷ H(1). -/
def thd (hs : List Num) : Num := nDiv (Config.numSqrt (nSum ((hs.drop 2).map nSq))) (hs.getD 1 nZero)

/-! ### A circuit's cycle (R410) -/

/-- The quantities of a circuit for the cycle from `start` to `till`, before the correction of R412. -/
def State.cycleQty (s : State) (v : VsetCfg) (c : CircCfg) (start till : Nat) : CycleQty :=
  let four := v.wiring == 0
  let dur := till - start
  let vs := (v.ch.take (if four then 3 else 2)).map s.wave
  let is := (if four then [c.i1, c.i2, c.i3] else [c.i1, c.i3]).map s.currentWave
  let cut := within start till
  let cv := vs.map cut
  let ci := is.map cut
  let vr := cv.map waveRms
  let ir := ci.map waveRms
  let neutral : Num :=
    if c.in_ ≠ 0xFF then waveRms (cut (s.currentWave c.in_))
    else waveRms (waveSum (waveSum (ci.getD 0 []) (ci.getD 1 [])) (ci.getD 2 []))
  let ps := List.zipWith wavePower cv ci
  -- three wires have one sum over both products
  let p3 := nMean (List.zipWith nAdd (waveProd (cv.getD 0 []) (ci.getD 0 [])) (waveProd (cv.getD 1 []) (ci.getD 1 [])))
  let vy := vs.map (resample start till)
  let iy := is.map (resample start till)
  let q := nSum (List.zipWith (fun a b =>
    let x := fundamental a
    let y := fundamental b
    nSub (nMul x.2 y.1) (nMul x.1 y.2)) vy iy)
  let vh := vy.map (s.harmonics dur)
  let ih := iy.map (s.harmonics dur)
  let f (hs : List Num) : List F32 := hs.map nToF
  let h (l : List (List Num)) (k : Nat) : List F32 := f (l.getD k [])
  { circuit := c.circuit, vrms := f vr,
    irms := if four then f (ir ++ [neutral]) else [nToF (ir.getD 0 nZero), 0, nToF (ir.getD 1 nZero), 0],
    phaseP := if four then f ps else [],
    p := nToF (if four then nSum ps else p3), q := nToF q, s := nToF (nDot vr ir),
    thdV := nToF (thd (vh.getD 0 [])), thdI := nToF ((ih.map thd).foldl nMax nZero),
    harm := if four then vh.map f ++ ih.map f else [h vh 0, h vh 1, [], h ih 0, [], h ih 1] }

/-- Every circuit that this tablet meters on a set. -/
def State.cycleQtys (s : State) (v start till : Nat) : List CycleQty :=
  match s.vset v with
  | none => []
  | some vs =>
    (s.meter.circs.filter (fun p => p.2.cfg.vset == v && !p.2.mirrored)).map (fun p => s.cycleQty vs.cfg p.2.cfg start till)

/-! ### Zero crossings (R408, R423) -/

/-- The reference channel through the 1 kHz low-pass, with its stamps, the oldest first; `low`: the filter's output as a command names
it, one value a sample. -/
def State.refWave (s : State) (v : VsetCfg) (low : Option (List F32)) : List (Nat × F32) :=
  let w := s.wave (v.ch.headD 0)
  let xs := w.map Prod.snd
  (w.map Prod.fst).zip (low.getD ((List.range xs.length).map (fun k => nToF (Config.lowPass1k (xs.take (k + 1))))))

/-- |y| is more than 2 % of UDIN × √2: 2 × 0.02² is 1 ÷ 1 250. -/
def beyondHyst (udin y : F32) : Bool := fInt udin ^ 2 < 1250 * fInt y ^ 2

/-- Where the line between two samples about zero meets it, in whole µs. -/
def crossPoint (a b : Nat × F32) : Nat :=
  (a.1 + (b.1 - a.1) * (fInt a.2).natAbs / (fInt b.2 - fInt a.2).natAbs) / usNs * usNs

/-- The zero crossings of a wave towards positive values: it has been below zero by more than the hysteresis (`armed`) and reaches
zero. `prev` is the sample before. -/
def crossings (udin : F32) (armed : Bool) (prev : Nat × F32) : List (Nat × F32) → List Nat
  | [] => []
  | x :: xs =>
    let armed := armed || (fSign x.2 && beyondHyst udin x.2)
    if armed && 0 ≤ fInt x.2 then crossPoint prev x :: crossings udin false x xs else crossings udin armed x xs

/-- The first crossing of a set's reference channel after an instant: positive-going, or (`both`) in either direction. -/
def State.nextCross (s : State) (v : VsetCfg) (low : Option (List F32)) (both : Bool) (after : Nat) : Option Nat :=
  let w := s.refWave v low
  let up := crossings v.udin false (0, 0) w
  let down := if both then crossings v.udin false (0, 0) (w.map (fun p => (p.1, fNeg p.2))) else []
  ((up ++ down).filter (after < ·)).min?

/-- The start of the cycle that ends at a half-cycle boundary: the boundary two before it, or one nominal period back where none is
known within 1.5 nominal periods. -/
def State.halfStart (s : State) (vs : Vset) (at_ : Nat) : Nat :=
  if vs.half2 + s.nominalNs * 3 / 2 < at_ then at_ - s.nominalNs else vs.half2

/-- The half-cycle RMS of a set's voltage channels (R423). -/
def State.halfRmsOf (s : State) (vs : Vset) (at_ : Nat) : List F32 :=
  let chans := vs.cfg.ch.take (if vs.cfg.wiring = 0 then 3 else 2)
  chans.map (fun n => nToF (waveRms (within (s.halfStart vs at_) at_ (s.wave n))))

/-! ### Water of a heat point (R427, R428) -/

/-- What the water table gives at the pressure `p` for the supply, return and flow temperatures. -/
def waterOf (p ts tr tflow : F32) : WaterIn :=
  let below (t : F32) : Bool := nLt (waterPv (nF t)) (nF p)
  { density := nToF (waterRho (nF p) (nF tflow)),
    dh := nToF (nSub (waterH (nF p) (nF ts)) (waterH (nF p) (nF tr))),
    belowSat := below ts && below tr }

end Sys2Proof.Machine
end

