-- ==== Sys2Proof/Machine/Meter.lean ====
section
/-! DEFINITION. The commands of metering (spec/12_metering.md). -/

namespace Sys2Proof.Machine

open Sys2Proof

/-! ### Channels (R398–R405) -/

def State.setChan (s : State) (n : Nat) (c : Chan) : State := { s with meter := { s.meter with chans := s.meter.chans.set n c } }

/-- The battery domain meters: VIN is lost, the hold-up phase has ended and BATT_EN is 1; MODPWR_B then powers the modulators of MCLK3
(R432). -/
def State.modPwrB (s : State) : Bool :=
  s.sup.step == 0 && !s.sup.holdUp && s.sup.cause == .powerOn && s.meter.batt.ctl.toNat % 2 == 1

/-- The frequency in Hz on clock output MCLKk; none while it is held low (R398). On battery only MCLK3 runs, at D 313 (R432). -/
def State.mclkHz (s : State) (k : Nat) : Option Nat :=
  if s.modPwrB then (if k = 3 then some (16000 * 313) else none)
  else if s.fld rClkCtl 20 20 = 1 && k < 4 && getBit (s.reg rClkCtl) (16 + k) then some (16000 * s.fld rClkCtl 10 0) else none

/-- The clock output that METER_CH_CLK0 or METER_CH_CLK1 selects for a channel (R399). -/
def State.chanClk (s : State) (n : Nat) : Nat := s.fld (rChClk n) (2 * (n % 16) + 1) (2 * (n % 16))

/-- A channel is processed while its METER_CH_EN bit and RUN are 1 (R399). -/
def State.chanRuns (s : State) (n : Nat) : Bool := s.fld rClkCtl 20 20 == 1 && getBit (s.reg rChEn) n && n < 32

/-- A change of alignment state crosses to the beam (R399) and raises CH_STATE (R400). -/
def State.chanState (s : State) (n : Nat) (c : Chan) (st : ChSt) : State :=
  let s : State := s.setChan n { c with
    st := st, repeats := 0, crowded := 0, lockedAt := if st = .locked && c.st != .locked then s.tai else c.lockedAt,
    lostAt := if c.st = .locked && st != .locked then s.tai else c.lostAt }
  if c.st = st then s else (s.alarm 0x0E).raise 0x90 [u16 n, u16 (chCode c.st), u16 (chCode st), u16 c.eye]

/-- A channel that starts: its filter and its run of bits are empty. -/
def Chan.fresh (c : Chan) : Chan := { c with sinc := ⟨0, 0, 0, 0, 0, 0⟩, frame := .even, same := 0 }

/-- Channels acquire when enabled or when RUN becomes 1, and are OFF otherwise. -/
def State.chansFollow (s : State) : State :=
  (List.range 32).foldl (fun s n =>
    let c := s.chan n
    if s.chanRuns n then (if c.st = .off then s.chanState n c.fresh .acquire else s)
    else s.chanState n c .off) s

/-- The stamp of the decimation period that ended last: its end less the group delay (R402). -/
def State.chanStamp (s : State) : Nat :=
  let d := s.fld rClkCtl 10 0
  s.tai / 62500 * 62500 - 3 * (d - 1) * 10 ^ 9 / (2 * 16000 * d)

/-- What the delay line holds where the data line stays at the last bit's level. -/
def Chan.static (c : Chan) : TapWord := if c.lastBit then BitVec.allOnes 16 else 0

/-- The delay line over `k` periods: as the command gives it; a modulator whose selected clock output is held low keeps its level
(R399), and so do periods that the command leaves out. -/
def State.periods (s : State) (n k : Nat) (ws : List TapWord) : List TapWord :=
  let given := if (s.mclkHz (s.chanClk n)).isSome then ws.take k else []
  given ++ List.replicate (k - given.length) (s.chan n).static

/-- The bits that the receiver takes of some periods: a step of the tap across the period boundary has shifted the frame (R401). -/
def Chan.bits (c : Chan) (ws : List TapWord) : List Bool :=
  let framed := match c.frame with
    | .even => ws
    | .skip => ws.drop 1
    | .again => c.lastWord :: ws
  framed.map (fun w => w.getLsbD c.tap)

/-- A bit enters the integrators as ±1. -/
def Sinc3.bit (f : Sinc3) (b : Bool) : Sinc3 :=
  let i1 := f.i1 + (if b then 1 else -1)
  let i2 := f.i2 + i1
  { f with i1 := i1, i2 := i2, i3 := f.i3 + i2 }

/-- The combs at the end of a decimation period: their output, and what they hold. -/
def Sinc3.comb (f : Sinc3) : Int × Sinc3 :=
  let c1 := f.i3 - f.p1
  let c2 := c1 - f.p2
  ((c2 - f.p3).toInt, { f with p1 := f.i3, p2 := c1, p3 := c2 })

/-- A channel after a bit: the filter, and the run of equal bits. -/
def Chan.takeBit (c : Chan) (b : Bool) : Chan :=
  { c with sinc := c.sinc.bit b, same := if b = c.lastBit then c.same + 1 else 1, lastBit := b }

/-- A channel after the periods of a decimation period, with x in its field (R402). -/
def Chan.decimate (c : Chan) (d : Nat) (ws : List TapWord) : Chan :=
  let c' := (c.bits ws).foldl Chan.takeBit c
  let y := c'.sinc.comb
  { c' with sinc := y.2, x := fOfInt y.1 (d ^ 3), frame := .even, lastWord := ws.getLastD c.lastWord }

/-- How many samples a channel keeps: 64 ms, more than any line cycle with the samples around it. -/
def histDepth : Nat := 1024

/-- |x| > 0.95 (R404). -/
def clippedX (x : F32) : Bool := fLt (fc 95 100) (fAbs x)

/-- METER_SAMPLE for one channel: the sample of the decimation period that ended last, once. While crossing 0x0D is stopped no bit
arrives, and the sample is INVALID (R399). -/
def State.sampleChan (s : State) (p : ChanBits) : State :=
  let n := p.channel
  let c := s.chan n
  let at_ := s.chanStamp
  if !s.chanRuns n || c.at_ = some at_ then s
  else
    let d := s.fld rClkCtl 10 0
    let stopped := s.xingStopped 0x0D
    let c : Chan := if stopped then c else c.decimate d (s.periods n d p.words)
    let clip := clippedX c.x && !stopped
    let good := c.st == .locked && !stopped
    let c : Chan := { c with
      at_ := some at_, clipped := clip, good := good, hist := (⟨at_, c.x, good && !clip, clip⟩ :: c.hist).take histDepth,
      count := c.count + 1, clipSel := c.clipSel || (clip && s.fld rChSel 4 0 == n) }
    let s : State := (s.setChan n c).chanTrigger n c.count
    if clip then s.raiseTimed 0x91 n [u16 n] else s

/-- METER_SAMPLE: the data inputs over the decimation period that ended last. -/
def State.meterSample (s : State) (xs : List ChanBits) : State := xs.foldl State.sampleChan s

def execMeterSample (xs : List ChanBits) (s : State) : Host.Outcome State Fault Refusal := .next (s.meterSample xs)

/-- CH_INACTIVE: no transition in 64 consecutive bits. -/
def State.chInactive (s : State) (n : Nat) : State :=
  if s.chanRuns n && 64 ≤ (s.chan n).same then s.chanState n (s.chan n) .inactive else s

def execChInactive (ch : Nat) (s : State) : Host.Outcome State Fault Refusal := .next (s.chInactive ch)

/-- On how many bits two taps disagree (R400). -/
def disagree (ws : List TapWord) (a b : Nat) : Nat := (ws.filter (fun w => w.getLsbD (a % 16) != w.getLsbD (b % 16))).length

/-- The taps t with c(t) = 0. -/
def openTaps (ws : List TapWord) : List Bool := (List.range 16).map (fun t => disagree ws t (t + 1) == 0)

/-- Length of the run of open taps from `t` on, of at most `k` taps, circularly. -/
def runFrom (taps : List Bool) : Nat → Nat → Nat
  | 0, _ => 0
  | k + 1, t => if taps.getD (t % 16) false then runFrom taps k (t + 1) + 1 else 0

/-- The longest circular run: its first tap (the lowest of equal ones) and its length. -/
def longestRun (taps : List Bool) : Nat × Nat :=
  (List.range 16).foldl (fun best t => if best.2 < runFrom taps 16 t then (t, runFrom taps 16 t) else best) (0, 0)

/-- CH_ACQUIRE_DONE (R400): an acquisition over 1 024 bits ends. An INACTIVE channel stays so until transitions resume and one
succeeds (R399). -/
def State.chAcquire (s : State) (n : Nat) (ws : EyeTaps) : State :=
  let c := s.chan n
  if !s.chanRuns n || !(c.st == .acquire || (c.st == .inactive && c.same < 64)) then s
  else
    let taps := openTaps (s.periods n 1024 ws)
    let r := longestRun taps
    let c : Chan := { c with eye := (taps.filter id).length }
    if 4 ≤ r.2 then s.chanState n { c with tap := (r.1 + (r.2 - 1) / 2) % 16 } .locked
    else if c.repeats < 3 then s.setChan n { c with repeats := c.repeats + 1 }
    else if c.st = .inactive then s.setChan n { c with repeats := 0 }
    else s.chanState n { c with retryAt := s.now + 100 * msNs } .eyeClosed

def execChAcquireDone (ch : Nat) (taps : EyeTaps) (s : State) : Host.Outcome State Fault Refusal := .next (s.chAcquire ch taps)

/-- A tap step with its shift of the bit frame (R401). -/
def Chan.stepTap (c : Chan) (up : Bool) : Chan :=
  { c with
    tap := if up then (c.tap + 1) % 16 else (c.tap + 15) % 16, steps := (c.steps + 1) % 2 ^ 16, crowded := 0,
    frame := if up && c.tap = 15 then .skip else if !up && c.tap = 0 then .again else c.frame }

/-- CH_TRACK_WINDOW (R400, R401). -/
def State.chTrack (s : State) (n : Nat) (w : TrackWindow) : State :=
  let c := s.chan n
  let ws := s.periods n 4096 w
  let early := disagree ws c.tap (c.tap + 14)
  let late := disagree ws c.tap (c.tap + 2)
  if !s.chanRuns n || c.st != .locked then s
  else if 0 < early && late = 0 then s.setChan n (c.stepTap true)
  else if 0 < late && early = 0 then s.setChan n (c.stepTap false)
  else if 0 < early then
    if 4 ≤ c.crowded + 1 then s.chanState n c .acquire else s.setChan n { c with crowded := c.crowded + 1 }
  else s.setChan n { c with crowded := 0 }

def execChTrackWindow (ch : Nat) (w : TrackWindow) (s : State) : Host.Outcome State Fault Refusal := .next (s.chTrack ch w)

/-- CH_ACQUIRE_RETRY: 100 ms in EYE_CLOSED. -/
def State.chRetry (s : State) (n : Nat) : State :=
  let c := s.chan n
  if s.chanRuns n && c.st == .eyeClosed && c.retryAt ≤ s.now then s.chanState n c .acquire else s

def execChAcquireRetry (ch : Nat) (s : State) : Host.Outcome State Fault Refusal := .next (s.chRetry ch)

/-! ### Line cycles (R408–R412, R415, R418, R420) -/

def fourWire (v : VsetCfg) : Bool := v.wiring == 0
def vsetChans (v : VsetCfg) : List Nat := if fourWire v then v.ch.take 3 else v.ch.take 2
def circChans (c : CircCfg) : List Nat := [c.i1, c.i2, c.i3, c.in_].filter (· != 0xFF)

/-- The circuits of a set that this tablet meters. -/
def State.circsOf (s : State) (v : Nat) : List (Nat × Circ) := s.meter.circs.filter (fun p => p.2.cfg.vset == v && !p.2.mirrored)

/-- A quantity's duration product in units of 2⁻¹⁴⁹ W·ns. -/
def energyOf (p : F32) (durNs : Nat) : Int := fInt p * durNs

def freshWindow : Window :=
  ⟨0, false, false, false, false, 0, List.replicate 7 0, [0, 0, 0], 0, 0, 0, 0, 0, [], 0, 0, 0⟩

/-- The cycle's corrected P, Q, S and per-phase P (R407, R412). -/
structure CycleCorr where
  p : F32
  q : F32
  s : F32
  phase : List F32
  deriving DecidableEq, Repr, Inhabited

def State.correct (s : State) (v : VsetCfg) (c : CircCfg) (x : CycleQty) : CycleCorr :=
  let turn (f : F32) : F32 := if circInvert c then fNeg f else f
  let r (k : Nat) : F32 := s.reg (rCirc c.circuit k)
  let p := fAdd (fMul (turn x.p) (r 0)) (r 1)
  let q := fAdd (fMul (turn x.q) (r 2)) (r 3)
  let ph := x.phaseP.map (fun f => fAdd (fMul (turn f) (r 0)) (fDiv (r 1) (fc 3 1)))
  ⟨p, q, if fourWire v then x.s else fSqrt (fAdd (fMul p p) (fMul q q)), ph⟩

/-- √ of a mean of squares that are counted in units of 2⁻²⁹⁸. -/
def rmsOf (sq n : Nat) : F32 := fSqrt (fc sq (n * 2 ^ 298))

/-- The mean power of an energy over a duration (R410). -/
def meanPower (e : Int) (durNs : Nat) : F32 := if durNs = 0 then 0 else fOfInt e (durNs * 2 ^ 149)

/-- Joules of an energy. -/
def joules (e : Int) : F32 := fOfInt e (10 ^ 9 * 2 ^ 149)

/-- The published entries of a window that ends at `end_` (R438). -/
def windowPv (vs : Vset) (c : Circ) (end_ : Nat) : List PvEntry :=
  let w := c.win
  let q : Quality := if w.bad then .invalid else .good
  let e (v : F32) (ok : Bool) : PvEntry := ⟨v, end_, if ok then q else .invalid, 0, 0, 0⟩
  let four := fourWire vs.cfg
  let rms (k : Nat) : F32 := rmsOf (w.sq.getD k 0) w.cycles
  let p := meanPower w.pE w.durNs
  let ap := meanPower w.sE w.durNs
  let frac (v : F32) : F32 := fDiv v vs.cfg.udin
  let pq := b01 vs.sag.isSome + 2 * b01 vs.swell.isSome + 4 * b01 vs.int_.isSome
  [e (rms 0) true, e (rms 1) true, e (rms 2) four, e (rms 3) true, e (rms 4) four, e (rms 5) true, e (rms 6) four]
  ++ (List.range 3).map (fun k => e (meanPower (w.phaseE.getD k 0) w.durNs) four)
  ++ [e p true, e (meanPower w.qE w.durNs) true, e ap true, e (fDiv p ap) (!fIsZero ap),
      e (if w.durNs = 0 then 0 else fc (w.cycles * 10 ^ 9) w.durNs) (!w.free && w.durNs != 0),
      e w.thdV (!w.free), e w.thdI (!w.free), e (joules w.pE) true, e (joules w.qE) true,
      e (frac w.least) (w.halves != 0), e (frac w.greatest) (w.halves != 0), e (fc pq 1) true, e (fc c.fault 100) true]

/-- A window ends: its quantities are published and its copy is taken (R420). PARTIAL: the circuit is being disabled, or the window
had fewer cycles than WINDOW_N. -/
def State.closeWindow (s : State) (vs : Vset) (id : Nat) (c : Circ) (end_ : Nat) (partialW : Bool) : State :=
  let w := c.win
  let flags := b01 (partialW || w.cycles < c.cfg.windowN) + 4 * b01 w.clip + 8 * b01 w.free + 32 * b01 w.uncal
  let q : Quality := if w.bad then .invalid else .good
  let harmQ : Quality := if w.free then .invalid else q
  let c : Circ := { c with
    pv := windowPv vs c end_, harm := w.harm.map (fun hs => hs.map (fun h => ⟨h, end_, harmQ, 0, 0, 0⟩)),
    windows := c.windows + 1, flags := flags, cyc := w.cycles, quality := q, win := freshWindow }
  s.copyCirc 0 id c

/-- The samples of a channel with stamps in a cycle. -/
def Chan.span (c : Chan) (start till : Nat) : List ChanSample := c.hist.filter (fun p => start ≤ p.at_ && p.at_ < till)

/-- A channel was LOCKED throughout a cycle, and every sample of it GOOD (R404, R409). -/
def Chan.goodOver (c : Chan) (start till : Nat) : Bool :=
  c.lockedAt ≤ start && (c.st == .locked || till ≤ c.lostAt) && (c.span start till).all (·.ok)
def Chan.clipOver (c : Chan) (start till : Nat) : Bool := (c.span start till).any (·.clip)

/-- What one circuit takes from a cycle: registers, FAULT time and the window. -/
def State.circCycle (s : State) (vs : Vset) (id : Nat) (c : Circ) (qs : List CycleQty) (end_ durNs : Nat) : Circ :=
  let x := (qs.find? (fun q => q.circuit == id)).getD default
  let k := s.correct vs.cfg c.cfg x
  let used := vsetChans vs.cfg ++ circChans c.cfg
  let uncal := used.any (fun n => (s.chan n).uncal)
  let start := end_ - durNs
  let ok := used.all (fun n => (s.chan n).goodOver start end_) && !uncal && !s.xingStopped 0x0D
  let pE := energyOf k.p durNs
  let qE := energyOf k.q durNs
  let sE := energyOf k.s durNs
  -- S is filed by the sign of P (R413)
  let sFiled : Int := if 0 < pE then sE else if pE < 0 then -sE else 0
  let w := c.win
  let sqs := (x.vrms.take 3 ++ List.replicate (3 - x.vrms.length) 0) ++ x.irms
  let w : Window := { w with
    cycles := w.cycles + 1, bad := w.bad || !ok, clip := w.clip || used.any (fun n => (s.chan n).clipOver start end_),
    free := w.free || vs.freeRun || vs.ending, uncal := w.uncal || uncal, durNs := w.durNs + durNs,
    sq := (List.range 7).map (fun i => w.sq.getD i 0 + (fInt (sqs.getD i 0)).natAbs ^ 2),
    phaseE := (List.range 3).map (fun i => w.phaseE.getD i 0 + energyOf (k.phase.getD i 0) durNs),
    pE := w.pE + pE, qE := w.qE + qE, sE := w.sE + sE, thdV := x.thdV, thdI := x.thdI, harm := x.harm }
  if ok then
    { c with win := w, a := c.a.add pE lsbEnergy, qr := c.qr.add qE lsbEnergy, sr := c.sr.add sFiled lsbEnergy, lastAt := end_ }
  else
    let f := faultAdd c.fault c.faultNs durNs
    { c with win := w, fault := f.1, faultNs := f.2, lastAt := end_ }

/-- FREE_RUN event causes: 0 no crossing, 1 period, 2 interruption, 3 three cycles in range (left). -/
def State.freeRunEvent (s : State) (v cause : Nat) (entered : Bool) : State := s.raise 0x95 [u16 v, u16 cause, u16 (b01 entered)]

/-- A set enters FREE_RUN: its cycles go on from the last cycle end, or from now where none has begun (R409). -/
def State.enterFreeRun (s : State) (v cause : Nat) : State :=
  match s.vset v with
  | some x =>
    if x.freeRun then s
    else
      let base := if x.lastEnd = 0 then s.tai else x.lastEnd
      (s.setVset v { x with
        freeRun := true, ending := false, goodRun := 0, lastEnd := base,
        half1 := if x.half1 = 0 then base else x.half1 }).freeRunEvent v cause true
  | none => s

/-- A PQ event ends (R424, R425): KIND 0 sag, 1 swell, 2 interruption; `cut`: monitoring ended. -/
def State.pqEnd (s : State) (v kind : Nat) (vs : Vset) (e : PqEvent) (end_ : Nat) (cut : Bool) : State :=
  let us := (end_ - e.start) / usNs
  let ext := fDiv e.extreme vs.cfg.udin
  let n := s.meter.pqSeq + 1
  let s : State := { s with meter := { s.meter with pqSeq := n } }
  let s : State := s.report 5 0x0007 [u8 kind, u8 v, u8 e.channel, u8 (b01 e.free + 2 * b01 cut), u32 (e.start / secNs % 2 ^ 32),
    u32 (e.start % secNs), u32 e.halves, u32 us, f32 ext, f32 vs.cfg.udin, u32 n]
  s.raise (0x92 + kind) ([u16 v, u32 us, f32 ext] ++ (if kind = 2 then [] else [u16 e.channel]))

/-- A set that is no longer monitored ends its PQ events (R424). -/
def State.cutPq (s : State) (v end_ : Nat) : State :=
  match s.vset v with
  | none => s
  | some vs =>
    if (s.circsOf v).any (fun p => p.2.en == .enabled) then s
    else
      let s : State := s.setVset v { vs with sag := none, swell := none, int_ := none }
      let one (s : State) (kind : Nat) (e : Option PqEvent) : State := match e with
        | some e => s.pqEnd v kind vs e end_ true
        | none => s
      one (one (one s 0 vs.sag) 1 vs.swell) 2 vs.int_

/-- A circuit that has waited for its set's next cycle begins with it; one that was disabled meanwhile is DISABLED (R436). -/
def State.circBegins (s : State) (id : Nat) (c : Circ) : State :=
  let s : State := s.setCirc id { c with
    waitCycle := false, win := freshWindow, en := if c.en = .quiescing then .disabled else c.en }
  if c.en = .quiescing then s.raise 0x97 [u16 id, u16 0] else s

/-- A cycle that falls while the circuit's role is REPLACING is not taken: its length is FAULT time, its window INVALID (R101). -/
def Circ.missCycle (c : Circ) (end_ durNs : Nat) : Circ :=
  let f := faultAdd c.fault c.faultNs durNs
  { c with win := { c.win with bad := true }, fault := f.1, faultNs := f.2, lastAt := end_ }

/-- A circuit's part of a cycle end. The windows of a set's circuits close together, at the set's cycles whose count is a multiple of
WINDOW_N (R420). A QUIESCING circuit becomes DISABLED. -/
def State.circEnd (s : State) (vs : Vset) (id : Nat) (c : Circ) (qs : List CycleQty) (end_ durNs : Nat) : State :=
  if c.en = .disabled then s
  else if c.waitCycle then s.circBegins id c
  else
    let down := s.roleDown (meterRole id)
    let last := c.en == .quiescing
    let c := if down then c.missCycle end_ durNs else s.circCycle vs id c qs end_ durNs
    let c : Circ := if last then { c with en := .disabled } else c
    let s : State :=
      if !last && (vs.cycles + 1) % c.cfg.windowN ≠ 0 then s.setCirc id c
      else if down then s.setCirc id { c with win := freshWindow }
      else s.closeWindow vs id c end_ last
    if last then s.raise 0x97 [u16 id, u16 c.win.cycles] else s

/-- A cycle of a set ends at the TAI stamp `end_`. The quantities are those of R410 and R411 over its samples, or those the command
gives. -/
def State.endCycle (s : State) (v : Nat) (vs : Vset) (end_ : Nat) (given : Option (List CycleQty)) : State :=
  let qs := given.getD (s.cycleQtys v vs.lastEnd end_)
  let s : State := (s.circsOf v).foldl (fun s p => s.circEnd vs p.1 p.2 qs end_ (end_ - vs.lastEnd)) s
  s.setVset v { vs with lastEnd := end_, cycles := vs.cycles + 1, ending := false }

/-- A period of the line is within 0.85–1.15 of the nominal one (R409). -/
def State.periodOk (s : State) (ns : Nat) : Bool := between (s.nominalNs * 85 / 100) (s.nominalNs * 115 / 100) ns

/-- A positive-going crossing of the reference channel at `t` (R408, R409): it ends a cycle of the set, begins its first one, or counts
towards the end of FREE_RUN; after a period out of range it is the set's reason to enter FREE_RUN. -/
def State.lineCross (s : State) (v : Nat) (vs : Vset) (t : Nat) (given : Option (List CycleQty)) : State :=
  if t ≤ vs.lastCross.getD 0 then s
  else
    let inRange := (vs.lastCross.map (fun l => s.periodOk (t - l))).getD false
    let run := if inRange then vs.goodRun + 1 else 0
    let now : Vset := { vs with lastCross := some t, goodRun := run }
    if vs.freeRun then
      if 3 ≤ run then (s.setVset v { now with freeRun := false, ending := true }).freeRunEvent v 3 false else s.setVset v now
    else if vs.lastCross.isNone then
      let s : State := s.setVset v { now with lastEnd := t }
      ((s.circsOf v).filter (·.2.waitCycle)).foldl (fun s p => s.circBegins p.1 p.2) s
    else if inRange then s.endCycle v now t given
    else (s.setVset v now).enterFreeRun v 1

/-- LINE_CYCLE_END: the next crossing of the set's reference channel, or in FREE_RUN the end of a nominal period since the last cycle.
The command may name the crossing's instant, the low-pass's output and the quantities. -/
def State.lineCycleEnd (s : State) (v : Nat) (end_ : Option Nat) (crossing : Bool) (low : Option (List F32))
    (given : Option (List CycleQty)) : State :=
  match s.vset v with
  | none => s
  | some vs =>
    if crossing then
      match end_.or (s.nextCross vs.cfg low false (vs.lastCross.getD 0)) with
      | none => s
      | some t => s.lineCross v vs t given
    else if vs.freeRun && vs.lastEnd + s.nominalNs ≤ s.tai then s.endCycle v vs (vs.lastEnd + s.nominalNs) given
    else s

def execLineCycleEnd (vset : Nat) (end_ : Option Nat) (crossing : Bool) (low : Option (List F32)) (given : Option (List CycleQty))
    (s : State) : Host.Outcome State Fault Refusal :=
  .next (s.lineCycleEnd vset end_ crossing low given)

/-- FREE_RUN_ENTER: no crossing within 1.5 nominal periods (R409). -/
def State.freeRunEnter (s : State) (v : Nat) : State :=
  match s.vset v with
  | some x => if x.lastCross.getD x.since + s.nominalNs * 3 / 2 ≤ s.tai then s.enterFreeRun v 0 else s
  | none => s

def execFreeRunEnter (vset : Nat) (s : State) : Host.Outcome State Fault Refusal := .next (s.freeRunEnter vset)

/-! ### Sag, swell, interruption (R423–R425) -/

/-- Compare an RMS with a threshold in 0.01 % of UDIN. -/
def rmsBelow (udin v : F32) (t : Nat) : Bool := fInt v * 10000 < fInt udin * t
def rmsAbove (udin v : F32) (t : Nat) : Bool := fInt udin * t < fInt v * 10000

/-- The least or greatest of the channels, with its channel number. -/
def pickRms (least : Bool) : List (Nat × F32) → Nat × F32
  | [] => (0xFF, 0)
  | [p] => p
  | p :: ps =>
    let r := pickRms least ps
    if least then (if fLt r.2 p.2 then r else p) else (if fLt p.2 r.2 then r else p)

/-- One event kind at a half-cycle boundary: it starts, goes on with its extreme, or ends. -/
def pqStep (least : Bool) (starts ends : Bool) (free : Bool) (at_ : Nat) (rms : List (Nat × F32)) (e : Option PqEvent) :
    Option PqEvent × Option PqEvent :=
  let x := pickRms least rms
  match e with
  | none => if starts then (some ⟨at_, 0, x.2, x.1, free⟩, none) else (none, none)
  | some e =>
    let worse := if least then fLt x.2 e.extreme else fLt e.extreme x.2
    let e : PqEvent := { e with halves := e.halves + 1, free := e.free || free }
    if ends then (none, some e)
    else (some (if worse then { e with extreme := x.2, channel := x.1 } else e), none)

/-- A half-cycle boundary at the TAI stamp `at_`. The half-cycle RMS of the set's voltage channels, in order, is that of R423 over
their samples, or what the command gives. -/
def State.halfAt (s : State) (v at_ : Nat) (given : Option (List F32)) : State :=
  match s.vset v with
  | none => s
  | some vs =>
    if !(s.circsOf v).any (fun p => p.2.en == .enabled) then s
    else
      let c := vs.cfg
      let rs := (vsetChans c).zip (given.getD (s.halfRmsOf vs at_))
      let vals := rs.map Prod.snd
      let sag := pqStep true (vals.any (fun x => rmsBelow c.udin x c.sag))
        (vals.all (fun x => !rmsBelow c.udin x (c.sag + c.hyst))) vs.freeRun at_ rs vs.sag
      let swell := pqStep false (vals.any (fun x => rmsAbove c.udin x c.swell))
        (vals.all (fun x => !rmsAbove c.udin x (c.swell - c.hyst))) vs.freeRun at_ rs vs.swell
      let int_ := pqStep true (!vals.isEmpty && vals.all (fun x => rmsBelow c.udin x c.int_))
        (vals.any (fun x => !rmsBelow c.udin x (c.int_ + c.hyst))) vs.freeRun at_ rs vs.int_
      let s : State := s.setVset v { vs with
        halfRms := vals, sag := sag.1, swell := swell.1, int_ := int_.1, half1 := at_, half2 := vs.half1 }
      let ref := vals.headD 0
      let note (s : State) (p : Nat × Circ) : State :=
        let w := p.2.win
        if p.2.en = .disabled || p.2.waitCycle then s
        else s.setCirc p.1 { p.2 with win := { w with
          least := if w.halves = 0 then ref else fMin w.least ref, greatest := if w.halves = 0 then ref else fMax w.greatest ref,
          halves := w.halves + 1 } }
      let s : State := (s.circsOf v).foldl note s
      let tell (s : State) (kind : Nat) (e : Option PqEvent) : State := match e with
        | some e => s.pqEnd v kind vs e at_ false
        | none => s
      let s : State := tell (tell (tell s 0 sag.2) 1 swell.2) 2 int_.2
      if rmsBelow c.udin ref c.int_ then s.enterFreeRun v 2 else s

/-- HALF_CYCLE_BOUNDARY: the next zero crossing of the reference channel in either direction, whose instant the command may name, or in
FREE_RUN half a nominal period after the last boundary (R423). -/
def State.halfCycle (s : State) (v : Nat) (at_ : Option Nat) (given : Option (List F32)) : State :=
  match s.vset v with
  | none => s
  | some vs =>
    let due := if vs.freeRun then some (vs.half1 + s.nominalNs / 2) else at_.or (s.nextCross vs.cfg none true vs.half1)
    match due with
    | none => s
    | some t => if vs.half1 < t && (t ≤ s.tai || !vs.freeRun) then s.halfAt v t given else s

def execHalfCycleBoundary (vset : Nat) (at_ : Option Nat) (given : Option (List F32)) (s : State) : Host.Outcome State Fault Refusal :=
  .next (s.halfCycle vset at_ given)

/-! ### Billing (R421, R431) -/

/-- BILL_SNAPSHOT at a whole multiple of BILL_S. -/
def State.billSnapshot (s : State) : State :=
  let inst := s.tai / secNs / s.meter.billS * s.meter.billS
  if inst = 0 || inst ≤ s.meter.lastBill then s
  else
    let s : State := s.copyAll 2
    let s : State := { s with meter := { s.meter with bill := s.meter.bill + 1, lastBill := inst, billDue := some inst } }
    let s : State := s.meterSave true
    if s.activeOrSolo then
      s.meteredStations.foldl (fun s id => if s.stnUp id then (s.queueFrame id (.request 0)).1 else s) s
    else s

def execBillSnapshot (s : State) : Host.Outcome State Fault Refusal := .next s.billSnapshot

/-- An aggregate's copy for a billing snapshot, and its entries: k = 0 the net energy of the period (R431, R438). -/
def State.billAgg (s : State) (a : Nat) : State :=
  let x := s.judgeAgg a
  let d : Nat := (x.e.net + 2 ^ 56 - x.billNet) % 2 ^ 56
  let net : Int := if d < 2 ^ 55 then d else (d : Int) - 2 ^ 56
  let e (v : F32) (q : Quality) : PvEntry := ⟨v, x.lastAt, q, 0, 0, 0⟩
  s.setAgg a { x with
    billCopy := some (aggBlock a x), billNet := x.e.net,
    pv := [e (fOfInt net 1000) x.quality, e (fc x.reported 1) .good, e (fc x.missing 1) .good] }

/-- BILL_AGGREGATE, WAIT_S after the billing instant. -/
def State.billAggregate (s : State) : State :=
  match s.meter.billDue with
  | none => s
  | some t =>
    if s.tai < (t + s.meter.waitS) * secNs then s
    else
      let s : State := s.aggIds.foldl State.billAgg s
      let ids := s.meteredStations
      let rep := (ids.filter (s.stnReported)).length
      let missing := ids.length - rep
      let s : State := { s with meter := { s.meter with billDue := none } }
      let s : State := s.report 5 0x0008 [u32 s.meter.bill, u32 (t % 2 ^ 32), u16 rep, u16 missing]
      if missing = 0 then s else s.raise 0xA3 [u32 s.meter.bill, u16 rep, u16 missing]

def execBillAggregate (s : State) : Host.Outcome State Fault Refusal := .next s.billAggregate

/-! ### Heat points (R426–R428) -/

/-- A source of a point, its descriptor at offset `o`: scaled value, quality aged by FRESH, stamp. Pulses are no value. -/
def State.heatSrc (s : State) (d : List Byte) (o inst : Nat) : F32 × Quality :=
  let i := u16At d (o + 2)
  let raw : F32 × Quality × Nat := match u8At d o with
    | 1 => s.chanSample i
    | 3 =>
      let r := s.busRead (i / 128) (i % 128)
      (rawOf ((s.bus (i / 128)).rxObj (i % 128)).big (u8At d (o + 1)) (u8At d (o + 4)) r.1, r.2.1, r.2.2)
    | _ => (0, if s.xingStopped 0x0B then .invalid else .good, inst)
  let v := fAdd (fMul raw.1 (f32At d (o + 8))) (f32At d (o + 12))
  (v, qAged (if fFinite raw.1 && fFinite v then raw.2.1 else .invalid) (inst - raw.2.2) (u16At d 2 * (10 * msNs)))

/-- HEAT_FAULT causes: 0 valid again, 1 quality, 2 range, 3 saturation. -/
def heatCause (quality range sat : Bool) : Nat := if !quality then 1 else if !range then 2 else if !sat then 3 else 0

/-- HEAT_SAMPLE (R427) at a whole multiple of PERIOD_MS that has not been sampled yet. Density and enthalpies are the water table's at P_WATER, or what the command
gives. -/
def State.heatSample (s : State) (p : Nat) (given : Option WaterIn) : State :=
  match s.point p with
  | none => s
  | some x =>
    let period := s.fld rHeatCtl 9 0 * msNs
    let inst := s.tai / period * period
    if x.en = .disabled || x.mirrored || s.roleDown (meterRole p) || inst < x.onAt || inst ≤ x.lastAt.getD 0 then s
    else
      let d := x.desc
      let dt := inst - x.prev.getD inst
      let ts := s.heatSrc d 0x20 inst
      let tr := s.heatSrc d 0x30 inst
      let fl := s.heatSrc d 0x10 inst
      let w := given.getD (waterOf (f32At d 4) ts.1 tr.1 (if x.flag 2 then tr.1 else ts.1))
      let pulses := u8At d 0x10 == 9
      let count := (alGet s.tally.dioCount (u16At d 0x12)).getD 0
      let n := (count - x.pulses).toNat
      let scale := f32At d 0x18
      let q0 := if pulses then (if dt = 0 then 0 else fMul (fMul (fc n 1) scale) (fDiv (fc secNs 1) (fc dt 1))) else fl.1
      let q := if fLt (fAbs q0) (f32At d 8) then 0 else q0
      let dh0 := if x.flag 0 then fNeg w.dh else w.dh
      let dh := if fLt (fAbs (fSub ts.1 tr.1)) (f32At d 0xC) then 0 else dh0
      let power := fMul (fMul q w.density) dh
      let inRange (t : F32) : Bool := fBetween (fc 27315 100) (fc 42315 100) t
      let qOk := fl.2 == .good && ts.2 == .good && tr.2 == .good
      let rOk := inRange ts.1 && inRange tr.1
      let valid := qOk && rOk && w.belowSat
      let energy : Int := if valid then energyOf power dt else 0
      let volume : Int := if fl.2 != .good || dt = 0 then 0 else if pulses then (if fIsZero q then 0 else fInt scale * n * (10 ^ 9 : Nat)) else energyOf q dt
      let f := if valid then (x.fault, x.faultNs) else faultAdd x.fault x.faultNs dt
      let qp := qMax (qMax fl.2 ts.2) tr.2
      let e (v : F32) (k : Quality) : PvEntry := ⟨v, inst, k, 0, 0, 0⟩
      let x' : HeatPoint := { x with
        e := x.e.add energy lsbEnergy, v := x.v.add volume lsbVolume, fault := f.1, faultNs := f.2, valid := valid, lastAt := some inst,
        prev := some inst, pulses := count, power := power, flow := q, tsup := ts.1, tret := tr.1, quality := qp,
        pv := [e power qp, e q fl.2, e ts.1 ts.2, e tr.1 tr.2,
          e (joules energy) (if valid then .good else .invalid), e (joules volume) (if fl.2 = .good then .good else .invalid),
          e (fc f.1 100) .good],
        en := if x.en = .quiescing then .disabled else x.en }
      let s : State := s.copyPoint 0 p x'
      let s : State := if valid != x.valid then
        s.raise 0xA0 [u16 p, u16 (heatCause qOk rOk w.belowSat)] else s
      if x.en = .quiescing then s.raise 0xA4 [u16 p] else s

def execHeatSample (point : Nat) (given : Option WaterIn) (s : State) : Host.Outcome State Fault Refusal :=
  .next (s.heatSample point given)

/-! ### Battery metering (R432–R434) -/

/-- The battery clock (R674), 0 while it is not set. -/
def State.battNow (s : State) : Nat := match s.sup.battClock with
  | some b => ((s.now : Int) + b).toNat
  | none => 0

/-- The RMS current of a burst: |GAIN| × √(mean of (x − OFS)²), with the copies of R433. -/
def burstRms (gain ofs mean meanSq : F32) : F32 :=
  fMul (fAbs gain) (fSqrt (fMax 0 (fAdd (fSub meanSq (fMul (fMul (fc 2 1) ofs) mean)) (fMul ofs ofs))))

/-- An episode ends: it is recorded, or counted where 32 are (R433). -/
def BattMeter.close (b : BattMeter) (e : Episode) (end_ : Nat) : BattMeter :=
  if b.episodes.length < 32 then { b with episodes := b.episodes ++ [{ e with end_ := end_ }], open_ := none }
  else { b with unrecorded := b.unrecorded + 1, open_ := none }

/-- BATT_BURST: once a burst period, while the battery domain meters. -/
def State.battBurst (s : State) (qs : List BurstQty) : State :=
  let b := s.meter.batt
  if !s.modPwrB || s.now < b.nextAt then s
  else
    let period := 2 ^ bits b.ctl.toNat 4 1 * 10 * (if b.f60 then 16666667 else 20000000)
    let at_ := s.battNow
    let known := qs.filter (fun q => (alGet b.cals q.channel).isSome)
    let rms (q : BurstQty) : F32 :=
      let c := (alGet b.cals q.channel).getD (0, 0)
      burstRms c.1 c.2 q.mean q.meanSq
    let good := known.filter (·.locked)
    let bad := known.filter (fun q => !q.locked)
    let charge := good.foldl (fun l q => alPut l q.channel ((alGet l q.channel).getD 0 + (fInt (rms q)).natAbs * period)) b.charge
    let top := pickRms false (good.map (fun q => (q.channel, rms q)))
    let high := !good.isEmpty && fLt b.thr top.2
    let above := if high then b.above + 1 else 0
    let below := if high then 0 else b.below + 1
    -- the peak takes in the first of the two bursts that start an episode
    let worst := match b.first with
      | some f => if fLt top.2 f.2 then f else top
      | none => top
    let b : BattMeter := { b with
      charge := charge, bursts := b.bursts + 1, above := above, below := below, first := if high then some top else none,
      nextAt := s.now + period, faults := b.faults ++ bad.map (fun q => (q.channel, at_)) }
    let b : BattMeter := match b.open_ with
      | none => if 2 ≤ above then { b with open_ := some ⟨at_, at_, worst.1, worst.2⟩ } else b
      | some e =>
        if 2 ≤ below then b.close e at_
        else if high && fLt e.peak top.2 then { b with open_ := some { e with channel := top.1, peak := top.2 } }
        else b
    { s with meter := { s.meter with batt := b } }

def execBattBurst (qs : List BurstQty) (s : State) : Host.Outcome State Fault Refusal := .next (s.battBurst qs)

/-- 0.1 A·s in units of 2⁻¹⁴⁹ A·ns. -/
def lsbCharge : Nat := 10 ^ 8 * 2 ^ 149

/-- Battery metering ends with the tablet's start: an episode under way ends. -/
def State.battEnd (s : State) : State :=
  let b := s.meter.batt
  let b := match b.open_ with
    | some e => b.close e s.battNow
    | none => b
  { s with meter := { s.meter with batt := { b with above := 0, below := 0, first := none, nextAt := 0 } } }

/-- The records of the battery store for the Notch Log (R434), in time order; the store is cleared. -/
def State.battFlush (s : State) : State :=
  let b := s.meter.batt
  let rec_ (s : State) (src tai : Nat) (ps : List Fld) : State :=
    let e : Event := { s.eventOf src 0 ps with tai := tai }
    let r := s.recordOf (s.srcOf src) e
    { s with nlog := { s.nlog with seq := s.nlog.seq + 1, battRecs := s.nlog.battRecs ++ [r] } }
  if b.bursts = 0 then s
  else
    let s : State := b.episodes.foldl (fun s e => rec_ s 0xA8 e.start
      [u32 (e.start / secNs % 2 ^ 32), u32 (e.end_ / secNs % 2 ^ 32), u16 e.channel, f32 e.peak]) s
    let s : State := b.faults.foldl (fun s f => rec_ s 0xAA f.2 [u16 f.1, u16 0]) s
    let s : State := rec_ s 0xA9 s.battNow ([u32 b.bursts]
      ++ b.cals.map (fun c => u32 (min ((alGet b.charge c.1).getD 0 / lsbCharge) 0xFFFFFFFF)) ++ [u32 (min b.unrecorded 0xFFFFFFFF)])
    { s with meter := { s.meter with batt := { b with charge := [], bursts := 0, episodes := [], unrecorded := 0, faults := [] } } }

/-- The copies of R433, taken at the seal and at a page write. -/
def State.battCals (s : State) : State :=
  let c := s.circ (s.fld rBattCtl 11 8)
  let chans := match c with
    | some c => circChans c.cfg
    | none => []
  { s with meter := { s.meter with batt := { s.meter.batt with
    ctl := s.reg rBattCtl, thr := s.reg rBattThr, f60 := s.fld rClkCtl 24 24 == 1,
    cals := chans.map (fun n => (n, s.reg (rChGain n), s.reg (rChOfs n))) } } }

/-- The check of R432 at the seal: every current channel of the circuit, at most 4, is on MCLK3. BATT_FAULT cause 1. -/
def State.battSeal (s : State) : State :=
  if s.fld rBattCtl 0 0 = 0 then s.battCals
  else
    let chans := match s.circ (s.fld rBattCtl 11 8) with
      | some c => circChans c.cfg
      | none => []
    match chans.find? (fun n => s.chanClk n != 3), chans with
    | none, _ :: _ => s.battCals
    | bad, _ =>
      let s : State := s.setReg rBattCtl (s.reg rBattCtl &&& ~~~ 1#32)
      (s.battCals).raise 0xAA [u16 (bad.getD 0xFF), u16 1]

/-! ### Orders (R436, R437, R440–R442) -/

/-- METER_RESULT and HEAT_RESULT. -/
def State.meterResult (s : State) (ref : OrderRef) (op st obj : Nat) : State :=
  s.answer ref op (ownReport st [u8 st, u8 0, u16 obj])

/-- Channels in use by sets other than `v` and circuits other than `c`. -/
def State.chansUsed (s : State) (v c : Option Nat) : List Nat :=
  ((s.meter.vsets.filter (fun p => v != some p.1)).map (fun p => vsetChans p.2.cfg)).flatten
    ++ ((s.meter.circs.filter (fun p => c != some p.1 && !p.2.mirrored)).map (fun p => circChans p.2.cfg)).flatten

def State.vsetStatus (s : State) (x : VsetCfg) : Nat :=
  let used := vsetChans x
  if 7 < x.vset || 1 < x.wiring || x.reserved ≠ 0 || x.ch.length ≠ 3 || used.any (fun n => 31 < n)
      || (x.wiring = 1 && x.ch.getD 2 0 ≠ 0xFF) || !fIn (fc 1 1) (fc 1000000 1) x.udin then 1
  else if (s.circsOf x.vset).any (fun p => p.2.en != .disabled) then 2
  else if !used.Nodup || used.any ((s.chansUsed (some x.vset) none).contains) then 3
  else 0

/-- A set without a history. -/
def State.freshVset (s : State) (x : VsetCfg) : Vset :=
  { cfg := x, freeRun := false, ending := false, lastEnd := 0, lastCross := none, goodRun := 0, since := s.tai, cycles := 0, halfRms := [],
    sag := none, swell := none, int_ := none, half1 := 0, half2 := 0 }

/-- METER_VSET. -/
def State.meterVset (s : State) (ref : OrderRef) (x : VsetCfg) : State :=
  let st := s.vsetStatus x
  if st ≠ 0 then s.meterResult ref 0x0B01 st x.vset
  else (s.setVset x.vset (s.freshVset x)).meterResult ref 0x0B01 0 x.vset

def execMeterVset (ref : OrderRef) (x : VsetCfg) (s : State) : Host.Outcome State Fault Refusal :=
  .next (s.runOrder ref 0x0B01 (fun s => s.meterVset ref x))

def State.circStatus (s : State) (x : CircCfg) : Nat :=
  let used := circChans x
  let four := ((s.vset x.vset).map (fun v => fourWire v.cfg)).getD true
  let shape := if four then x.i1 ≠ 0xFF && x.i2 ≠ 0xFF && x.i3 ≠ 0xFF
    else x.i1 ≠ 0xFF && x.i2 = 0xFF && x.i3 ≠ 0xFF && x.in_ = 0xFF
  if 11 < x.circuit || 7 < x.vset || 4 ≤ x.flags || x.reserved ≠ 0 || x.reserved2 ≠ 0 || used.any (fun n => 31 < n)
      || !between 1 4096 x.windowN then 1
  else if (s.vset x.vset).isNone then 5
  else if !shape then 1
  else if ((s.circ x.circuit).map (fun c => c.en != .disabled)).getD false then 2
  else if !used.Nodup || used.any ((s.chansUsed none (some x.circuit)).contains) then 3
  else 0

/-- A circuit without a history: its registers are those of the flash copy (R419). -/
def State.freshCirc (s : State) (x : CircCfg) : Circ :=
  let zero : EReg := ⟨0, 0, 0, 0, 0, 0⟩
  let r := (s.goodSave.bind (fun g => alGet g.circs x.circuit)).getD ((zero, zero, zero), 0, 0)
  { cfg := x, en := .disabled, waitCycle := false, win := freshWindow, windows := 0, flags := 0, cyc := 0, quality := .invalid,
    a := r.1.1, qr := r.1.2.1, sr := r.1.2.2, fault := r.2.1, faultNs := r.2.2, lastAt := 0,
    winCopy := none, tickCopy := none, billCopy := none, pv := [], harm := [], mirrored := false }

/-- METER_CIRC. -/
def State.meterCirc (s : State) (ref : OrderRef) (x : CircCfg) : State :=
  let st := s.circStatus x
  if st ≠ 0 then s.meterResult ref 0x0B02 st x.circuit
  else
    let c : Circ := match s.circ x.circuit with
      | some c => if c.mirrored then s.freshCirc x else { c with cfg := x, win := freshWindow }
      | none => s.freshCirc x
    (s.setCirc x.circuit c).meterResult ref 0x0B02 0 x.circuit

def execMeterCirc (ref : OrderRef) (x : CircCfg) (s : State) : Host.Outcome State Fault Refusal :=
  .next (s.runOrder ref 0x0B02 (fun s => s.meterCirc ref x))

/-- A source descriptor of a point is allowed (R426). -/
def heatSrcOk (d : List Byte) (o : Nat) (flow : Bool) : Bool :=
  let i := u16At d (o + 2)
  let vals := fFinite (f32At d (o + 8)) && !fIsZero (f32At d (o + 8)) && fFinite (f32At d (o + 12)) && zerosAt d (o + 5) 3
  match u8At d o with
  | 1 => i ≤ 31 && vals
  | 3 => i / 128 ≤ 1 && u8At d (o + 1) ≤ 3 && vals
      && (if u8At d (o + 1) = 1 || u8At d (o + 1) = 2 then u8At d (o + 4) % 2 == 0 && u8At d (o + 4) ≤ 62
          else u8At d (o + 4) % 4 == 0 && u8At d (o + 4) ≤ 60)
  | 9 => flow && i ≤ 31 && vals && fIsZero (f32At d (o + 12))
  | _ => false

def heatCfgOk (point : Nat) (d : List Byte) : Bool :=
  point ≤ 63 && d.length == 64 && u8At d 0 == point && u8At d 1 < 8 && between 1 6000 (u16At d 2)
    && fIn (fc 100000 1) (fc 2500000 1) (f32At d 4) && fIn 0 (fc 1 1) (f32At d 8) && fIn 0 (fc 3 1) (f32At d 0xC)
    && heatSrcOk d 0x10 true && heatSrcOk d 0x20 false && heatSrcOk d 0x30 false

def State.freshPoint (s : State) (p : Nat) (d : List Byte) : HeatPoint :=
  let zero : EReg := ⟨0, 0, 0, 0, 0, 0⟩
  let r := (s.goodSave.bind (fun g => alGet g.points p)).getD ((zero, zero), 0, 0)
  { desc := d, en := .disabled, e := r.1.1, v := r.1.2, fault := r.2.1, faultNs := r.2.2, valid := true, lastAt := none, prev := none, onAt := 0, pulses := 0,
    power := 0, flow := 0, tsup := 0, tret := 0, quality := .invalid, tickCopy := none, billCopy := none, winCopy := none, pv := [],
    mirrored := false }

/-- HEAT_CFG: the 64-byte descriptor. -/
def State.heatCfg (s : State) (ref : OrderRef) (p : Nat) (d : List Byte) : State :=
  let old := (s.point p).filter (fun x => !x.mirrored)
  if !heatCfgOk p d then s.meterResult ref 0x0B03 1 p
  else if (old.map (fun x => x.en != .disabled)).getD false then s.meterResult ref 0x0B03 2 p
  else
    let x : HeatPoint := match old with
      | some x => { x with desc := d, prev := none }
      | none => s.freshPoint p d
    (s.setPoint p x).meterResult ref 0x0B03 0 p

def execHeatCfg (ref : OrderRef) (point : Nat) (desc : List Byte) (s : State) : Host.Outcome State Fault Refusal :=
  .next (s.runOrder ref 0x0B03 (fun s => s.heatCfg ref point desc))

/-- BILL_CFG. -/
def State.billCfg (s : State) (ref : OrderRef) (billS waitS : Nat) : State :=
  if between 60 86400 billS && billS % 60 == 0 && between 1 60 waitS then
    ({ s with meter := { s.meter with billS := billS, waitS := waitS } }).meterResult ref 0x0B04 0 0
  else s.meterResult ref 0x0B04 1 0

def execBillCfg (ref : OrderRef) (billS waitS : Nat) (s : State) : Host.Outcome State Fault Refusal :=
  .next (s.runOrder ref 0x0B04 (fun s => s.billCfg ref billS waitS))

/-- The least advanced of some enables: DISABLED, QUIESCING, ENABLED (R322). -/
def leastEn (l : List Enable) : Enable :=
  if l.isEmpty || l.contains .disabled then .disabled else if l.contains .quiescing then .quiescing else .enabled

/-- Enable or disable one circuit (R436). -/
def State.circEnable (s : State) (id : Nat) (want : Bool) : State × Bool :=
  match s.circ id with
  | none => (s, true)
  | some c =>
    let r := enRequest c.en want true
    let start := want && c.en == .disabled && r.1 == .enabled
    let s : State := s.setCirc id { c with
      en := r.1, waitCycle := if start then true else c.waitCycle, win := if start then freshWindow else c.win }
    (s, r.2 != .quiescingRefused)

/-- Sets without an ENABLED circuit end their PQ events now (R424). -/
def State.stopMonitors (s : State) : State :=
  let busy (x : Vset) : Bool := x.sag.isSome || x.swell.isSome || x.int_.isSome
  (s.meter.vsets.filter (fun p => busy p.2)).foldl (fun s p => s.cutPq p.1 s.tai) s

/-- METER_CTL. -/
def State.meterCtl (s : State) (ref : OrderRef) (circuit enable : Nat) : State :=
  let ids : List Nat := if circuit = 0xFF then (s.meter.circs.filter (fun p => !p.2.mirrored)).map Prod.fst else [circuit]
  let known := ids.all (fun c => ((s.circ c).map (fun x => !x.mirrored)).getD false)
  let back (s : State) : List Fld := [u8 circuit, u8 (enCode (leastEn (ids.map (fun c => ((s.circ c).map (·.en)).getD .disabled))))]
  if 1 < enable || !known then s.answer ref 0x0B05 (stateReport stRange (back s))
  else
    let r : State × Bool := ids.foldl (fun (r : State × Bool) c =>
      let q := r.1.circEnable c (enable == 1)
      (q.1, r.2 && q.2)) (s, true)
    let s : State := r.1.stopMonitors
    s.answer ref 0x0B05 (stateReport (if r.2 then stDone else stQuiescing) (back s))

def execMeterCtl (ref : OrderRef) (circuit enable : Nat) (s : State) : Host.Outcome State Fault Refusal :=
  .next (s.runOrder ref 0x0B05 (fun s => s.meterCtl ref circuit enable))

/-- Enable or disable one point (R437). -/
def State.pointEnable (s : State) (id : Nat) (want : Bool) : State × Bool :=
  match s.point id with
  | none => (s, true)
  | some c =>
    let r := enRequest c.en want true
    let start := want && c.en == .disabled && r.1 == .enabled
    (s.setPoint id { c with
      en := r.1, prev := if start then none else c.prev, onAt := if start then s.tai else c.onAt,
      pulses := if start then (alGet s.tally.dioCount (u16At c.desc 0x12)).getD 0 else c.pulses }, r.2 != .quiescingRefused)

/-- HEAT_CTL. -/
def State.heatCtl (s : State) (ref : OrderRef) (point enable : Nat) : State :=
  let ids : List Nat := if point = 0xFF then (s.meter.points.filter (fun p => !p.2.mirrored)).map Prod.fst else [point]
  let known := ids.all (fun c => ((s.point c).map (fun x => !x.mirrored)).getD false)
  let back (s : State) : List Fld := [u8 point, u8 (enCode (leastEn (ids.map (fun c => ((s.point c).map (·.en)).getD .disabled))))]
  if 1 < enable || !known then s.answer ref 0x0B06 (stateReport stRange (back s))
  else
    let r : State × Bool := ids.foldl (fun (r : State × Bool) c =>
      let q := r.1.pointEnable c (enable == 1)
      (q.1, r.2 && q.2)) (s, true)
    r.1.answer ref 0x0B06 (stateReport (if r.2 then stDone else stQuiescing) (back r.1))

def execHeatCtl (ref : OrderRef) (point enable : Nat) (s : State) : Host.Outcome State Fault Refusal :=
  .next (s.runOrder ref 0x0B06 (fun s => s.heatCtl ref point enable))

/-- The number of a tick or billing snapshot. -/
def State.setNumber (s : State) (set : Nat) : Nat := if set = 1 then s.meter.tickNo else if set = 2 then s.meter.bill else 0

/-- Blocks written to host memory, with their report; `taken`: the SET has been taken. -/
def State.meterData (s : State) (ref : OrderRef) (op set addr : Nat) (taken : Bool) (bs : List (List Byte)) : State :=
  let body (st n : Nat) : List Fld := [u8 st, u8 0, u8 0, u8 0, u32 n, u32 (s.setNumber set)]
  if !taken then s.answer ref op (ownReport 5 (body 5 0))
  else
    let s : State := if bs.isEmpty then s else s.toHost (.hostData addr (bs.flatten.map (fun b => u8 b.toNat)))
    s.answer ref op (ownReport 0 (body 0 bs.length))

/-- A block with its QUALITY replaced. -/
def blockQuality (q : Quality) (b : List Byte) : List Byte := b.set 2 (BitVec.ofNat 8 (qCode q))

/-- A copy as a query reads it: a mirrored owner's reads OFFLINE while the twin port is down (R435), and an owner that has no copy of the
set yet reads INVALID, as it stands. -/
def State.readCopy (s : State) (mirrored : Bool) (copy : Option (List Byte)) (now : List Byte) : List Byte :=
  let b := copy.getD (blockQuality .invalid now)
  if mirrored && !s.twin.pathT then blockQuality .offline b else b

def Circ.copyOf (c : Circ) (set : Nat) : Option (List Byte) := if set = 0 then c.winCopy else if set = 1 then c.tickCopy else c.billCopy
def HeatPoint.copyIn (p : HeatPoint) (set : Nat) : Option (List Byte) :=
  if set = 0 then p.winCopy else if set = 1 then p.tickCopy else p.billCopy
/-- An aggregate has no window copy. -/
def HeatAgg.copyOf (a : HeatAgg) (set : Nat) : Option (List Byte) :=
  if set = 0 then none else if set = 1 then a.tickCopy else a.billCopy

/-- A tick copy or a billing snapshot has been taken once the first has; a window copy, once any owner has one. -/
def State.setTaken (s : State) (set : Nat) (window : Bool) : Bool := if set = 0 then window else s.setNumber set != 0

/-- The circuits' blocks of a set. -/
def State.circBlocks (s : State) (set first count : Nat) : List (List Byte) :=
  (List.range count).filterMap (fun k => (s.circ (first + k)).map (fun c => s.readCopy c.mirrored (c.copyOf set) c.block))

/-- METER_QUERY. -/
def State.meterQuery (s : State) (ref : OrderRef) (set first count addr : Nat) : State :=
  if 2 < set || 11 < first || !between 1 12 count || 12 < first + count || addr % 16 ≠ 0 then
    s.answer ref 0x0B07 (ownReport 1 [u8 1, u8 0, u8 0, u8 0, u32 0, u32 (s.setNumber set)])
  else s.meterData ref 0x0B07 set addr (s.setTaken set (s.meter.circs.any (·.2.winCopy.isSome))) (s.circBlocks set first count)

def execMeterQuery (ref : OrderRef) (set first count addr : Nat) (s : State) : Host.Outcome State Fault Refusal :=
  .next (s.runOrder ref 0x0B07 (fun s => s.meterQuery ref set first count addr))

/-- The points' and the aggregates' blocks of a set. -/
def State.pointBlocks (s : State) (set first count : Nat) : List (List Byte) :=
  (List.range count).filterMap (fun k => (s.point (first + k)).map (fun p => s.readCopy p.mirrored (p.copyIn set) p.block))
def State.aggBlocks (s : State) (set first count : Nat) : List (List Byte) :=
  ((List.range count).map (first + ·)).filterMap (fun a =>
    if s.aggIds.contains a then some (s.readCopy false ((s.agg a).copyOf set) (aggBlock a (s.agg a))) else none)

/-- HEAT_QUERY: KIND 0 points, 1 aggregates. -/
def State.heatQuery (s : State) (ref : OrderRef) (set kind first count addr : Nat) : State :=
  let top := if kind = 0 then 64 else 68
  if 2 < set || 1 < kind || !between 1 68 count || top < first + count || addr % 16 ≠ 0 then
    s.answer ref 0x0B08 (ownReport 1 [u8 1, u8 0, u8 0, u8 0, u32 0, u32 (s.setNumber set)])
  else if kind = 0 then
    s.meterData ref 0x0B08 set addr (s.setTaken set (s.meter.points.any (·.2.winCopy.isSome))) (s.pointBlocks set first count)
  else s.meterData ref 0x0B08 set addr (s.setTaken set false) (s.aggBlocks set first count)

def execHeatQuery (ref : OrderRef) (set kind first count addr : Nat) (s : State) : Host.Outcome State Fault Refusal :=
  .next (s.runOrder ref 0x0B08 (fun s => s.heatQuery ref set kind first count addr))

/-! ### The twin's records (R435) -/

/-- MIRROR_METER: the block, in network order, of a circuit or point that the twin meters. What it holds is published with MIRRORED. -/
def State.mirrorMeterRx (s : State) (kind set : Nat) (record : List Byte) : State :=
  let block := swapFields (meterSizes kind) record
  let q := qOfCode (u8At block 2)
  let flagged (n : Nat) : List Byte := block.take 3 ++ [BitVec.ofNat 8 (u8At block 3 ||| n)] ++ block.drop 4
  if kind = 0 then
    let id := u16At block 0
    let st := s.extendStamp (BitVec.ofNat 32 (u32At block 8))
    let e (v : F32) : PvEntry := ⟨v, st, q, 0, 0, 0⟩
    if 11 < id || block.length ≠ 128 || ((s.circ id).map (fun c => !c.mirrored)).getD false then s
    else
      let c := (s.circ id).getD { s.freshCirc default with cfg := { (default : CircCfg) with circuit := id, windowN := 10 }, mirrored := true }
      let b := flagged 16
      let c : Circ := match set with
        | 0 => { c with winCopy := some b }
        | 1 => { c with tickCopy := some b }
        | _ => { c with billCopy := some b }
      let pv (k : Nat) : PvEntry :=
        if k = 10 then e (f32At block 0x14) else if k = 11 then e (f32At block 0x18) else if k = 12 then e (f32At block 0x1C)
        else if k = 13 then e (f32At block 0x20) else if k = 14 then e (f32At block 0x10)
        else if k = 22 then e (fc (u32At block 0x24) 100) else pvInvalid
      s.setCirc id (if set = 0 then { c with pv := (List.range 23).map pv, quality := q } else c)
  else
    let id := u8At block 0
    let st := s.extendStamp (BitVec.ofNat 32 (u32At block 4))
    let e (v : F32) : PvEntry := ⟨v, st, q, 0, 0, 0⟩
    if 63 < id || block.length ≠ 96 || ((s.point id).map (fun p => !p.mirrored)).getD false then s
    else
      let p := (s.point id).getD { s.freshPoint id (BitVec.ofNat 8 id :: List.replicate 63 0) with mirrored := true }
      let b := flagged 4
      let p : HeatPoint := match set with
        | 0 => { p with winCopy := some b }
        | 1 => { p with tickCopy := some b }
        | _ => { p with billCopy := some b }
      s.setPoint id (if set = 0 then { p with
        pv := [e (f32At block 8), e (f32At block 0xC), e (f32At block 0x10), e (f32At block 0x14), pvInvalid, pvInvalid,
          e (fc (u32At block 0x18) 100)], quality := q } else p)

end Sys2Proof.Machine
end

