-- ==== Sys2Proof/Machine/Panel.lean ====
section
/-! DEFINITION. The operator panel and the status tag: their orders and events (spec/18_panel_and_tag.md). -/

namespace Sys2Proof.Machine

open Sys2Proof

/-! ### Answers (R629) -/

def poOk : Nat := 0
def poRange : Nat := 1
def poQuiescing : Nat := 2
def poCracked : Nat := 3
def poEnergyLow : Nat := 4
def poPowerFail : Nat := 5
def poDisabled : Nat := 6
def poReplaced : Nat := 7

/-- PANEL_RESULT. What DETAIL holds is not stated: a free value. -/
def State.panelResult (s : State) (ref : OrderRef) (op st : Nat) : State :=
  let r := s.takeFree 4
  r.2.answer ref op (ownReport st [u8 st, u8 (enCode s.panel.en), u16 r.1.toNat])

/-- TAG_RESULT. -/
def State.tagResult (s : State) (ref : OrderRef) (op st : Nat) : State :=
  let r := s.takeFree 5
  r.2.answer ref op (ownReport st [u8 st, u8 (enCode s.tag.en), u16 r.1.toNat])

/-- An entry of the set-up image is not refused for a panel or tag that has not been enabled (R625, R629). -/
def fromSetup : OrderRef → Bool
  | .setup _ => true
  | .host _ _ => false

/-! ### The panel: geometry, lines and currents (R610, R611) -/

def State.panelWidth (s : State) : Nat := s.fld rPanelCfg 8 0
def State.panelHeight (s : State) : Nat := s.fld rPanelCfg 24 16
def State.setPanel (s : State) (p : Panel) : State := { s with panel := p }

/-- Lines in ascending order. -/
def panelLines (h : Nat) (f : Nat → Bool) : List Nat := (List.range h).filter f

def State.dirtyLines (s : State) (f : Nat → Bool) : State :=
  let d := s.panel.dirty
  s.setPanel { s.panel with dirty := panelLines s.panelHeight (fun y => d.contains y || f y) }

/-- One bit of the default curve's value: the greatest n whose half below, n − ½, is at most 20 000 × (c ÷ 63)^2.2. -/
def curveBits (c : Nat) : Nat → Nat → Nat
  | 0, v => v
  | k + 1, v =>
    let n := v + 2 ^ k
    curveBits c k (if (2 * n - 1) ^ 5 * 63 ^ 11 ≤ 40000 ^ 5 * c ^ 11 then n else v)

/-- round(20 000 × (c ÷ 63)^2.2) nA. -/
def defaultCurve (c : Nat) : Nat := curveBits c 15 0

/-- CURVE_p[c]. -/
def Panel.curve (p : Panel) (prim c : Nat) : Nat :=
  match (if prim = 0 then p.curve0 else if prim = 1 then p.curve1 else p.curve2) with
  | some l => l.getD c 0
  | none => defaultCurve c

/-- Block of a pixel (R616). -/
def panelBlock (x y : Nat) : Nat := y / 16 * 30 + x / 16

/-- The ageing gain g(b, p), 1 while AGE_EN is 0 (R616). -/
def State.panelGain (s : State) (b prim : Nat) : F32 :=
  if s.fld rAgeCtl 8 8 = 1 then (alGet s.panel.gains (3 * b + prim)).getD fOne else fOne

/-- A plane's mask at a pixel, and whether it shows its alternate colour there (R615). -/
def Panel.masked (p : Panel) (plane x y : Nat) : Bool := Mem.bit (if plane = 0 then p.mask0 else p.mask1) (y * 480 + x)
def Panel.alt (p : Panel) (plane x y : Nat) : Bool :=
  (if plane = 0 then p.act0 && p.half0 else p.act1 && p.half1) && p.masked plane x y

/-- The code shown by a subpixel: plane 1 decides where both masks are set. -/
def State.subCode (s : State) (x y prim : Nat) : Nat :=
  let p := s.panel
  let shown := (Mem.read p.buf ((y * 480 + x) * 3 + prim)).toNat % 64
  let altOf (k : Nat) : Nat := s.fld (rBlinkAlt k) (17 - 6 * prim) (12 - 6 * prim)
  let act1 := p.act1 && p.masked 1 x y
  if act1 then (if p.half1 then altOf 1 else shown)
  else if p.alt 0 x y then altOf 0 else shown

/-- The current of a subpixel in nA before the clamp. -/
def State.subCurrent (s : State) (x y prim : Nat) : F32 :=
  let c := fOfInt (s.panel.curve prim (s.subCode x y prim)) 1
  fMul (fDiv (fMul c (fOfInt (s.fld rPanelBright 7 0) 1)) (fc 255 1)) (s.panelGain (panelBlock x y) prim)

/-- The subpixels of a line in the order of R610. -/
def State.lineCurrents (s : State) (y : Nat) : List F32 :=
  ((List.range s.panelWidth).map (fun x => (List.range 3).map (fun prim => s.subCurrent x y prim))).flatten

/-- PANEL_EVENT with code 3 for `n` clamped subpixels. -/
def State.noteClamp (s : State) (n : Nat) : State :=
  if n = 0 then s
  else
    let s : State := s.setPanel { s.panel with clamps := satAdd s.panel.clamps n }
    s.raiseTimed2 0xED 3 [u16 3] false n 0

/-- What one line has carried for `ns`, added by block and primary: 16 pixels of a line lie in one block (R616). -/
def carryLine (y ns : Nat) (cs : List F32) (l : List (Nat × Nat)) : List (Nat × Nat) :=
  let part (b prim : Nat) : Nat :=
    (((cs.drop (48 * b)).take 48).mapIdx (fun j c => if j % 3 = prim then (fInt c).natAbs else 0)).sum
  (List.range ((cs.length + 47) / 48)).foldl (fun l b =>
    (List.range 3).foldl (fun l prim =>
      let k := 3 * (panelBlock (16 * b) y) + prim
      alPut l k ((alGet l k).getD 0 + part b prim * ns)) l) l

/-- The lines that `f` names have carried their currents until now. -/
def State.carryLines (s : State) (f : Nat → Bool) : State :=
  let due := s.panel.held.filter (fun h => f h.1)
  s.setPanel { s.panel with
    held := s.panel.held.map (fun h => if f h.1 then (h.1, s.now, h.2.2) else h),
    carried := due.foldl (fun l h => carryLine h.1 (s.now - h.2.1) h.2.2 l) s.panel.carried }

/-- How long a line takes: its phases and the address overhead (R610). -/
def State.lineNs (s : State) : Nat := (3 * s.panelWidth + 95) / 96 * s.fld rPanelTiming 15 0 + 1000

/-- No line is in progress any more. -/
def State.lineOver (s : State) : Bool := s.panel.sweepAt.isNone || decide (s.panel.lineAt + s.lineNs ≤ s.now)

/-- The programming of a line begins: its dirty bit clears, its currents are driven at its address (R611, R613, R631). -/
def State.programLine (s : State) (y : Nat) : State :=
  let cs := s.lineCurrents y
  let clamp (v : F32) : F32 := if fLt (fc 20000 1) v then fc 20000 1 else v
  let addr := if s.fld rPanelCfg 30 30 = 1 then s.panelHeight - 1 - y else y
  let s : State := s.carryLines (· == y)
  let s : State := s.setPanel { s.panel with
    dirty := s.panel.dirty.filter (· != y), sweepAt := some y, lineAt := s.now, lines := satInc s.panel.lines,
    held := alPut s.panel.held y (s.now, cs.map clamp) }
  let s : State := s.emit (.panelLine addr (cs.map clamp))
  s.noteClamp (cs.filter (fun v => fLt (fc 20000 1) v)).length

/-! ### Blanking and quiescing (R618–R621) -/

/-- Every line is programmed with zero current, and the rail is switched off and discharged. -/
def State.panelDark (s : State) (st : PanelSt) : State :=
  let s : State := s.carryLines (fun _ => true)
  let s : State := s.setPanel { s.panel with st := st, sweepAt := none, held := [], pnlEn := false, pnlDis := true }
  (s.emit .panelBlank).emit (.panelSwitch false true)

/-- A disabled panel reaches its quiesced state. -/
def State.panelQuiesced (s : State) : State :=
  let s : State := s.panelDark .blanked
  let s : State := s.setPanel { s.panel with en := .disabled }
  s.raise 0xED [u16 0, u32 0]

/-- Staged rectangles retire with a status. -/
def State.dropStaged (s : State) (st : Nat) : State :=
  let l := s.panel.staged
  l.foldl (fun s x => s.panelResult x.ref 0x1001 st) (s.setPanel { s.panel with staged := [] })

/-- The power-fail warning at the panel (R620). -/
def State.panelPowerFail (s : State) : State :=
  match s.panel.st with
  | .running => if s.panel.en = .quiescing then s.panelQuiesced
    else
      let s : State := s.panelDark .blanked
      s.setPanel { s.panel with en := .disabled }
  | _ => s

/-! ### Sweeps (R612–R615) -/

/-- The panel drives lines: it is enabled and its line crossing runs. -/
def State.panelRuns (s : State) : Bool := s.panel.st == .running && !s.xingStopped 0x12

/-- A sweep ends: its end crosses on 0x13. -/
def State.sweepEnd (s : State) : State :=
  (s.setPanel { s.panel with sweepAt := none, sweeps := s.panel.sweeps + 1 }).alarm 0x13

/-- The line in progress has ended, and the next dirty one begins; after the highest the sweep ends, and where lines are dirty
the next one starts. -/
def State.panelLine (s : State) : State :=
  if !s.lineOver then s
  else if s.panel.en = .quiescing then s.panelQuiesced
  else if !s.panelRuns then s
  else
    let start (s : State) : State := match s.panel.dirty with
      | y :: _ => s.programLine y
      | [] => s
    match s.panel.sweepAt with
    | none => start s
    | some y =>
      match s.panel.dirty.find? (fun z => y < z) with
      | some z => s.programLine z
      | none => start s.sweepEnd

def execPanelLineProgram (s : State) : Host.Outcome State Fault Refusal := .next s.panelLine

/-- The bytes of a rectangle, row-major, into the frame buffer. -/
def putRows (r : Rect) : Nat → List Host.Cell → List Byte → List Host.Cell
  | 0, m, _ => m
  | n + 1, m, bs =>
    let row := (bs.drop (n * r.w * 3)).take (r.w * 3)
    putRows r n (Mem.writes m (((r.y + n) * 480 + r.x) * 3) row) bs

/-- The staged rectangle is committed in one step, and its lines become dirty. -/
def State.commitWrite (s : State) : State :=
  match s.panel.staged with
  | [] => s
  | x :: xs =>
    let r := x.rect
    let data := padTo (r.w * r.h * 3) x.data
    let s : State := s.setPanel { s.panel with staged := xs, buf := putRows r r.h s.panel.buf data }
    (s.dirtyLines (fun y => r.y ≤ y && y < r.y + r.h)).panelResult x.ref 0x1001 poOk

def execPanelWriteCommit (s : State) : Host.Outcome State Fault Refusal := .next s.commitWrite

/-- The time from one line's refresh to the next (R614). -/
def State.refreshNs (s : State) : Nat := s.fld rPanelTiming 31 16 * msNs / s.panelHeight

/-- The next line in turn becomes dirty. -/
def State.panelRefresh (s : State) : State :=
  if s.now < s.panel.refreshAt + s.refreshNs then s else
  let y := s.panel.refreshLine
  let s : State := s.dirtyLines (· == y)
  s.setPanel { s.panel with refreshLine := (y + 1) % s.panelHeight, refreshAt := s.now }

def execPanelRefreshTick (s : State) : Host.Outcome State Fault Refusal := .next s.panelRefresh

/-- Every line with a masked pixel of a plane becomes dirty: a line's mask takes 60 bytes. -/
def State.dirtyMask (s : State) (plane : Nat) : State :=
  let m := if plane = 0 then s.panel.mask0 else s.panel.mask1
  s.dirtyLines (fun y => m.any (fun c => c.1 / 60 == y))

def Panel.act (p : Panel) (plane : Nat) : Bool := if plane = 0 then p.act0 else p.act1

def State.setAct (s : State) (plane : Nat) (act : Bool) : State :=
  if s.panel.act plane = act then s
  else
    let s : State := s.setPanel (if plane = 0 then { s.panel with act0 := act } else { s.panel with act1 := act })
    s.dirtyMask plane

/-- A plane's control has been written: EN acts at once, a marker is sampled at the next boundary. -/
def State.blinkCtl (s : State) (plane : Nat) : State :=
  let c := rBlinkCtl plane
  let en := s.fld c 31 31 == 1
  s.setAct plane (if s.fld c 30 30 = 1 then en && s.panel.act plane else en)

/-- A half-period boundary: periods count from TAI second 0, and the marker is sampled. -/
def State.blinkHalf (s : State) (plane : Nat) : State :=
  let c := rBlinkCtl plane
  let halfNs := s.fld c 29 16 * (5 * msNs)
  let half := s.tai / halfNs
  let second := half % 2 == 1
  if (if plane = 0 then s.panel.blink0 else s.panel.blink1) = some half then s else
  let en := s.fld c 31 31 == 1
  let act := en && (s.fld c 30 30 = 0 || s.pubMarker (s.fld c 15 0))
  let s : State := s.setPanel (if plane = 0 then { s.panel with act0 := act, half0 := second, blink0 := some half }
    else { s.panel with act1 := act, half1 := second, blink1 := some half })
  s.dirtyMask plane

def execBlinkHalfPeriod (plane : Nat) (s : State) : Host.Outcome State Fault Refusal :=
  .next (if plane < 2 then s.blinkHalf plane else s)

/-! ### Ageing (R616, R617) -/

/-- The stress of a block and primary grows, saturating at 32 bits. -/
def addStress (l : List (Nat × Nat)) (x : Stress) : List (Nat × Nat) :=
  let k := 3 * x.block + x.primary
  alPut l k (min ((alGet l k).getD 0 + x.add) 0xFFFFFFFF)

def gainCap (pct : Nat) : F32 := fAdd fOne (fOfInt pct 100)

/-- g of a stress counter. -/
def gainOf (ageK : F32) (pct stress : Nat) : F32 :=
  fMin (fAdd fOne (fMul ageK (fOfInt stress 65536))) (gainCap pct)

/-- The gains are set from the stress counters, and the lines of every block whose gain changed by 1/1 024 become dirty. -/
def State.setGains (s : State) : State :=
  let pct := s.fld rAgeCtl 7 0
  let old (k : Nat) : F32 := (alGet s.panel.gains k).getD fOne
  let gains : List (Nat × F32) := s.panel.stress.map (fun x => (x.1, gainOf (s.reg rAgeK) pct x.2))
  let moved := (gains.filter (fun x => fLe (fc 1 1024) (fAbs (fSub x.2 (old x.1))))).map (fun x => x.1 / 3 / 30)
  let capped := (gains.filter (fun x => fLe (gainCap pct) x.2)).map (fun x => x.1 / 3)
  let s : State := s.setPanel { s.panel with gains := gains, ageLimit := !capped.isEmpty }
  let s : State := s.dirtyLines (fun y => moved.contains (y / 16))
  match capped with
  | b :: _ =>
    if s.panel.ageRaised then s
    else (s.setPanel { s.panel with ageRaised := true }).raise 0xED [u16 1, u32 b]
  | [] => s

/-- Subpixels of one primary in a block: fewer than 256 at the panel's right and lower edges. -/
def State.blockSize (s : State) (b : Nat) : Nat :=
  min 16 (s.panelWidth - b % 30 * 16) * min 16 (s.panelHeight - b / 30 * 16)

/-- 20 µA × 2⁻¹⁶ h over a block's subpixels, in units of 2⁻¹⁴⁹ nA·ns. -/
def State.stressUnit (s : State) (b : Nat) : Nat := 20000 * 3600 * secNs * 2 ^ 133 * max 1 (s.blockSize b)

/-- The whole units that a block and primary have carried (R616). -/
def State.stressOf (s : State) (x : Nat × Nat) : Stress := ⟨x.1 / 3, x.1 % 3, x.2 / s.stressUnit (x.1 / 3)⟩

/-- The update of every 60 s: the stress carried since the last one, then the gains while AGE_EN is 1. The stress is that of the
currents held, whose parts of a unit stay for the next update, or what the command gives in its place. -/
def State.panelAge (s : State) (given : Option (List Stress)) : State :=
  if s.now < s.panel.ageAt + 60 * secNs then s else
  let s : State := s.carryLines (fun _ => true)
  let add := (given.getD (s.panel.carried.map s.stressOf)).filter (fun x => x.block < 510 && x.primary < 3)
  let rest : List (Nat × Nat) := match given with
    | some _ => []
    | none => s.panel.carried.map (fun x => (x.1, x.2 % s.stressUnit (x.1 / 3)))
  let s : State := s.setPanel { s.panel with stress := add.foldl addStress s.panel.stress, carried := rest, ageAt := s.now }
  if s.fld rAgeCtl 8 8 = 1 then s.setGains else s

def execPanelAgeUpdate (given : Option (List Stress)) (s : State) : Host.Outcome State Fault Refusal :=
  .next (s.panelAge given)

/-- The hourly write takes the place of the older copy; it is not made after the power-fail warning. -/
def State.stressSave (s : State) (good : Bool) : State :=
  if s.sup.holdUp || s.now < s.panel.savedAt + 3600 * secNs then s
  else s.setPanel { s.panel with saves := (s.panel.stress, good) :: s.panel.saves.take 1, savedAt := s.now }

def execPanelStressSave (good : Bool) (s : State) : Host.Outcome State Fault Refusal := .next (s.stressSave good)

/-- Start-up: the newer copy whose CRC is right, or zeros and STRESS_LOST. -/
def State.stressRestore (s : State) : State :=
  match s.panel.saves.find? (·.2) with
  | some x => s.setPanel { s.panel with stress := x.1 }
  | none => (s.setPanel { s.panel with stress := [] }).raise 0xED [u16 2, u32 0]

/-! ### Crack loop (R618) -/

def State.panelCrack (s : State) (n : Nat) : State :=
  let wasQ := s.panel.en == .quiescing
  let s : State := s.panelDark .cracked
  let s : State := s.setPanel { s.panel with en := .disabled }
  let s : State := (s.dropStaged poCracked).raise 0xEC [u16 n]
  if wasQ then s.raise 0xED [u16 0, u32 0] else s

/-- A reading of the crack loop, every 100 ms; two consecutive open ones crack the panel. -/
def State.crackCheck (s : State) (isOpen : Bool) : State :=
  if s.fld rPanelCfg 31 31 = 0 || s.now < s.panel.crackAt + 100 * msNs then s
  else
    let n := if isOpen then s.panel.crackRun + 1 else 0
    let s : State := s.setPanel { s.panel with crackOpen := isOpen, crackRun := n, crackAt := s.now }
    if 2 ≤ n && s.panel.st != .cracked then s.panelCrack n else s

def execCrackCheck (isOpen : Bool) (s : State) : Host.Outcome State Fault Refusal := .next (s.crackCheck isOpen)

/-! ### Panel orders (R629) -/

/-- Why a new write is refused: CRACKED, QUIESCING or DISABLED. -/
def State.panelRefusal (s : State) (ref : OrderRef) (write : Bool) : Nat :=
  if write && s.panel.st == .cracked then poCracked
  else match s.panel.en with
    | .quiescing => poQuiescing
    | .disabled => if fromSetup ref then poOk else poDisabled
    | .enabled => poOk

def State.rectOk (s : State) (r : Rect) : Bool :=
  1 ≤ r.w && 1 ≤ r.h && r.x + r.w ≤ s.panelWidth && r.y + r.h ≤ s.panelHeight

/-- PANEL_WRITE: the rectangle is staged. -/
def State.panelWrite (s : State) (ref : OrderRef) (r : Rect) (data : List Byte) : State :=
  let st := if s.panelRefusal ref true ≠ poOk then s.panelRefusal ref true else if s.rectOk r then poOk else poRange
  if st ≠ poOk then s.panelResult ref 0x1001 st
  else s.setPanel { s.panel with staged := s.panel.staged ++ [⟨ref, r, data⟩] }

def execPanelWrite (ref : OrderRef) (rect : Rect) (data : List Byte) (s : State) : Host.Outcome State Fault Refusal :=
  .next (s.runOrder ref 0x1001 (fun s => s.panelWrite ref rect data))

/-- One row of a mask, bit 0 of each byte leftmost. -/
def maskRow (m : List Host.Cell) (base : Nat) (row : List Byte) : Nat → List Host.Cell
  | 0 => m
  | n + 1 => Mem.setBit (maskRow m base row n) (base + n) ((row.getD (n / 8) 0).getLsbD (n % 8))

def maskRows (r : Rect) (bs : List Byte) : Nat → List Host.Cell → List Host.Cell
  | 0, m => m
  | n + 1, m =>
    let per := (r.w + 7) / 8
    maskRows r bs n (maskRow m ((r.y + n) * 480 + r.x) ((bs.drop (n * per)).take per) r.w)

/-- PANEL_MASK. -/
def State.panelMask (s : State) (ref : OrderRef) (plane : Nat) (r : Rect) (data : List Byte) : State :=
  let st := if s.panelRefusal ref false ≠ poOk then s.panelRefusal ref false
    else if plane ≤ 1 && s.rectOk r then poOk else poRange
  if st ≠ poOk then s.panelResult ref 0x1002 st
  else
    let s : State := s.setPanel (if plane = 0 then { s.panel with mask0 := maskRows r data r.h s.panel.mask0 }
      else { s.panel with mask1 := maskRows r data r.h s.panel.mask1 })
    s.panelResult ref 0x1002 poOk

def execPanelMask (ref : OrderRef) (plane : Nat) (rect : Rect) (data : List Byte) (s : State) :
    Host.Outcome State Fault Refusal :=
  .next (s.runOrder ref 0x1002 (fun s => s.panelMask ref plane rect data))

/-- 64 values in nA, non-decreasing, the first 0, none above 20 000. -/
def curveOk (l : List Nat) : Bool :=
  l.length == 64 && l.headD 1 == 0 && (l.zip (l.drop 1)).all (fun p => p.1 ≤ p.2) && l.all (· ≤ 20000)

/-- PANEL_CURVE. -/
def State.panelCurve (s : State) (ref : OrderRef) (prim : Nat) (l : List Nat) : State :=
  if prim ≤ 2 && curveOk l then
    let p := s.panel
    let s : State := s.setPanel (if prim = 0 then { p with curve0 := some l } else if prim = 1 then { p with curve1 := some l }
      else { p with curve2 := some l })
    s.panelResult ref 0x1003 poOk
  else s.panelResult ref 0x1003 poRange

def execPanelCurve (ref : OrderRef) (primary : Nat) (values : List Nat) (s : State) : Host.Outcome State Fault Refusal :=
  .next (s.runOrder ref 0x1003 (fun s => s.panelCurve ref primary values))

/-- BLINKn_CTL as it is stored: a PERIOD outside 10–1 000 becomes 100 (R632). -/
def normBlinkCtl (v : Word) : Word :=
  let n := v.toNat
  let p := bits n 29 16
  if 10 ≤ p && p ≤ 1000 then v else word (n / 2 ^ 30 * 2 ^ 30 + 100 * 2 ^ 16 + n % 2 ^ 16)

def normBlinkAlt (v : Word) : Word := word (v.toNat % 2 ^ 18)

/-- PANEL_SET. -/
def State.panelSet (s : State) (ref : OrderRef) (x : PanelSet) : State :=
  if 255 < x.bright || 2 ^ 18 ≤ x.alt0.toNat || 2 ^ 18 ≤ x.alt1.toNat then s.panelResult ref 0x1004 poRange
  else
    let s : State := ((s.setReg rPanelBright (word x.bright)).setReg (rBlinkCtl 0) (normBlinkCtl x.ctl0)).setReg
      (rBlinkCtl 1) (normBlinkCtl x.ctl1)
    let s : State := (s.setReg (rBlinkAlt 0) x.alt0).setReg (rBlinkAlt 1) x.alt1
    ((s.blinkCtl 0).blinkCtl 1).panelResult ref 0x1004 poOk

def execPanelSet (ref : OrderRef) (x : PanelSet) (s : State) : Host.Outcome State Fault Refusal :=
  .next (s.runOrder ref 0x1004 (fun s => s.panelSet ref x))

/-- The enable (R619): zero current on every line, the rail on, then a full sweep. -/
def State.panelOn (s : State) : State :=
  let s : State := s.emit .panelBlank
  let s : State := s.setPanel { s.panel with en := .enabled, st := .running, pnlEn := true, pnlDis := false, sweepAt := none }
  (s.emit (.panelSwitch true false)).dirtyLines (fun _ => true)

/-- PANEL_CTL. -/
def State.panelCtl (s : State) (ref : OrderRef) (enable : Nat) : State :=
  let p := s.panel
  if 1 < enable then s.panelResult ref 0x1005 poRange
  else if enable = 1 then
    if p.st = .cracked then s.panelResult ref 0x1005 poCracked
    else if s.sup.holdUp then s.panelResult ref 0x1005 poPowerFail
    else match enRequest p.en true false with
      | (_, .quiescingRefused) => s.panelResult ref 0x1005 poQuiescing
      | _ => (if p.en = .enabled then s else s.panelOn).panelResult ref 0x1005 poOk
  else
    match enRequest p.en false p.sweepAt.isSome with
    | (_, .quiescedNow) => ((s.dropStaged poDisabled).panelQuiesced).panelResult ref 0x1005 poOk
    | (en, _) =>
      let s : State := s.setPanel { p with en := en }
      (if p.en = .enabled then s.dropStaged poDisabled else s).panelResult ref 0x1005 poOk

def execPanelCtl (ref : OrderRef) (enable : Nat) (s : State) : Host.Outcome State Fault Refusal :=
  .next (s.runOrder ref 0x1005 (fun s => s.panelCtl ref enable))

/-! ### The status tag (R622–R628) -/

def State.setTag (s : State) (t : Tag) : State := { s with tag := t }

/-- Usable energy of the hold-up store in mJ at a voltage in mV (R665). -/
def State.usableMj (s : State) (mv : Nat) : Nat := s.fld rHoldCfg 31 16 * (mv * mv - 6000 * 6000) / (2 * 10 ^ 9)

/-- The reserve of R666, mJ. -/
def reserveMj : Nat := 80

def tagPulse (cfg : Nat) : Nat := bits cfg 9 0

/-- Duration from MARK to the end of REST in ms, and what it takes at 25 mW, in whole mJ rounded up (R623, R624). -/
def tagMs (pulse : Nat) (full : Bool) : Nat := pulse * (if full then 4 else 3) + 50
def tagMj (pulse : Nat) (full : Bool) : Nat := (25 * tagMs pulse full + 999) / 1000

def seg63 : DWord := BitVec.ofNat 64 (2 ^ 63)

/-- The waiting update starts with its energy check, where nothing runs. -/
def State.tagStart (s : State) (u : TagUpd) : State :=
  let t := s.tag
  let image := if u.fail then t.shown ||| BitVec.ofNat 64 (2 ^ s.fld rTagCfg 15 10) else u.image
  s.setTag { t with
    phase := .check, phaseAt := s.now, pulse := tagPulse (s.reg rTagCfg).toNat, run := some { u with image := image },
    wait := none }

/-- An update has ended: the waiting one starts, or a disabled tag is quiesced. -/
def State.tagNext (s : State) : State :=
  let s : State := s.setTag { s.tag with phase := .idle, run := none }
  match s.tag.wait with
  | some u => s.tagStart u
  | none =>
    if s.tag.en = .quiescing then
      (s.setTag { s.tag with en := .disabled }).raise 0xEF [u16 1, u32 s.tag.required, u32 s.tag.measured]
    else s

def State.tagAnswer (s : State) (u : TagUpd) (st : Nat) : State :=
  match u.ref with
  | some ref => s.tagResult ref 0x1006 st
  | none => s

/-- CHECK ends with VHOLD measured: the update starts with MARK, or ends. -/
def State.tagChecked (s : State) (u : TagUpd) (rawMv : Nat) : State :=
  let need := tagMj s.tag.pulse u.full
  let v := s.sensed 1 rawMv
  let s : State := v.1
  let e := s.usableMj v.2
  let low := e < need + reserveMj
  let s : State := s.setTag { s.tag with required := need, measured := e - reserveMj, energyLow := low }
  if s.tag.en = .quiescing then (s.tagAnswer u poDisabled).tagNext
  else if low then ((s.tagAnswer u poEnergyLow).raise 0xEF [u16 0, u32 need, u32 (e - reserveMj)]).tagNext
  else (s.setTag { s.tag with phase := .mark, phaseAt := s.now, flag := true, wanted := u.image }).emit (.tagDrive seg63 0)

/-- The duration of a phase in ns (R623); CHECK has only a greatest one. -/
def tagPhaseNs (pulse : Nat) (full : Bool) : TagPhase → Nat
  | .idle | .check => 0
  | .mark | .unmark => pulse * msNs
  | .drive => pulse * (if full then 2 else 1) * msNs
  | .rest => 50 * msNs

/-- The phase in progress has lasted its duration. -/
def State.tagPhaseOver (s : State) (u : TagUpd) : Bool := s.tag.phaseAt + tagPhaseNs s.tag.pulse u.full s.tag.phase ≤ s.now

/-- The end of the phase in progress; `rawMv`: VHOLD as measured. -/
def State.tagPhaseEnd (s : State) (rawMv : Nat) : State :=
  match s.tag.run with
  | none => s
  | some u =>
    if !s.tagPhaseOver u then s else
    let t := s.tag
    let all : DWord := ~~~seg63
    match t.phase with
    | .idle => s
    | .check => s.tagChecked u rawMv
    | .mark =>
      let s : State := s.setTag { t with phase := .drive, phaseAt := s.now, segs := t.segs ||| seg63 }
      if u.full then (s.emit (.tagDrive 0 all)).emit (.tagDrive u.image (all &&& ~~~u.image))
      else s.emit (.tagDrive (u.image &&& ~~~t.shown) (t.shown &&& ~~~u.image))
    | .drive =>
      let driven : DWord := if u.full then all else u.image ^^^ t.shown
      let segs : DWord := (t.segs &&& ~~~driven) ||| (u.image &&& driven)
      (s.setTag { t with phase := .unmark, phaseAt := s.now, segs := segs }).emit (.tagDrive 0 seg63)
    | .unmark => (s.setTag { t with phase := .rest, phaseAt := s.now, segs := t.segs &&& all }).emit .tagRest
    | .rest =>
      let s : State := s.setTag { t with flag := false, interrupted := false, shown := u.image, updates := t.updates + 1 }
      let s : State := s.tagAnswer u poOk
      (if u.fail then s.raise 0xEF [u16 2, u32 t.required, u32 t.measured] else s).tagNext

def execTagPhaseEnd (rawMv : Nat) (s : State) : Host.Outcome State Fault Refusal := .next (s.tagPhaseEnd rawMv)

/-- An accepted update starts, or waits in place of the one that waited. -/
def State.tagAccept (s : State) (u : TagUpd) : State :=
  match s.tag.run with
  | none => s.tagStart u
  | some _ =>
    let s : State := match s.tag.wait with
      | some w => s.tagAnswer w poReplaced
      | none => s
    s.setTag { s.tag with wait := some u }

/-- TAG_UPDATE. -/
def State.tagUpdate (s : State) (ref : OrderRef) (image : DWord) (flags : Nat) : State :=
  let t := s.tag
  let st :=
    if image.getLsbD 63 || 1 < flags then poRange
    else if t.powerFail then poPowerFail
    else match t.en with
      | .quiescing => poQuiescing
      | .disabled => if fromSetup ref then poOk else poDisabled
      | .enabled => poOk
  if st ≠ poOk then s.tagResult ref 0x1006 st
  else s.tagAccept { ref := some ref, image := image, full := flags == 1, fail := false }

def execTagUpdate (ref : OrderRef) (image : DWord) (flags : Nat) (s : State) : Host.Outcome State Fault Refusal :=
  .next (s.runOrder ref 0x1006 (fun s => s.tagUpdate ref image flags))

/-- TAG_CTL. -/
def State.tagCtl (s : State) (ref : OrderRef) (enable : Nat) : State :=
  let t := s.tag
  if 1 < enable then s.tagResult ref 0x1007 poRange
  else match enRequest t.en (enable == 1) t.run.isSome with
    | (_, .quiescingRefused) => s.tagResult ref 0x1007 poQuiescing
    | (en, .quiescedNow) =>
      ((s.setTag { t with en := en }).raise 0xEF [u16 1, u32 t.required, u32 t.measured]).tagResult ref 0x1007 poOk
    | (en, .accepted) =>
      let s : State := s.setTag { t with en := en, wait := if enable = 0 then none else t.wait }
      let s : State := match t.wait with
        | some w => if enable = 0 then s.tagAnswer w poDisabled else s
        | none => s
      s.tagResult ref 0x1007 poOk

def execTagCtl (ref : OrderRef) (enable : Nat) (s : State) : Host.Outcome State Fault Refusal :=
  .next (s.runOrder ref 0x1007 (fun s => s.tagCtl ref enable))

/-- The power-fail warning at the tag (R626): the waiting update is dropped, and with FAIL_EN 1 the fail update runs next. -/
def State.tagPowerFail (s : State) : State :=
  let s : State := match s.tag.wait with
    | some w => (s.setTag { s.tag with wait := none }).tagAnswer w poPowerFail
    | none => s
  let s : State := s.setTag { s.tag with powerFail := true }
  if s.fld rTagCfg 16 16 = 1 && s.tag.en = .enabled then s.tagAccept { ref := none, image := 0, full := false, fail := true }
  else s

/-- Start-up finds the in-progress flag set (R625). The phase it stopped in is not kept. -/
def State.tagBoot (s : State) : State :=
  if s.tag.flag then (s.setTag { s.tag with interrupted := true }).raise 0xEE [u64 s.tag.wanted.toNat, u16 0] else s

end Sys2Proof.Machine
end

