-- ==== Sys2Proof/Machine/Placement.lean ====
section
/-! DEFINITION. The placement's commands (spec/03_role_placement.md). -/

namespace Sys2Proof.Machine

open Sys2Proof

/-- A role created on a bead: a new id starts at epoch 0, a retired one takes the next incarnation (R81). -/
def State.createRole (s : State) (id : Half) (bead : Nat) (ck : Option Nat) : State :=
  let fresh (e : Half) : Role := ⟨id, bead, e, .running, ck, none, 0, 0, [], [], false⟩
  match s.role id with
  | some r => s.modRole id (fun _ => fresh (epochReborn r.epoch))
  | none => { s with place := { s.place with roles := s.place.roles ++ [fresh 0] } }

/-- Tokens that were answered void for a moving or re-placing role are re-sent once it runs (R97). -/
def State.resendAll (s : State) (id : Half) : State :=
  match s.role id with
  | some r => (s.modRole id (fun r => { r with resend := [] })).ackAll .normal r.resend
  | none => s

/-- The role stands on deck `d` whether a move of it commits or not. -/
def Role.staysOn (q : Role) (d : Nat) : Bool :=
  deckOf q.bead == d && (match q.move with
    | some m => m.committed || deckOf m.target == d
    | none => true)
/-- The role stands off deck `d` whether a move of it commits or not. -/
def Role.staysOff (q : Role) (d : Nat) : Bool :=
  deckOf q.bead != d && (match q.move with
    | some m => m.committed || deckOf m.target != d
    | none => true)

/-- The other live wake-pinned roles. -/
def State.otherPinned (s : State) (r : Role) : List Role :=
  s.place.live.filter (fun q => q.id != r.id && wakePinned (roleKind q.id))

/-- With one frame working the wake-pinned roles stand on two decks at least, with the role on `target` (R91). -/
def State.spreadOk (s : State) (r : Role) (target : Nat) : Bool :=
  !wakePinned (roleKind r.id) || s.fab.frameLost.isEmpty || (s.otherPinned r).any (·.staysOff (deckOf target))

/-- There is a free bead that keeps the wake-pinned roles spread. -/
def State.spreadBead (s : State) (r : Role) : Bool :=
  (List.range 512).any (fun b => s.beadFree b && s.restartOk r b && s.spreadOk r b)

/-- A REPLACING role may restart on the bead: its own, where that still works, else a free one (R100), which keeps the spread of R91
where one does. No bead of a sleeping deck
executes, and a move past its commit closes its fence first. -/
def State.mayRestart (s : State) (r : Role) (bead : Nat) : Bool :=
  r.st == .replacing && r.move.isNone && s.deckAwake (deckOf bead)
    && (if s.beadWorks r.bead then bead == r.bead
      else s.beadFree bead && s.restartOk r bead && (s.spreadOk r bead || !s.spreadBead r))

/-- ROLE_REPLACED (R100, R101): the role restarts on its new bead from its checkpoint, or from its kind's initial state; a sleeping
deck is woken for it first. The restart of an engine's own work is the engine's (R167, R201, R344). -/
def State.roleReplaced (s : State) (id : Half) (bead : Nat) : State :=
  match s.role id with
  | some r =>
    if s.mayRestart r bead then
      let before := s.reserve
      let e := if bead = r.bead then r.epoch else epochMoved r.epoch
      let s : State := s.modRole id (fun r => { r with bead := bead, epoch := e, st := .running, waiting := [] })
      let s : State := (s.stir (deckOf r.failedBead)).stir (deckOf bead)
      let s : State := s.ackAll .normal r.waiting
      let s : State := s.raise 0x21 [u16 id.toNat, u16 e.toNat, u16 r.failedBead, u16 bead, u32 ((s.now - r.since) / usNs)]
      let s : State := if r.ckpt.isNone then s.raise 0x25 [u16 id.toNat] else s
      (s.resendAll id).noteReserve before
    else if r.st = .replacing then s.wakeDeck (deckOf bead)
    else s
  | none => s

/-- The Shifter is ENABLED and the cause's enable bit is 1 (R92, R103). -/
def State.causeEnabled (s : State) : MoveCause → Bool
  | .heat | .pace => s.fld rPlaceCtl 1 1 == 1
  | .adjacency => s.fld rPlaceCtl 2 2 == 1
  | .sleep => s.fld rPlaceCtl 3 3 == 1

/-- The cause's condition (the table before R92). -/
def State.causeHolds (s : State) (d target : Nat) (m : MovePlan) : Bool :=
  match m.cause with
  | .heat => tempOf (s.shedC - s.fld rPlaceCtl 11 8) ≤ (s.deck d).temp
  | .pace => (match (s.deck d).ceilingAt with
      | some t => s.now ≤ t + 100 * msNs
      | none => false) && (s.deck target).rail < 80
  | .adjacency => 1000000 < m.measured
  | .sleep => 900 < m.measured

/-- After the role has left deck `d`, the checkpoints of wake-pinned roles there still stand beside a wake-pinned role (R89 rule 3),
and the wake-pinned roles are still spread (R91), however the moves under way end. -/
def State.leaveOk (s : State) (r : Role) (target : Nat) : Bool :=
  let d := deckOf r.bead
  let others := s.otherPinned r
  !wakePinned (roleKind r.id) ||
    ((!others.any (fun q => q.ckpt == some d) || others.any (·.staysOn d) || deckOf target == d) && s.spreadOk r target)

/-- A checkpoint place is there for the role on its new bead, and the one it has stays allowed until it is written: in another deck,
and for a wake-pinned role that stays in its frame as R89 rule 3 and R91 ask (R90 lets one that changes frames keep it until then). -/
def State.ckptAfter (s : State) (r : Role) (target : Nat) : Bool :=
  (List.range 8).any (s.ckptOk r.id target) &&
    (match r.ckpt with
     | some ck => ck != deckOf target && (!wakePinned (roleKind r.id) || frameOf target != frameOf r.bead || s.ckptFrameOk target ck)
     | none => true)

/-- A move that R89 and R94 allow now. -/
def State.moveOk (s : State) (m : MovePlan) : Bool :=
  match s.role m.role with
  | some r =>
    r.st == .running && r.move.isNone && !r.retireAfter && s.beadFree m.target && s.causeEnabled m.cause
      && s.causeHolds (deckOf r.bead) (deckOf m.target) m && s.ckptAfter r m.target && s.leaveOk r m.target && m.safePoint
      && (roleKind m.role != 4 || 40 * usNs ≤ m.nextSampleNs)
  | none => false

/-- Start a move: the role is frozen and its state is copied, which wakes the target's deck (steps 1 and 2). The target leaves the
reserve. -/
def State.startMove (s : State) (m : MovePlan) : State :=
  if s.moveOk m then
    let before := s.reserve
    ((s.modRole m.role (fun r => { r with
      st := .moving, move := some ⟨r.bead, m.target, m.cause, s.now, false, [], [], [], [], []⟩ })).wakeDeck
        (deckOf m.target)).noteReserve before
  else s

/-- SHIFTER_EVALUATION (R92): every 10 ms, at most 4 moves. -/
def State.shifterEvaluation (s : State) (plans : List MovePlan) : State :=
  if s.place.shiftEn = .enabled && s.place.lastEval + 10 * msNs ≤ s.now then
    let s : State := { s with place := { s.place with lastEval := s.now } }
    (plans.take 4).foldl State.startMove s
  else s

/-- The routers that sweep (step 4): 64 rod, 8 deck, 2 frame routers and the beam's. -/
def allRouters : List Nat := List.range 75

/-- One move ends before its commit point (R93): its role continues on the old bead, which takes the queued tokens. -/
def State.abandonMove (s : State) (id : Half) (reason : Nat) : State :=
  match s.role id with
  | some r =>
    let ts := (r.move.map (·.queued)).getD []
    let s : State := { s with place := { s.place with abandoned := s.place.abandoned + 1 } }
    let s : State := (s.modRole id (fun r => { r with st := .running, move := none })).ackAll .normal ts
    (s.raise 0x22 [u16 id.toNat, u16 reason]).settleRetire.settleShifter
  | none => s

/-- MOVE_COMMIT (R94 step 3): the directory takes the new bead and the incremented epoch; tokens queued at the old bead are forwarded.
The copy needs the target's deck awake; a target that R89 rule 7 no longer allows ends the move (assumption). The checkpoint stays where it is until the role writes its first one after the move (R90). -/
def State.moveCommit (s : State) (id : Half) : State :=
  match s.role id with
  | some r =>
    match r.move with
    | some m =>
      if r.st ≠ .moving || m.committed then s
      else if !s.deckEligible (deckOf m.target) then s.abandonMove id 4
      else if s.beadWorks m.target && s.deckAwake (deckOf m.target) then
        let s : State := s.modRole id (fun r => { r with
          bead := m.target, epoch := epochMoved r.epoch, st := .running,
          move := some { m with committed := true, sweeps := allRouters, queued := [], forwarding := m.queued } })
        { s with out := s.out ++ m.queued.map (fun t => Output.forward t m.target) }
      else s
    | none => s
  | none => s

/-- SWEEP_TOKEN (step 6): when every router's sweep has reached the stub, it sends its fence-close token. -/
def State.sweepToken (s : State) (id : Half) (router : Nat) : State :=
  match s.role id with
  | some r =>
    match r.move with
    | some m =>
      if m.committed && m.sweeps.contains router then
        let rest := m.sweeps.filter (fun x => x != router)
        let s : State := s.modRole id (fun r => { r with move := some { m with sweeps := rest } })
        if rest.isEmpty then s.emit (.fenceClose id) else s
      else s
    | none => s
  | none => s

def causeNum : MoveCause → Nat
  | .heat => 1
  | .pace => 2
  | .adjacency => 3
  | .sleep => 4

/-- What a closed fence releases, in order: what the stub forwarded, then the direct tokens; a role that is REPLACING meanwhile lets
them wait. -/
def State.releaseHeld (s : State) (id : Half) (ts : List Token) : State :=
  if s.roleDown id then ts.foldl (fun s t => s.waitToken id t) s else s.ackAll .normal ts

/-- FENCE_CLOSE (R95, step 7): the held direct tokens are released in order; a waiting retirement follows (R99). -/
def State.fenceClose (s : State) (id : Half) : State :=
  match s.role id with
  | some r =>
    match r.move with
    | some m =>
      if m.committed && m.sweeps.isEmpty then
        let s : State := ((s.modRole id (fun r => { r with move := none })).stir (deckOf m.from_)).stir (deckOf r.bead)
        let s : State := s.releaseHeld id m.tokens
        let s : State := s.raise 0x20 [u16 id.toNat, u16 r.epoch.toNat, u16 m.from_, u16 r.bead, u16 (causeNum m.cause),
          u32 ((s.now - m.started) / usNs)]
        let s : State := if r.st = .replacing then s else s.resendAll id
        s.settleRetire.settleShifter
      else s
    | none => s
  | none => s

/-- A move that has not committed. -/
def Role.uncommitted (r : Role) : Bool := (r.move.map (fun m => !m.committed)).getD false

/-- Moves before their commit point are abandoned; their roles continue on the old beads (R93). -/
def State.abandonMoves (s : State) : State :=
  let gone := s.place.roles.filter (·.uncommitted)
  let back (r : Role) : Role := if r.uncommitted then { r with st := .running, move := none } else r
  let s : State := { s with place := { s.place with
    roles := s.place.roles.map back, abandoned := s.place.abandoned + gone.length } }
  (gone.foldl (fun s r => s.raise 0x22 [u16 r.id.toNat, u16 1])
    (s.ackAll .normal (gone.flatMap (fun r => (r.move.map (·.queued)).getD [])))).settleRetire

/-- Enable or disable the Shifter (R93). Answers whether an enable met QUIESCING. -/
def State.shiftEnable (s : State) (want : Bool) : State × Bool :=
  let busy := s.place.roles.any (fun r => match r.move with
    | some m => m.committed
    | none => false)
  let a := enRequest s.place.shiftEn want busy
  match a.2 with
  | .quiescingRefused => (s, true)
  | .accepted =>
    let was := s.place.shiftEn
    let s : State := { s with place := { s.place with shiftEn := a.1, abandoned := if was = .enabled then 0 else s.place.abandoned } }
    (if was = .enabled && !want then s.abandonMoves else s, false)
  | .quiescedNow =>
    let s : State := ({ s with place := { s.place with abandoned := 0 } }).abandonMoves
    let s : State := { s with place := { s.place with shiftEn := .disabled } }
    (s.raise 0x2A [u32 s.place.abandoned], false)

/-- PLACE_SHIFT (R103): bits [3:0] of FAB_PLACE_CTL. -/
def State.placeShift (s : State) (ref : OrderRef) (bits4 : Nat) : State :=
  if 16 ≤ bits4 then s.answer ref 0x0202 (orderDone stRange)
  else
    let r := s.shiftEnable (bits4 % 2 == 1)
    if r.2 then r.1.answer ref 0x0202 (orderDone stQuiescing)
    else
      let v := (r.1.reg rPlaceCtl).toNat / 16 * 16 + bits4
      (r.1.setReg rPlaceCtl (word v)).answer ref 0x0202 (orderDone stDone)

/-- PLACE_ALLOC (R84, R85): every count at or above its minimum, the sum within the beads not failed; taken at the engines'
boundaries. -/
def State.placeAlloc (s : State) (ref : OrderRef) (c1 c2 c3 : Nat) : State :=
  let failed := 512 - s.workingBeads
  if c1 < 48 || c2 < 64 || c3 < 16 || 512 - failed < c1 + c2 + c3 + 112 then s.answer ref 0x0201 (orderDone stRange)
  else
    let want := [(1, c1), (2, c2), (3, c3)].filter (fun p => s.kindCount p.1 != p.2)
    let s : State := { s with place := { s.place with pendingAlloc := want } }
    s.answer ref 0x0201 (orderDone stDone)

/-- The first index of a kind without a live role. -/
def State.freeIndex (s : State) (k : Nat) : Option Nat :=
  (List.range 512).find? (fun i => !s.place.live.any (fun r => r.id.toNat == k * 4096 + i))

/-- Add roles of a kind on the lowest-numbered free beads, checkpoints in the lowest-numbered deck allowed. -/
def State.addRoles : Nat → Nat → State → State
  | 0, _, s => s
  | n + 1, k, s =>
    match s.freeIndex k, (List.range 512).find? s.beadFree with
    | some i, some b =>
      let id : Half := roleIdOf k i
      State.addRoles n k (s.createRole id b ((List.range 8).find? (s.ckptOk id b)))
    | _, _ => s

/-- ALLOC_CHANGED (R85): at a boundary of kind `k`'s engine, a waiting count takes effect; added roles that find no free bead yet wait
for a further boundary (assumption). Once no kind waits the event carries the counts of all kinds and the reserve. -/
def State.applyAlloc (s : State) (k : Nat) : State :=
  match alGet s.place.pendingAlloc k with
  | none => s
  | some n =>
    let before := s.reserve
    let have_ := s.kindCount k
    let live (s : State) : Nat := (s.place.live.filter (fun r => roleKind r.id == k)).length
    let s' : State := if n < have_ then s.retireN (have_ - n) k else s.addRoles (n - have_) k
    let got := if n < have_ then n else have_ + (live s' - live s)
    let s : State := if got = n then { s' with place := { s'.place with pendingAlloc := alDel s'.place.pendingAlloc k } } else s'
    let s : State := (s.changeCount k got).noteReserve before
    if s.place.pendingAlloc.isEmpty then s.raise 0x27 (s.place.counts.map u16 ++ [u16 s.reserve]) else s

/-! ### The bead scan and the start-up placement (R72, R83) -/

/-- The number of roles of a kind in a placement. -/
def placedCount (ps : List Placed) (k : Nat) : Nat := (ps.filter (fun p => roleKind p.role == k)).length

/-- The counts of kinds 1 to 8 that `w` working beads allow at start-up: the defaults, shed in the order of R86 as far as beads are
missing (R83); the wake-pinned kinds keep theirs. -/
def startCounts (w : Nat) : List Nat :=
  let d := defaultCounts.sum - w
  let opt := min d 80
  let la := min (d - opt) 96
  let reck := min (d - opt - la) 48
  let last := min (d - opt - la - reck) 16
  [96 - reck, 160 - la, 96 - opt - last] ++ defaultCounts.drop 3

/-- A start-up placement the rules allow: one role per bead, on working beads, roles numbered from 0 within their kind, the counts
of R83 and R86, checkpoints by R89 and R91. With fewer than 224 working beads the spec fixes no counts: none is above those
(assumption). -/
def State.placementOk (s : State) (ps : List Placed) : Bool :=
  let want := startCounts s.workingBeads
  ps.all (fun p => s.beadWorks p.bead && p.ckptDeck != deckOf p.bead && p.ckptDeck < 8
      && !s.fab.deckFail.contains p.ckptDeck && !s.fab.frameLost.contains (p.ckptDeck / 4)
      && p.role.toNat % 4096 < placedCount ps (roleKind p.role) && between 1 8 (roleKind p.role)
      && (!wakePinned (roleKind p.role) ||
          (s.ckptFrameOk p.bead p.ckptDeck && ps.any (fun q => wakePinned (roleKind q.role) && deckOf q.bead == p.ckptDeck))))
    && (ps.map (·.bead)).Nodup && (ps.map (fun p => p.role.toNat)).Nodup
    && (List.range 8).all (fun i =>
        if s.workingBeads < 224 then placedCount ps (i + 1) ≤ want.getD i 0 else placedCount ps (i + 1) = want.getD i 0)

/-- A deck that receives a role is awake when the role starts, with what was held at its boundary admitted (R57–R59). -/
def State.wakeNow (s : State) (d : Nat) : State := if s.deckAsleep d then (s.wakeDeck d).retentionExit d true 0 else s

/-- The roles take their beads, each with its checkpoint written; a kind below its default has its bounds told (R87). -/
def State.place0 (s : State) (ps : List Placed) : State :=
  let decks := (List.range 8).filter (fun d => ps.any (fun p => deckOf p.bead == d))
  let s : State := decks.foldl (fun s d => (s.wakeNow d).stir d) s
  let s : State := { s with place := { s.place with
    roles := ps.map (fun p => ⟨p.role, p.bead, 0, .running, some p.ckptDeck, none, 0, 0, [], [], false⟩),
    counts := (List.range 8).map (fun i => placedCount ps (i + 1)), shiftEn :=
      if s.fld rPlaceCtl 0 0 = 1 then .enabled else .disabled } }
  [1, 2, 3].foldl (fun s k => if s.kindCount k < defaultCounts.getD (k - 1) 0 then s.tellBounds k (s.kindCount k) else s) s

/-- FAB_SCAN (R77). -/
def scanWord (beads rods decks : Nat) : Word := word (2 ^ 31 + decks * 2 ^ 17 + rods * 2 ^ 10 + beads)

/-- The parts that the scan found failed, with the frames lost by it. -/
def State.scanned (s : State) (parts : List Part) (linkFailed : List Nat) : State :=
  let s : State := parts.foldl (fun s p => (s.voidHeld p).markFailed p) s
  let w := scanWord s.fab.beadFail.length s.fab.rodFail.length s.fab.deckFail.length
  let s : State := ({ s with fab := { s.fab with scan := w } }).raise 0x1E [u32 w.toNat]
  let gone := (List.range 2).filter (fun f =>
    linkFailed.contains f || (List.range 4).all (fun i => s.fab.deckFail.contains (f * 4 + i)))
  gone.foldl (fun s f => s.loseFrame f (if linkFailed.contains f then 1 else 3)) s

/-- SCAN_DONE (R72), start-up step 4: failed parts are marked, beads and rods of a failed rod or deck among them (assumption), a frame
with all decks or its link failed is lost, and the roles take their beads. A placement that R83 to R91 do not allow is none that
the tablet makes: the command then has no effect. -/
def State.scanDone (s : State) (parts : List Part) (linkFailed : List Nat) (ps : List Placed) : State :=
  if s.sup.step ≠ 4 || s.sup.holdUp then s
  else
    let t : State := s.scanned parts linkFailed
    if t.placementOk ps then
      let t : State := ((t.place0 ps).judgeUnfit).judgeFit
      { t with sup := { t.sup with step := 5 } }
    else s

def execScanDone (parts : List Part) (linkFailed : List Nat) (ps : List Placed) (s : State) :
    Host.Outcome State Fault Refusal :=
  .next (s.scanDone parts linkFailed ps)

def execShifterEvaluation (plans : List MovePlan) (s : State) : Host.Outcome State Fault Refusal :=
  .next (s.shifterEvaluation plans)

def execMoveCommit (role : Half) (s : State) : Host.Outcome State Fault Refusal := .next (s.moveCommit role)

def execSweepToken (role : Half) (router : Nat) (s : State) : Host.Outcome State Fault Refusal :=
  .next (s.sweepToken role router)

def execFenceClose (role : Half) (s : State) : Host.Outcome State Fault Refusal := .next (s.fenceClose role)

def execPlaceAlloc (ref : OrderRef) (c1 c2 c3 : Nat) (s : State) : Host.Outcome State Fault Refusal :=
  .next (s.runOrder ref 0x0201 (fun s => s.placeAlloc ref c1 c2 c3))

def execPlaceShift (ref : OrderRef) (bits4 : Nat) (s : State) : Host.Outcome State Fault Refusal :=
  .next (s.runOrder ref 0x0202 (fun s => s.placeShift ref bits4))

end Sys2Proof.Machine
end

