-- ==== Sys2Proof/Machine/HostRings.lean ====
section
/-! DEFINITION. The commands of the host rings: doorbells, fetching, enables, link loss, interrupts (spec/15_host_rings.md,
R521–R551), and the report timers of R704. -/

namespace Sys2Proof.Machine

open Sys2Proof

/-! ### Ring errors and doorbells (R532, R548) -/

/-- Ring `r`'s error bit, and the cause in HOSTQ_LAST_ERR (R548). -/
def State.ringErr (s : State) (r code : Nat) : State :=
  { s with host := { s.host with
    rerr0 := if r < 32 then setBit s.host.rerr0 r else s.host.rerr0
    rerr1 := if r < 32 then s.host.rerr1 else setBit s.host.rerr1 (r - 32)
    lastErr := word (r * 256 + code) } }

/-- A bit of HOSTQ_ERR (R546): 0 BAD_ACCESS, 1 HOST_MEMORY, 2 SHADOW_FAIL, 3 CFG_WHILE_ON. -/
def State.hostErr (s : State) (b : Nat) : State := { s with host := { s.host with err := setBit s.host.err b } }

/-- A discarded doorbell: the ring keeps its index and its enable (R532). -/
def State.badDoorbell (s : State) (r : Nat) : State := (s.ringErr r 5).raiseTimed 0xD3 r [u16 r]

/-- One DROPPED report at the next slot that falls free (R545). -/
def State.flushDrops (s : State) (k : Nat) : State :=
  let g := s.rptRing k
  if g.drops ≠ 0 && g.en = .enabled && 1 ≤ s.freeCount k then
    let s : State := s.setRpt k (fun g => { g with drops := 0 })
    s.putReport k ⟨0x0002, 0, 0, 0, 0xFF, false, false, 0, 0, [u32 g.drops.toNat, u32 g.dropStamp.toNat]⟩
  else s

def State.ringEnOf (s : State) (r : Nat) : Enable := if r < 32 then (s.ordRing r).en else (s.rptRing (r - 32)).en

/-- Whether an index keeps R527: not backward, and not past the other side. -/
def State.doorbellOk (s : State) (r : Nat) (idx : Word) : Bool :=
  if r < 32 then
    let o := s.ordRing r
    (o.tail - o.head).toNat ≤ (idx - o.head).toNat && (idx - o.head).toNat ≤ s.ringSize r
  else
    let g := s.rptRing (r - 32)
    (idx - g.head).toNat ≤ (g.tail - g.head).toNat

/-- DOORBELL (R532): an order ring's tail or a report ring's head moves, or the doorbell is discarded. -/
def State.doorbell (s : State) (r width : Nat) (v : DWord) : State :=
  if 64 ≤ r then s
  else
    let idx := word v.toNat
    if width ≠ 8 || v.toNat / 2 ^ 32 ≠ r || s.ringEnOf r ≠ .enabled || !s.doorbellOk r idx then s.badDoorbell r
    else if r < 32 then s.setOrd r (fun o => { o with tail := idx })
    else (s.setRpt (r - 32) (fun g => { g with head := idx })).flushDrops (r - 32)

def execDoorbell (ring width : Nat) (value : DWord) (s : State) : Host.Outcome State Fault Refusal :=
  .next (s.doorbell ring width value)

/-! ### Fetching (R529, R534–R537) -/

/-- The orders of R552 and of the chapters it names. -/
def catalogued (op : Nat) : Bool :=
  between 0x0101 0x0102 op || between 0x0110 0x0111 op || between 0x0201 0x0202 op || between 0x0301 0x0303 op
    || between 0x0401 0x0404 op || between 0x0501 0x0504 op || between 0x0601 0x0605 op || between 0x0701 0x0704 op
    || between 0x0801 0x0805 op || between 0x0901 0x0908 op || between 0x0A01 0x0A0B op || between 0x0B01 0x0B08 op
    || between 0x0C01 0x0C06 op || between 0x0D01 0x0D03 op || between 0x0E01 0x0E05 op || between 0x0F01 0x0F04 op
    || between 0x1001 0x1007 op || between 0x1101 0x1105 op

/-- The orders whose fields extend past parameter offset 0x2F (R529): OPT_CFG. -/
def needsLink (op : Nat) : Bool := op == 0x0601

/-- BAD_OPCODE or BAD_ENTRY of an entry (R529, R541), 0 for a good one. -/
def entryStatus (e : OrderEntry) : Nat :=
  if !catalogued e.opcode then 1
  else if e.reserved ≠ 0 || e.link != needsLink e.opcode then 2
  else 0

/-- HQ_BAD_ORDER for BAD_OPCODE, BAD_ENTRY and TAG_IN_USE. -/
def State.noteBadOrder (s : State) (r st : Nat) : State :=
  if st = 1 || st = 2 || st = 4 then s.raiseTimed 0xD7 (r * 16 + st) [u16 r, u16 st] else s

/-- The tag of an order is live: its GEN does not matter (R537). -/
def State.tagLive (s : State) (tag : Half) : Bool := s.host.live.any (fun l => l.tag == tag && !l.dead)

/-- The head moves past one slot, and the ring's shadow follows before any report (R533). -/
def State.consumeSlot (s : State) (r : Nat) : State :=
  let s : State := s.setOrd r (fun o => { o with head := o.head + 1 })
  s.writeShadow r (s.ordRing r).head

/-- An order that ends while its second slot is still to come leaves that slot behind (R529). -/
def State.leaveSecond (s : State) (r : Nat) (link : Bool) : State :=
  if link then s.setOrd r (fun o => { o with orphan := true }) else s

/-- A fetched order that ends at once (R529, R541, R549): its completion is reserved and written. -/
def State.endAtFetch (s : State) (r : Nat) (e : OrderEntry) (st : Nat) : State :=
  let k := s.ringRpt r
  let s : State := s.leaveSecond r e.link
  let s : State := s.putReport k ⟨0x8000 + e.opcode, e.tag, e.gen, st, r, false, st = 4, 0, e.user, []⟩
  (s.noteBadOrder r st).settleRing r

/-- The live order of a ring that waits for its second entry. -/
def State.secondDue (s : State) (r : Nat) : Option LiveOrder :=
  s.host.live.find? (fun l => l.ring == r && l.waitSecond && !l.dead)

/-- Orders outstanding: at most 512 (R535). -/
def State.outstanding (s : State) : Nat := s.host.live.length

def State.mapLive (s : State) (f : LiveOrder → LiveOrder) : State :=
  { s with host := { s.host with live := s.host.live.map f } }

/-- Whether ring `r` fetches its next slot now (R535, R549): a second entry needs no completion of its own. -/
def State.fetchable (s : State) (r : Nat) : Bool :=
  let o := s.ordRing r
  r < 32 && !s.fw.recovery && o.en != .disabled && o.head != o.tail &&
    (o.orphan || (s.secondDue r).isSome || (s.outstanding < 512 && 1 ≤ s.freeCount (s.ringRpt r)))

/-- ORDER_FETCH (R534, R535, R537): the entry at the ring's head has arrived. -/
def State.orderFetch (s : State) (r : Nat) (e : OrderEntry) : State :=
  if !s.fetchable r then s
  else
    let o := s.ordRing r
    let s' : State := s.consumeSlot r
    if o.orphan then (s'.setOrd r (fun o => { o with orphan := false })).settleRing r
    else match s.secondDue r with
    | some l =>
      (s'.mapLive (fun x => if x.is l.tag l.gen && !x.dead then { x with waitSecond := false } else x)).handOverAll
    | none =>
      if o.en = .quiescing then
        (s'.setOrd r (fun o => { o with retired := o.retired + 1 })).endAtFetch r e 5
      else if s.tagLive e.tag then s'.endAtFetch r e 4
      else
        let st := entryStatus e
        if st ≠ 0 then s'.endAtFetch r e st
        else
          let k := s.ringRpt r
          let s' : State := s'.setRpt k (fun g => { g with reserved := g.reserved + 1 })
          let l : LiveOrder := ⟨e.tag, e.gen, r, k, e.user, e.opcode, e.fence, e.link, false, false, false⟩
          ({ s' with host := { s'.host with live := s'.host.live ++ [l] } }).handOverAll

def execOrderFetch (ring : Nat) (entry : OrderEntry) (s : State) : Host.Outcome State Fault Refusal :=
  .next (s.orderFetch ring entry)

/-! ### Ring enables (R547–R550) -/

/-- The fields of a ring's CFG other than ENABLE and STATE, as stored (R547): reserved bits 0, COAL_N 0 stored as 1. -/
def cfgFields (r v : Nat) : Nat :=
  let n := bits v 23 16
  (if r < 32 then bits v 28 24 else 0) * 2 ^ 24 + (if n = 0 then 1 else n) * 2 ^ 16 + bits v 15 8 * 2 ^ 8 + bits v 4 0

/-- Store the fields while the ring is DISABLED; else a write that would change one is ignored and noted. -/
def State.writeRingFields (s : State) (r : Nat) (v : Word) : State :=
  let f := cfgFields r v.toNat
  if s.ringEnOf r = .disabled then s.setReg (rRingCfg r) (word f)
  else if f = cfgFields r (s.reg (rRingCfg r)).toNat then s else s.hostErr 3

/-- The refusal code of an enable, 0 for none (R548). -/
def State.enableRefusal (s : State) (r : Nat) : Nat :=
  if !between 4 16 (s.ringLog2 r) then 1
  else if s.ringBase r = 0 then 2
  else if r < 32 && (s.rptRing (s.ringRpt r)).en ≠ .enabled then 3
  else 0

def freshOrd : OrdRing := ⟨.enabled, 0, 0, 0, false⟩
def freshRpt (g : RptRing) : RptRing := { g with en := .enabled, head := 0, tail := 0, reserved := 0, unsignalled := 0 }

/-- HOST_RING_ENABLE: a write of ENABLE 1. -/
def State.ringEnable (s : State) (r : Nat) (v : Word) : State :=
  if 64 ≤ r then s
  else
    let was := s.ringEnOf r
    let s : State := s.writeRingFields r v
    if was ≠ .disabled then s
    else
      let c := s.enableRefusal r
      if c ≠ 0 then s.ringErr r c
      else
        let s : State := if r < 32 then s.setOrd r (fun _ => freshOrd) else s.setRpt (r - 32) freshRpt
        s.raise 0xD2 [u16 r, u16 1, u32 0]

/-- A report ring in use keeps its enable (R548). -/
def State.rptInUse (s : State) (k : Nat) : Bool :=
  (s.rptRing k).reserved != 0 || (List.range 32).any (fun r => (s.ordRing r).en == .enabled && s.ringRpt r == k)

/-- Orders of a ring that are fetched and not handed over retire with DISABLED (R549). -/
def State.retireWaiting (s : State) (r : Nat) : State :=
  let gone := s.host.live.filter (fun l => l.ring == r && !l.handed && !l.dead)
  gone.foldl (fun s l =>
    let s : State := s.leaveSecond r l.waitSecond
    let s : State := s.setOrd r (fun o => { o with retired := o.retired + 1 })
    s.finish l (0x8000 + l.opcode) 5 []) s

/-- HOST_RING_DISABLE: a write of ENABLE 0. -/
def State.ringDisable (s : State) (r : Nat) (v : Word) : State :=
  if 64 ≤ r then s
  else
    let was := s.ringEnOf r
    let s : State := s.writeRingFields r v
    if was ≠ .enabled then s
    else if r < 32 then
      let s : State := s.setOrd r (fun o => { o with en := .quiescing, retired := 0 })
      (s.retireWaiting r).settleRing r
    else if s.rptInUse (r - 32) then s.ringErr r 4
    else (s.setRpt (r - 32) (fun g => { g with en := .disabled, unsignalled := 0 })).raise 0xD2 [u16 r, u16 0, u32 0]

def execHostRingEnable (ring : Nat) (value : Word) (s : State) : Host.Outcome State Fault Refusal :=
  .next (s.ringEnable ring (value ||| 0x80000000#32))

def execHostRingDisable (ring : Nat) (value : Word) (s : State) : Host.Outcome State Fault Refusal :=
  .next (s.ringDisable ring (value &&& 0x7FFFFFFF#32))

/-! ### The link (R521, R551) -/

/-- Every ring becomes DISABLED without quiescing; orders not handed over retire without a report, the others' completions will be
discarded. -/
def State.dropRings (s : State) : State :=
  { s with host := { s.host with
    ord := s.host.ord.map (fun o => { o with en := .disabled, orphan := false })
    rpt := s.host.rpt.map (fun g => { g with en := .disabled, reserved := 0, unsignalled := 0 })
    live := (s.host.live.filter (·.handed)).map (fun l => { l with dead := true, waitSecond := false }) } }


def State.linkUp (s : State) (width speed : Nat) : State :=
  if s.host.linkUp then s
  else (({ s with host := { s.host with linkUp := true } } : State).alarm 0x02).raise 0xD0 [u16 1, u16 width, u16 speed]

/-- Crossings 0x00 to 0x02 carry PCIe traffic and link state; while the link is down they are stopped, and R67 applies (R521). -/
def State.linkDown (s : State) : State :=
  if !s.host.linkUp then s
  else
    let s : State := (({ s with host := { s.host with linkUp := false } } : State).alarm 0x02).dropRings
    let ran := [0x00, 0x01, 0x02].filter (fun x => !s.xingStopped x)
    let s : State := ran.foldl State.stopXing s
    (ran.foldl (fun s x => s.raise 0x19 [u16 x, u16 (xingDir x)]) s).raise 0xD0 [u16 0, u16 0, u16 0]

/-- PCIE_FLR (R551): the completions that will be discarded are those of live orders handed over. -/
def State.flr (s : State) : State :=
  let n := (s.host.live.filter (fun l => l.handed && !l.dead)).length
  let s : State := ({ s with host := { s.host with flrSeen := true } }).dropRings
  s.raise 0xD8 [u16 n]

def execPcieLinkUp (width speed : Nat) (s : State) : Host.Outcome State Fault Refusal := .next (s.linkUp width speed)
def execPcieLinkDown (s : State) : Host.Outcome State Fault Refusal := .next s.linkDown
def execPcieFlr (s : State) : Host.Outcome State Fault Refusal := .next s.flr

/-! ### Interrupts (R542, R543) -/

/-- COALESCE_TIMER (R543): COAL_T × 4 µs after the first unsignalled report. -/
def State.coalesce (s : State) (k : Nat) : State :=
  let g := s.rptRing k
  if k < 32 && g.unsignalled ≠ 0 && s.coalT k ≠ 0 && g.coalSince + s.coalT k * (4 * usNs) ≤ s.now then s.signal k else s

def execCoalesceTimer (report : Nat) (s : State) : Host.Outcome State Fault Refusal := .next (s.coalesce report)

/-- Vectors that are pending and unmasked fire. -/
def State.firePending (s : State) : State :=
  if s.host.funcMask then s
  else (List.range 32).foldl (fun s k =>
    if getBit s.host.vecPend k && !getBit s.host.vecMask k then
      ({ s with host := { s.host with vecPend := clrBit s.host.vecPend k } }).toHost (.msix k)
    else s) s

/-- MSIX_UNMASK (R542): a mask is cleared, and what was pending behind it fires. -/
def State.msixUnmask (s : State) (m : MsixMask) : State :=
  match m with
  | .function => ({ s with host := { s.host with funcMask := false } }).firePending
  | .vector k => ({ s with host := { s.host with vecMask := clrBit s.host.vecMask k } }).firePending

def execMsixUnmask (m : MsixMask) (s : State) : Host.Outcome State Fault Refusal := .next (s.msixUnmask m)

/-- BAR_BAD_ACCESS (R521): the access is discarded, or reads 0. -/
def execBarBadAccess (s : State) : Host.Outcome State Fault Refusal := .next (s.hostErr 0)

/-! ### HQ_NOP and HQ_ABORT (R538, R552) -/

def execHqNop (ref : OrderRef) (s : State) : Host.Outcome State Fault Refusal :=
  .next (s.runOrder ref 0x0101 (fun s => s.answer ref 0x0101 (orderDone stDone)))

/-- HQ_ABORT: an order still waiting ends ABORTED. -/
def State.hqAbort (s : State) (ref : OrderRef) (tag : Half) (gen : Byte) : State :=
  match s.host.live.find? (fun l => l.is tag gen && !l.dead) with
  | none => s.lateCompletion.answer ref 0x0102 (orderDone 9)
  | some l =>
    if l.handed then s.answer ref 0x0102 (orderDone 10)
    else
      let s : State := (s.leaveSecond l.ring l.waitSecond).finish l (0x8000 + l.opcode) 11 []
      s.answer ref 0x0102 (orderDone stDone)

def execHqAbort (ref : OrderRef) (tag : Half) (gen : Byte) (s : State) : Host.Outcome State Fault Refusal :=
  .next (s.runOrder ref 0x0102 (fun s => s.hqAbort ref tag gen))

/-! ### Host memory that does not answer (R541, R706) -/

/-- HQ_HOST_MEMORY, and its bit of HOSTQ_ERR. -/
def State.hostMemoryFail (s : State) (r opcode : Nat) (tag : Half) : State :=
  (s.hostErr 1).raise 0xD4 [u16 r, u16 opcode, u16 tag.toNat]

/-- The entry at a ring's head could not be read: the slot is consumed and its completion carries the ring index of the slot; a
second entry of a LINK order ends that order. -/
def State.entryUnread (s : State) (r : Nat) : State :=
  if !s.fetchable r then s
  else
    let o := s.ordRing r
    let s' : State := s.consumeSlot r
    if o.orphan then ((s'.setOrd r (fun o => { o with orphan := false })).hostMemoryFail r 0 0).settleRing r
    else match s.secondDue r with
    | some l => (s'.finish l (0x8000 + l.opcode) stHostMemory []).hostMemoryFail r l.opcode l.tag
    | none =>
      let rep : Report := ⟨0x8000, 0, 0, stHostMemory, r, false, false, 0, 0, [u32 o.head.toNat]⟩
      ((s'.putReport (s.ringRpt r) rep).hostMemoryFail r 0 0).settleRing r

/-- An access that an order names got no completion: the order ends HOST_MEMORY. -/
def State.orderMemoryFail (s : State) (tag : Half) (gen : Byte) : State :=
  match s.findLive tag gen with
  | some l =>
    if l.handed && !l.started && !l.dead then
      (s.hostMemoryFail l.ring l.opcode l.tag).finish l (0x8000 + l.opcode) stHostMemory []
    else s
  | none => s

/-- HOST_MEMORY_TIMEOUT. -/
def State.hostTimeout (s : State) (a : HostAccess) : State :=
  match a with
  | .entry r => s.entryUnread r
  | .order tag gen => s.orderMemoryFail tag gen
  | .shadow => s.hostErr 2

def execHostMemoryTimeout (a : HostAccess) (s : State) : Host.Outcome State Fault Refusal := .next (s.hostTimeout a)

/-! ### Report timers (R704) -/

/-- REPORT_TIMER_EXPIRY: one event with the held count and a new second, or the timer stops. -/
def State.timerExpiry (s : State) (src key : Nat) : State :=
  match s.host.timers.find? (fun t => t.is src key) with
  | none => s
  | some t =>
    if s.now < t.due then s
    else if t.held = 0 && t.held2 = 0 then
      { s with host := { s.host with timers := s.host.timers.filter (fun x => !x.is src key) } }
    else
      let again (x : ReportTimer) : ReportTimer :=
        if x.is src key then { x with held := 0, held2 := 0, due := s.now + secNs } else x
      let s : State := { s with host := { s.host with timers := s.host.timers.map again } }
      s.raise src (timedParams t.pre t.two t.held t.held2)

def execReportTimerExpiry (src key : Nat) (s : State) : Host.Outcome State Fault Refusal := .next (s.timerExpiry src key)

end Sys2Proof.Machine
end

