-- ==== Sys2Proof/Machine/RollCore.lean ====
section
/-! DEFINITION. The rollout sequencer: schedules, ends, and what stations report (spec/08_rollouts.md). -/

namespace Sys2Proof.Machine

open Sys2Proof

/-! ### Last commanded values (R248, R262, R296) -/

def destOf (dests : List RollDest) (u : RollUnit) : Option RollDest :=
  match u with
  | .zone _ => none
  | .plant p => dests.find? (fun d => d.kind == 0 && d.index == p)
  | .store k => dests.find? (fun d => d.kind == 1 && d.index == k)

/-- The receiver an encoded destination names (R274). -/
def recvOf (d : Nat) : Option Receiver :=
  if d / 2 ^ 14 = 1 then some (.loop (d % 512))
  else if d / 2 ^ 14 = 2 then some (.bus (d / 32 % 2) (d % 32))
  else none

/-- What a receiver holds before any command has been sent to it. -/
def State.heldValue (s : State) : Receiver → F32
  | .station id => ((s.ctxOf id).map (fun c => slotValue c 0)).getD 0
  | .loop n => s.loopSp n
  | .bus b o => s.busFloat b o

/-- What a receiver held before its first command, if one has been sent to it. -/
def State.baseOf (s : State) (r : Receiver) : Option F32 := (s.roll.bases.find? (fun p => p.1 == r)).map Prod.snd
/-- Note what a receiver holds before its first command. -/
def State.noteBase (s : State) (r : Receiver) (v : F32) : State :=
  if (s.baseOf r).isSome then s else { s with roll := { s.roll with bases := s.roll.bases ++ [(r, v)] } }

/-- The latest command sent to a receiver, neither withdrawn nor refused, of those `p` takes. -/
def State.latestCmd (s : State) (r : Receiver) (p : SentCmd → Bool) : Option F32 :=
  (s.roll.hist.reverse.find? (fun h => h.recv == r && h.alive && p h)).map (·.value)

/-- The latest command sent to a receiver and not withdrawn, else what it held before its first command. -/
def State.lastSent (s : State) (r : Receiver) : F32 :=
  ((s.latestCmd r (fun _ => true)).or (s.baseOf r)).getD (s.heldValue r)

/-- The last commanded value of a receiver (R248): an OFFLINE station's pending value, else the latest command sent and not
withdrawn, else what it held before its first command. -/
def State.lastOf (s : State) (r : Receiver) : F32 :=
  match r with
  | .station id => if s.stnUp id then s.lastSent r else s.heldValue r
  | _ => s.lastSent r

/-- The value last commanded for an item (R233). -/
def State.lastCommanded (s : State) (kind object : Nat) : Option F32 :=
  (s.roll.hist.reverse.find? (fun h => h.kind == kind && h.object == object && h.alive)).map (·.value)

/-! ### Building a schedule (R245, R248, R249) -/

/-- The DP_CTRL stations of a zone, ascending. -/
def zoneStations (img : List Byte) (z : Nat) : List Nat :=
  ((stationRecs img).filter (fun r => u8At r 9 == z && u16At r 0x0A % 2 == 1)).map (fun r => u16At r 0)

def loopRecv (n : Nat) : List Receiver := if n = 0xFFFF then [] else [.loop n]

/-- The receivers of an item that has one per item (R245). -/
def State.itemRecvs (s : State) (u : RollUnit) (i : RollItem) : List Receiver :=
  let img := s.model.run
  let ofDest (f : RollDest → Nat) : List Receiver := ((destOf s.roll.dests u).bind (fun d => recvOf (f d))).toList
  match i.kind with
  | 8 => ((pumpRec img i.object).map (fun r => loopRecv (u16At r 0x2C))).getD []
  | 9 => ((valveRec img i.object).map (fun r => loopRecv (u16At r 0x1C))).getD []
  | 0 | 3 => ofDest (·.out)
  | 2 => ofDest (·.temp)
  | 1 => ofDest (·.run)
  | 10 => ((zoneStations img i.object).filter s.stnUp).map .station
  | _ => []

/-- The record key of a pump or valve is its branch; items name the pump or valve number. -/
def State.rampOf (s : State) (u : RollUnit) : F32 :=
  match u with
  | .plant p => ((recByKey s.model.run 8 p).map (fun r => fieldAt r 0x14)).getD 0
  | _ => 0

/-- The step per stage of an item, none for items of one command (R248). -/
def State.stepOf (s : State) (x : Rollout) (i : RollItem) : Option F32 :=
  let stageS := fc x.stageMs 1000
  match i.kind with
  | 10 =>
    if x.slow then some (fMul (((recByKey s.model.run 10 x.zone).map (fun r => fieldAt r 4)).getD 0) stageS)
    else some x.cfg.dpStep
  | 8 => some x.cfg.pumpStep
  | 9 => some x.cfg.valveStep
  | 0 => some (fMul (s.rampOf x.unit) stageS)
  | _ => none

/-- ceil(|target − last| ÷ step). -/
def stagesFor (step target last : F32) : Nat := if fLt 0 step then fCeil (fDiv (fAbs (fSub target last)) step) else 1

/-- m of R248, from the value last commanded of each receiver. -/
def State.stagesOf (s : State) (x : Rollout) (last : Receiver → F32) : Nat :=
  let one (i : RollItem) : Nat := match s.stepOf x i with
    | some st => ((s.itemRecvs x.unit i).map (fun r => stagesFor st i.target (last r))).foldl max 1
    | none => 1
  (x.items.map one).foldl max 1

/-- The value of stage j of m. -/
def stageValue (last target : F32) (j m : Nat) : F32 :=
  if j = m then target else fAdd last (fDiv (fMul (fSub target last) (fc j 1)) (fc m 1))

/-- The stages (from 1) at which an item is commanded (R248). -/
def itemStages (i : RollItem) (m : Nat) : List Nat :=
  if i.kind = 2 || i.kind = 3 then [1]
  else if i.kind = 1 then (if fLe (fc 1 2) i.target then [1] else [m])
  else (List.range m).map (· + 1)

/-- The commands of one item. -/
def State.itemCmds (s : State) (x : Rollout) (last : Receiver → F32) (a1 m : Nat) (i : RollItem) : List RollCmd :=
  let recvs := (s.itemRecvs x.unit i).map (fun r => (r, last r))
  (itemStages i m).flatMap (fun j =>
    let a := a1 + (j - 1) * x.stageMs * msNs
    (recvs.zipIdx).map (fun p =>
      let v := if i.kind = 1 || i.kind = 2 || i.kind = 3 then i.target else stageValue p.1.2 i.target j m
      let at_ := if i.kind = 10 then a + p.2 * x.staggerMs * msNs else a
      ⟨i.kind, i.object, p.1.1, v, at_, 0, .new, false⟩))

/-- The schedule of m stages from A1 on, each item moving from the value last commanded (R248, R267). -/
def State.schedule (s : State) (x : Rollout) (last : RollItem → Receiver → F32) (a1 m : Nat) : Rollout :=
  let dp := x.items.filter (fun i => i.kind == 10)
  let all := dp.flatMap (fun i => zoneStations s.model.run i.object)
  let noDest := x.items.any (fun i => i.kind ≠ 10 && (s.itemRecvs x.unit i).isEmpty)
  let starts (i : RollItem) : Bool := i.kind == 1 && fLe (fc 1 2) i.target
  let stops (i : RollItem) : Bool := i.kind == 1 && !fLe (fc 1 2) i.target
  -- of equal apply-ats a start goes before the output's ramp, a stop after it
  let items := x.items.filter starts ++ x.items.filter (fun i => !starts i && !stops i) ++ x.items.filter stops
  { x with
    a1 := some a1, stages := m, cmds := items.flatMap (fun i => s.itemCmds x (last i) a1 m i), stations := all,
    lasts := x.items.map (fun i => ((s.itemRecvs x.unit i).head?.map (last i)).getD 0),
    offline := all.filter (fun i => !s.stnUp i), withheld := x.withheld || noDest }

def State.buildSchedule (s : State) (x : Rollout) (a1 : Nat) : Rollout :=
  s.schedule x (fun _ => s.lastOf) a1 (s.stagesOf x s.lastOf)

/-- The Δp target of a rollout for a station's zone. -/
def Rollout.dpTarget (x : Rollout) : F32 := ((x.items.find? (fun i => i.kind == 10)).map (·.target)).getD 0

/-- Build the schedule: the target becomes pending for each station that is OFFLINE now and was not at an earlier build (R248). -/
def State.build (s : State) (x : Rollout) (a1 : Nat) : State × Rollout :=
  let y := s.buildSchedule x a1
  let new := y.offline.filter (fun i => !x.offline.contains i)
  (new.foldl (fun s i => s.stnPend i 0 y.dpTarget) s, { y with pending := y.pending + new.length })

/-- The rollout starts a pump from s = 0 (R249). -/
def State.startsPump (s : State) (x : Rollout) : Bool :=
  x.items.any (fun i => i.kind == 8 && fLt 0 i.target && (s.itemRecvs x.unit i).any (fun r => fEq (s.lastOf r) 0))

/-- A1 of a submission at this instant. -/
def State.firstApply (s : State) (x : Rollout) : Nat :=
  let lead := if s.startsPump x then x.cfg.startLeadMs else x.cfg.leadPlanMs
  (s.tai + lead * msNs + (100 * msNs - 1)) / (100 * msNs) * (100 * msNs)

/-- The last scheduled apply-at. -/
def Rollout.lastApply (x : Rollout) : Nat := (x.cmds.map (·.applyAt)).foldl max (x.a1.getD 0)

/-- L of R250, in ns. -/
def State.vetLimit (s : State) : Nat :=
  120 * secNs - s.la.cfg.settleS * secNs - (2 * s.reck.cfg.cadenceMs * msNs + s.fullSolveUs * usNs)

/-! ### Rollouts in the list -/

def State.rollOf (s : State) (id : Nat) : Option Rollout := s.roll.rolls.find? (fun x => x.id == id)
def State.setRoll (s : State) (x : Rollout) : State :=
  { s with roll := { s.roll with rolls := s.roll.rolls.map (fun y => if y.id = x.id then x else y) } }
def State.unitRoll (s : State) (u : RollUnit) : Option Rollout := s.roll.rolls.find? (fun x => x.unit == u)

def unitKind : RollUnit → Nat
  | .zone _ => 0
  | .plant _ => 1
  | .store _ => 2
def unitObj : RollUnit → Nat
  | .zone n | .plant n | .store n => n
/-- A unit as an event parameter: its kind in the high byte. -/
def unitParam (u : RollUnit) : Nat := unitKind u * 256 + unitObj u

def rollCode : RollSt → Nat
  | .queued => 0
  | .vetting => 1
  | .released => 2
  | .done => 3
  | .superseded => 4
  | .held => 5
  | .retired => 6

/-- ROLL_REPORT (R276). -/
def State.rollBody (s : State) (x : Rollout) : List Fld :=
  let fl := b01 x.slow + 2 * b01 x.shifted + 4 * b01 x.reshaped + 8 * b01 x.supersedes + 16 * b01 x.twinContinued + 32 * b01 x.withheld
  [u16 x.id, u8 (unitKind x.unit), u8 (unitObj x.unit), u8 (rollCode x.st), u8 x.reason, u8 (min x.submits 255), u8 fl, u32 x.plan,
   u32 x.run, u32 (x.a1.getD 0), u32 (if x.a1.isSome then x.lastApply else 0), u16 x.stations.length, u16 (min x.sent 0xFFFF),
   u16 (min x.withdrawn 0xFFFF), u16 x.pending, u16 (min x.late 0xFFFF), u16 x.stages, u16 x.staggerMs, u16 x.successor,
   u32 ((s.now - x.handedAt) / msNs), u32 0]

/-- The ROLLOUT record of the mirror (R506). -/
def State.mirrorRoll (s : State) (x : Rollout) : State :=
  let item (p : RollItem × F32) : List Fld := [u8 p.1.kind, u8 0, u16 p.1.object, f32 p.2, f32 p.1.target, u32 0]
  s.mirror 0x07 (s.rollBody x ++ [u16 (x.cmds.filter (fun c => c.st != .new)).length, u16 s.roll.nextId, u16 x.items.length, u16 0]
    ++ ((x.items.zip x.lasts).map item).flatten)

def State.putRoll (s : State) (x : Rollout) : State := (s.setRoll x).mirrorRoll x

/-! ### Ends (R259–R261, R272) -/

/-- The sequencer reaches DISABLED once no rollout is released (R272). -/
def State.settleRoll (s : State) : State :=
  if s.roll.en = .quiescing && !s.roll.rolls.any (fun x => x.st == .released) then
    ({ s with roll := { s.roll with en := .disabled } }).raise 0x4F [u16 s.roll.retired]
  else s

/-- A rollout reaches an end state: it leaves the list, and reports where REPORT_END asks. -/
def State.endRoll (s : State) (x : Rollout) (st : RollSt) (reason : Nat) : State :=
  let x : Rollout := { x with st := st, reason := reason, submitted := false, pend := none }
  let s : State := { s with roll := { s.roll with rolls := s.roll.rolls.filter (fun y => y.id != x.id) } }
  let s : State := if st = .held then s.raise 0x49 [u16 x.id, u16 (unitParam x.unit), u16 reason, u32 x.run] else s
  let s : State := if x.cfg.flags / 2 % 2 = 1 then s.report 4 0x0006 (s.rollBody x) else s
  (s.mirrorRoll x).settleRoll

/-- A submission goes to look-ahead (R250, R254, R255). Answers whether it went. -/
def State.vet (s : State) (x : Rollout) : State :=
  if s.tai + s.vetLimit < x.lastApply then s.endRoll x .held 4
  else s.putRoll { x with st := .vetting, submits := x.submits + 1, submitted := true, pend := none }

/-- The rollout of a network that is with look-ahead. -/
def State.netBusy (s : State) (net : Nat) : Bool := s.roll.rolls.any (fun x => x.net == net && x.st == .vetting)

/-- Submit a rollout, or let it wait in QUEUED (R249, R255). -/
def State.submitRoll (s : State) (x : Rollout) : State :=
  if s.netBusy x.net then s.putRoll { x with st := .queued }
  else
    let r := s.build x (s.firstApply x)
    r.1.vet r.2

/-- The network is free: its next rollout in hand-over order goes out (R255). -/
def State.nextOfNet : Nat → State → Nat → State
  | 0, s, _ => s
  | n + 1, s, net =>
    if s.netBusy net then s
    else match s.roll.rolls.find? (fun x => x.net == net && x.st == .queued) with
      | some x => State.nextOfNet n (s.submitRoll x) net
      | none => s

def State.freeNet (s : State) (net : Nat) : State := State.nextOfNet s.roll.rolls.length s net

/-- The set-point slot of a station takes the latest value sent to it. -/
def State.slotBack (s : State) (id : Nat) : State :=
  let v := s.lastSent (.station id)
  (s.setCtx id (fun c => { c with outImg := putBytes c.outImg 48 (beBytes 4 v.toNat) })).mirrorCtx id

/-- The set-point slot of a station holds its last commanded value again, a command for it having been withdrawn or refused (R248,
R296, R305). -/
def State.stnRestore (s : State) (id : Nat) : State := if s.stnUp id then s.slotBack id else s

/-- A loop's timed set-point of a rollout is withdrawn (R261). -/
def State.loopSpCancel (s : State) (n rollout applyAt : Nat) : State :=
  match s.loopOf n with
  | some l =>
    let rest := l.queue.filter (fun q => !(q.rollout == rollout && q.applyAt == applyAt))
    { s with loops := { s.loops with loops := alPut s.loops.loops n { l with queue := rest } } }
  | none => s

/-- Stop a rollout (R261 steps 1 and 2): its submission is withdrawn; commands sent whose apply-at lies more than 20 ms after the
next whole millisecond are withdrawn, the unsent ones discarded. -/
def State.stopRoll (s : State) (x : Rollout) (st : RollSt) (reason successor : Nat) : State :=
  let t := s.tai / msNs * msNs + msNs
  let s : State := match x.pend with
    | some r => { s with la := { s.la with withdrawals := s.la.withdrawals ++ [r] } }
    | none => s
  let goes (c : RollCmd) : Bool := c.st == .sent && t + 20 * msNs < c.applyAt
  let gone := x.cmds.filter goes
  let cancel (s : State) (c : RollCmd) : State := match c.recv with
    | .station id => (s.stnCancel id c.seq).stnRestore id
    | .loop n => s.loopSpCancel n x.id c.applyAt
    | .bus _ _ => s
  let dead (h : SentCmd) : SentCmd :=
    if gone.any (fun c => c.recv == h.recv && c.seq == h.seq && c.applyAt == h.applyAt) && h.rollout = x.id then
      { h with alive := false, cancelled := true } else h
  let s : State := { s with roll := { s.roll with hist := s.roll.hist.map dead } }
  let s : State := gone.foldl cancel s
  let x : Rollout := { x with
    cmds := x.cmds.map (fun c => if goes c then { c with st := .withdrawn } else c),
    withdrawn := x.withdrawn + gone.length, successor := successor }
  let s : State := if st = .superseded then s.raise 0x48 [u16 x.id, u16 successor, u16 (unitParam x.unit), u32 x.withdrawn] else s
  (s.endRoll x st reason).freeNet x.net

/-! ### Permits (R216, R257, R264) -/

/-- Marker bit `n` from PERMIT_BASE × 8: 0 while the Tally is stopped, whatever PERMIT_EN is, else 1 with PERMIT_EN 0 (R216, R380). -/
def State.permitUnder (s : State) (c : OptCfg) (n : Nat) : Bool :=
  if s.tallyStopped then false
  else if !c.permitEn then true
  else s.pubMarker (c.permitBase * 8 + n)
def State.permit (s : State) (n : Nat) : Bool := s.permitUnder s.opt.cfg n

/-- The permit bit that stops a rollout, if one does; a plant's start also needs the plant's permit at release. -/
def State.permitDrop (s : State) (x : Rollout) (atRelease : Bool) : Option Nat :=
  let stop (n : Nat) : Option Nat := if s.permit n then none else some n
  match x.unit with
  | .zone z => (stop (16 + z)).or (stop (80 + x.net))
  | .plant p =>
    let starts := x.items.any (fun i => i.kind == 1 && fLe (fc 1 2) i.target)
    (stop (80 + x.net)).or (if atRelease && starts then stop p else none)
  | .store _ => stop (80 + x.net)

/-- ROLL_PERMIT_DROP for every released rollout whose permit is 0 (R264). -/
def State.checkPermits (s : State) : State :=
  (s.roll.rolls.filter (fun x => x.st == .released)).foldl (fun s x => match s.permitDrop x false with
    | some b => (s.raise 0x4E [u16 x.id, u16 (unitParam x.unit), u16 b]).stopRoll x .held 3 0
    | none => s) s

/-! ### Stations (R262, R267, R268, R296) -/

/-- The final target of a rollout becomes pending for a station (R248, R267). -/
def State.pendTarget (s : State) (x : Rollout) (id : Nat) : State :=
  (s.stnPend id 0 x.dpTarget).putRoll { x with pending := x.pending + 1 }

/-- A station goes OFFLINE, or into RETURNING by JOIN, or is disabled (R267, R316, R318). -/
def State.rollStationLost (s : State) (id : Nat) : State :=
  if !s.activeOrSolo then s
  else
    (s.roll.rolls.filter (fun x => x.st == .released && x.stations.contains id && !x.offline.contains id
        && !x.dropped.contains id)).foldl
      (fun s x => s.pendTarget { x with dropped := id :: x.dropped } id) s

/-- A station has taken its set-point block with a RESYNC: what the block held is what the station was last commanded (R248, R314;
assumption). -/
def State.noteResync (s : State) (id : Nat) : State :=
  let v := s.heldValue (.station id)
  if s.lastOf (.station id) = v then s
  else { s with roll := { s.roll with hist := s.roll.hist ++ [⟨.station id, 255, 0, v, 0, 0, s.tai, true, false, false⟩] } }

/-- A station's RESYNC has been accepted: it receives the remaining commands whose apply-at lies ahead (R268). -/
def State.rollStationBack (s : State) (id : Nat) : State :=
  let s : State := s.noteResync id
  let again (c : RollCmd) : RollCmd :=
    if c.recv = .station id && (c.st = .skipped || c.st = .disabled) && s.tai < c.applyAt then { c with st := .new } else c
  (s.roll.rolls.filter (fun x => x.st == .released && x.dropped.contains id)).foldl
    (fun s x => s.putRoll { x with dropped := x.dropped.filter (fun i => i != id), cmds := x.cmds.map again }) s

/-- A command counts as never sent (R296): `st` is what has become of it. -/
def State.neverSent (s : State) (id : Nat) (seq : Word) (st : CmdSt) : State :=
  let dead (h : SentCmd) : SentCmd := if h.recv == .station id && h.seq == seq then { h with alive := false } else h
  let isIt (c : RollCmd) : Bool := c.recv == .station id && c.seq == seq && c.st == .sent
  let mark (x : Rollout) : Rollout := { x with cmds := x.cmds.map (fun c => if isIt c then { c with st := st } else c) }
  { s with roll := { s.roll with hist := s.roll.hist.map dead, rolls := s.roll.rolls.map mark } }

/-- The new frames of a context that have not been handed over retire with status DISABLED and count as not sent (R318, R455): what their
images held is pending again. Waiting retries belong to transactions, which go on. -/
def State.retireFrames (s : State) (id : Nat) : State :=
  match s.ctxOf id with
  | none => s
  | some c =>
    let gone := c.order.filter (fun w => w.retry.isNone)
    let held := gone.any (fun w => w.frame.kind == 1 || w.frame.kind == 2)
    let s : State := s.setCtx id (fun c => { c with order := c.order.filter (fun w => w.retry.isSome), pending := c.pending || held })
    (gone.filter (fun w => w.frame.kind == 1)).foldl (fun s w => s.neverSent id w.seq .disabled) s

/-- How many such frames wait in all contexts. -/
def State.framesWaiting (s : State) : Nat := (s.stn.ctxs.map (fun c => (c.order.filter (fun w => w.retry.isNone)).length)).sum

/-- The station's slot holds a target that is pending: a rollout was built or went on without the station (R267). -/
def State.targetPends (s : State) (id : Nat) : Bool :=
  s.roll.rolls.any (fun x => x.offline.contains id || x.dropped.contains id)

/-- A station refuses a command (R296). Its slot holds the last commanded value again; while the context quiesces, unless a target is
pending there. -/
def State.rollRefused (s : State) (id : Nat) (seq : Word) : State :=
  let was := (s.roll.hist.find? (fun h => h.recv == .station id && h.seq == seq)).map (·.value)
  let quiet := ((s.ctxOf id).map (fun c => c.en == .quiescing && c.st.up)).getD false
  let s : State := s.neverSent id seq .refused
  if quiet then (if s.targetPends id || was ≠ some (s.heldValue (.station id)) then s else s.slotBack id) else s.stnRestore id

/-- Count a LATE command of a rollout; ROLL_LATE once per rollout (R252). -/
def State.rollLate (s : State) (rollout receiver lateUs : Nat) : State :=
  match s.rollOf rollout with
  | some x =>
    let s : State := if x.late = 0 then s.raise 0x4C [u16 rollout, u16 receiver, u32 (min lateUs 0xFFFFFFFF)] else s
    s.putRoll { x with late := x.late + 1 }
  | none => s

/-- A station reports a command as applied (R252, R262, R303). -/
def State.rollApplied (s : State) (id : Nat) (seq : Word) (late : Bool) (at_ : Nat) : State :=
  match s.roll.hist.find? (fun h => h.recv == .station id && h.seq == seq) with
  | none => s
  | some h =>
    let s : State := if late && !h.late then s.rollLate h.rollout id ((at_ - h.applyAt) / usNs) else s
    let h : SentCmd := { h with late := h.late || late }
    let mine (g : SentCmd) : Bool := g.recv == .station id && g.seq == seq
    if h.cancelled then
      let rest := s.roll.hist.filter (fun g => !mine g)
      let s : State := { s with roll := { s.roll with hist := rest ++ [{ h with alive := true, cancelled := false }] } }
      (s.raise 0x4D [u16 h.rollout, u16 id, u32 seq.toNat]).stnRestore id
    else { s with roll := { s.roll with hist := s.roll.hist.map (fun g => if mine g then h else g) } }

end Sys2Proof.Machine
end

