-- ==== Sys2Proof/Machine/Estim.lean ====
section
/-! DEFINITION. The estimation of a solve (spec/05_state_reckoning.md, R147, R154–R156), over the engines' working numbers. -/

namespace Sys2Proof.Machine

open Sys2Proof

/-! ### Unknowns and measurements -/

/-- An unknown of R154 with its prior and standard uncertainty: the demand of a station's branch, a pump's relative speed, a
valve's opening. -/
structure Unk where
  branch : Br
  prior : Num
  sigma : Num
  deriving DecidableEq, Repr, Inhabited

/-- An accepted measurement: its index, record, value and standard uncertainty (R147). -/
structure Meas where
  index : Nat
  rcd : List Byte
  z : Num
  sigma : Num
  deriving DecidableEq, Repr, Inhabited

/-- The measurements of a snapshot that a solve may use, with the weight of their quality (R147). -/
def usable (img : List Byte) (snap : List (Nat × Sample)) : List Meas :=
  (measRecs img).filterMap (fun r => match alGet snap (u16At r 0) with
    | some x => if x.excluded then none
      else
        let s := nField r 0x10
        some ⟨u16At r 0, r, nF x.value, if x.quality = .good then s else nMul (nc 3 1) s⟩
    | none => none)

/-- The value of a usable measurement of a kind on an object. -/
def measured (ms : List Meas) (kind object : Nat) : Option Num :=
  (ms.find? (fun m => u8At m.rcd 2 == kind && u16At m.rcd 4 == object)).map (·.z)

/-- What the estimation is given: the model, its branches, the state it starts from, the solve, its measurements, and whether the
stations' priors come from their forecast profiles. -/
structure EstIn where
  img : List Byte
  brs : List Br
  num : RecNum
  solve : Solve
  fresh : Bool
  meas : List Meas
  deriving DecidableEq, Repr, Inhabited

/-- The unknowns (R154). A pump with a measured speed, or a valve with a measured opening, is none. -/
def unknowns (e : EstIn) : List Unk :=
  e.brs.filterMap (fun b =>
    match b.type with
    | 7 =>
      let qd := nField b.rcd 0x10
      let forecast := nMul qd (nF ((alGet e.solve.inputs.profile b.id).getD (fc 1 2)))
      some ⟨b, if e.fresh then forecast else nAt forecast e.num.demand b.id, nMul (nF e.solve.cfg.pseudo) qd⟩
    | 4 =>
      if (measured e.meas 5 (u8At b.rcd 6)).isSome then none
      else some ⟨b, nF ((alGet e.solve.inputs.driven b.id).getD (fieldAt b.rcd 0x1C)), nc 2 100⟩
    | 5 =>
      if (measured e.meas 4 (u16At b.rcd 6)).isSome then none
      else some ⟨b, nF ((alGet e.solve.inputs.driven b.id).getD (fc 1 1)), nc 5 100⟩
    | _ => none)

/-! ### Temperatures of the previous tick -/

def RecNum.nodeTemp (n : RecNum) (img : List Byte) (k : Nat) : Num := nAt (designT img k) n.nodeT k

/-- The mean temperature of a branch: of its parcels by volume, of its ends where it has none (R149). -/
def RecNum.branchTemp (n : RecNum) (img : List Byte) (b : Br) : Num :=
  match alGet n.parcels b.id with
  | some (p :: ps) =>
    nDiv (nSum ((p :: ps).map (fun x => nMul x.1 x.2))) (nSum ((p :: ps).map Prod.fst))
  | _ => nMean [n.nodeTemp img b.fr, n.nodeTemp img b.to_]

/-- A store layer: the upper half at SUPPLY_T, the lower at RETURN_T, where no solve has reckoned it. -/
def RecNum.layerTemp (n : RecNum) (img : List Byte) (st : List Byte) (l : Nat) : Num :=
  let net := u8At st 1
  nAt (if 2 * l < u8At st 2 then supplyT img net else returnT img net) n.layers (u8At st 0 * 16 + l)

/-! ### The model at a point -/

/-- Speed or opening of a pump or valve: measured, or its unknown. -/
def settingOf (e : EstIn) (us : List (Unk × Num)) (b : Br) : Num :=
  let m := match b.type with
    | 4 => measured e.meas 5 (u8At b.rcd 6)
    | 5 => measured e.meas 4 (u16At b.rcd 6)
    | _ => none
  m.getD (((us.find? (fun x => x.1.branch.id == b.id)).map Prod.snd).getD nZero)

def envAt (e : EstIn) (us : List (Unk × Num)) (b : Br) : BrEnv :=
  let t := e.num.branchTemp e.img b
  let p := holdP e.img b.net
  let v := settingOf e us b
  ⟨waterRho p t, Config.waterNu p t, waterCp p t, rho0 e.img b.net, v, v⟩

/-- The nodal solution's inputs at a value of the unknowns. -/
def hydIn (e : EstIn) (us : List (Unk × Num)) : HydIn :=
  ⟨e.img, e.brs.map (fun b => (b, envAt e us b)), (us.filter (fun x => x.1.branch.type == 7)).map (fun x => (x.1.branch.id, x.2))⟩

/-- The temperature difference that gives a branch's thermal power its sign: a plant delivers, every other branch draws (R161). -/
def powerDiff (e : EstIn) (b : Br) : Num :=
  let d := nSub (e.num.nodeTemp e.img b.fr) (e.num.nodeTemp e.img b.to_)
  if b.type = 8 then nNeg d else d

def brById (e : EstIn) (k : Nat) : Option Br := e.brs.find? (fun b => b.id == k)

/-- ρ·cp of a branch times its temperature difference: its power per flow. -/
def powerPerFlow (e : EstIn) (k : Nat) : Num :=
  match brById e k with
  | some b =>
    let t := e.num.branchTemp e.img b
    let p := holdP e.img b.net
    nMul (nMul (waterRho p t) (waterCp p t)) (powerDiff e b)
  | none => nZero

/-- h_i(u) (R155): the model value of a measurement after a nodal solution. -/
def modelValue (e : EstIn) (us : List (Unk × Num)) (h : Hyd) (r : List Byte) : Num :=
  let o := u16At r 4
  match u8At r 2 with
  | 0 => nodeP e.img h o
  | 1 => nSub (nodeP e.img h o) (nodeP e.img h (u16At r 6))
  | 2 => e.num.nodeTemp e.img o
  | 3 => h.flow o
  | 4 => ((e.brs.find? (fun b => b.type == 5 && u16At b.rcd 6 == o)).map (settingOf e us)).getD nZero
  | 5 => ((e.brs.find? (fun b => b.type == 4 && u8At b.rcd 6 == o)).map (settingOf e us)).getD nZero
  | 6 => nMul (powerPerFlow e o) (h.flow o)
  | _ => match recByKey e.img 9 (o / 16) with
    | some st => e.num.layerTemp e.img st (o % 16)
    | none => nZero

/-! ### Sensitivities from the factorised nodal system -/

/-- How heads and flows move with one unknown: the heads, and what the unknown adds to its own branch's flow. -/
structure Sens where
  heads : List (Nat × Num)
  own : Nat
  direct : Num
  deriving DecidableEq, Repr, Inhabited

/-- ∂Δh ÷ ∂s of a pump and ∂Δh ÷ ∂x of a valve at a flow. -/
def dropSlope (b : Br) (v : BrEnv) (q : Num) : Num :=
  if b.type = 4 then
    nNeg (nSub (nMul (nDbl (nField b.rcd 8)) v.speed) (nMul (nField b.rcd 0xC) q))
  else
    let c := valveC b.rcd v.opening
    nNeg (nDiv (nMul (nDbl (nDiv (nMul v.rho (nSqS q)) (nMul (nMul v.rho0 gravity) (nSq c.1)))) c.2) c.1)

def unkSens (i : HydIn) (h : Hyd) (ns : List Nat) (f : Ldl) (k : Unk) : Sens :=
  let b := k.branch
  let solve (atTo : Num) : List (Nat × Num) :=
    ns.zip (ldlSolve f (ns.map (fun n => if n = b.to_ then atTo else if n = b.fr then nNeg atTo else nZero)))
  if b.type = 7 then
    if h.under.contains b.id then ⟨[], b.id, nZero⟩ else ⟨solve nOne, b.id, nOne⟩
  else if h.closed.contains b.id then ⟨[], b.id, nZero⟩
  else match i.brs.find? (fun x => x.1.id == b.id) with
    | some x =>
      let dy := nMul (pyOf i h x).1 (dropSlope b x.2 (h.flow b.id))
      ⟨solve (nNeg dy), b.id, nNeg dy⟩
    | none => ⟨[], b.id, nZero⟩

def Sens.head (s : Sens) (n : Nat) : Num := nAt nZero s.heads n
/-- The sensitivity of a branch's flow; `ls`: the branches with a head law and their p. -/
def Sens.flow (s : Sens) (ls : List (Br × Num × Num)) (b : Nat) : Num :=
  let via := match ls.find? (fun l => l.1.id == b) with
    | some l => nMul l.2.1 (nSub (s.head l.1.fr) (s.head l.1.to_))
    | none => nZero
  if s.own = b then nAdd s.direct via else via

/-- ∂h_i ÷ ∂u_k. Temperatures, and settings that are measured, do not move within a solve. -/
def measSlope (e : EstIn) (ls : List (Br × Num × Num)) (s : Sens) (r : List Byte) : Num :=
  let o := u16At r 4
  let press (n : Nat) : Num := nMul (nMul (rho0 e.img ((nodeNet e.img n).getD 0)) gravity) (s.head n)
  match u8At r 2 with
  | 0 => press o
  | 1 => nSub (press o) (press (u16At r 6))
  | 3 => s.flow ls o
  | 6 => nMul (powerPerFlow e o) (s.flow ls o)
  | _ => nZero

/-! ### Gauss–Newton (R155) -/

/-- J over the accepted measurements and the priors. -/
def costJ (e : EstIn) (us : List (Unk × Num)) (h : Hyd) : Num :=
  nAdd (nSum (e.meas.map (fun m => nSq (nDiv (nSub m.z (modelValue e us h m.rcd)) m.sigma))))
    (nSum (us.map (fun x => nSq (nDiv (nSub x.2 x.1.prior) x.1.sigma))))

/-- The slopes of every accepted measurement: one row each, one column for each unknown. -/
def slopeRows (e : EstIn) (us : List (Unk × Num)) (h : Hyd) : List (Meas × List Num) :=
  let i := hydIn e us
  let ns := freeNodes e.img
  let ls := lawful i h
  let f := ldlFactor (nodalMatrix ns ls)
  let ss := us.map (fun x => unkSens i h ns f x.1)
  e.meas.map (fun m => (m, ss.map (fun s => measSlope e ls s m.rcd)))

/-- The normal matrix of the weighted problem. -/
def normalMatrix (us : List (Unk × Num)) (rows : List (Meas × List Num)) : Mat :=
  (List.range us.length).map (fun a => (List.range us.length).map (fun b =>
    let s := nSum (rows.map (fun r => nDiv (nMul (r.2.getD a nZero) (r.2.getD b nZero)) (nSq r.1.sigma)))
    if a = b then nAdd s (nDiv nOne (nSq ((us.map (fun x => x.1.sigma)).getD a nOne))) else s))

/-- One Gauss–Newton step: the change of every unknown. -/
def gnStep (e : EstIn) (us : List (Unk × Num)) (h : Hyd) : List Num :=
  let rows := slopeRows e us h
  let rhs := us.zipIdx.map (fun x =>
    nAdd (nSum (rows.map (fun r =>
      nDiv (nMul (r.2.getD x.2 nZero) (nSub r.1.z (modelValue e us h r.1.rcd))) (nSq r.1.sigma))))
      (nDiv (nSub x.1.1.prior x.1.2) (nSq x.1.1.sigma)))
  ldlSolve (ldlFactor (normalMatrix us rows)) rhs

/-- Where the estimation stands: the unknowns, the nodal solution, J, the steps and nodal iterations used. -/
structure EstSt where
  us : List (Unk × Num)
  hyd : Hyd
  j : Num
  steps : Nat
  iters : Nat
  deriving DecidableEq, Repr, Inhabited

/-- At most `fuel` Gauss–Newton steps, each followed by a nodal solution within the budget of 60 (R153); none where the budget or
the steps run out. -/
def estimate (e : EstIn) : Nat → EstSt → EstSt × Bool
  | 0, s => (s, false)
  | fuel + 1, s =>
    let d := gnStep e s.us s.hyd
    let us := List.zipWith (fun x v => (x.1, nAdd x.2 v)) s.us d
    let r := nodalRun (hydIn e us) false (60 - s.iters) s.hyd
    let s' : EstSt := ⟨us, r.1, costJ e us r.1, s.steps + 1, s.iters + r.2.2⟩
    if !r.2.1 then (s', false)
    else
      let small := (List.zipWith (fun x v => nLe (nAbs v) (nMul (nc 1 100) x.1.sigma)) s.us d).all id
      if small && (s'.j == s.j || nLt (nAbs (nSub s'.j s.j)) (nMul (nc 1 1000) s.j)) then (s', true)
      else estimate e fuel s'

/-! ### The bad-data test (R156) -/

/-- rn(i) of every accepted measurement: |z − h| ÷ √ω, ω the residual covariance. -/
def residualsOf (e : EstIn) (s : EstSt) : ResidualPass :=
  let rows := slopeRows e s.us s.hyd
  let c := ldlInverse s.us.length (ldlFactor (normalMatrix s.us rows))
  rows.map (fun r =>
    let w := nSub (nSq r.1.sigma) (nDot r.2 (matVec c r.2))
    (r.1.index, nToF (nDiv (nAbs (nSub r.1.z (modelValue e s.us s.hyd r.1.rcd))) (Config.numSqrt w))))

/-- The measurement with the largest normalised residual. -/
def largestRn (l : ResidualPass) : Option (Nat × F32) :=
  l.foldl (fun a x => match a with
    | some b => if fLt b.2 x.2 then some x else a
    | none => some x) none

/-- The outcome of the estimation with its bad-data test: the passes, the measurements that stay accepted, and whether every
estimation converged. -/
structure EstEnd where
  inp : EstIn
  st : EstSt
  passes : List ResidualPass
  ok : Bool
  deriving DecidableEq, Repr, Inhabited

/-- The loop of R156; `fuel` counts the rejections left. J is taken anew over the measurements that are left (R155). -/
def badLoop (t : F32) : Nat → EstIn → EstSt → List ResidualPass → EstEnd
  | fuel, e, s, ps =>
    let rs := residualsOf e s
    let done : EstEnd := ⟨e, s, ps ++ [rs], true⟩
    match largestRn rs with
    | none => done
    | some m =>
      if fLe m.2 t then done
      else match fuel with
        | 0 => done
        | fuel + 1 =>
          let e' : EstIn := { e with meas := e.meas.filter (fun x => x.index != m.1) }
          let r := estimate e' 12 { s with j := costJ e' s.us s.hyd }
          if r.2 then badLoop t fuel e' r.1 (ps ++ [rs]) else ⟨e', r.1, ps ++ [rs], false⟩

end Sys2Proof.Machine
end

