-- ==== Sys2Proof/Machine/Thermal.lean ====
section
/-! DEFINITION. Thermal transport (spec/05_state_reckoning.md, R160–R162), over the engines' working numbers. -/

namespace Sys2Proof.Machine

open Sys2Proof

/-- A volume of water and its temperature. -/
abbrev Parcel := Num × Num

/-! ### Parcels (R160) -/

/-- Take a volume from the head of a queue: Σ volume × temperature of what is taken, and the rest. -/
def takeVol : Num → List Parcel → Num × List Parcel
  | _, [] => (nZero, [])
  | v, p :: ps =>
    if nLe p.1 v then
      let r := takeVol (nSub v p.1) ps
      (nAdd (nMul p.1 p.2) r.1, r.2)
    else (nMul v p.2, (nSub p.1 v, p.2) :: ps)

/-- Merged parcels keep their summed volume and their volume-weighted temperature. -/
def mergeTwo (a b : Parcel) : Parcel :=
  let v := nAdd a.1 b.1
  (v, nDiv (nAdd (nMul a.1 a.2) (nMul b.1 b.2)) v)

/-- Merge adjacent parcels that differ by less than `dt` kelvin. -/
def mergeClose (dt : Num) (l : List Parcel) : List Parcel :=
  (l.foldl (fun (acc : List Parcel) p => match acc with
    | a :: as => if nLt (nAbs (nSub a.2 p.2)) dt then mergeTwo a p :: as else p :: a :: as
    | [] => [p]) []).reverse

/-- Where the closest adjacent pair begins, with its difference. -/
def closestPair (l : List Parcel) : Option (Nat × Num) :=
  ((List.zipWith (fun a b => nAbs (nSub a.2 b.2)) l (l.drop 1)).zipIdx).foldl (fun a x => match a with
    | some b => if nLt x.1 b.2 then some (x.2, x.1) else a
    | none => some (x.2, x.1)) none

/-- While a pipe holds more than 64 parcels, the closest adjacent pair merges. -/
def capParcels : Nat → List Parcel → List Parcel
  | 0, l => l
  | fuel + 1, l =>
    if l.length ≤ 64 then l
    else match closestPair l with
      | some c => match l.drop c.1 with
        | a :: b :: rest => capParcels fuel (l.take c.1 ++ mergeTwo a b :: rest)
        | _ => l
      | none => l

/-! ### Branches that are not pipes (R161) -/

/-- Counter-flow effectiveness of an exchanger of transfer coefficient `ua` between two flow capacities. -/
def effectiveness (ua c1 c2 : Num) : Num :=
  let lo := nMin c1 c2
  let r := nDiv lo (nMax c1 c2)
  let ntu := nDiv ua lo
  if r = nOne then nDiv ntu (nAdd nOne ntu)
  else
    let x := Config.numExp (nNeg (nMul ntu (nSub nOne r)))
    nDiv (nSub nOne x) (nSub nOne (nMul r x))

/-! ### Stores (R162) -/

/-- Cut a column of water into `n` layers of volume `v` from its head. -/
def cutLayers (v : Num) : Nat → List Parcel → List Num
  | 0, _ => []
  | n + 1, col =>
    let r := takeVol v col
    nDiv r.1 v :: cutLayers v n r.2

/-- Step 1: charge shifts the contents down, discharge up. `ts`: layer temperatures from the top. -/
def shiftLayers (v vol tin : Num) (charge : Bool) (ts : List Num) : List Num :=
  let col := (if charge then ts else ts.reverse).map (fun t => (v, t))
  let out := cutLayers v ts.length ((vol, tin) :: col)
  if charge then out else out.reverse

/-- One sub-step of conduction and loss; `cap` is a layer's heat capacity at its temperature. -/
def layerSub (dt mixG lossEach amb : Num) (cap : Num → Num) (ts : List Num) : List Num :=
  ts.zipIdx.map (fun x =>
    let t := x.1
    let with_ (i : Nat) : Num := match ts[i]? with
      | some u => nMul mixG (nSub u t)
      | none => nZero
    let up := if x.2 = 0 then nZero else with_ (x.2 - 1)
    let w := nSub (nAdd up (with_ (x.2 + 1))) (nMul lossEach (nSub t amb))
    nAdd t (nDiv (nMul dt w) (cap t)))

def layerSubs (dt mixG lossEach amb : Num) (cap : Num → Num) : Nat → List Num → List Num
  | 0, ts => ts
  | n + 1, ts => layerSubs dt mixG lossEach amb cap n (layerSub dt mixG lossEach amb cap ts)

/-- Step 3: a body of layers that is warmer than the body above it mixes with it. -/
def mixPush : List (Nat × Num) → Nat × Num → List (Nat × Num)
  | [], x => [x]
  | y :: ys, x =>
    if nLt y.2 x.2 then
      mixPush ys (y.1 + x.1, nDiv (nAdd (nMul (nc y.1 1) y.2) (nMul (nc x.1 1) x.2)) (nc (y.1 + x.1) 1))
    else x :: y :: ys

def mixLayers (ts : List Num) : List Num :=
  ((ts.foldl (fun a t => mixPush a (1, t)) []).reverse).flatMap (fun b => List.replicate b.1 b.2)

/-- Step 4: the weighing of a measured layer. -/
def measuredLayer (t z sigma : Num) : Num :=
  let w := nDiv nOne (nSq sigma)
  nDiv (nAdd (nDiv t (nc 25 100)) (nMul z w)) (nAdd (nDiv nOne (nc 25 100)) w)

/-! ### The advance over a tick -/

/-- What the advance is given: the estimation's model and accepted measurements, the flows, Δt (ns), MERGE_DT. -/
structure ThIn where
  e : EstIn
  hyd : Hyd
  dtNs : Nat
  merge : Num
  deriving DecidableEq, Repr, Inhabited

/-- Where it stands: water handed to nodes as (node, volume, volume × temperature), the new parcels, delivered temperatures, layers
and station temperatures, the branches done, and those whose cycle has been broken. -/
structure Th where
  handed : List (Nat × Num × Num)
  parcels : List (Nat × List Parcel)
  outT : List (Nat × Num)
  layers : List (Nat × Num)
  stnT : List (Nat × Num)
  done : List Nat
  broken : List Nat
  deriving DecidableEq, Repr, Inhabited

def ThIn.dt (i : ThIn) : Num := nc i.dtNs 1000000000
def ThIn.up (i : ThIn) (b : Br) : Nat := if nLt (i.hyd.flow b.id) nZero then b.to_ else b.fr
def ThIn.down (i : ThIn) (b : Br) : Nat := if nLt (i.hyd.flow b.id) nZero then b.fr else b.to_
def ThIn.flows (i : ThIn) (b : Br) : Bool := nLt nZero (nAbs (i.hyd.flow b.id))
def ThIn.vol (i : ThIn) (b : Br) : Num := nMul (nAbs (i.hyd.flow b.id)) i.dt

/-- A node's temperature from the water handed to it; one that received none keeps its previous temperature. -/
def Th.nodeT (t : Th) (i : ThIn) (n : Nat) : Num :=
  let l := t.handed.filter (fun x => x.1 == n)
  let v := nSum (l.map (fun x => x.2.1))
  if nLt nZero v then nDiv (nSum (l.map (fun x => x.2.2))) v else i.e.num.nodeTemp i.e.img n

/-- ρ·cp of a branch's water. -/
def ThIn.rhoCp (i : ThIn) (b : Br) : Num :=
  let t := i.e.num.branchTemp i.e.img b
  let p := holdP i.e.img b.net
  nMul (waterRho p t) (waterCp p t)

def ThIn.prevOut (i : ThIn) (b : Br) : Num := nAt (i.e.num.nodeTemp i.e.img (i.down b)) i.e.num.outT b.id

/-- A pipe's parcels over the tick; the answer holds Σ volume × temperature of the water popped. -/
def pipeAdvance (i : ThIn) (b : Br) (tin : Num) : List Parcel × Num :=
  let r := b.rcd
  let area := boreArea (nField r 0xC)
  let old := (alGet i.e.num.parcels b.id).getD [(nMul area (nField r 8), designT i.e.img b.fr)]
  let back := nLt (i.hyd.flow b.id) nZero
  -- downstream end first
  let q := (if back then old else old.reverse) ++ [(i.vol b, tin)]
  let cut := takeVol (i.vol b) q
  let tg := nField (netRec i.e.img b.net) 8
  let k := Config.numExp (nNeg (nDiv (nMul (nField r 0x1C) i.dt) (nMul (i.rhoCp b) area)))
  let cooled := cut.2.map (fun p => (p.1, nAdd tg (nMul (nSub p.2 tg) k)))
  let kept := capParcels cooled.length (mergeClose i.merge cooled)
  (if back then kept else kept.reverse, cut.1)

/-- The layers of a store after the tick's four steps. -/
def storeAdvance (i : ThIn) (b : Br) (tin : Num) : List Num :=
  let r := b.rcd
  let n := u8At r 2
  let v := nDiv (nField r 0xC) (nc n 1)
  let ts := (List.range n).map (fun l => i.e.num.layerTemp i.e.img r l)
  let ts := shiftLayers v (i.vol b) tin (!nLt (i.hyd.flow b.id) nZero) ts
  let k := (i.dtNs + 9999999999) / 10000000000
  let p := holdP i.e.img b.net
  let cap (t : Num) : Num := nMul v (nMul (waterRho p t) (waterCp p t))
  let ts := layerSubs (nDiv i.dt (nc k 1)) (nField r 0x20) (nDiv (nField r 0x14) (nc n 1)) (nField r 0x24) cap k ts
  (mixLayers ts).zipIdx.map (fun x =>
    match i.e.meas.find? (fun m => u8At m.rcd 2 == 7 && u16At m.rcd 4 == u8At r 0 * 16 + x.2) with
    | some m => measuredLayer x.1 m.z m.sigma
    | none => x.1)

/-- What an exchanger's primary delivers. -/
def exchangerOut (i : ThIn) (b : Br) (tin : Num) : Num :=
  let r := b.rcd
  let aq := nAbs (i.hyd.flow b.id)
  let ua := nMul (nField r 8) (Config.numPow (nDiv aq (nField r 0xC)) (nField r 0x14))
  let c1 := nMul (i.rhoCp b) aq
  let sec := match brById i.e (u16At r 6) with
    | some x => (nMul (i.rhoCp x) (nAbs (i.hyd.flow x.id)), i.e.num.nodeTemp i.e.img (i.up x))
    | none => (Config.secCapacity b.id, nField r 0x18)
  if nLt nZero c1 && nLt nZero sec.1 then
    let q := nMul (nMul (effectiveness ua c1 sec.1) (nMin c1 sec.1)) (nSub tin sec.2)
    nSub tin (nDiv q c1)
  else tin

/-- What a station delivers. -/
def stationOut (i : ThIn) (b : Br) : Num :=
  match measured i.e.meas 2 b.to_ with
  | some z => z
  | none =>
    let goal := nField b.rcd 0x1C
    let old := nAt goal i.e.num.stnT b.id
    nAdd old (nMul (nSub goal old) (nSub nOne (Config.numExp (nNeg (nDiv i.dt (nc 600 1))))))

/-- What a plant delivers. -/
def plantOut (i : ThIn) (b : Br) : Num :=
  match measured i.e.meas 2 b.to_ with
  | some z => z
  | none =>
    let sp := ((alGet i.e.solve.inputs.plantT (u8At b.rcd 0)).map nF).getD (supplyT i.e.img b.net)
    nClamp (nField b.rcd 0x18) (nField b.rcd 0x1C) sp

/-- Advance one branch; a branch whose cycle was broken has handed its water already. -/
def advanceBranch (i : ThIn) (t : Th) (b : Br) : Th :=
  let tin := t.nodeT i (i.up b)
  let v := i.vol b
  let pipe := pipeAdvance i b tin
  let layers := storeAdvance i b tin
  let endLayer (up : Bool) : Num :=
    i.e.num.layerTemp i.e.img b.rcd (if up then 0 else u8At b.rcd 2 - 1)
  let tout := match b.type with
    | 3 => if nLt nZero v then nDiv pipe.2 v else i.prevOut b
    | 6 => exchangerOut i b tin
    | 7 => stationOut i b
    | 8 => plantOut i b
    | 9 => endLayer (nLt (i.hyd.flow b.id) nZero)
    | _ => tin
  let t : Th := { t with
    done := b.id :: t.done,
    outT := alPut t.outT b.id tout,
    handed := if t.broken.contains b.id then t.handed else t.handed ++ [(i.down b, v, nMul v tout)] }
  match b.type with
  | 3 => { t with parcels := alPut t.parcels b.id pipe.1 }
  | 7 => { t with stnT := alPut t.stnT b.id tout }
  | 9 => { t with layers := layers.zipIdx.foldl (fun a x => alPut a (u8At b.rcd 0 * 16 + x.2) x.1) t.layers }
  | _ => t

/-- The branches whose water a branch waits for. -/
def waitsFor (i : ThIn) (t : Th) (b : Br) : List Br :=
  i.e.brs.filter (fun x => i.flows x && i.down x == i.up b && !t.done.contains x.id && !t.broken.contains x.id)

/-- Follow what branches wait for, `n` steps back. -/
def walkBack (i : ThIn) (t : Th) : Nat → Br → List Br
  | 0, b => [b]
  | n + 1, b => match waitsFor i t b with
    | x :: _ => b :: walkBack i t n x
    | [] => [b]

/-- The branch of least flow of the directed cycle that a waiting branch leads back to. -/
def cycleBranch (i : ThIn) (t : Th) (b : Br) : Br :=
  let n := i.e.brs.length
  let far := (walkBack i t n b).getLastD b
  let cyc := walkBack i t n far
  cyc.foldl (fun a x => if nLt (nAbs (i.hyd.flow x.id)) (nAbs (i.hyd.flow a.id)) then x else a) far

/-- One step: a branch whose inflows are all there advances; where there is none, a cycle is broken at its branch of least flow, which
hands water at its outlet temperature of the previous tick. -/
def thermalStep (i : ThIn) (t : Th) : Th :=
  let waiting := i.e.brs.filter (fun b => !t.done.contains b.id)
  match waiting.find? (fun b => (waitsFor i t b).isEmpty) with
  | some b => advanceBranch i t b
  | none => match waiting with
    | b :: _ =>
      let c := cycleBranch i t b
      { t with broken := c.id :: t.broken,
               handed := t.handed ++ [(i.down c, i.vol c, nMul (i.vol c) (i.prevOut c))] }
    | [] => t

def thermalRun (i : ThIn) : Nat → Th → Th
  | 0, t => t
  | n + 1, t => thermalRun i n (thermalStep i t)

/-- The advance with a given MERGE_DT. -/
def thermalWith (i : ThIn) : Th := thermalRun i (2 * i.e.brs.length) ⟨[], [], [], [], [], [], []⟩

def parcelPool : Nat := 1048576
def Th.parcelCount (t : Th) : Nat := (t.parcels.map (fun p => p.2.length)).sum

/-- The advance; when the pool would be exhausted MERGE_DT is doubled for the tick, and the answer says so. -/
def thermal (i : ThIn) : Th × Bool :=
  let t := thermalWith i
  if t.parcelCount ≤ parcelPool then (t, false) else (thermalWith { i with merge := nDbl i.merge }, true)

end Sys2Proof.Machine
end

