-- ==== Sys2Proof/Machine/Solve.lean ====
section
/-! DEFINITION. What a solve computes and what it publishes (spec/05_state_reckoning.md, R153–R157, R169, R173). -/

namespace Sys2Proof.Machine

open Sys2Proof

/-! ### Forecast profiles (R221) -/

/-- The slot of a table or profile that a step beginning at `at_` takes, and whether the edge rule applies (R218). -/
def edgeSlot (start count at_ : Nat) : Nat × Bool :=
  if at_ < start then (0, true)
  else
    let k := (at_ - start) / 900
    if k < count then (k, false)
    else if count < 96 then (count - 1, true)
    else (k - (k - count) / 96 * 96 - 96, true)

/-- A profile's value at TAI seconds `at_`; a profile never defined reads 0.5. -/
def State.profileAt (s : State) (i at_ : Nat) : F32 :=
  match alGet s.opt.profiles i with
  | some p => f32At p (0x10 + 4 * (edgeSlot (leAt 8 p 8) (u16At p 2) at_).1)
  | none => fc 1 2

/-! ### What a solve takes at its tick -/

/-- The loops' last outputs, the profile values and the plants' set-points at a tick (TAI ns). -/
def State.solveInputs (s : State) (tick : Nat) : SolveIn :=
  let img := s.model.run
  -- R154 gives a prior for LOOP 0xFFFF; a LOOP that is not configured is taken alike (DESIGN CHOICE)
  let out (b loop : Nat) : Option (Nat × F32) :=
    if loop = 0xFFFF then none else (s.loopOf loop).map (fun l => (b, l.out))
  ⟨(pumps img).filterMap (fun r => out (u16At r 0) (u16At r 0x2C))
      ++ (valves img).filterMap (fun r => out (u16At r 0) (u16At r 0x1C)),
   (stationRecs img).map (fun r => (u16At r 2, s.profileAt (u16At r 0x24) (tick / secNs))),
   (plants img).filterMap (fun r => (s.lastCommanded 2 (u8At r 2)).map (fun v => (u8At r 0, v)))⟩

/-! ### Residuals (R157) -/

/-- The zone a measurement belongs to: that of the node, pump, valve or station it is on. -/
def measZone (img : List Byte) (r : List Byte) : Option Nat :=
  let o := u16At r 4
  let some_ (z : Nat) : Option Nat := if z = 0xFF then none else some z
  let ofBranch : Option Nat := ((branches img).find? (fun p => u16At p.2 (branchOff p.1) == o)).bind (fun p =>
    match p.1 with
    | 4 => some_ (u8At p.2 0x2E)
    | 5 => some_ (u8At p.2 0x0E)
    | 7 => some_ (u8At p.2 9)
    | _ => none)
  match u8At r 2 with
  | 0 | 1 | 2 => (recByKey img 2 o).bind (fun n => some_ (u8At n 0x14))
  | 3 | 6 => ofBranch
  | 4 => (valveRec img o).bind (fun v => some_ (u8At v 0x0E))
  | 5 => (pumpRec img o).bind (fun v => some_ (u8At v 0x2E))
  | _ => none

/-- The network of a measurement's object (R130). -/
def measNet (img : List Byte) (r : List Byte) : Option Nat :=
  let o := u16At r 4
  let ofBranch (b : Nat) : Option Nat :=
    ((branches img).find? (fun p => u16At p.2 (branchOff p.1) == b)).bind (fun p => nodeNet img (u16At p.2 (fromOff p.1)))
  match u8At r 2 with
  | 0 | 1 | 2 => nodeNet img o
  | 3 | 6 => ofBranch o
  | 4 => (valveRec img o).bind (fun v => nodeNet img (u16At v 2))
  | 5 => (pumpRec img o).bind (fun v => nodeNet img (u16At v 2))
  | _ => (recByKey img 9 (o / 16)).map (fun k => u8At k 1)

/-- ρ = √(Σ rn² ÷ n) over some residuals; none over no measurement. -/
def rhoOf (rn : List F32) : Option F32 :=
  if rn.isEmpty then none
  else some (nToF (Config.numSqrt (nDiv (nSum (rn.map (fun x => nSq (nF x)))) (nc rn.length 1))))

/-- The residuals of the last pass whose measurement a choice takes. -/
def passOf (img : List Byte) (p : ResidualPass) (f : List Byte → Bool) : List F32 :=
  (p.filter (fun x => ((recByKey img 11 x.1).map f).getD false)).map Prod.snd

/-! ### The published quantities (R169, R173) -/

/-- What the published values are computed from: the model with the new state, the unknowns, the nodal solution. -/
structure PubIn where
  e : EstIn
  us : List (Unk × Num)
  hyd : Hyd
  number : Nat
  deriving DecidableEq, Repr, Inhabited

def PubIn.est (p : PubIn) (index : Nat) (v : Num) (limit : Bool) : Estimate :=
  ⟨index, nToF v, Config.estSigma p.number index, limit⟩
def PubIn.rhoCp (p : PubIn) (b : Br) : Num :=
  let t := p.e.num.branchTemp p.e.img b
  nMul (waterRho (holdP p.e.img b.net) t) (waterCp (holdP p.e.img b.net) t)
def PubIn.nodeT (p : PubIn) (n : Nat) : Num := p.e.num.nodeTemp p.e.img n
def PubIn.press (p : PubIn) (n : Nat) : Num := nodeP p.e.img p.hyd n
def PubIn.ofType (p : PubIn) (t : Nat) : List Br := p.e.brs.filter (fun b => b.type == t)
/-- Σ of a quantity over some branches. -/
def brSum (l : List Br) (f : Br → Num) : Num := nSum (l.map f)

/-- A station's return temperature and thermal power ρ·cp·q·(T_supply − T_return). -/
def PubIn.stnT (p : PubIn) (b : Br) : Num := nAt (nField b.rcd 0x1C) p.e.num.stnT b.id
def PubIn.stnPower (p : PubIn) (b : Br) : Num :=
  nMul (nMul (p.rhoCp b) (p.hyd.flow b.id)) (nSub (p.nodeT b.fr) (p.stnT b))
/-- A plant's supply temperature and thermal output. -/
def PubIn.plantT (p : PubIn) (b : Br) : Num := nAt (p.nodeT b.to_) p.e.num.outT b.id
def PubIn.plantPower (p : PubIn) (b : Br) : Num :=
  nMul (nMul (p.rhoCp b) (p.hyd.flow b.id)) (nSub (p.plantT b) (p.nodeT b.fr))

/-- The least margin above P_MIN of some nodes; none over no node. -/
def PubIn.leastMargin (p : PubIn) (ns : List (List Byte)) : Option Num :=
  ns.foldl (fun a r =>
    let m := nSub (p.press (u16At r 0)) (nField r 8)
    some (match a with
      | some x => nMin x m
      | none => m)) none

def PubIn.nodeEsts (p : PubIn) (r : List Byte) : List Estimate :=
  let n := u16At r 0
  let v := p.press n
  let t := p.nodeT n
  let lim := nLt v (nField r 8) || nLt (nField r 0xC) v || nLt v (nAdd (waterPv t) (nField r 0x18))
  [p.est n v lim, p.est (0x2000 + n) t false]

def PubIn.stnEsts (p : PubIn) (b : Br) : List Estimate :=
  let i := 0x7000 + 4 * u16At b.rcd 0
  let u := p.hyd.under.contains b.id
  [p.est i (nSub (p.press b.fr) (p.press b.to_)) u, p.est (i + 1) (p.hyd.flow b.id) u, p.est (i + 2) (p.stnT b) u,
   p.est (i + 3) (p.stnPower b) u]

def PubIn.layerEsts (p : PubIn) (b : Br) : List Estimate :=
  let q := p.hyd.flow b.id
  let lim := nLt (nField b.rcd 0x18) q || nLt (nField b.rcd 0x1C) (nNeg q)
  (List.range (u8At b.rcd 2)).map (fun l => p.est (0x8800 + 16 * u8At b.rcd 0 + l) (p.e.num.layerTemp p.e.img b.rcd l) lim)

def PubIn.zoneEsts (p : PubIn) (z : List Byte) : List Estimate :=
  let k := u8At z 0
  let i := 0x8A00 + 4 * k
  let sts := (p.ofType 7).filter (fun b => u8At b.rcd 9 == k)
  let u := sts.any (fun b => p.hyd.under.contains b.id)
  let margin := p.leastMargin ((nodes p.e.img).filter (fun r => u8At r 0x14 == k))
  [p.est i (nSub (p.press (u16At z 0x18)) (p.press (u16At z 0x1A))) u, p.est (i + 2) (brSum sts p.stnPower) u]
    ++ (margin.map (fun m => p.est (i + 3) m (nLt m nZero))).toList

def PubIn.plantEsts (p : PubIn) (b : Br) : List Estimate :=
  let i := 0x8B00 + 4 * u8At b.rcd 0
  [p.est i (p.plantPower b) false, p.est (i + 1) (p.plantT b) false, p.est (i + 2) (p.hyd.flow b.id) false,
   p.est (i + 3) (p.nodeT b.fr) false]

/-- A pipe's heat loss to the ground. -/
def PubIn.pipeLoss (p : PubIn) (b : Br) : Num :=
  nMul (nMul (nField b.rcd 0x1C) (nField b.rcd 8)) (nSub (p.e.num.branchTemp p.e.img b) (nField (netRec p.e.img b.net) 8))

/-- A store's energy above RETURN_T. -/
def PubIn.storeEnergy (p : PubIn) (b : Br) : Num :=
  let n := u8At b.rcd 2
  let v := nDiv (nField b.rcd 0xC) (nc n 1)
  let pr := holdP p.e.img b.net
  nSum ((List.range n).map (fun l =>
    let t := p.e.num.layerTemp p.e.img b.rcd l
    nMul (nMul v (nMul (waterRho pr t) (waterCp pr t))) (nSub t (returnT p.e.img b.net))))

def PubIn.netEsts (p : PubIn) (pass : ResidualPass) (r : List Byte) : List Estimate :=
  let n := u8At r 0
  let i := 0x8B40 + 8 * n
  let mine (t : Nat) : List Br := (p.ofType t).filter (fun b => b.net == n)
  let margin := p.leastMargin ((nodes p.e.img).filter (fun x => u8At x 2 == n))
  let rho := rhoOf (passOf p.e.img pass (fun m => measNet p.e.img m == some n))
  [p.est i (brSum (mine 7) p.stnPower) false, p.est (i + 1) (brSum (mine 3) p.pipeLoss) false,
   p.est (i + 2) (brSum (mine 8) (fun b => p.hyd.flow b.id)) false, p.est (i + 3) (p.press (u16At r 2)) false,
   p.est (i + 6) (brSum (mine 9) p.storeEnergy) false]
    ++ (margin.map (fun m => p.est (i + 4) m (nLt m nZero))).toList
    ++ (rho.map (fun v => (⟨i + 5, v, 0, false⟩ : Estimate))).toList

/-- Every estimate of a solve. -/
def PubIn.all (p : PubIn) (pass : ResidualPass) : List Estimate :=
  let img := p.e.img
  (nodes img).flatMap p.nodeEsts
    ++ p.e.brs.map (fun b => p.est (0x4000 + b.id) (p.hyd.flow b.id) false)
    ++ (p.ofType 7).flatMap p.stnEsts
    ++ (measRecs img).map (fun r => p.est (0x8000 + u16At r 0) (modelValue p.e p.us p.hyd r) false)
    ++ (p.ofType 9).flatMap p.layerEsts
    ++ (zones img).flatMap p.zoneEsts
    ++ (p.ofType 8).flatMap p.plantEsts
    ++ (networks img).flatMap (p.netEsts pass)

/-! ### A whole solve -/

/-- A solve that has not converged. -/
def failedResult (i : HydIn) (h : Hyd) (iters steps : Nat) (restarted : Bool) (passes : List ResidualPass) : SolveResult :=
  { (default : SolveResult) with
    restarted := restarted, iters := iters, steps := steps, worstNode := worstNode i h, passes := passes }

/-- The Reckoner's numbers after a solve: the hydraulics, the demands, and what the thermal advance gives. -/
def numAfter (e : EstIn) (us : List (Unk × Num)) (h : Hyd) (i : ThIn) (t : Th) : RecNum :=
  ⟨h.heads, h.flows, h.closed, (us.filter (fun x => x.1.branch.type == 7)).map (fun x => (x.1.branch.id, x.2)),
   (nodes e.img).map (fun r => (u16At r 0, t.nodeT i (u16At r 0))), t.parcels, t.outT, t.layers, t.stnT,
   (e.brs.filter (fun b => b.type == 4 || b.type == 5)).map (fun b => (b.id, settingOf e us b))⟩

/-- The numbers of a converged estimation, with the thermal advance. -/
def convergedResult (en : EstEnd) (restarted : Bool) : SolveResult × RecNum :=
  let e := en.inp
  let r := e.solve
  let i : ThIn := ⟨e, en.st.hyd, if r.prevTick = 0 then 0 else r.tickTai - r.prevTick, nF r.cfg.mergeDt⟩
  let th := thermal i
  let num := numAfter e en.st.us en.st.hyd i th.1
  let p : PubIn := ⟨{ e with num := num }, en.st.us, en.st.hyd, r.number⟩
  let pass := en.passes.getLastD []
  let zs := (zones e.img).filterMap (fun z =>
    (rhoOf (passOf e.img pass (fun m => measZone e.img m == some (u8At z 0)))).map (fun v => (u8At z 0, v)))
  let n := e.meas.length
  (⟨true, restarted, en.st.iters, en.st.steps, en.passes, zs, p.all pass,
    if n = 0 then 0 else nToF (nDiv en.st.j (nc n 1)), th.2, worstNode (hydIn e en.st.us) en.st.hyd⟩, num)

/-- The numeric outcome of a solve on the state it starts from, and the Reckoner's numbers after it (R148–R162). -/
def solveOutcome (img : List Byte) (old : RecNum) (last : Option Nat) (r : Solve) : SolveResult × RecNum :=
  let num := if r.cold then default else old
  let e : EstIn := ⟨img, brsOf img, num, r, r.cold || last.isNone || last == some 2, usable img r.snapshot⟩
  let us := (unknowns e).map (fun u => (u, u.prior))
  let a := firstNodal (hydIn e us) ⟨num.heads, num.flows, num.closed, [], []⟩
  if !a.2.1 then (failedResult (hydIn e us) a.1 a.2.2.1 0 a.2.2.2 [], old)
  else
    let b := estimate e 12 ⟨us, a.1, costJ e us a.1, 0, a.2.2.1⟩
    if !b.2 then (failedResult (hydIn e b.1.us) b.1.hyd b.1.iters b.1.steps a.2.2.2 [], old)
    else
      let c := badLoop r.cfg.rejectT r.cfg.rejectMax e b.1 []
      if c.ok then convergedResult c a.2.2.2
      else (failedResult (hydIn c.inp c.st.us) c.st.hyd c.st.iters c.st.steps a.2.2.2 c.passes, old)

/-! ### A published state as a starting point (R170, R188, R227) -/

/-- The latest state set in working numbers: node pressures and temperatures and branch flows as published, and the Reckoner's own
parcels, layers and settings. -/
def State.pinnedNumbers (s : State) : RecNum :=
  let img := s.model.run
  let ns := (nodes img).map (fun r => (u16At r 0, u8At r 2))
  let head (n net : Nat) : Num :=
    nAdd (nDiv (nSub (nF (s.reckEntry n).value) (holdP img net)) (nMul (rho0 img net) gravity)) (elevOf img n)
  let drv := (s.solveInputs 0).driven
  let own (b : Br) : Num :=
    let loop := if b.type = 4 then nF ((alGet drv b.id).getD (fieldAt b.rcd 0x1C)) else nF ((alGet drv b.id).getD (fc 1 1))
    nAt loop s.reck.num.settings b.id
  let layer (r : List Byte) (l : Nat) : Option (Nat × Num) :=
    let k := u8At r 0 * 16 + l
    match s.latestSet.bind (fun x => alGet x.entries (0x8800 + k)) with
    | some e => some (k, nF e.value)
    | none => (alGet s.reck.num.layers k).map (fun t => (k, t))
  { s.reck.num with
    layers := (stores img).flatMap (fun r => (List.range (u8At r 2)).filterMap (layer r)),
    heads := ns.map (fun n => (n.1, head n.1 n.2)),
    flows := (branchIds img).map (fun b => (b, nF (s.reckEntry (0x4000 + b)).value)),
    nodeT := ns.map (fun n => (n.1, nF (s.reckEntry (0x2000 + n.1)).value)),
    settings := ((brsOf img).filter (fun b => b.type == 4 || b.type == 5)).map (fun b => (b.id, own b)) }

/-! ### A model swap (R142) -/

/-- Some records of two models with one key are the same. -/
def sameRec (old img : List Byte) (t k : Nat) : Bool :=
  match recByKey old t k, recByKey img t k with
  | some a, some b => a == b
  | _, _ => false
def sameBranch (old img : List Byte) (k : Nat) : Bool :=
  let f (m : List Byte) : Option (Nat × List Byte) := (branches m).find? (fun p => u16At p.2 (branchOff p.1) == k)
  match f old, f img with
  | some a, some b => a == b
  | _, _ => false

/-- Nodes, branches and store layers whose records are unchanged keep their last reckoned values. -/
def RecNum.carry (n : RecNum) (old img : List Byte) : RecNum :=
  let nd (l : List (Nat × Num)) : List (Nat × Num) := l.filter (fun x => sameRec old img 2 x.1)
  let br {α : Type} (l : List (Nat × α)) : List (Nat × α) := l.filter (fun x => sameBranch old img x.1)
  ⟨nd n.heads, br n.flows, n.closed.filter (sameBranch old img), br n.demand, nd n.nodeT, br n.parcels, br n.outT,
   n.layers.filter (fun x => sameRec old img 9 (x.1 / 16)), br n.stnT, br n.settings⟩

end Sys2Proof.Machine
end

