-- ==== Sys2Proof/Machine/Surge.lean ====
section
/-! DEFINITION. The simulation of a look-ahead run by the method of characteristics (spec/06_surge_lookahead.md, R180–R193), over
the engines' working numbers. -/

namespace Sys2Proof.Machine

open Sys2Proof

/-! ### What a run starts from (R188, R189) -/

/-- The branch that a command of an item moves. -/
def playBranch (img : List Byte) (kind object : Nat) (recv : Receiver) : Option Nat :=
  match kind with
  | 8 => (pumpRec img object).map (fun r => u16At r 0)
  | 9 => (valveRec img object).map (fun r => u16At r 0)
  | 10 => match recv with
    | .station id => (recByKey img 7 id).map (fun r => u16At r 2)
    | _ => none
  | _ => none

/-- The commands already issued whose apply-at lies after the tick, and those of the submission. -/
def State.laPlayed (s : State) (x : Rollout) (tick : Nat) : List PlayCmd :=
  let img := s.model.run
  let sent := (s.roll.hist.filter (fun h => h.alive && !h.cancelled && tick < h.applyAt)).filterMap (fun h =>
    (playBranch img h.kind h.object h.recv).map (fun b => (⟨b, h.value, h.applyAt - tick⟩ : PlayCmd)))
  let own := (x.cmds.filter (fun c => c.st == .new)).filterMap (fun c =>
    (playBranch img c.kind c.object c.recv).map (fun b => (⟨b, c.value, c.applyAt - tick⟩ : PlayCmd)))
  sent ++ own

/-- The last set-point commanded to each station before the tick. -/
def State.laSetPoints (s : State) (tick : Nat) : List (Nat × F32) :=
  (stationRecs s.model.run).map (fun r =>
    let c : Receiver := .station (u16At r 0)
    let last := (s.roll.hist.reverse.find? (fun h => h.recv == c && h.alive && h.applyAt ≤ tick)).map (·.value)
    (u16At r 2, last.getD ((s.baseOf c).getD (s.heldValue c))))

def State.laStart (s : State) (x : Rollout) (tick : Nat) : LaStart :=
  ⟨s.pinnedNumbers, s.laPlayed x tick, s.laSetPoints tick⟩

/-! ### The network of a run (R180, R183, R187) -/

structure SimNet where
  img : List Byte
  net : Nat
  cfg : LaCfg
  start : LaStart
  brs : List (Br × BrEnv)
  deriving DecidableEq, Repr, Inhabited

def simNet (img : List Byte) (net : Nat) (cfg : LaCfg) (start : LaStart) : SimNet :=
  let env (b : Br) : BrEnv :=
    let t := start.num.branchTemp img b
    let p := holdP img net
    let v := nAt nZero start.num.settings b.id
    ⟨waterRho p t, Config.waterNu p t, waterCp p t, rho0 img net, v, v⟩
  ⟨img, net, cfg, start, ((brsOf img).filter (fun b => b.net == net)).map (fun b => (b, env b))⟩

def SimNet.dt (c : SimNet) : Num := nc c.cfg.stepMs 1000
def SimNet.reaches (c : SimNet) (b : Br) : Nat := pipeReaches c.cfg.stepMs b.rcd
/-- A pipe that is divided into reaches; every other branch is a lumped element. -/
def SimNet.divided (c : SimNet) (b : Br) : Bool := b.type == 3 && 2 ≤ c.reaches b
def SimNet.pipes (c : SimNet) : List (Br × BrEnv) := c.brs.filter (fun x => c.divided x.1)
def SimNet.lumped (c : SimNet) : List (Br × BrEnv) := c.brs.filter (fun x => !c.divided x.1)
def SimNet.nodeRecs (c : SimNet) : List (List Byte) := (nodes c.img).filter (fun r => u8At r 2 == c.net)
def SimNet.nodeIds (c : SimNet) : List Nat := c.nodeRecs.map (fun r => u16At r 0)

/-- B = a′ ÷ (g·A) with a′ = LENGTH ÷ (n·Δt) (R180, R182). -/
def SimNet.bOf (c : SimNet) (b : Br) : Num :=
  let a := nDiv (nField b.rcd 8) (nMul (nc (c.reaches b) 1) c.dt)
  nDiv a (nMul gravity (boreArea (nField b.rcd 0xC)))

/-- R·Q·|Q| of one reach, and its share b of the buoyancy head. -/
def SimNet.reachDrop (c : SimNet) (x : Br × BrEnv) (q : Num) : Num :=
  nDiv (pipeDrop x.1.rcd x.2.nu q).1 (nc (c.reaches x.1) 1)
def SimNet.reachBuoy (c : SimNet) (x : Br × BrEnv) : Num := nDiv (buoyancy c.img x.1 x.2) (nc (c.reaches x.1) 1)

/-! ### The state of a simulation -/

/-- A reach end: head, and the flow on its upstream and its downstream side, which differ while a cavity stands there. -/
structure Pt where
  h : Num
  qu : Num
  qd : Num
  deriving DecidableEq, Repr, Inhabited

/-- A point: a node, or a reach end of a pipe. -/
abbrev PtKey := Nat × Option Nat

structure Sim where
  /-- Divided pipes' reach ends from FROM to TO, by branch. -/
  pts : List (Nat × List Pt)
  heads : List (Nat × Num)
  /-- Flows of lumped elements, by branch. -/
  flows : List (Nat × Num)
  /-- Speeds and openings, the flows of DP_CTRL stations, and the coefficients C of the other stations, by branch. -/
  settings : List (Nat × Num)
  stnQ : List (Nat × Num)
  stnC : List (Nat × Num)
  closed : List Nat
  /-- Vapour cavities and their volumes. -/
  cav : List (PtKey × Num)
  cavitation : Bool
  clamped : Bool
  /-- Clusters that took their last iterate. -/
  numeric : Nat
  diverged : Bool
  deriving DecidableEq, Repr, Inhabited

def Sim.head (s : Sim) (c : SimNet) (n : Nat) : Num :=
  if isHold (nodeRec c.img n) then elevOf c.img n else nAt (designHead c.img n) s.heads n
def Sim.cavity (s : Sim) (k : PtKey) : Option Num := (s.cav.find? (fun x => x.1 == k)).map Prod.snd

/-- The pressure difference across a branch. -/
def SimNet.dp (c : SimNet) (s : Sim) (b : Br) : Num :=
  let dh := nSub (s.head c b.fr) (s.head c b.to_)
  nMul (nMul (rho0 c.img c.net) gravity) (nSub dh (nSub (elevOf c.img b.fr) (elevOf c.img b.to_)))

/-- q₀ of a station: its reckoned demand (R154), which an under-supplied station does not receive (R149). -/
def LaStart.demandOf (l : LaStart) (b : Nat) : Num := nAt (nAt nZero l.num.flows b) l.num.demand b

/-- C₀ = q₀ ÷ √(Δp₀ ÷ ρ) of a station without DP_CTRL, capped at AV_S. -/
def SimNet.stationC0 (c : SimNet) (x : Br × BrEnv) : Num :=
  let q0 := c.start.demandOf x.1.id
  let s0 : Sim := { (default : Sim) with heads := c.start.num.heads }
  nMin (nField x.1.rcd 0x18) (nDiv q0 (Config.numSqrt (nDiv (c.dp s0 x.1) x.2.rho)))

/-- The grid at simulated time zero: steady heads along every reach from the reckoned flows (R188). A divided pipe whose check valve is
shut stands at rest at the head of its TO node. -/
def simInit (c : SimNet) : Sim :=
  let n := c.start.num
  let flow (b : Nat) : Num := nAt nZero n.flows b
  let shut (x : Br × BrEnv) : Bool := x.1.check && !nLt nZero (flow x.1.id)
  let head (m : Nat) : Num := nAt (designHead c.img m) n.heads m
  let line (x : Br × BrEnv) : Nat × List Pt :=
    let q := if shut x then nZero else flow x.1.id
    let drop := nAdd (c.reachDrop x q) (c.reachBuoy x)
    let k := c.reaches x.1
    (x.1.id, (List.range (k + 1)).map (fun i =>
      ⟨if shut x then nAdd (head x.1.to_) (nMul (nc (k - i) 1) drop) else nSub (head x.1.fr) (nMul (nc i 1) drop), q, q⟩))
  ⟨c.pipes.map line, n.heads, c.lumped.map (fun x => (x.1.id, flow x.1.id)), n.settings,
   (c.lumped.filter (fun x => x.1.type == 7)).map (fun x => (x.1.id, c.start.demandOf x.1.id)),
   (c.lumped.filter (fun x => x.1.type == 7)).map (fun x => (x.1.id, c.stationC0 x)),
   (c.brs.filter shut).map (fun x => x.1.id), [], false, false, 0, false⟩

/-! ### What moves the elements (R185, R186) -/

/-- The value commanded to a branch by the instant of step `k`, none before any. -/
def SimNet.commanded (c : SimNet) (k : Nat) (b : Nat) : Option F32 :=
  let t := k * (c.cfg.stepMs * msNs)
  ((c.start.played.filter (fun p => p.branch == b && p.at_ ≤ t)).foldl (fun (a : Option PlayCmd) p => match a with
    | some q => if q.at_ ≤ p.at_ then some p else a
    | none => some p) none).map (·.value)

/-- Move toward a target by at most `most`. -/
def moveToward (x goal most : Num) : Num :=
  let d := nSub goal x
  if nLe (nAbs d) most then goal else if nLt d nZero then nSub x most else nAdd x most

/-- An element that is still on its way to the value commanded by the instant of step `k`; a pump told to stop coasts. -/
def SimNet.lags (c : SimNet) (k : Nat) (s : Sim) (b : Br) : Bool :=
  match c.commanded k b.id with
  | some f => !(b.type == 4 && fIsZero f) && nAt nZero s.settings b.id != nF f
  | none => false

/-- A command comes in at step `k`. -/
def SimNet.commandAt (c : SimNet) (k : Nat) (b : Nat) : Bool :=
  let d := c.cfg.stepMs * msNs
  c.start.played.any (fun p => p.branch == b && (k - 1) * d < p.at_ && p.at_ ≤ k * d)

/-- The efficiency of a pump: ETA_BEP·(2r − r²) with r = Q ÷ (s·Q_BEP), clamped to 0.05–ETA_BEP. -/
def pumpEta (r : List Byte) (s q : Num) : Num :=
  let x := nDiv q (nMul s (nField r 0x20))
  nClamp (nc 5 100) (nField r 0x24) (nMul (nField r 0x24) (nSub (nDbl x) (nSq x)))

/-- A pump that is told to stop coasts down by its inertia. -/
def coastDown (dt : Num) (x : Br × BrEnv) (s q : Num) : Num :=
  let r := x.1.rcd
  let w := nMul s (nField r 0x14)
  if nLt nZero w then
    let h := nNeg (headDrop [] x.1 { x.2 with speed := s } q).1
    let load := nDiv (nMul (nMul (nMul x.2.rho gravity) q) h) (nMul (pumpEta r s q) w)
    nMax nZero (nDiv (nSub w (nDiv (nMul dt load) (nField r 0x28))) (nField r 0x14))
  else nZero

/-- The speed or opening at step `k`: it follows the command at DRIVE_RAMP or 1 ÷ STROKE. -/
def SimNet.control (c : SimNet) (k : Nat) (s : Sim) (x : Br × BrEnv) : Num :=
  let v := nAt nZero s.settings x.1.id
  match c.commanded k x.1.id with
  | none => v
  | some f =>
    if x.1.type = 4 then
      if fIsZero f then coastDown c.dt x v (nAt nZero s.flows x.1.id)
      else moveToward v (nF f) (nMul (nF c.cfg.driveRamp) c.dt)
    else moveToward v (nF f) (nDiv c.dt (nField x.1.rcd 0x14))

/-- The flow of a DP_CTRL station at step `k`: it follows its target with a first-order lag of STN_TAU. -/
def SimNet.stationQ (c : SimNet) (k : Nat) (s : Sim) (b : Br) : Num :=
  let q := nAt nZero s.stnQ b.id
  match c.commanded k b.id with
  | none => q
  | some f =>
    let q0 := c.start.demandOf b.id
    let sp0 := nF ((alGet c.start.dpSp b.id).getD 0)
    let goal := nMul q0 (Config.numSqrt (nDiv (nF f) sp0))
    nAdd q (nMul (nSub goal q) (nSub nOne (Config.numExp (nNeg (nDiv c.dt (nF c.cfg.stnTau))))))

/-- The coefficient of a station without DP_CTRL at step `k`: a commanded flow moves it, with a first-order lag of STN_TAU, toward the
coefficient that passes that flow at the present pressure difference; it never exceeds AV_S. -/
def SimNet.stationC (c : SimNet) (k : Nat) (s : Sim) (x : Br × BrEnv) : Num :=
  let v := nAt nZero s.stnC x.1.id
  match c.commanded k x.1.id with
  | none => v
  | some f =>
    let goal := nDiv (nF f) (Config.numSqrt (nDiv (c.dp s x.1) x.2.rho))
    nMin (nField x.1.rcd 0x18)
      (nAdd v (nMul (nSub goal v) (nSub nOne (Config.numExp (nNeg (nDiv c.dt (nF c.cfg.stnTau)))))))

def dpCtrl (b : Br) : Bool := b.type == 7 && u16At b.rcd 0xA % 2 == 1

/-- The law of a lumped element at a flow: head drop with buoyancy, and gradient. A rigid column adds its inertia. -/
def SimNet.lumpLaw (c : SimNet) (s : Sim) (x : Br × BrEnv) (q : Num) : Num × Num :=
  let v := nAt nZero s.settings x.1.id
  let e : BrEnv := { x.2 with speed := v, opening := v }
  match x.1.type with
  | 3 =>
    let d := dropOf c.img x.1 e q
    let m := nDiv (nField x.1.rcd 8) (nMul (nMul gravity (boreArea (nField x.1.rcd 0xC))) c.dt)
    (nAdd d.1 (nMul m (nSub q (nAt nZero s.flows x.1.id))), nAdd d.2 m)
  | 7 =>
    if dpCtrl x.1 then dropOf c.img x.1 e q
    else
      let k := nDiv e.rho (nMul (nMul e.rho0 gravity) (nSq (nAt nZero s.stnC x.1.id)))
      (nAdd (nMul k (nSqS q)) (buoyancy c.img x.1 e), nMul (nDbl k) (nAbs q))
  | _ => dropOf c.img x.1 e q

/-! ### Characteristics (R182) -/

/-- C_P at the reach ends 1 … n and C_M at 0 … n − 1 of a pipe. -/
def SimNet.chars (c : SimNet) (s : Sim) (x : Br × BrEnv) : List Num × List Num :=
  let l := (alGet s.pts x.1.id).getD []
  let b := c.bOf x.1
  let u := c.reachBuoy x
  let cp (a : Pt) : Num := nSub (nSub (nAdd a.h (nMul b a.qd)) (c.reachDrop x a.qd)) u
  let cm (a : Pt) : Num := nAdd (nAdd (nSub a.h (nMul b a.qu)) (c.reachDrop x a.qu)) u
  (l.dropLast.map cp, (l.drop 1).map cm)

/-- What a pipe end gives its node: 1 ÷ B, and C ÷ B. A closed check valve at the FROM end gives nothing. -/
structure PipeEnd where
  node : Nat
  g : Num
  c : Num
  deriving DecidableEq, Repr, Inhabited

def SimNet.pipeEnds (c : SimNet) (s : Sim) (closed : List Nat) : List PipeEnd :=
  c.pipes.flatMap (fun x =>
    let ch := c.chars s x
    let b := c.bOf x.1
    let to_ : PipeEnd := ⟨x.1.to_, nDiv nOne b, nDiv (ch.1.getLastD nZero) b⟩
    let fr : PipeEnd := ⟨x.1.fr, nDiv nOne b, nDiv (ch.2.headD nZero) b⟩
    if closed.contains x.1.id then [to_] else [fr, to_])

/-! ### Nodes and clusters (R184, R185) -/

/-- What the node solution of one step works on: the step's elements, pipe ends, closed check valves and nodes held at their vapour
head. -/
structure NodeIn where
  c : SimNet
  s : Sim
  ends : List PipeEnd
  closed : List Nat
  held : List (Nat × Num)
  deriving DecidableEq, Repr, Inhabited

def NodeIn.fixed (i : NodeIn) (n : Nat) : Option Num :=
  if isHold (nodeRec i.c.img n) then some (elevOf i.c.img n) else alGet i.held n
/-- The head of a node in an iterate. -/
def NodeIn.headIn (i : NodeIn) (heads : List (Nat × Num)) (n : Nat) : Num := (i.fixed n).getD (nAt (i.s.head i.c n) heads n)

/-- A DP_CTRL station carries its flow while the difference across it, at the heads of the iterate, is at least
DP_MIN·(q ÷ Q_D)². -/
def NodeIn.setFlow (i : NodeIn) (heads : List (Nat × Num)) (b : Br) : Bool :=
  let img := i.c.img
  let dh := nSub (i.headIn heads b.fr) (i.headIn heads b.to_)
  let dp := nMul (nMul (rho0 img i.c.net) gravity) (nSub dh (nSub (elevOf img b.fr) (elevOf img b.to_)))
  dpCtrl b && nLe (nMul (nField b.rcd 0x14) (nSq (nDiv (nAt nZero i.s.stnQ b.id) (nField b.rcd 0x10)))) dp

/-- What leaves a node outside its pipes and the laws of the elements `ls`. -/
def NodeIn.demand (i : NodeIn) (heads : List (Nat × Num)) (ls : List (Br × BrEnv)) (n : Nat) : Num :=
  nSum (nField (nodeRec i.c.img n) 0x10 :: ls.filterMap (fun x =>
    if !i.setFlow heads x.1 then none
    else
      let q := nAt nZero i.s.stnQ x.1.id
      if x.1.fr = n then some q else if x.1.to_ = n then some (nNeg q) else none))

/-- p and y of a lumped element at its flow of the iterate. -/
def NodeIn.py (i : NodeIn) (flows : List (Nat × Num)) (x : Br × BrEnv) : Num × Num :=
  let q := nAt nZero flows x.1.id
  if i.closed.contains x.1.id then (nc 1 100000000, q)
  else
    let d := i.c.lumpLaw i.s x q
    let p := nDiv nOne (nMax d.2 (nc 1 1000000))
    (p, nMul p d.1)

/-- One Newton iteration over the free nodes `ns` of a cluster whose elements are `ls`; each station follows the law that the iterate's
heads give it. -/
def NodeIn.newton (i : NodeIn) (ns : List Nat) (ls : List (Br × BrEnv)) (heads flows : List (Nat × Num)) :
    List (Nat × Num) × List (Nat × Num) :=
  let py := (ls.filter (fun x => !i.setFlow heads x.1)).map (fun x => (x.1, i.py flows x))
  let endsAt (n : Nat) : List PipeEnd := i.ends.filter (fun e => e.node == n)
  let m : Mat := ns.map (fun a => ns.map (fun b =>
    if a = b then
      nAdd (nSum ((endsAt a).map (·.g)))
        (nSum (py.filterMap (fun l => if l.1.fr = a || l.1.to_ = a then some l.2.1 else none)))
    else nSum (py.filterMap (fun l =>
      if (l.1.fr = a && l.1.to_ = b) || (l.1.fr = b && l.1.to_ = a) then some (nNeg l.2.1) else none))))
  let rhs := ns.map (fun a =>
    let viaLaw := nSum (py.filterMap (fun l =>
      let q := nSub (nAt nZero flows l.1.id) l.2.2
      let held (n : Nat) : Num := match i.fixed n with
        | some h => nMul l.2.1 h
        | none => nZero
      if l.1.to_ = a then some (nAdd q (held l.1.fr))
      else if l.1.fr = a then some (nAdd (nNeg q) (held l.1.to_)) else none))
    nSub (nAdd (nSum ((endsAt a).map (·.c))) viaLaw) (i.demand heads ls a))
  let hs := ns.zip (ldlSolve (ldlFactor m) rhs)
  let at_ (n : Nat) : Num := match i.fixed n with
    | some h => h
    | none => nAt (nAt nZero heads n) hs n
  let fs := py.map (fun l => (l.1.id,
    nAdd (nSub (nAt nZero flows l.1.id) l.2.2) (nMul l.2.1 (nSub (at_ l.1.fr) (at_ l.1.to_)))))
  let set_ := (ls.filter (fun x => i.setFlow heads x.1)).map (fun x => (x.1.id, nAt nZero i.s.stnQ x.1.id))
  (hs, fs ++ set_)

/-- At most 8 iterations, until no head changes by more than 10⁻⁴ m; the answer says whether that was reached. -/
def NodeIn.cluster (i : NodeIn) (ns : List Nat) (ls : List (Br × BrEnv)) :
    Nat → List (Nat × Num) → List (Nat × Num) → List (Nat × Num) × List (Nat × Num) × Bool
  | 0, heads, flows => (heads, flows, false)
  | fuel + 1, heads, flows =>
    let r := i.newton ns ls heads flows
    let ok := ns.all (fun n => nLe (nAbs (nSub (nAt nZero r.1 n) (nAt nZero heads n))) (nc 1 10000))
    if ok then (r.1, r.2, true) else i.cluster ns ls fuel r.1 r.2

/-- The nodes joined to some nodes by lumped elements. -/
def growCluster (ls : List (Br × BrEnv)) : Nat → List Nat → List Nat
  | 0, a => a
  | n + 1, a =>
    growCluster ls n (ls.foldl (fun a x =>
      if a.contains x.1.fr && !a.contains x.1.to_ then x.1.to_ :: a
      else if a.contains x.1.to_ && !a.contains x.1.fr then x.1.fr :: a else a) a)

/-- Every cluster of nodes; a node that joins only pipe ends is one of its own. -/
def clusters (ls : List (Br × BrEnv)) (ns : List Nat) : List (List Nat) :=
  ns.foldl (fun acc n => if acc.any (fun k => k.contains n) then acc else acc ++ [growCluster ls ns.length [n]]) []

/-- What the node solution of a step gives: the nodes' heads, the lumped elements' flows, and how many clusters took their last
iterate. -/
structure NodeOut where
  heads : List (Nat × Num)
  flows : List (Nat × Num)
  numeric : Nat
  deriving DecidableEq, Repr, Inhabited

/-- At a node that joins only pipe ends the head follows from continuity alone (R184); every other cluster is solved as a whole. -/
def NodeIn.solve (i : NodeIn) : NodeOut :=
  (clusters i.c.lumped i.c.nodeIds).foldl (fun a k =>
    let free := k.filter (fun n => (i.fixed n).isNone)
    let fix := k.filterMap (fun n => (i.fixed n).map (fun h => (n, h)))
    let ls := i.c.lumped.filter (fun x => k.contains x.1.fr)
    let r := if ls.isEmpty then
        let x := i.newton free [] i.s.heads i.s.flows
        (x.1, x.2, true)
      else i.cluster free ls 8 (free.map (fun n => (n, i.s.head i.c n))) i.s.flows
    ⟨a.heads ++ fix ++ r.1, a.flows ++ r.2.1, a.numeric + b01 (!r.2.2)⟩) ⟨[], [], 0⟩

/-! ### Cavities (R193) -/

/-- A node's temperature in the initial state, and its vapour head. -/
def SimNet.nodeT (c : SimNet) (n : Nat) : Num := c.start.num.nodeTemp c.img n
def SimNet.headOf (c : SimNet) (p elev : Num) : Num :=
  nAdd (nDiv (nSub p (holdP c.img c.net)) (nMul (rho0 c.img c.net) gravity)) elev
def SimNet.pressOf (c : SimNet) (h elev : Num) : Num :=
  nAdd (holdP c.img c.net) (nMul (nMul (rho0 c.img c.net) gravity) (nSub h elev))

/-- The parcel that holds the water at a volume from FROM. -/
def parcelAt (d : Num) : Num → List Parcel → Num
  | _, [] => d
  | v, p :: ps => if nLe v p.1 then p.2 else parcelAt d (nSub v p.1) ps

/-- The frozen temperature and the elevation of a reach end (R183, R191). -/
def SimNet.reachT (c : SimNet) (b : Br) (i : Nat) : Num :=
  let whole := nMul (boreArea (nField b.rcd 0xC)) (nField b.rcd 8)
  parcelAt (c.start.num.branchTemp c.img b) (nMul whole (nc i (c.reaches b))) ((alGet c.start.num.parcels b.id).getD [])
def SimNet.reachElev (c : SimNet) (b : Br) (i : Nat) : Num :=
  let a := elevOf c.img b.fr
  nAdd a (nMul (nSub (elevOf c.img b.to_) a) (nc i (c.reaches b)))

def SimNet.vapourHead (c : SimNet) (k : PtKey) (b : Br) : Num :=
  match k.2 with
  | none => c.headOf (waterPv (c.nodeT k.1)) (elevOf c.img k.1)
  | some i => c.headOf (waterPv (c.reachT b i)) (c.reachElev b i)

/-- A reach end inside a pipe after the step: free, or at its vapour head with a cavity whose volume follows the two flows. -/
def SimNet.interior (c : SimNet) (s : Sim) (x : Br × BrEnv) (i : Nat) (cp cm : Num) : Pt × Option Num :=
  let b := c.bOf x.1
  let h := nDiv (nAdd cp cm) (nc 2 1)
  let q := nDiv (nSub cp cm) (nDbl b)
  let hv := c.vapourHead (x.1.id, some i) x.1
  let old := s.cavity (x.1.id, some i)
  if old.isSome || nLt h hv then
    let qu := nDiv (nSub cp hv) b
    let qd := nDiv (nSub hv cm) b
    let v := nAdd (old.getD nZero) (nMul (nSub qd qu) c.dt)
    if nLt nZero v then (⟨hv, qu, qd⟩, some v) else (⟨h, q, q⟩, none)
  else (⟨h, q, q⟩, none)

/-! ### One step -/

/-- A check valve closes at the step in which its flow would reverse, and opens when the heads drive flow through it again. -/
def NodeIn.closedAfter (i : NodeIn) (heads flows : List (Nat × Num)) : List Nat :=
  let at_ (n : Nat) : Num := (i.fixed n).getD (nAt nZero heads n)
  (i.c.brs.filter (fun x => x.1.check &&
    (if i.c.divided x.1 then nLt (at_ x.1.fr) ((i.c.chars i.s x).2.headD nZero)
     else if i.closed.contains x.1.id then !nLt (i.c.lumpLaw i.s x nZero).1 (nSub (at_ x.1.fr) (at_ x.1.to_))
     else nLt (nAt nZero flows x.1.id) nZero))).map (fun x => x.1.id)

/-- Nodes whose computed pressure falls below the vapour pressure. -/
def NodeIn.boils (i : NodeIn) (heads : List (Nat × Num)) : List (Nat × Num) :=
  (i.c.nodeIds.filter (fun n => (i.fixed n).isNone)).filterMap (fun n =>
    let hv := i.c.vapourHead (n, none) default
    if nLt (nAt nZero heads n) hv then some (n, hv) else none)

/-- What leaves a node less what enters it. -/
def NodeIn.imbalance (i : NodeIn) (heads flows : List (Nat × Num)) (n : Nat) : Num :=
  let h := i.headIn heads n
  let pipes := nSum ((i.ends.filter (fun e => e.node == n)).map (fun e => nSub (nMul e.g h) e.c))
  let lumped := nSum (i.c.lumped.filterMap (fun x =>
    if x.1.fr = n then some (nAt nZero flows x.1.id)
    else if x.1.to_ = n then some (nNeg (nAt nZero flows x.1.id)) else none))
  nAdd (nAdd pipes lumped) (nField (nodeRec i.c.img n) 0x10)

/-- The node solution with other closed check valves and other nodes at their vapour head. -/
def NodeIn.with_ (i : NodeIn) (closed : List Nat) (held : List (Nat × Num)) : NodeIn :=
  { i with closed := closed, held := held, ends := i.c.pipeEnds i.s closed }

/-- The node solution is repeated while a check valve's flow would reverse in it or a node falls below its vapour head: the valve
closes, and a cavity opens at the node, in this step. -/
def NodeIn.settle : Nat → NodeIn → NodeIn × NodeOut
  | 0, i => (i, i.solve)
  | n + 1, i =>
    let o := i.solve
    let more := (i.closedAfter o.heads o.flows).filter (fun b => !i.closed.contains b)
    let low := i.boils o.heads
    if more.isEmpty && low.isEmpty then (i, o) else NodeIn.settle n (i.with_ (i.closed ++ more) (i.held ++ low))

/-- The node solution of a step: check valves open and close by its first solution, then it settles. -/
def NodeIn.step (i : NodeIn) : NodeIn × NodeOut :=
  let o := i.solve
  let closed := i.closedAfter o.heads o.flows
  let low := i.boils o.heads
  if closed = i.closed && low.isEmpty then (i, o)
  else NodeIn.settle (i.c.brs.length + i.c.nodeIds.length) (i.with_ closed (i.held ++ low))

/-- Step `k` of a run, from 1. -/
def simStep (c : SimNet) (k : Nat) (s : Sim) : Sim :=
  let moved := (c.brs.filter (fun x => x.1.type == 4 || x.1.type == 5))
  let s1 : Sim := { s with
    settings := moved.map (fun x => (x.1.id, c.control k s x)),
    stnQ := (c.lumped.filter (fun x => x.1.type == 7)).map (fun x => (x.1.id, c.stationQ k s x.1)),
    stnC := (c.lumped.filter (fun x => x.1.type == 7)).map (fun x => (x.1.id, c.stationC k s x)),
    clamped := s.clamped || moved.any (fun x => c.commandAt k x.1.id && c.lags (k - 1) s x.1) }
  let held := c.nodeIds.filterMap (fun n => (s.cavity (n, none)).map (fun _ => (n, c.vapourHead (n, none) default)))
  let r := NodeIn.step ⟨c, s1, c.pipeEnds s1 s.closed, s.closed, held⟩
  let j := r.1
  let o := r.2
  let lines := c.pipes.map (fun x =>
    let ch := c.chars s1 x
    let n := c.reaches x.1
    let b := c.bOf x.1
    let h (m : Nat) : Num := (j.fixed m).getD (nAt nZero o.heads m)
    let cm0 := ch.2.headD nZero
    let q0 := nDiv (nSub (h x.1.fr) cm0) b
    let first : Pt := if j.closed.contains x.1.id then ⟨cm0, nZero, nZero⟩ else ⟨h x.1.fr, q0, q0⟩
    let qn := nDiv (nSub (ch.1.getLastD nZero) (h x.1.to_)) b
    let mid := (List.range (n - 1)).map (fun m =>
      c.interior s1 x (m + 1) (ch.1.getD m nZero) (ch.2.getD (m + 1) nZero))
    (x.1.id, first :: mid.map Prod.fst ++ [⟨h x.1.to_, qn, qn⟩],
      mid.zipIdx.filterMap (fun m => m.1.2.map (fun v => (((x.1.id, some (m.2 + 1)) : PtKey), v)))))
  let nodeCav := j.held.filterMap (fun m =>
    let v := nAdd ((s.cavity (m.1, none)).getD nZero) (nMul (j.imbalance o.heads o.flows m.1) c.dt)
    if nLt nZero v then some (((m.1, none) : PtKey), v) else none)
  let cav := nodeCav ++ lines.flatMap (fun l => l.2.2)
  let fin := o.heads.all (fun x => Config.numFinite x.2) && o.flows.all (fun x => Config.numFinite x.2)
    && lines.all (fun l => l.2.1.all (fun p => Config.numFinite p.h && Config.numFinite p.qu && Config.numFinite p.qd))
  { s1 with
    pts := lines.map (fun l => (l.1, l.2.1)), heads := o.heads, flows := o.flows, closed := j.closed, cav := cav,
    cavitation := s.cavitation || !j.held.isEmpty || !cav.isEmpty,
    numeric := s.numeric + o.numeric, diverged := s.diverged || !fin }

/-- The states after steps 1 … n, in order, from the state after step `k`. -/
def simRun (c : SimNet) : Nat → Nat → Sim → List Sim
  | 0, _, _ => []
  | n + 1, k, s =>
    let t := simStep c (k + 1) s
    t :: simRun c n (k + 1) t

/-! ### The trace (R191) -/

/-- The traces of a network's points over `n` steps. -/
def simTrace (c : SimNet) (n : Nat) : RunTrace :=
  let s0 := simInit c
  let ss := simRun c n 0 s0
  let last := ss.getLastD s0
  let node (m : Nat) : PointTrace :=
    let p (s : Sim) : F32 := nToF (c.pressOf (s.head c m) (elevOf c.img m))
    ⟨m, none, nToF (waterPv (c.nodeT m)), p s0, ss.map p⟩
  let inner (b : Br) (i : Nat) : PointTrace :=
    let p (s : Sim) : F32 := nToF (c.pressOf (((alGet s.pts b.id).getD []).getD i default).h (c.reachElev b i))
    ⟨b.id, some i, nToF (waterPv (c.reachT b i)), p s0, ss.map p⟩
  ⟨c.nodeIds.map node ++ c.pipes.flatMap (fun x => (List.range (c.reaches x.1 - 1)).map (fun i => inner x.1 (i + 1))),
   last.cavitation, last.clamped || c.brs.any (fun x => (x.1.type == 4 || x.1.type == 5) && c.lags n last x.1), last.numeric,
   last.diverged⟩

/-- The trace of a run over its horizon, or over its first `stop` steps (R190). -/
def runTrace (img : List Byte) (r : LaRun) (stop : Option Nat) : RunTrace :=
  simTrace (simNet img r.network r.cfg r.start) (stop.getD (r.horizonMs / max r.cfg.stepMs 1))

end Sys2Proof.Machine
end

