-- ==== Sys2Proof/Machine/Look.lean ====
section
/-! DEFINITION. Surge look-ahead's commands (spec/06_surge_lookahead.md). -/

namespace Sys2Proof.Machine

open Sys2Proof

/-! ### The grid (R180, R191, R199, R207) -/

/-- WAVE ÷ a′ of a pipe: WAVE × n × Δt ÷ LENGTH. -/
def waveRatio (stepMs : Nat) (r : List Byte) : F32 :=
  fDiv (fMul (fieldAt r 0x18) (fc (pipeReaches stepMs r * stepMs) 1000)) (fieldAt r 8)

/-- The pipes of a network that are divided into reaches. -/
def dividedPipes (stepMs net : Nat) (img : List Byte) : List (List Byte) :=
  (pipes img).filter (fun r => nodeNet img (u16At r 2) == some net && 2 ≤ pipeReaches stepMs r)

/-- The largest ratio and its branch. -/
def largestRatio (stepMs : Nat) (rs : List (List Byte)) : Option (F32 × Nat) :=
  rs.foldl (fun (a : Option (F32 × Nat)) r =>
    let x := waveRatio stepMs r
    match a with
    | some b => if fLt b.1 x then some (x, u16At r 0) else a
    | none => some (x, u16At r 0)) none

/-- The bound of a run in µs: H ÷ S (R199). -/
def runBoundUs (beads stepMs reaches horizonMs : Nat) : Nat :=
  let n := max beads 1
  if reaches * 10 ≤ 131072 * stepMs then (4000 * horizonMs + n - 1) / n
  else (4000 * horizonMs * reaches * 10 + n * 131072 * stepMs - 1) / (n * 131072 * stepMs)

/-- S in units of 0.01, rounded down. -/
def speed100 (beads stepMs reaches : Nat) : Nat :=
  if reaches * 10 ≤ 131072 * stepMs then 25 * beads else 25 * beads * 131072 * stepMs / (reaches * 10)

/-! ### Verdicts (R195–R198, R201, R208) -/

def breachFlds (b : Breach) : List Fld :=
  [u16 b.object, u16 b.reach, u8 b.kind, u8 b.zone, u16 (min b.duration 0xFFFF), u32 b.first, f32 b.excess]

def noBreach : List Fld := [u32 0, u32 0, u32 0, u32 0]

/-- LA_VERDICT's body (R197). -/
def verdictBody (v : Verdict) : List Fld :=
  [u32 v.run, u16 v.rollout, u8 v.zone, u8 v.network, u8 v.verdict, u8 v.reason, u8 (min v.breaches 255), u8 v.flags, u32 v.solve,
   f32 v.resid, u16 v.horizon, u16 v.step, u32 v.duration, f32 v.leastMargin] ++ (v.worst.map breachFlds).getD noBreach

/-- The record of a breach as one parameter of an event. -/
def breachParam (b : Option Breach) : Fld :=
  recFld 16 ((layPacked ((b.map breachFlds).getD noBreach)).reverse.foldl (fun a x => a * 256 + x.toNat) 0)

/-- Look-ahead reaches DISABLED (R202). -/
def State.settleLook (s : State) : State :=
  if s.la.en = .quiescing && s.la.runs.isEmpty then
    ({ s with la := { s.la with en := .disabled } }).raise 0x3B [u16 s.la.retired, u16 (min s.la.refused 0xFFFF)]
  else s

/-- A verdict is produced: it is kept, handed to the sequencer, reported and raised. -/
def State.giveVerdict (s : State) (v : Verdict) (report : Bool) (trust : F32) : State :=
  let s : State := { s with la := { s.la with
    recent := (v :: s.la.recent).take 16, delivered := s.la.delivered ++ [v] } }
  let s : State := if report then s.report 2 0x0004 (verdictBody v) else s
  match v.verdict with
  | 0 => s
  | 1 => s.raise 0x36 [u32 v.run, u16 v.rollout, u16 v.zone, breachParam v.worst]
  | 2 => s.raise 0x37 [u32 v.run, u16 v.rollout, u16 v.zone, u16 v.reason, f32 v.resid, f32 trust, u32 v.breaches]
  | _ =>
    if v.reason = 0x17 then
      ({ s with la := { s.la with superseded := s.la.superseded + 1 } }).raiseReportOnly 0x38 [u32 v.run, u16 v.rollout, u16 v.reason]
    else s.raise 0x38 [u32 v.run, u16 v.rollout, u16 v.reason]

/-- VERDICT_REPORT of a configuration. -/
def laReports (c : LaCfg) : Bool := c.flags / 2 % 2 == 1

/-- A submission refused without a run. -/
def State.refuseSubmission (s : State) (w : LaWaiting) (reason : Nat) : State :=
  s.giveVerdict ⟨w.run, w.rollout, w.zone, w.network, 3, reason, 0, 8 * b01 w.queued, 0, 0, 0, s.la.cfg.stepMs * 10,
    min ((s.now - w.acceptedAt) / usNs) 0xFFFFFFFF, 0, none, []⟩ (laReports s.la.cfg) 0

/-- A run ends with a refused verdict. -/
def State.refuseRun (s : State) (r : LaRun) (reason : Nat) (flags : Nat) : State :=
  let s : State := ({ s with la := { s.la with runs := s.la.runs.filter (fun x => x.number != r.number) } }).unpin (0x100 + r.number)
  s.giveVerdict ⟨r.number, r.rollout, r.zone, r.network, 3, reason, 0, flags + 8 * b01 r.queued + 16 * b01 r.restarted, r.solve,
    r.resid.getD 0, (r.horizonMs + 9) / 10, r.cfg.stepMs * 10, min ((s.now - r.acceptedAt) / usNs) 0xFFFFFFFF, 0, none, []⟩
    (laReports r.cfg) 0

/-! ### Submissions (R188–R190, R197, R200, R202, R203) -/

/-- The zone's residual in the latest set, where its quality is GOOD or ESTIMATED (R157, R195). -/
def State.zoneResid (s : State) (z : Nat) : Option F32 :=
  let e := s.reckEntry (0x8A00 + 4 * z + 1)
  if qCode e.quality ≤ 1 then some e.value else none

/-- Some node pressure of a network reads INVALID (R188). -/
def State.pressureInvalid (s : State) (net : Nat) : Bool :=
  (nodes s.model.run).any (fun r => u8At r 2 == net && (s.reckEntry (u16At r 0)).quality == .invalid)

/-- A command of a submission names an element of the network (R197). -/
def State.cmdFits (s : State) (net : Nat) (c : RollCmd) : Bool :=
  let img := s.model.run
  let inNet (o : Option (List Byte)) (f : Nat) : Bool := (o.bind (fun r => nodeNet img (u16At r f))) == some net
  match c.kind with
  | 8 => inNet (pumpRec img c.object) 2
  | 9 => inNet (valveRec img c.object) 2
  | 10 => match c.recv with
    | .station id => inNet (recByKey img 7 id) 4
    | _ => false
  | _ => true

/-- H in ms: from the tick of the state (R190). -/
def horizonMs (c : LaCfg) (tick lastApply : Nat) : Nat :=
  max (c.horizonS * 1000) ((lastApply - tick + msNs - 1) / msNs + c.settleS * 1000)

/-- The reason to refuse a run at its start, 0 for none; the first in ascending order (R188, R190, R197). -/
def State.startRefusal (s : State) (x : Rollout) (h : Nat) : Nat :=
  if s.model.runSlot.isNone then 0x10
  else if s.stateStale then 0x11
  else if 0 < s.reck.failRun || s.pressureInvalid x.net then 0x12
  else if 120000 < h then 0x13
  else if zoneNet s.model.run x.zone ≠ some x.net || !x.cmds.all (s.cmdFits x.net) then 0x18
  else 0

/-- A submission that the sequencer has withdrawn, or whose rollout has ended, gets its SUPERSEDED verdict (R201). -/
def State.laWithdrawn (s : State) (w : LaWaiting) : State :=
  ({ s with la := { s.la with withdrawals := s.la.withdrawals.filter (fun n => n != w.run) } }).refuseSubmission w 0x17

/-- Submissions that wait while all four slots are taken wait for a slot (R200). -/
def State.markQueued (s : State) : State :=
  if 4 ≤ s.la.runs.length then
    { s with la := { s.la with queue := s.la.queue.map (fun w => { w with queued := true }) } }
  else s

/-- A run starts, or is refused (R85, R188). -/
def State.startRun (s : State) (w : LaWaiting) : State :=
  match s.rollOf w.rollout with
  | none => s.laWithdrawn w
  | some x =>
    if s.la.withdrawals.contains w.run then s.laWithdrawn w
    else
      let s : State := s.applyAlloc 2
      let tick := (s.latestSet.map (·.tickTai)).getD 0
      let h := horizonMs s.la.cfg tick x.lastApply
      let why := s.startRefusal x h
      let run : LaRun := ⟨w.run, w.rollout, w.zone, w.network, s.latestSolve, s.stateDegraded, s.zoneResid w.zone, w.acceptedAt,
        s.now, h, s.laStart x tick, s.la.cfg, s.la.cfg.flags % 2 == 1, w.queued, false, false⟩
      let s : State := { s with la := { s.la with runs := s.la.runs ++ [run] } }
      if why = 0 then (s.pinLatest (0x100 + w.run)).markQueued.checkpointKind 2 else s.refuseRun run why 0

/-- LA_SUBMIT (R188, R200, R202, R203): the submission of a rollout reaches look-ahead. -/
def State.laSubmit (s : State) (rollout : Nat) : State :=
  match s.rollOf rollout with
  | none => s
  | some x =>
    if !x.submitted then s
    else if !s.activeOrSolo then s.setRoll { x with submitted := false }
    else
      let n := s.la.count + 1
      let s : State := { s with la := { s.la with count := n } }
      let s : State := s.setRoll { x with submitted := false, pend := some n }
      let full := 4 ≤ s.la.runs.length
      let w : LaWaiting := ⟨n, rollout, x.zone, x.net, s.now, full⟩
      if s.la.en ≠ .enabled then
        ({ s with la := { s.la with refused := s.la.refused + 1 } }).refuseSubmission { w with queued := false } 0x16
      else if !full && s.la.rebuilding.isNone && s.la.queue.isEmpty then s.startRun w
      else if 8 ≤ s.la.queue.length then s.refuseSubmission { w with queued := false } 0x15
      else { s with la := { s.la with queue := s.la.queue ++ [w] } }

def execLaSubmit (rollout : Nat) (s : State) : Host.Outcome State Fault Refusal := .next (s.laSubmit rollout)

/-- LA_RUN_DEQUEUE (R200): a slot is free and no grid is being rebuilt. -/
def State.laDequeue (s : State) : State :=
  match s.la.queue with
  | w :: ws =>
    if s.la.runs.length < 4 && s.la.rebuilding.isNone && s.la.en = .enabled then
      ({ s with la := { s.la with queue := ws } }).startRun w
    else s
  | [] => s

def execLaRunDequeue (s : State) : Host.Outcome State Fault Refusal := .next s.laDequeue

/-! ### The check of the limits (R191, R192, R194) -/

/-- P_MIN, P_MAX, VAP_MARGIN, the zone and k of a checked point. -/
structure PointLimits where
  pMin : F32
  pMax : F32
  margin : F32
  zone : Nat
  k : F32
  deriving DecidableEq, Repr, Inhabited

/-- A node's limits; k is the largest ratio of the divided pipes that join it. -/
def nodeLimits (img : List Byte) (stepMs : Nat) (r : List Byte) : PointLimits :=
  let n := u16At r 0
  let joins := (pipes img).filter (fun p => (u16At p 2 == n || u16At p 4 == n) && 2 ≤ pipeReaches stepMs p)
  ⟨fieldAt r 8, fieldAt r 0xC, fieldAt r 0x18, u8At r 0x14, ((largestRatio stepMs joins).map Prod.fst).getD (fc 1 1)⟩

/-- The limits of an interior point of a pipe. -/
def pipeLimits (img : List Byte) (stepMs : Nat) (r : List Byte) : PointLimits :=
  let nd (o : Nat) : List Byte := (recByKey img 2 (u16At r o)).getD []
  let a := nd 2
  let b := nd 4
  let z := if u8At a 0x14 = u8At b 0x14 then u8At a 0x14 else 0xFF
  ⟨fMax (fieldAt a 8) (fieldAt b 8), fMin (fieldAt a 0xC) (fieldAt b 0xC), fMax (fieldAt a 0x18) (fieldAt b 0x18), z, waveRatio stepMs r⟩

def limitsOf (img : List Byte) (stepMs : Nat) (p : PointTrace) : PointLimits :=
  match p.reach with
  | none => nodeLimits img stepMs ((recByKey img 2 p.object).getD [])
  | some _ => pipeLimits img stepMs ((recByKey img 3 p.object).getD [])

/-- How far a pressure lies beyond each limit: OVER, UNDER, VAPOUR. -/
def excesses (l : PointLimits) (guard vapour pc : F32) : List F32 :=
  [fSub pc (fSub l.pMax guard), fSub (fAdd l.pMin guard) pc, fSub (fAdd (fAdd vapour l.margin) guard) pc]

/-- The largest of three excesses and its kind; of equal ones the lower code. -/
def worstExcess (es : List F32) : Nat × F32 :=
  (es.zipIdx).foldl (fun a p => if fLt a.2 p.1 then (p.2, p.1) else a) (0, es.headD 0)

/-- What a point's trace shows. -/
structure PointResult where
  entry : Option Breach
  /-- The largest excess over the run, negative where no limit was reached: minus the least margin. -/
  most : F32
  /-- A breach was found only through k > 1. -/
  scaled : Bool
  deriving DecidableEq, Repr, Inhabited

/-- Check one point over the run (R191, R192, R194). `steps` are its pressures after every step. -/
def checkPoint (img : List Byte) (cfg : LaCfg) (p : PointTrace) (steps : List F32) : PointResult :=
  let l := limitsOf img cfg.stepMs p
  let pc (x : F32) : F32 := fAdd p.p0 (fMul l.k (fSub x p.p0))
  let es := (steps.map (fun x => worstExcess (excesses l cfg.guardPa p.vapour (pc x)))).zipIdx
  let bad := es.filter (fun e => fLt 0 e.1.2)
  let most := (es.map (fun e => e.1.2)).foldl (fun (a : Option F32) x => match a with
    | some b => some (fMax b x)
    | none => some x) none
  let plain := steps.any (fun x => fLt 0 (worstExcess (excesses l cfg.guardPa p.vapour x)).2)
  match bad with
  | [] => ⟨none, most.getD (fInf true), false⟩
  | b :: bs =>
    let w := bs.foldl (fun a x => if fLt a.1.2 x.1.2 then x else a) b
    ⟨some ⟨p.object, p.reach.getD 0xFFFF, w.1.1, l.zone, bad.length * cfg.stepMs / 10, (b.2 + 1) * cfg.stepMs, w.1.2⟩,
      most.getD 0, !plain⟩

/-- The step (from 1) at which a run with STOP_FIRST ends: that of the first breach. -/
def firstBreach (img : List Byte) (cfg : LaCfg) (ps : List PointTrace) : Option Nat :=
  (ps.filterMap (fun p => (checkPoint img cfg p p.steps).entry.map (fun b => b.first / max cfg.stepMs 1))).foldl
    (fun (a : Option Nat) n => match a with
      | some m => some (min m n)
      | none => some n) none

/-- Insert by falling EXCESS. -/
def insBreach (b : Breach) : List Breach → List Breach
  | [] => [b]
  | x :: xs => if fLt x.excess b.excess then b :: x :: xs else x :: insBreach b xs

/-- The trace of a run that ends: the one the command names, or else what the laws of R180–R193 give. With STOP_FIRST the run ends at
the step of the first breach. -/
def runOutcome (img : List Byte) (r : LaRun) (given : Option RunTrace) : RunTrace :=
  match given with
  | some t => t
  | none =>
    let full := runTrace img r none
    if r.stopFirst then match firstBreach img r.cfg full.points with
      | some n => runTrace img r (some n)
      | none => full
    else full

/-- LA_VERDICT (R194–R198, R202): the run ends with its verdict. -/
def State.laVerdict (s : State) (number : Nat) (given : Option RunTrace) : State :=
  match s.la.runs.find? (fun r => r.number == number) with
  | none => s
  | some r =>
    if s.la.en ≠ .enabled then
      (({ s with la := { s.la with retired := s.la.retired + 1 } }).refuseRun r 0x16 0).settleLook
    else
      let img := s.model.run
      let t := runOutcome img r given
      let stop := if r.stopFirst then firstBreach img r.cfg t.points else none
      let cut (l : List F32) : List F32 := match stop with
        | some n => l.take n
        | none => l
      let rs := t.points.map (fun p => checkPoint img r.cfg p (cut p.steps))
      let bs := (rs.filterMap (·.entry)).foldr insBreach []
      let zone := (recByKey img 10 r.zone).getD []
      let trust := fieldAt zone 8
      let slow := if r.degraded then 3 else match r.resid with
        | none => 2
        | some v => if fLt trust v then 1 else 0
      let most := (rs.map (·.most)).foldl (fun a x => fMax a x) (fInf true)
      let fl := 2 * b01 t.cavitation + 4 * b01 stop.isSome + 32 * b01 (rs.any (·.scaled)) + 64 * b01 t.clamped + 128 * b01 (0 < t.numeric)
      if t.diverged then s.refuseRun r 0x19 fl
      else
        let v : Verdict := ⟨r.number, r.rollout, r.zone, r.network, if slow ≠ 0 then 2 else if bs.isEmpty then 0 else 1, slow,
          bs.length, fl + b01 (slow = 0) + 8 * b01 r.queued + 16 * b01 r.restarted, r.solve, r.resid.getD 0,
          (r.horizonMs + 9) / 10, r.cfg.stepMs * 10, min ((s.now - r.acceptedAt) / usNs) 0xFFFFFFFF, fNeg most, bs.head?, bs.take 16⟩
        let s : State := ({ s with la := { s.la with
          runs := s.la.runs.filter (fun x => x.number != r.number) } }).unpin (0x100 + r.number)
        s.giveVerdict v (laReports r.cfg) trust

def execLaVerdict (run : Nat) (given : Option RunTrace) (s : State) : Host.Outcome State Fault Refusal :=
  .next (s.laVerdict run given)

/-- LA_OVERRUN (R199). -/
def State.laOverrun (s : State) (number : Nat) : State :=
  match s.la.runs.find? (fun r => r.number == number) with
  | none => s
  | some r =>
    let bound := s.derateTime (runBoundUs (s.kindCount 2) r.cfg.stepMs (reachOfNet r.cfg.stepMs r.network s.model.run) r.horizonMs)
    if r.overrun || s.now ≤ r.startedAt + bound * usNs then s
    else
      let mark (x : LaRun) : LaRun := if x.number = number then { x with overrun := true } else x
      ({ s with la := { s.la with runs := s.la.runs.map mark } }).raise 0x39
        [u32 number, u32 ((s.now - r.startedAt) / usNs), u32 bound, u16 (b01 r.restarted)]

def execLaOverrun (run : Nat) (s : State) : Host.Outcome State Fault Refusal := .next (s.laOverrun run)

/-- LA_WITHDRAW (R201): a run or a queued submission ends SUPERSEDED; a verdict produced first stands. -/
def State.laWithdraw (s : State) (number : Nat) : State :=
  if !s.la.withdrawals.contains number then s
  else
    let s : State := { s with la := { s.la with withdrawals := s.la.withdrawals.filter (fun n => n != number) } }
    match s.la.runs.find? (fun r => r.number == number) with
    | some r => (s.refuseRun r 0x17 0).settleLook
    | none => match s.la.queue.find? (fun w => w.run == number) with
      | some w =>
        ({ s with la := { s.la with queue := s.la.queue.filter (fun x => x.run != number) } }).refuseSubmission w 0x17
      | none => s

def execLaWithdraw (run : Nat) (s : State) : Host.Outcome State Fault Refusal := .next (s.laWithdraw run)

/-- LA_GRID_REBUILD (R181): the rebuild is complete. -/
def State.laGrid (s : State) : State :=
  match s.la.rebuilding with
  | none => s
  | some cause =>
    let img := s.model.run
    let d := s.la.cfg.stepMs
    let big := largestRatio d ((pipes img).filter (fun r => 2 ≤ pipeReaches d r))
    ({ s with la := { s.la with rebuilding := none } }).raise 0x3A
      ([u16 cause] ++ (List.range 4).map (fun n => u32 (reachOfNet d n img))
        ++ [f32 ((big.map Prod.fst).getD 0), u16 ((big.map Prod.snd).getD 0xFFFF)])

def execLaGridRebuild (s : State) : Host.Outcome State Fault Refusal := .next s.laGrid

/-! ### Orders (R204–R207) -/

def laCfgOk (c : LaCfg) : Bool :=
  between 2 50 c.stepMs && between 1 120 c.horizonS && c.settleS ≤ 60 && c.flags < 4 && fIn 0 (fc 100000 1) c.guardPa
    && fIn (fc 1 1) (fc 600 1) c.stnTau && fIn (fc 1 100) (fc 1 1) c.driveRamp

/-- LA_CFG: a new step rebuilds the grid. -/
def State.laCfgOrder (s : State) (ref : OrderRef) (c : LaCfg) : State :=
  if !laCfgOk c || 131072 < reachTotal c.stepMs s.model.run then s.answer ref 0x0501 (orderDone stRange)
  else
    let re := if c.stepMs = s.la.cfg.stepMs then s.la.rebuilding else some 1
    ({ s with la := { s.la with cfg := c, rebuilding := re } }).answer ref 0x0501 (orderDone stDone)

def execLaCfg (ref : OrderRef) (c : LaCfg) (s : State) : Host.Outcome State Fault Refusal :=
  .next (s.runOrder ref 0x0501 (fun s => s.laCfgOrder ref c))

/-- LA_CTL (R202, R205): queued submissions are refused at once. -/
def State.laCtl (s : State) (ref : OrderRef) (enable : Nat) : State :=
  let say (s : State) (st : Nat) : State := s.answer ref 0x0502 (stateReport st [u8 (enCode s.la.en)])
  if 1 < enable then say s stRange
  else
    let a := enRequest s.la.en (enable == 1) (!s.la.runs.isEmpty)
    let begins := s.la.en == .enabled && enable == 0
    let queue := s.la.queue
    let s' : State := { s with la := { s.la with
      en := a.1, queue := if begins then [] else queue, retired := if begins then 0 else s.la.retired,
      refused := if begins then queue.length else s.la.refused } }
    let s' : State := if begins then queue.foldl (fun s w => s.refuseSubmission w 0x16) s' else s'
    match a.2 with
    | .quiescingRefused => say s stQuiescing
    | .accepted => say s' stDone
    | .quiescedNow => say (s'.raise 0x3B [u16 0, u16 (min queue.length 0xFFFF)]) stDone

def execLaCtl (ref : OrderRef) (enable : Nat) (s : State) : Host.Outcome State Fault Refusal :=
  .next (s.runOrder ref 0x0502 (fun s => s.laCtl ref enable))

/-- LA_DETAIL (R206). -/
def State.laDetail (s : State) (ref : OrderRef) (run addr : Nat) : State :=
  let say (s : State) (st n : Nat) : State := s.answer ref 0x0503 (ownReport st [u8 st, u8 0, u8 0, u8 0, u32 n])
  if addr % 16 ≠ 0 then say s 2 0
  else match s.la.recent.find? (fun v => v.run == run) with
    | some v => say (s.toHost (.hostData addr (v.entries.map breachFlds).flatten)) 0 v.entries.length
    | none => say s 1 0

def execLaDetail (ref : OrderRef) (run addr : Nat) (s : State) : Host.Outcome State Fault Refusal :=
  .next (s.runOrder ref 0x0503 (fun s => s.laDetail ref run addr))

/-- One network's entry of LA_INFO (R207). -/
def State.netInfo (s : State) (n : Nat) : List Fld :=
  let img := s.model.run
  let d := s.la.cfg.stepMs
  if (keys img 1).contains n then
    let rigid := ((pipes img).filter (fun r => nodeNet img (u16At r 2) == some n && pipeReaches d r < 2)).length
    let big := largestRatio d (dividedPipes d n img)
    let reaches := reachOfNet d n img
    [u32 reaches, u16 rigid, u16 ((big.map Prod.snd).getD 0xFFFF),
     u16 ((big.map (fun b => fFloor (fMul b.1 (fc 16384 1)))).getD 0), u16 (min (s.derateRate (speed100 (s.kindCount 2) d reaches)) 0xFFFF)]
  else [u32 0, u16 0, u16 0xFFFF, u16 0, u16 0]

/-- LA_QUERY (R207). -/
def State.laQuery (s : State) (ref : OrderRef) : State :=
  s.answer ref 0x0504 (stateReport stDone ((List.range 4).map s.netInfo).flatten)

def execLaQuery (ref : OrderRef) (s : State) : Host.Outcome State Fault Refusal :=
  .next (s.runOrder ref 0x0504 (fun s => s.laQuery ref))

/-! ### Swap, role loss and re-placement (R142, R181, R201, R203) -/

/-- Runs in flight end MODEL_CHANGED; the grid is rebuilt, and queued submissions wait for it (R181). -/
def State.laSwap (s : State) : State :=
  let s : State := s.la.runs.foldl (fun s r => s.refuseRun r 0x14 0) s
  ({ s with la := { s.la with rebuilding := some 0 } }).settleLook

/-- The tablet loses the ACTIVE role: runs and submissions end without verdict and without report (R203). -/
def State.laDrop (s : State) : State :=
  let s : State := s.la.runs.foldl (fun s r => s.unpin (0x100 + r.number)) s
  ({ s with la := { s.la with runs := [], queue := [], withdrawals := [], delivered := [] } }).settleLook

/-- A look-ahead role is re-placed: its run restarts from the pinned state (R201); where the role's checkpoint was lost, from the
Reckoner's last published state, which is pinned in its stead (R100). -/
def State.laRestart (s : State) (number : Nat) (lost : Bool) : State :=
  let tick := (s.latestSet.map (·.tickTai)).getD 0
  let anew (r : LaRun) : LaRun := match s.rollOf r.rollout with
    | some x => { r with
        solve := s.latestSolve, degraded := s.stateDegraded, resid := s.zoneResid r.zone, start := s.laStart x tick }
    | none => r
  let again (r : LaRun) : LaRun :=
    if r.number = number then { (if lost then anew r else r) with restarted := true, startedAt := s.now, overrun := false } else r
  let runs : Bool := s.la.runs.any (fun r => r.number == number)
  let s : State := { s with la := { s.la with runs := s.la.runs.map again } }
  if lost && runs then (s.unpin (0x100 + number)).pinLatest (0x100 + number) else s

end Sys2Proof.Machine
end

