-- ==== Sys2Proof/Machine/Model.lean ====
section
/-! DEFINITION. The load sequence of the network model (spec/04_network_model.md, R134–R144). The swap is in Swap.lean. -/

namespace Sys2Proof.Machine

open Sys2Proof

/-! ### Checks and results (R135, R136, R143) -/

/-- What the checks compare an image with. -/
def State.checkEnv (s : State) (orderLen running : Option Nat) (allowOlder : Bool) : CheckEnv :=
  ⟨orderLen, s.houseId, s.fuse, running, allowOlder, s.stnConfigured, s.opt.tariffs.map Prod.fst, s.la.cfg.stepMs⟩

/-- Body of MODEL_RESULT (R135). -/
def State.modelResult (s : State) (c : CheckRes) (img : List Byte) : List Fld :=
  [u8 c.status, u8 0, u16 c.section_, u32 c.record, u16 c.field, u16 c.detail, u32 (if img.isEmpty then 0 else imgRevision img),
   u32 s.modelRev, recFld 8 (if img.isEmpty then 0 else imgDigest8 img)]

def bareRes (st : Nat) : CheckRes := ⟨st, 0, 0xFFFFFFFF, 0xFFFF, 0⟩

/-- End a load: MODEL_RESULT, and MODEL_REJECTED for every status but OK. -/
def State.endLoad (s : State) (ref : OrderRef) (c : CheckRes) (img : List Byte) : State :=
  let s : State := if c.status = 0 then s else s.raise 0x3D [u16 c.status, u16 c.section_, u32 c.record]
  s.answer ref 0x0301 (ownReport c.status (s.modelResult c img))

def State.dropLoad (s : State) : State := { s with model := { s.model with load := none } }
def State.setLoad (s : State) (l : ModelLoad) : State := { s with model := { s.model with load := some l } }

/-- The slot not in use. -/
def State.spareSlot (s : State) : Nat := if s.model.runSlot = some 0 then 1 else 0

def State.setSlot (s : State) (i : Nat) (x : ModelSlot) : State :=
  { s with model := { s.model with slots := s.model.slots.set i x } }

/-! ### The load sequence -/

/-- MODEL_LOAD (R134, R138). -/
def State.modelLoad (s : State) (ref : OrderRef) (img : List Byte) (length : Nat) (validateOnly allowOlder forceTwin : Bool) :
    State :=
  match s.model.load with
  | some _ => s.endLoad ref (bareRes 0x10) img
  | none => s.setLoad ⟨ref, img, length, validateOnly, allowOlder, forceTwin, .checking, s.spareSlot, false, false, false, 0⟩

def execModelLoad (ref : OrderRef) (img : List Byte) (length : Nat) (validateOnly allowOlder forceTwin : Bool) (s : State) :
    Host.Outcome State Fault Refusal :=
  .next (s.runOrder ref 0x0301 (fun s => s.modelLoad ref img length validateOnly allowOlder forceTwin))

/-- MODEL_CHECKS_DONE (R136): the first failed check ends the load; VALIDATE_ONLY reports here. -/
def State.modelChecked (s : State) : State :=
  match s.model.load with
  | some l =>
    if l.stage ≠ .checking then s
    else
      let running := if s.model.runSlot.isNone then none else some s.modelRev
      let c := modelChecks (s.checkEnv (some l.length) running l.allowOlder) l.bytes
      if c.status ≠ 0 || l.validateOnly then s.dropLoad.endLoad l.ref c l.bytes
      else s.setLoad { l with stage := .writing }
  | none => s

def execModelChecksDone (s : State) : Host.Outcome State Fault Refusal := .next s.modelChecked

/-- A standby is there to take the image (step 4). -/
def State.standbyThere (s : State) : Bool :=
  s.twin.role == .active && (s.twin.pathT || s.twin.pathR) && (s.twin.partner.map (fun p => p.role == .standby)).getD false

/-- MODEL_SLOT_WRITTEN (step 3): a read-back failure is retried once. -/
def State.modelSlotWritten (s : State) (ok : Bool) : State :=
  match s.model.load with
  | some l =>
    if l.stage ≠ .writing then s
    else if ok then
      let s : State := s.setSlot l.slot ⟨l.bytes, 0⟩
      if s.standbyThere then
        (s.setLoad { l with stage := .mirroring }).mirrorImage 0 l.bytes
      else s.setLoad { l with stage := .ready, readyAt := s.tai }
    else if l.retried then ((s.setSlot l.slot ⟨[], 0⟩).dropLoad).endLoad l.ref (bareRes 0x13) l.bytes
    else s.setLoad { l with retried := true }
  | none => s

def execModelSlotWritten (ok : Bool) (s : State) : Host.Outcome State Fault Refusal := .next (s.modelSlotWritten ok)

/-- The standby's verdict on a model image (R139). -/
def State.modelVerdict (s : State) (status : Nat) : State :=
  match s.model.load with
  | some l =>
    if l.stage ≠ .mirroring then s
    else if status = 0 || l.forceTwin then s.setLoad { l with stage := .ready, twinOk := status == 0, readyAt := s.tai }
    else s.dropLoad.endLoad l.ref (bareRes 0x11) l.bytes
  | none => s

def State.nextSlotSeq (s : State) : Nat := (s.model.slots.map (·.seq)).foldl max 0 + 1

/-- The activation mark of a slot, and its MARK record (R137, R506). The swap is due. -/
def State.markSlot (s : State) (i : Nat) (bytes : List Byte) : State :=
  let s : State := (s.setSlot i ⟨bytes, s.nextSlotSeq⟩).mirrorTwin 0x0C [u8 0, u8 0, u16 0, u32 (imgRevision bytes)]
  { s with model := { s.model with swapDue := true } }

/-- The tick at which a load commits has come: the first after it became ready (step 5). An active whose standby has gone while it
waited for the verdict commits alone. -/
def State.commitDue (s : State) (l : ModelLoad) : Bool :=
  (l.stage == .ready && l.readyAt ≤ s.tickNow) || (l.stage == .mirroring && !s.standbyThere)

/-- The commit waits for the standby's mark (step 5). -/
def State.markAwaited (s : State) (l : ModelLoad) : Bool := l.twinOk && !l.twinMarked && s.standbyThere

/-- The partner still has the active role (R140). -/
def State.activeThere (s : State) : Bool := (s.twin.partner.map (fun p => p.role == .active)).getD false

/-- MODEL_COMMIT (step 5): a standby that has accepted the image marks its slot, then the active its own. -/
def State.modelCommit (s : State) : State :=
  match s.model.load with
  | some l =>
    if !s.commitDue l || s.markAwaited l then s
    else (s.setLoad { l with stage := .committed }).markSlot l.slot l.bytes
  | none =>
    match s.model.mirrorReady with
    | some i =>
      let s : State := { s with model := { s.model with mirrorReady := none } }
      if s.twin.role = .standby && s.activeThere then s.markSlot i (s.model.slots.getD i default).bytes else s
    | none => s

def execModelCommit (s : State) : Host.Outcome State Fault Refusal := .next s.modelCommit

/-- The twin's activation mark (R137): the standby's lets the active commit. -/
def State.modelMark (s : State) (revision : Word) : State :=
  match s.model.load with
  | some l => if word (imgRevision l.bytes) = revision then s.setLoad { l with twinMarked := true } else s
  | none => s

/-- A load that has not reached its commit point is lost with the active role (R137, R140): no MODEL_RESULT is sent. -/
def State.modelLeave (s : State) : State :=
  match s.model.load with
  | some l => if l.stage = .committed || l.stage = .firstSolve then s else s.dropLoad
  | none => s

/-- MODEL_ABORT (R137, R138): one that comes in the tick of the commit is taken after it. Its own MODEL_RESULT, where it ends a load,
has STATUS 0x12 too (DESIGN CHOICE: the table gives 0x12 as the load's end only). -/
def State.modelAbort (s : State) (ref : OrderRef) : State :=
  let say (s : State) (st : Nat) (img : List Byte) : State :=
    s.answer ref 0x0302 (ownReport st (s.modelResult (bareRes st) img))
  match s.model.load with
  | none => say s 0x15 []
  | some l =>
    if l.stage = .committed || l.stage = .firstSolve || (l.stage = .ready && s.commitDue l) then
      say s.modelCommit 0x14 l.bytes
    else say (s.dropLoad.endLoad l.ref (bareRes 0x12) l.bytes) 0x12 l.bytes

def execModelAbort (ref : OrderRef) (s : State) : Host.Outcome State Fault Refusal :=
  .next (s.runOrder ref 0x0302 (fun s => s.modelAbort ref))

/-- Station records whose context is not configured, and configured contexts without a record (R125): the contexts the model does
not hold. -/
def State.unmodelled (s : State) : Nat := (s.stnConfigured.filter (fun c => !(keys s.model.run 7).contains c)).length

/-- MODEL_QUERY (R135). DESIGN CHOICE, the rule names MODEL_INFO's fields only: RUNNING u32, DIGEST 8 bytes, the slot u8 with code 3
where no model runs, a zero byte, eleven u16 counts and the unmodelled contexts as u16. -/
def State.modelQuery (s : State) (ref : OrderRef) : State :=
  let img := s.model.run
  let counts := (List.range 11).map (fun i => u16 (recsOf img (i + 1)).length)
  s.answer ref 0x0303 (stateReport stDone
    ([u32 s.modelRev, recFld 8 (if img.isEmpty then 0 else imgDigest8 img), u8 (s.model.runSlot.getD 3), u8 0] ++ counts
      ++ [u16 s.unmodelled]))

def execModelQuery (ref : OrderRef) (s : State) : Host.Outcome State Fault Refusal :=
  .next (s.runOrder ref 0x0303 (fun s => s.modelQuery ref))

/-! ### Start-up (R143, R144) -/

/-- Run the content of a slot. -/
def State.runModel (s : State) (i : Nat) : State :=
  let x := s.model.slots.getD i default
  { s with model := { s.model with runSlot := some i, run := x.bytes, coldNext := true } }

def State.slotStatus (s : State) (i : Nat) : Nat :=
  (modelChecks (s.checkEnv none none true) (s.model.slots.getD i default).bytes).status

/-- The slot with the highest activation sequence is checked, then the other, whether or not it has ever been activated (R143). Where
neither slot has been activated no load has ever reached its commit point, and no model runs (R137). -/
def State.modelStart (s : State) : State :=
  let q (i : Nat) : Nat := (s.model.slots.getD i default).seq
  let first := if q 0 < q 1 then 1 else 0
  let other := 1 - first
  let st := s.slotStatus first
  if q first ≠ 0 && st = 0 then s.runModel first
  else
    let s : State := if q first = 0 then s else s.raise 0x3E [u16 first, u16 st]
    let st2 := s.slotStatus other
    if q first ≠ 0 && st2 = 0 then
      (s.setSlot other { s.model.slots.getD other default with seq := s.nextSlotSeq }).runModel other
    else
      let s : State := if q first = 0 then s else s.raise 0x3E [u16 other, u16 st2]
      s.raise 0x3F [u16 (s.slotStatus 0), u16 (s.slotStatus 1)]

end Sys2Proof.Machine
end

