-- ==== Sys2Proof/Machine/Roll.lean ====
section
/-! DEFINITION. The rollout sequencer's commands (spec/08_rollouts.md). -/

namespace Sys2Proof.Machine

open Sys2Proof

/-! ### Release (R250, R257–R259, R267) -/

/-- Release a rollout, or hold it: on a permit (R257), or on a SOLO tablet that is unfit by now (R88). -/
def State.releaseRoll (s : State) (x : Rollout) : State :=
  if s.unfitSolo then (s.endRoll x .held 9).freeNet x.net
  else match s.permitDrop x true with
  | some _ => (s.endRoll x .held 3).freeNet x.net
  | none =>
    let off := x.stations.filter (fun i => !s.stnUp i && !x.offline.contains i)
    let x : Rollout := { x with st := .released, submitted := false, pend := none, dropped := off }
    let s : State := s.setRoll x
    let s : State := off.foldl (fun s i => match s.rollOf x.id with
      | some y => s.pendTarget y i
      | none => s) s
    let x := (s.rollOf x.id).getD x
    let s : State := if x.cfg.flags % 2 = 1 then s.report 4 0x0006 (s.rollBody x) else s
    (s.mirrorRoll x).freeNet x.net

/-- Release a schedule that is not vetted again, or refuse it TOO_LONG (R250). -/
def State.releaseUnvetted (s : State) (x : Rollout) : State :=
  if s.tai + 120 * secNs < x.lastApply then (s.endRoll x .held 4).freeNet x.net else s.releaseRoll x

/-- The rollout moves to the smallest whole multiple of 100 ms later that puts A1 at or after now + LEAD_PLAN_MS (R258). -/
def State.shiftRoll (s : State) (x : Rollout) : State × Rollout :=
  let u := 100 * msNs
  let a := x.a1.getD 0
  let want := s.tai + x.cfg.leadPlanMs * msNs
  let d := (want - a + (u - 1)) / u * u
  let r := s.build x (a + d)
  (r.1.raise 0x4B [u16 x.id, u32 (d / msNs)], { r.2 with shifted := true, afterShift := true })

/-- The rollout is late for its A1 (R258). -/
def State.lateFor (s : State) (x : Rollout) : Bool := x.a1.getD 0 < s.tai + 2 * msNs

/-! ### Hand-over (R245, R246, R254, R261, R265, R266, R272) -/

/-- The zone a rollout is vetted under, its anchor for a plant or store (R254); 0xFF for none. -/
def State.rollZone (s : State) : RollUnit → Nat
  | .zone z => z
  | u => ((destOf s.roll.dests u).map (·.anchor)).getD 0xFF

/-- A fresh rollout for a change. -/
def State.newRoll (s : State) (c : Change) : Rollout :=
  let zone := s.rollZone c.unit
  let net := match c.unit with
    | .zone z => (zoneNet s.model.run z).getD 0
    | .plant p => ((recByKey s.model.run 8 p).map (fun r => u8At r 2)).getD 0
    | .store k => ((recByKey s.model.run 9 k).map (fun r => u8At r 1)).getD 0
  let stagger := fToInt (fMul (((recByKey s.model.run 10 zone).map (fun r => fieldAt r 0xC)).getD 0) (fc 1000 1))
  ⟨s.roll.nextId, c.unit, c.plan, c.items.map (fun i => ⟨i.1, i.2.1, i.2.2⟩), [], s.roll.cfg, .queued, 0, 0, false, false, false, false,
   false, false, 0, none, false, none, s.roll.cfg.stageMs, stagger.toNat, 0, false, [], 0, [], [], [], 0, 0, 0, 0, 0, s.now, zone, net⟩

/-- The rollout carries a pump, valve or station item. -/
def Rollout.hydraulic (x : Rollout) : Bool := x.items.any (fun i => 8 ≤ i.kind)

/-- Why a hand-over is refused, 0 if it is not. -/
def State.handoverRefusal (s : State) (x : Rollout) : Nat :=
  if s.roll.en ≠ .enabled then 6
  else if s.place.unfit then 9
  else if s.model.runSlot.isNone then 10
  else if s.roll.holds.contains x.unit then 8
  else 0

/-- ROLLOUT_HANDOVER: the oldest change handed over takes effect. -/
def State.rollHandover (s : State) : State :=
  match s.roll.incoming with
  | [] => s
  | c :: cs =>
    let s : State := { s with roll := { s.roll with incoming := cs } }
    if !s.activeOrSolo then s
    else
      let x := s.newRoll c
      let id := if x.id = 0xFFFF then 1 else x.id + 1
      let s : State := { s with roll := { s.roll with nextId := id } }
      let why := s.handoverRefusal x
      if why ≠ 0 then s.endRoll x .held why
      else
        let old := s.unitRoll c.unit
        let s : State := match old with
          | some o => s.stopRoll o .superseded 0 x.id
          | none => s
        let x : Rollout := { x with supersedes := old.isSome }
        let s : State := { s with roll := { s.roll with rolls := s.roll.rolls ++ [x] } }
        if x.hydraulic then
          if x.zone = 0xFF then s.endRoll x .held 5 else s.submitRoll x
        else
          let r := s.build x (s.firstApply x)
          r.1.releaseUnvetted r.2

def execRolloutHandover (s : State) : Host.Outcome State Fault Refusal := .next s.rollHandover

/-! ### Verdicts (R246, R256, R258) -/

def mulPow (k : Nat) : Nat → Nat
  | 0 => 1
  | n + 1 => k * mulPow k n

/-- A PASS verdict. -/
def State.onPass (s : State) (x : Rollout) : State :=
  if s.unfitSolo || !s.lateFor x then s.releaseRoll x
  else if x.afterShift then (s.endRoll x .held 11).freeNet x.net
  else
    let r := s.shiftRoll x
    (r.1.vet r.2).freeNet x.net

/-- A SLOW verdict: rebuilt with the slow step, or stretched as for RESHAPE_MAX reshapes, and released without a run. -/
def State.onSlow (s : State) (x : Rollout) : State :=
  let k := mulPow x.cfg.reshapeK (x.cfg.reshapeMax - x.reshapes)
  let dp := x.items.any (fun i => i.kind == 10)
  let x : Rollout := { x with
    slow := true, stageMs := if dp then x.stageMs else x.stageMs * k,
    staggerMs := if dp then x.staggerMs else min (x.staggerMs * k) 100 }
  let b := s.build x (x.a1.getD 0)
  if b.1.lateFor b.2 then
    let r := b.1.shiftRoll b.2
    r.1.releaseUnvetted r.2
  else b.1.releaseUnvetted b.2

/-- A FAIL verdict: reshape, or hold. -/
def State.onFail (s : State) (x : Rollout) : State :=
  if x.reshapes < x.cfg.reshapeMax then
    let x : Rollout := { x with
      reshapes := x.reshapes + 1, reshaped := true, stageMs := x.stageMs * x.cfg.reshapeK,
      staggerMs := min (x.staggerMs * x.cfg.reshapeK) 100 }
    let s : State := s.raise 0x4A [u16 x.id, u16 x.reshapes, u32 x.stageMs, u32 x.staggerMs]
    let b := s.build { x with afterShift := false } (x.a1.getD 0)
    (b.1.vet b.2).freeNet x.net
  else (s.endRoll x .held 1).freeNet x.net

/-- ROLLOUT_VERDICT: the oldest verdict reaches the sequencer; one whose run it did not record is discarded (R246). -/
def State.rollVerdict (s : State) : State :=
  match s.la.delivered with
  | [] => s
  | v :: vs =>
    let s : State := { s with la := { s.la with delivered := vs } }
    match s.rollOf v.rollout with
    | some x =>
      if x.pend ≠ some v.run || x.st ≠ .vetting then s
      else
        let x : Rollout := { x with pend := none, run := v.run }
        match v.verdict with
        | 0 => s.onPass x
        | 1 => s.onFail x
        | 2 => s.onSlow x
        | _ => if v.reason = 0x14 then (s.vet x).freeNet x.net else (s.endRoll x .held 2).freeNet x.net
    | none => s

def execRolloutVerdict (s : State) : Host.Outcome State Fault Refusal := .next s.rollVerdict

/-! ### Sending (R247, R251, R252, R259) -/

/-- When a command is due: SEND_AHEAD_MS before its apply-at, or at it for a field-bus object. -/
def dueAt (x : Rollout) (c : RollCmd) : Nat :=
  match c.recv with
  | .bus _ _ => c.applyAt
  | _ => c.applyAt - x.cfg.sendAheadMs * msNs

/-- The first command that is due: the earliest, of equal ones the first of the schedule. -/
def firstDue (x : Rollout) (tai : Nat) : Option (Nat × RollCmd) :=
  (x.cmds.zipIdx).foldl (fun (a : Option (Nat × RollCmd)) p =>
    if p.1.st = .new && dueAt x p.1 ≤ tai then
      match a with
      | some b => if dueAt x p.1 < dueAt x b.2 then some (p.2, p.1) else a
      | none => some (p.2, p.1)
    else a) none

def Rollout.markCmd (x : Rollout) (i : Nat) (f : RollCmd → RollCmd) : Rollout := { x with cmds := x.cmds.modify i f }

/-- The role that runs a rollout (R83; assumption). -/
def rollRole (id : Nat) : Half := BitVec.ofNat 16 (0x6000 + id % 16)

/-- The number under which ROLL_LATE names a receiver: a station's, a loop's, or a bus object as ROLL_DEST encodes it (R274, R277). -/
def recvParam : Receiver → Nat
  | .station id => id
  | .loop n => n
  | .bus b o => 0x8000 + 32 * b + o

/-- A command leaves LATE: with a lead below 2 ms, or, for a field-bus object, later than the 50 µs that its one-shot transmit has
(R247, R252; assumption). -/
def RollCmd.isLate (c : RollCmd) (tai : Nat) : Bool :=
  match c.recv with
  | .bus _ _ => c.applyAt + 50 * usNs < tai
  | _ => c.applyAt < tai + 2 * msNs

/-- A command counts as sent; `base` is what its receiver held before. -/
def State.sentCmd (s : State) (x : Rollout) (i : Nat) (c : RollCmd) (seq : Word) (base : F32) : State :=
  let late := c.isLate s.tai
  let h : SentCmd := ⟨c.recv, c.kind, c.object, c.value, x.id, seq, c.applyAt, true, false, late⟩
  let s : State := s.noteBase c.recv base
  let s : State := { s with roll := { s.roll with hist := s.roll.hist ++ [h] } }
  let s : State := s.putRoll ({ x with sent := x.sent + 1 }.markCmd i (fun c => { c with st := .sent, seq := seq }))
  if late then s.rollLate x.id (recvParam c.recv) ((s.tai - c.applyAt) / usNs) else s

/-- A due command is handed to its receiver; one whose station cannot take it is skipped. -/
def State.sendDue (s : State) (x : Rollout) (i : Nat) (c : RollCmd) : State :=
  let base := s.lastOf c.recv
  match c.recv with
  | .station id =>
    if !s.stnUp id || x.dropped.contains id then s.putRoll (x.markCmd i (fun c => { c with st := .skipped }))
    else
      let r := s.stnCommand id 0 c.value c.applyAt
      match r.2 with
      | some seq => r.1.sentCmd x i c seq base
      | none => r.1.putRoll (x.markCmd i (fun c => { c with st := .skipped }))
  | .loop n =>
    let r := s.loopSpIn n c.value c.applyAt x.id
    if r.2 = 0 then r.1.sentCmd x i c 0 base
    else r.1.putRoll (x.markCmd i (fun c => { c with st := .refused }))
  | .bus b o => (s.sentCmd x i c (s.busNextId b) base).busPutFloat b o c.value

/-- COMMAND_SEND: the first due command of a released rollout is handed to its receiver, and the rollout's progress is checkpointed
(R83). Nothing is sent while the rollout's role is REPLACING (R101) or the tablet is SOLO and unfit (R88). -/
def State.commandSend (s : State) (rollout : Nat) : State :=
  match s.rollOf rollout with
  | none => s
  | some x =>
    if x.st ≠ .released || !s.activeOrSolo || s.roleDown (rollRole rollout) || s.unfitSolo then s
    else match firstDue x s.tai with
      | none => s
      | some (i, c) => (s.sendDue x i c).checkpoint (rollRole rollout)

def execCommandSend (rollout : Nat) (s : State) : Host.Outcome State Fault Refusal := .next (s.commandSend rollout)

/-- ROLLOUT_DONE (R259). -/
def State.rollDone (s : State) (rollout : Nat) : State :=
  match s.rollOf rollout with
  | none => s
  | some x =>
    if x.st = .released && !x.cmds.any (fun c => c.st == .new) && x.lastApply ≤ s.tai then s.endRoll x .done 0 else s

def execRolloutDone (rollout : Nat) (s : State) : Host.Outcome State Fault Refusal := .next (s.rollDone rollout)

/-! ### Orders (R265, R272–R275) -/

def rollCfgOk (c : RollCfg) : Bool :=
  between 100 5000 c.leadPlanMs && c.startLeadMs ≤ 10000 && between 50 5000 c.stageMs && between 50 30000 c.sendAheadMs
    && fIn (fc 1000 1) (fc 100000 1) c.dpStep && fIn (fc 1 100) (fc 12 10) c.pumpStep && fIn (fc 1 100) (fc 1 1) c.valveStep
    && c.reshapeMax ≤ 4 && between 2 8 c.reshapeK && c.flags < 4 && c.reserved == 0

/-- ROLL_CFG: applies to rollouts handed over after its acceptance. -/
def State.rollCfg (s : State) (ref : OrderRef) (c : RollCfg) : State :=
  if rollCfgOk c then ({ s with roll := { s.roll with cfg := c } }).answer ref 0x0701 (orderDone stDone)
  else s.answer ref 0x0701 (orderDone stRange)

def execRollCfg (ref : OrderRef) (c : RollCfg) (s : State) : Host.Outcome State Fault Refusal :=
  .next (s.runOrder ref 0x0701 (fun s => s.rollCfg ref c))

/-- A destination names a loop or a transmit object that exists, or nothing (R274). -/
def State.destOk (s : State) (d : Nat) : Bool :=
  let k := d / 2 ^ 14
  if k = 0 then d == 0
  else if k = 1 then d / 512 % 32 == 0 && s.loopExists (d % 512)
  else if k = 2 then d / 64 % 256 == 0 && s.busTxExists (d / 32 % 2) (d % 32)
  else false

/-- ROLL_DEST. -/
def State.rollDest (s : State) (ref : OrderRef) (d : RollDest) : State :=
  let ok := d.kind ≤ 1 && d.index < (if d.kind = 0 then 16 else 32) && (d.anchor < 64 || d.anchor == 0xFF) && d.reserved == 0
    && s.destOk d.out && s.destOk d.temp && s.destOk d.run && (d.kind == 0 || (d.temp == 0 && d.run == 0))
  if ok then
    let rest := s.roll.dests.filter (fun e => !(e.kind == d.kind && e.index == d.index))
    ({ s with roll := { s.roll with dests := rest ++ [d] } }).answer ref 0x0702 (orderDone stDone)
  else s.answer ref 0x0702 (orderDone stRange)

def execRollDest (ref : OrderRef) (d : RollDest) (s : State) : Host.Outcome State Fault Refusal :=
  .next (s.runOrder ref 0x0702 (fun s => s.rollDest ref d))

/-- ROLL_HOLD (R265). -/
def State.rollHold (s : State) (ref : OrderRef) (kind object hold : Nat) : State :=
  let u : RollUnit := if kind = 0 then .zone object else if kind = 1 then .plant object else .store object
  if 2 < kind || 1 < hold || (kind == 0 && 64 ≤ object) || (kind == 1 && 16 ≤ object) || (kind == 2 && 32 ≤ object) then
    s.answer ref 0x0703 (orderDone stRange)
  else if hold = 1 then
    let s : State := { s with roll := { s.roll with
      holds := if s.roll.holds.contains u then s.roll.holds else s.roll.holds ++ [u] } }
    let s : State := match s.unitRoll u with
      | some x => s.stopRoll x .held 8 0
      | none => s
    s.answer ref 0x0703 (orderDone stDone)
  else ({ s with roll := { s.roll with holds := s.roll.holds.filter (fun v => v != u) } }).answer ref 0x0703 (orderDone stDone)

def execRollHold (ref : OrderRef) (kind object hold : Nat) (s : State) : Host.Outcome State Fault Refusal :=
  .next (s.runOrder ref 0x0703 (fun s => s.rollHold ref kind object hold))

/-- Rollouts that are not released retire (R272). -/
def State.retireRolls : Nat → State → State
  | 0, s => s
  | n + 1, s =>
    match s.roll.rolls.find? (fun x => x.st != .released) with
    | some x =>
      let s : State := match x.pend with
        | some r => { s with la := { s.la with withdrawals := s.la.withdrawals ++ [r] } }
        | none => s
      State.retireRolls n (({ s with roll := { s.roll with retired := s.roll.retired + 1 } }).endRoll x .retired 6)
    | none => s

/-- ROLL_CTL (R272, R275). -/
def State.rollCtl (s : State) (ref : OrderRef) (enable : Nat) : State :=
  let say (s : State) (st : Nat) : State := s.answer ref 0x0704 (stateReport st [u8 (enCode s.roll.en)])
  if 1 < enable then say s stRange
  else if enable = 1 then
    if s.roll.en = .quiescing then say s stQuiescing
    else say { s with roll := { s.roll with en := .enabled } } stDone
  else if s.roll.en ≠ .enabled then say s stDone
  else
    let s : State := State.retireRolls s.roll.rolls.length { s with roll := { s.roll with retired := 0 } }
    let s : State := { s with roll := { s.roll with en := .quiescing } }
    say s.settleRoll stDone

def execRollCtl (ref : OrderRef) (enable : Nat) (s : State) : Host.Outcome State Fault Refusal :=
  .next (s.runOrder ref 0x0704 (fun s => s.rollCtl ref enable))

/-! ### Role changes (R270, R502) -/

/-- A change handed over and not taken is refused (R47). -/
def State.refuseChange (s : State) (c : Change) : State :=
  let x := s.newRoll c
  let s : State := { s with roll := { s.roll with nextId := if x.id = 0xFFFF then 1 else x.id + 1 } }
  s.endRoll x .held 6

/-- The tablet leaves the ACTIVE role: its changes and rollouts end with a report; those mirrored go on at a promoted partner (R270). -/
def State.rollDrop (s : State) : State :=
  let cs := s.roll.incoming
  let s : State := cs.foldl State.refuseChange { s with roll := { s.roll with incoming := [] } }
  let gone := s.roll.rolls
  let s : State := { s with roll := { s.roll with rolls := [] } }
  (gone.foldl (fun s x => s.endRoll x .retired 6) s).settleRoll

/-- A promoted tablet takes over the mirrored rollouts (R270). -/
def State.rollTakeOver (s : State) : State :=
  let ms := s.roll.mirror
  let s : State := { s with roll := { s.roll with mirror := [], rolls := ms.map (fun x =>
    if x.st = .released then { x with
      twinContinued := true, dropped := x.stations.filter (fun i => !s.stnUp i && !x.offline.contains i) }
    else { x with st := .queued, pend := none, submitted := false }) } }
  (ms.filter (fun x => x.st != .released)).foldl (fun s m => match s.rollOf m.id with
    | some x =>
      if s.netBusy x.net then s
      else if x.a1.isSome then
        let r := if s.lateFor x then s.shiftRoll x else (s, x)
        r.1.vet { r.2 with afterShift := false }
      else s.submitRoll x
    | none => s) s

end Sys2Proof.Machine
end

