-- ==== Sys2Proof/Machine/TallyProg.lean ====
section
/-! DEFINITION. The Tally's program image: the instruction encodings, the parse and the checks of R388
(spec/11_logic_tally.md, R356, R361, R362, R365, R374, R385–R388). -/

namespace Sys2Proof.Machine

open Sys2Proof

/-! ### Encodings (R362) -/

/-- What an opcode takes as its operand. -/
inductive OpCls where
  | none
  | bitR
  | bitW
  | timer (kinds : List Nat)
  | counter (kinds : List Nat)
  | edge (kinds : List Nat)
  /-- A read of `size` bytes; `imm`: area 11 is allowed; `pv`: area 10 is allowed. -/
  | load (size : Nat) (imm pv : Bool)
  /-- LDQ and LDS. -/
  | qual
  | store (size : Nat)
  | jump
  | trig
  deriving DecidableEq, Repr, Inhabited

/-- Operand class, entries needed and change of DEPTH of an opcode; none where it is reserved. -/
def opInfo (op : Nat) : Option (OpCls × Nat × Int) :=
  if op = 0x01 || op = 0x02 then some (.bitR, 0, 1)
  else if inB 0x03 0x07 op then some (.bitR, 1, 0)
  else if op = 0x08 || op = 0x09 then some (.none, 0, 1)
  else if inB 0x0A 0x0C op then some (.none, 2, -1)
  else if op = 0x0D then some (.none, 1, 0)
  else if op = 0x0E then some (.none, 1, 1)
  else if op = 0x0F then some (.none, 1, -1)
  else if inB 0x10 0x12 op then some (.bitW, 1, 0)
  else if op = 0x18 then some (.edge [0], 1, 0)
  else if op = 0x19 then some (.edge [1], 1, 0)
  else if inB 0x20 0x22 op then some (.timer [op - 0x20], 1, 0)
  else if op = 0x23 then some (.timer [0, 1, 2], 1, 0)
  else if op = 0x28 then some (.counter [0, 2], 1, 0)
  else if op = 0x29 then some (.counter [1, 2], 1, 0)
  else if op = 0x2A || op = 0x2B then some (.counter [0, 1, 2], 1, 0)
  else if op = 0x30 then some (.load 4 true true, 0, 0)
  else if op = 0x31 then some (.load 1 false false, 0, 0)
  else if op = 0x32 || op = 0x33 then some (.load 2 false false, 0, 0)
  else if op = 0x34 || op = 0x35 then some (.qual, 0, 0)
  else if op = 0x38 then some (.store 4, 0, 0)
  else if op = 0x39 then some (.store 1, 0, 0)
  else if op = 0x3A then some (.store 2, 0, 0)
  else if inB 0x40 0x4A op then some (.load 4 true false, 0, 0)
  else if inB 0x50 0x55 op then some (.load 4 true true, 0, 0)
  else if inB 0x58 0x5B op then some (.none, 0, 0)
  else if inB 0x60 0x65 op then some (.load 4 true false, 0, 1)
  else if inB 0x68 0x6D op then some (.load 4 true true, 0, 1)
  else if op = 0x70 then some (.jump, 0, 0)
  else if op = 0x71 || op = 0x72 then some (.jump, 1, -1)
  else if op = 0x74 then some (.trig, 1, 0)
  else if op = 0x78 then some (.none, 0, 0)
  else if op = 0x79 then some (.none, 0, 0)
  else none

/-- An instruction at its index; `size`: words. -/
structure Ins where
  idx : Nat
  op : Nat
  area : Nat
  addr : Nat
  size : Nat
  deriving DecidableEq, Repr, Inhabited

def wOp (w : Word) : Nat := w.toNat / 2 ^ 24
def wArea (w : Word) : Nat := w.toNat / 2 ^ 20 % 16
def wAddr (w : Word) : Nat := w.toNat % 2 ^ 20

/-- Whether an instruction takes an immediate word. -/
def takesImm (op area : Nat) : Bool :=
  match opInfo op with
  | some (.load _ true _, _) => area == 11
  | _ => false

/-- Bytes of an area (R355). -/
def areaSize (a : Nat) : Nat :=
  ([144, 4, 8192, 262144, 65536, 65536, 8192, 65536, 65536, 32768, 1048576] : List Nat).getD a 0

/-- A byte of area 9 lies in a slot that exists (R357). -/
def slotOf (byte : Nat) : Nat := byte / 64 % 256
def slotOk (byte : Nat) : Bool := slotOf byte < 160
def slotTx (byte : Nat) : Bool := inB 128 159 (slotOf byte)

/-- An address of an area for an access of `size` bytes (R356, R357). -/
def addrOk (area byte size : Nat) : Bool :=
  byte < areaSize area && byte % size == 0 && (area != 9 || slotOk byte)

/-- The operand of an instruction is allowed (R356, R362). -/
def operandOk (cls : OpCls) (area addr : Nat) : Bool :=
  match cls with
  | .none => area == 0 && addr == 0
  | .bitR => area ≤ 9 && addrOk area (addr / 8) 1
  | .bitW => [1, 2, 3, 8, 9].contains area && addrOk area (addr / 8) 1 && (area != 9 || slotTx (addr / 8))
  | .timer _ => area == 4 && addr < 4096
  | .counter _ => area == 5 && addr < 4096
  | .edge _ => area == 6 && addr < 8192
  | .load size imm pv =>
    (area ≤ 9 && addrOk area addr size) || (area == 10 && pv && addrOk 10 addr 4) || (area == 11 && imm && addr == 0)
  | .qual => [0, 7, 9, 10].contains area && addrOk area addr 1
  | .store size =>
    ([1, 2, 3, 8, 9].contains area && addrOk area addr size && (area != 9 || slotTx addr))
      || (area == 4 && size == 4 && addrOk 4 addr 4 && addr % 16 == 4)
      || (area == 5 && size == 4 && addrOk 5 addr 4 && (addr % 16 == 0 || addr % 16 == 4))
  | .jump => area == 0
  | .trig => area == 0 && addr < 16

/-- The instructions of a bank in order, or the index of the first one that is not valid. -/
def scanCode : Nat → Nat → List Word → List Ins → Except Nat (List Ins)
  | 0, _, _, acc => .ok acc.reverse
  | _, _, [], acc => .ok acc.reverse
  | n + 1, i, w :: ws, acc =>
    match opInfo (wOp w) with
    | none => .error i
    | some (cls, _) =>
      if !operandOk cls (wArea w) (wAddr w) then .error i
      else if takesImm (wOp w) (wArea w) then
        match ws with
        | [] => .error i
        | _ :: ws' => scanCode n (i + 2) ws' (⟨i, wOp w, wArea w, wAddr w, 2⟩ :: acc)
      else scanCode n (i + 1) ws (⟨i, wOp w, wArea w, wAddr w, 1⟩ :: acc)

def insAt (is : List Ins) (i : Nat) : Option Ins := is.find? (fun x => x.idx == i)

/-- Where execution can go after an instruction. -/
def succs (x : Ins) : List Nat :=
  if x.op = 0x70 then [x.addr]
  else if x.op = 0x71 || x.op = 0x72 then [x.idx + x.size, x.addr]
  else if x.op = 0x78 then []
  else [x.idx + x.size]

/-- The instructions reachable from a work list. -/
def reachIns (is : List Ins) : Nat → List Nat → List Nat → List Nat
  | 0, _, seen => seen
  | _, [], seen => seen
  | n + 1, i :: work, seen =>
    if seen.contains i then reachIns is n work seen
    else match insAt is i with
      | some x => reachIns is n (succs x ++ work) (i :: seen)
      | none => reachIns is n work seen

def reachOf (is : List Ins) (entry : Nat) : List Nat := reachIns is (3 * is.length + 8) [entry] []

/-- DEPTH before every instruction along every path (R361): the index of the first one at fault, if any. -/
def depthScan (is : List Ins) : Nat → List (Nat × Int) → List (Nat × Int) → Option Nat
  | 0, _, _ => none
  | _, [], _ => none
  | n + 1, (i, d) :: work, seen =>
    match seen.find? (fun p => p.1 == i) with
    | some p => if p.2 = d then depthScan is n work seen else some i
    | none =>
      match insAt is i with
      | none => some i
      | some x =>
        match opInfo x.op with
        | none => some i
        | some (_, need, delta) =>
          if d < (need : Int) || 16 < d + delta || (x.op = 0x78 && d ≠ 0) then some i
          else depthScan is n ((succs x).map (fun j => (j, d + delta)) ++ work) ((i, d) :: seen)

/-! ### Parts of the image (R385–R387) -/

def tInstCount (b : List Byte) : Nat := u16At b 0x14
def tInitCount (b : List Byte) : Nat := u32At b 0x18
def tCodeWords (b : List Byte) : Nat := u32At b 0x1C
def tRetCount (b : List Byte) : Nat := u8At b 0x0A
def tRevision (b : List Byte) : Nat := u32At b 0x0C
def tInstOff : Nat := 64 + 400
def tRetOff (b : List Byte) : Nat := tInstOff + 8 * tInstCount b
def tInitOff (b : List Byte) : Nat := tRetOff b + 16 * tRetCount b
def tCodeOff (b : List Byte) : Nat := tInitOff b + 8 * tInitCount b
def tTotal (b : List Byte) : Nat := tCodeOff b + 4 * tCodeWords b + 128

def taskDefs (b : List Byte) : List TaskDef :=
  (List.range 25).map (fun k =>
    let o := 64 + 16 * k
    ⟨u8At b o, u8At b (o + 1), u32At b (o + 4), u32At b (o + 8), u32At b (o + 12)⟩)

def instDefs (b : List Byte) : List InstDef :=
  (List.range (tInstCount b)).map (fun k =>
    let o := tInstOff + 8 * k
    ⟨u8At b o, u8At b (o + 1), u16At b (o + 2), BitVec.ofNat 32 (u32At b (o + 4))⟩)

def retainDefs (b : List Byte) : List RetainDef :=
  (List.range (tRetCount b)).map (fun k =>
    let o := tRetOff b + 16 * k
    ⟨u8At b o, u32At b (o + 4), u32At b (o + 8)⟩)

def initDefs (b : List Byte) : List (Nat × Word) :=
  (List.range (tInitCount b)).map (fun k =>
    let o := tInitOff b + 8 * k
    (u32At b o, BitVec.ofNat 32 (u32At b (o + 4))))

def codeOf (b : List Byte) : List Word :=
  (List.range (tCodeWords b)).map (fun k => BitVec.ofNat 32 (u32At b (tCodeOff b + 4 * k)))

/-- The module an instruction reads, if it reads one (R374). -/
def modOf (x : Ins) : Option TMod :=
  let byte : Option Nat := match opInfo x.op with
    | some (.bitR, _) => some (x.addr / 8)
    | some (.load _ _ _, _) => some x.addr
    | some (.qual, _) => some x.addr
    | _ => none
  byte.bind (fun a =>
    if x.area = 0 then some .dio
    else if x.area = 7 then some (.station (a / 64))
    else if x.area = 9 && !slotTx a then some (.rx (a / 0x4000) (slotOf a))
    else none)

/-- The station an instruction writes to by area 8 (R313). -/
def stnWriteOf (x : Ins) : Option Nat :=
  match opInfo x.op with
  | some (.bitW, _) => if x.area = 8 then some (x.addr / 8 / 64) else none
  | some (.store _, _) => if x.area = 8 then some (x.addr / 64) else none
  | _ => none

/-- The instructions of a task's code. -/
def taskIns (is : List Ins) (t : TaskDef) : List Ins :=
  if t.kind = 0 then [] else (reachOf is t.entry).filterMap (insAt is)

/-- The program of an image that has passed the checks. -/
def parseProg (b : List Byte) : Prog :=
  let code := codeOf b
  let is := match scanCode (code.length + 1) 0 code [] with
    | .ok l => l
    | .error _ => []
  let tasks := taskDefs b
  let own := tasks.map (taskIns is)
  let pairs := (own.zipIdx).flatMap (fun p =>
    if p.2 < 8 || p.2 = 24 then (p.1.filterMap stnWriteOf).map (fun s => (s, p.2)) else [])
  let stns := (pairs.map Prod.fst).dedup
  { revision := tRevision b, tasks := tasks, insts := instDefs b, retains := retainDefs b, inits := initDefs b, code := code,
    reads := own.map (fun l => (l.filterMap modOf).dedup),
    writers := stns.map (fun s => (s, ((pairs.filter (fun p => p.1 == s)).map Prod.snd).dedup)) }

/-! ### The checks of R388 -/

/-- Status and DETAIL; status 0 passes. -/
abbrev TallyRes := Nat × Nat

/-- 0x01 BAD_HEADER. -/
def tHeaderOk (b : List Byte) : Bool :=
  64 ≤ b.length && u32At b 0 == 0x545A504F && u16At b 4 == 1 && u16At b 6 == 64
    && (crc32c (b.take 0x3C)).toNat == u32At b 0x3C && u8At b 0x0B == 0 && u16At b 0x16 == 0 && zerosAt b 0x34 8
    && tRetCount b ≤ 16 && 1 ≤ tRevision b && tInstCount b ≤ 16384 && tInitCount b ≤ 65536 && inB 1 524288 (tCodeWords b)

/-- 0x02 BAD_LENGTH. -/
def tLengthOk (b : List Byte) (length : Nat) : Bool :=
  u32At b 0x10 == length && u32At b 0x10 == tTotal b && b.length == tTotal b && tTotal b ≤ 2359296

/-- The event parameter of R386. -/
def triggerOk (p : Nat) : Bool :=
  let t := p / 2 ^ 28
  let q := p % 2 ^ 28
  match t with
  | 0 | 4 => q == 0
  | 1 => q < 2 ^ 7 && q / 32 ≤ 2
  | 2 => q < 2 ^ 9 && q / 128 % 2 == 0
  | 3 => q < 2 ^ 16 && q / 1024 % 32 == 0 && (q / 2 ^ 15 == 0 || q % 1024 == 0)
  | _ => false

/-- One entry of the task table (R369, R386). -/
def taskOk (b : List Byte) (is : List Nat) (k : Nat) (t : TaskDef) : Bool :=
  t.kind == 0 ||
    (u16At b (64 + 16 * k + 2) == 0 && is.contains t.entry &&
      (if k < 8 then t.kind == 1 && inB 1 8 t.prio && inB 1 10000 t.param && inB 1 (t.param * 1000) t.budgetUs
       else if k < 24 then t.kind == 2 && inB 1 8 t.prio && triggerOk t.param && inB 1 10000000 t.budgetUs
       else t.kind == 3 && t.prio == 0 && inB 10 10000 t.param && t.budgetUs == 0))

/-- The first index of a list at which a test fails. -/
def firstNot {α : Type} (l : List α) (p : Nat → α → Bool) : Option Nat :=
  ((l.zipIdx).find? (fun x => !p x.2 x.1)).map Prod.snd

/-- 0x07 BAD_TASK. `starts`: the indices at which an instruction begins. -/
def tTasks (b : List Byte) (starts : List Nat) : Option TallyRes :=
  let ts := taskDefs b
  match firstNot ts (taskOk b starts) with
  | some k => some (7, k)
  | none => if ts.all (fun t => t.kind == 0) then some (7, 0) else none

/-- Indices at which instructions begin, by their sizes alone. -/
def startsOf : Nat → Nat → List Word → List Nat
  | 0, _, _ => []
  | _, _, [] => []
  | n + 1, i, w :: ws =>
    if takesImm (wOp w) (wArea w) then i :: startsOf n (i + 2) (ws.drop 1) else i :: startsOf n (i + 1) ws

/-- 0x08 BAD_INSTRUCTION: every instruction is valid, jumps stay in the code, and reachable code does not run past its end. -/
def tCode (b : List Byte) (is : Except Nat (List Ins)) : Option TallyRes :=
  match is with
  | .error i => some (8, i)
  | .ok l =>
    let isStart (i : Nat) : Bool := (insAt l i).isSome
    let live := ((taskDefs b).filter (fun t => t.kind != 0)).flatMap (fun t => reachOf l t.entry)
    let bad (x : Ins) : Bool :=
      (inB 0x70 0x72 x.op && !isStart x.addr) || (live.contains x.idx && (succs x).any (fun j => !isStart j))
    (l.find? bad).map (fun x => (8, x.idx))

/-- An instance record's own fields (R387). -/
def instOk (d : InstDef) : Bool :=
  match d.area with
  | 4 => d.kind ≤ 2 && d.inst < 4096
  | 5 => d.kind ≤ 2 && d.inst < 4096
  | 6 => d.kind ≤ 1 && d.inst < 8192 && d.preset == 0
  | _ => false

/-- The kinds an instruction's instance may have, with its area; none where it names no instance. -/
def instUse (x : Ins) : Option (Nat × List Nat) :=
  match opInfo x.op with
  | some (.timer ks, _) => some (4, ks)
  | some (.counter ks, _) => some (5, ks)
  | some (.edge ks, _) => some (6, ks)
  | _ => none

/-- Whether an instruction evaluates its instance (R365). -/
def evaluates (op : Nat) : Bool := inB 0x18 0x19 op || inB 0x20 0x22 op || inB 0x28 0x29 op

/-- 0x09 BAD_INSTANCE. -/
def tInstances (b : List Byte) (l : List Ins) : Option TallyRes :=
  let ds := instDefs b
  match firstNot ds (fun k d => instOk d && !(ds.take k).any (fun e => e.area == d.area && e.inst == d.inst)) with
  | some k => some (9, k)
  | none =>
    let known (x : Ins) : Bool := match instUse x with
      | some (a, ks) => ds.any (fun d => d.area == a && d.inst == x.addr && ks.contains d.kind)
      | none => true
    match l.find? (fun x => !known x) with
    | some x => some (9, x.idx)
    | none =>
      let per := ((taskDefs b).map (taskIns l)).zipIdx
      let other (k : Nat) (x : Ins) : Bool := per.any (fun p => p.2 < k && p.1.any (fun y =>
        evaluates y.op && y.area == x.area && y.addr == x.addr))
      let bad := per.flatMap (fun p => (p.1.filter (fun x => evaluates x.op && other p.2 x)).map (·.idx))
      bad.head?.map (fun i => (9, i))

/-- 0x0A DEPTH. -/
def tDepth (b : List Byte) (l : List Ins) : Option TallyRes :=
  let entries := ((taskDefs b).filter (fun t => t.kind != 0)).map (fun t => (t.entry, (0 : Int)))
  (depthScan l (3 * l.length + 32) entries []).map (fun i => (10, i))

/-- A retain record (R382, R387). -/
def retainOk (d : RetainDef) : Bool :=
  inB 2 6 d.area && 0 < d.length && d.start + d.length ≤ areaSize d.area
    && (if d.area = 4 || d.area = 5 then d.start % 16 == 0 && d.length % 16 == 0
        else if d.area = 3 then d.start % 4 == 0 && d.length % 4 == 0 else true)

/-- 0x0B RETAIN: ranges, order, overlap and total; the order of the other records too. -/
def tRetain (b : List Byte) : Option TallyRes :=
  let rs := retainDefs b
  let is := instDefs b
  let ns := initDefs b
  let after (k : Nat) (d : RetainDef) : Bool := k == 0 ||
    (let p := rs.getD (k - 1) default
     p.area < d.area || (p.area == d.area && p.start + p.length ≤ d.start))
  let reserved (k : Nat) : Bool := zerosAt b (tRetOff b + 16 * k + 1) 3 && zerosAt b (tRetOff b + 16 * k + 12) 4
  let insOrder (k : Nat) (d : InstDef) : Bool := k == 0 ||
    (let p := is.getD (k - 1) default
     p.area < d.area || (p.area == d.area && p.inst < d.inst))
  let iniOrder (k : Nat) (d : Nat × Word) : Bool := d.1 < 65536 && (k == 0 || (ns.getD (k - 1) default).1 < d.1)
  match firstNot rs (fun k d => retainOk d && after k d && reserved k) with
  | some k => some (11, k)
  | none =>
    if 65472 < (rs.map (·.length)).sum then some (11, 0)
    else match firstNot is insOrder with
      | some k => some (11, k)
      | none => (firstNot ns iniOrder).map (fun k => (11, k))

/-- The checks of R388 up to RETAIN, in order. -/
def tallyChecks (b : List Byte) (length house : Nat) (keyHash : List Byte) : TallyRes :=
  if !tHeaderOk b then (1, 0)
  else if !tLengthOk b length then (2, 0)
  else if (crc32c ((b.take (b.length - 128)).drop 0x40)).toNat ≠ u32At b 0x30 then (3, 0)
  else if !keyTrusted keyHash b then (4, 0)
  else if !signatureOk b then (5, 0)
  else if u16At b 8 ≠ house then (6, 0)
  else
    let code := codeOf b
    match tTasks b (startsOf (code.length + 1) 0 code) with
    | some r => r
    | none =>
      let is := scanCode (code.length + 1) 0 code []
      match tCode b is with
      | some r => r
      | none =>
        let l := match is with
          | .ok l => l
          | .error _ => []
        match (tInstances b l).or ((tDepth b l).or (tRetain b)) with
        | some r => r
        | none => (0, 0)

end Sys2Proof.Machine
end

