-- ==== Sys2Proof/Machine/TallyCore.lean ====
section
/-! DEFINITION. The Logic Tally: address areas, tasks, commit, stop, restart (spec/11_logic_tally.md, R355–R359, R364–R384). -/

namespace Sys2Proof.Machine

open Sys2Proof

/-! ### Tasks (R359, R369–R372) -/

def State.task (s : State) (k : Nat) : TaskSt := s.tally.tasks.getD k default
def State.setTask (s : State) (k : Nat) (t : TaskSt) : State := { s with tally := { s.tally with tasks := s.tally.tasks.set k t } }
def State.taskDef (s : State) (k : Nat) : TaskDef := ((s.tally.prog.map (·.tasks)).getD []).getD k default
/-- A task of the running program. -/
def State.taskUsed (s : State) (k : Nat) : Bool := (s.taskDef k).kind != 0

/-- Tasks run on an ACTIVE or SOLO tablet while the controller is not stopped (R393, R491). -/
def State.tallyRuns (s : State) : Bool := s.tally.run != .stopped && s.tally.prog.isSome && s.activeOrSolo

def State.startedTasks (s : State) : List Nat := (List.range 25).filter (fun k => (s.task k).started)
/-- Released tasks that have not started. -/
def State.waitingTasks (s : State) : List Nat := (List.range 25).filter (fun k => (s.task k).rel.isSome && !(s.task k).started)

def State.taskPrio (s : State) (k : Nat) : Nat := (s.taskDef k).prio

/-- The started task of highest priority (R370). -/
def State.topTask (s : State) : Option Nat :=
  s.startedTasks.foldl (fun a k => match a with
    | some j => if s.taskPrio j < s.taskPrio k then some k else a
    | none => some k) none

/-- The task that executes the next instruction: none while a release of higher priority waits (R370). -/
def State.curTask (s : State) : Option Nat :=
  match s.topTask with
  | some k =>
    if s.waitingTasks.any (fun j => s.taskPrio k < s.taskPrio j && !(j == 24 && s.tally.run == .exchanging)) then none else some k
  | none => none

/-- Release order among equal priorities: the earlier release first, a cyclic task before an event task (R370). -/
def State.before (s : State) (j k : Nat) : Bool :=
  let a := ((s.task j).rel.getD (0, 0)).1
  let b := ((s.task k).rel.getD (0, 0)).1
  s.taskPrio k < s.taskPrio j || (s.taskPrio k == s.taskPrio j && (a < b || (a == b && j < 8 && 8 ≤ k)))

/-- A released task may start its cycle: nothing of its priority or above runs, and no better release waits. -/
def State.mayStart (s : State) (k : Nat) : Bool :=
  s.waitingTasks.contains k && s.startedTasks.all (fun j => s.taskPrio j < s.taskPrio k)
    && !s.waitingTasks.any (fun j => j != k && s.before j k) && !(k == 24 && s.tally.run == .exchanging)

/-! ### Reading (R355–R358, R374–R377) -/

/-- A timer's record. -/
def Timer.bytes (t : Timer) : List Byte :=
  leBytes 4 t.elapsed ++ leBytes 4 t.preset ++ [BitVec.ofNat 8 (b01 t.q + 2 * b01 t.running + 4 * b01 t.inPrev)]
    ++ List.replicate 7 0#8
def Counter.bytes (c : Counter) : List Byte :=
  leBytes 4 c.count.toNat ++ leBytes 4 c.preset.toNat ++ [BitVec.ofNat 8 (b01 c.q + 4 * b01 c.inPrev)] ++ List.replicate 7 0#8
def Edge.byte (e : Edge) : Byte := BitVec.ofNat 8 (b01 e.prev + 2 * b01 e.out)

def State.timerOf (s : State) (n : Nat) : Timer := (alGet s.tally.timers n).getD default
def State.counterOf (s : State) (n : Nat) : Counter := (alGet s.tally.counters n).getD default
def State.edgeOf (s : State) (n : Nat) : Edge := (alGet s.tally.edges n).getD default

/-- A live byte of areas 2 to 6. -/
def State.tLive (s : State) (area a : Nat) : Byte :=
  match area with
  | 2 => Mem.read s.tally.markers a
  | 3 => Mem.read s.tally.words a
  | 4 => (s.timerOf (a / 16)).bytes.getD (a % 16) 0
  | 5 => (s.counterOf (a / 16)).bytes.getD (a % 16) 0
  | _ => (s.edgeOf a).byte

/-- The 144 bytes of area 0 (R357). -/
def State.dioBytes (s : State) : List Byte :=
  leBytes 4 ((s.tally.dioIn &&& ~~~ s.tally.cfg.dioDir) ||| (s.tally.outImg &&& s.tally.cfg.dioDir)).toNat ++ List.replicate 12 0#8
    ++ (List.range 32).flatMap (fun n => leBytes 4 ((alGet s.tally.dioCount n).getD 0).toNat)

def TaskSt.copyOf (t : TaskSt) (m : TMod) : ModCopy := ((t.copies.find? (fun p => p.1 == m)).map Prod.snd).getD default

/-- A committed byte of areas 1, 8 and 9. -/
def State.tBase (s : State) (area a : Nat) : Byte :=
  if area = 1 then (leBytes 4 s.tally.outImg.toNat).getD a 0
  else if area = 8 then ((s.ctxOf (a / 64)).map (fun c => c.outImg.getD (a % 64) 0)).getD 0
  else (((s.bus (a / 0x4000)).txObj (slotOf a - 128)).bytes).getD (a % 64) 0

/-- The task's own writes over a byte (R375). -/
def overlay (ws : List (Nat × Nat × Byte × Byte)) (area a : Nat) (b : Byte) : Byte :=
  ws.foldl (fun b w => if w.1 = area && w.2.1 = a then (b &&& ~~~ w.2.2.1) ||| (w.2.2.2 &&& w.2.2.1) else b) b

/-- One byte of an area as a task reads it. -/
def State.tByte (s : State) (t : TaskSt) (area a : Nat) : Byte :=
  if area = 0 then (t.copyOf .dio).bytes.getD a 0
  else if area = 7 then (t.copyOf (.station (a / 64))).bytes.getD (a % 64) 0
  else if area = 9 && !slotTx a then (t.copyOf (.rx (a / 0x4000) (slotOf a))).bytes.getD (a % 64) 0
  else if area = 10 then
    let e := s.pvEntry (a / 16)
    (layPacked [f32 e.value, u32 e.stamp.toNat, u8 (qCode e.quality), u8 e.flags, u16 e.solve.toNat, f32 e.sigma]).getD (a % 16) 0
  else if area = 1 || area = 8 || area = 9 then overlay t.writes area a (s.tBase area a)
  else s.tLive area a

/-- The byte order of an access (R355, R573). -/
def State.tBig (s : State) (area a : Nat) : Bool :=
  area == 7 || area == 8 ||
    (area == 9 && (if slotTx a then ((s.bus (a / 0x4000)).txObj (slotOf a - 128)).big else ((s.bus (a / 0x4000)).rxObj (slotOf a)).big))

/-- A word, half-word or byte. -/
def State.tLoad (s : State) (t : TaskSt) (area a size : Nat) : Nat :=
  ordNat (s.tBig area a) ((List.range size).map (fun i => s.tByte t area (a + i)))

/-- A bit by its bit address. -/
def State.tBit (s : State) (t : TaskSt) (area n : Nat) : Bool := (s.tByte t area (n / 8)).getLsbD (n % 8)

/-! ### Writing (R362, R375) -/

/-- An area-8 write to the set-point block is discarded and counted (R305). -/
def State.stnBlocked (s : State) (id : Nat) : State := s.setCtx id (fun c => { c with discards := satInc c.discards })

/-- Bytes with masks written by a task from an address on. -/
def State.tPut (s : State) (k area a : Nat) (bs : List (Byte × Byte)) : State :=
  let t := s.task k
  let cells : List (Nat × Byte × Byte) := bs.zipIdx.map (fun p => (a + p.2, p.1.1, p.1.2))
  let put (m : List Host.Cell) : List Host.Cell :=
    cells.foldl (fun m (c : Nat × Byte × Byte) => Mem.write m c.1 ((Mem.read m c.1 &&& ~~~ c.2.1) ||| (c.2.2 &&& c.2.1))) m
  if area = 2 then
    let bits : List Nat := cells.flatMap (fun c => ((List.range 8).filter (fun i => c.2.1.getLsbD i)).map (fun i => c.1 * 8 + i))
    ({ s with tally := { s.tally with markers := put s.tally.markers } }).setTask k { t with pubBits := t.pubBits ++ bits }
  else if area = 3 then
    let ws : List Nat := cells.map (fun c => c.1 / 4)
    ({ s with tally := { s.tally with words := put s.tally.words } }).setTask k
      { t with pubWords := t.pubWords ++ ws.dedup }
  else if area = 8 && 48 ≤ a % 64 then s.stnBlocked (a / 64)
  else s.setTask k { t with writes := t.writes ++ cells.map (fun c => (area, c.1, c.2.1, c.2.2)) }

/-- Store to a timer's PRESET or a counter's COUNT or PRESET. -/
def State.tPutInst (s : State) (k area a : Nat) (v : Word) : State :=
  let n := a / 16
  let t := s.task k
  let s : State := s.setTask k { t with touched := t.touched ++ [(area, n)] }
  if area = 4 then
    { s with tally := { s.tally with timers := alPut s.tally.timers n { s.timerOf n with preset := v.toNat } } }
  else
    let c := s.counterOf n
    { s with tally := { s.tally with
      counters := alPut s.tally.counters n (if a % 16 = 0 then { c with count := v } else { c with preset := v }) } }

/-- Store `size` bytes of W. -/
def State.tStore (s : State) (k area a size : Nat) (v : Nat) : State :=
  if area = 4 || area = 5 then s.tPutInst k area a (word v)
  else s.tPut k area a ((ordBytes (s.tBig area a) size v).map (fun b => (0xFF#8, b)))

def State.tStoreBit (s : State) (k area n : Nat) (v : Bool) : State :=
  let m : Byte := BitVec.ofNat 8 (2 ^ (n % 8))
  s.tPut k area (n / 8) [(m, if v then m else 0#8)]

/-! ### Releases (R369, R371) -/

/-- A trigger of an event task: one pending release at most, further ones merged and counted. -/
def State.tTrigger (s : State) (k : Nat) : State :=
  if !s.tallyRuns || !s.taskUsed k || s.tally.en ≠ .enabled then s
  else
    let t := s.task k
    if t.rel.isSome then (s.setTask k { t with merged := t.merged + 1 }).raiseTimed 0x85 k [u16 k]
    else s.setTask k { t with rel := some (s.tai, s.now) }

/-- Trigger every event task whose trigger matches. -/
def State.tEvents (s : State) (f : Nat → Bool) : State :=
  (List.range 16).foldl (fun s i => if s.taskUsed (8 + i) && f (s.taskDef (8 + i)).param then s.tTrigger (8 + i) else s) s

/-- A context's change of state (R371). -/
def State.tStation (s : State) (id : Nat) : State :=
  s.tEvents (fun p => p / 2 ^ 28 == 3 && (p / 2 ^ 15 % 2 == 1 || p % 2 ^ 10 == id))
/-- A frame updates a receive object. -/
def State.tRx (s : State) (b o : Nat) : State :=
  s.tEvents (fun p => p / 2 ^ 28 == 2 && p / 256 % 2 == b && p % 128 == o)
/-- An edge of a line. -/
def State.tEdge (s : State) (line : Nat) (rising : Bool) : State :=
  s.tEvents (fun p => p / 2 ^ 28 == 1 && p % 32 == line && (p / 32 % 4 == 2 || p / 32 % 4 == (if rising then 0 else 1)))

/-- The background task is released at once, the cyclic tasks at their next instants (R369, R393). -/
def State.tSchedule (s : State) : State :=
  let one (k : Nat) (t : TaskSt) : TaskSt :=
    { t with lastPer := if t.lastPer = s.tai then s.tai else s.tai - 1, rel := if k = 24 && s.taskUsed 24 then some (s.tai, s.now) else t.rel }
  { s with tally := { s.tally with tasks := s.tally.tasks.zipIdx.map (fun p => one p.2 p.1) } }

/-- End every cycle and release, discarding the change sets (R380). -/
def State.tHalt (s : State) : State :=
  { s with tally := { s.tally with tasks := s.tally.tasks.map (fun t => { t with
      rel := none, started := false, stack := [], writes := [], pubBits := [], pubWords := [], touched := [], copies := [],
      runFrom := none }) } }

/-! ### Local outputs (R357, R380, R384, R393) -/

/-- The levels of the output lines: the committed image, or SAFE_DIO on a tablet that does not run tasks and has TWIN_OUT 0. -/
def State.driveDio (s : State) : State :=
  if !s.driven then s
  else
    let own := s.activeOrSolo || s.tally.cfg.flags % 2 == 1
    s.emit (.dio ((if own then s.tally.outImg else s.tally.cfg.safeDio) &&& s.tally.cfg.dioDir))

/-! ### Orders' answer -/

/-- TALLY_RESULT. -/
def State.tallyAnswer (s : State) (ref : OrderRef) (opcode st detail : Nat) : State :=
  s.answer ref opcode (ownReport st [u8 st, u8 0, u16 detail, u32 s.tallyRev])

/-- An exchange that waits is refused, and the background task goes on (R390). -/
def State.refuseExchange (s : State) : State :=
  match s.tally.exch with
  | some x =>
    let go := s.tally.run == .exchanging
    let s : State := { s with tally := { s.tally with exch := none, run := if go then .running else s.tally.run } }
    let b := s.task 24
    let s : State := if go && s.taskUsed 24 && !b.started && b.rel.isNone && s.tally.en = .enabled && s.activeOrSolo then
      s.setTask 24 { b with rel := some (s.tai, s.now) } else s
    s.tallyAnswer x.ref 0x0A02 0x12 0
  | none => s

/-! ### Stop (R380) -/

/-- A Tally whose disable waited for its cycles is DISABLED (R392). -/
def State.tQuiesced (s : State) : State :=
  if s.tally.en = .quiescing then
    let n := s.tally.quiesced
    ({ s with tally := { s.tally with en := .disabled, quiesced := 0 } }).raise 0x89 [u32 n]
  else s

/-- The effects of a stop; a disable that waited for the cycles it ends is complete with it (R43, R392). -/
def State.tStopNow (s : State) (cause task index limit : Nat) : State :=
  let s : State := { s with tally := { s.tally with
    run := .stopped, stopCause := cause, stopIndex := index, stopStamp := s.stamp32, outImg := s.tally.cfg.safeDio } }
  let s : State := s.tHalt.driveDio.checkPermits
  let s : State := s.busSafe.stnSafe
  (s.raise 0x80 [u16 cause, u16 task, u32 index, u32 limit]).refuseExchange.tQuiesced

/-- The controller stops. -/
def State.tStop (s : State) (cause task index limit : Nat) : State :=
  if s.tally.run = .stopped then s else s.tStopNow cause task index limit

/-- The instruction index of a task: its next instruction, or its entry before its start. -/
def State.tIndex (s : State) (k : Nat) : Nat := if (s.task k).started then (s.task k).pc else (s.taskDef k).entry

/-- A stop that no task causes. -/
def State.tStopPlain (s : State) (cause : Nat) : State :=
  match s.topTask with
  | some k => s.tStop cause k (s.tIndex k) 0
  | none => s.tStop cause 0xFFFF 0 0

/-- A quiescing Tally without a cycle in progress stops with cause 5 and is DISABLED (R392). -/
def State.tSettle (s : State) : State :=
  if s.tally.en = .quiescing && s.startedTasks.isEmpty then
    if s.tally.run = .stopped then s.tQuiesced else s.tStop 5 0xFFFF 0 0
  else s

/-! ### Restart (R381–R384, R389) -/

/-- Bytes of the retentive ranges, with their places. -/
def State.retBytes (s : State) (rs : List RetainDef) : List (Nat × Nat × Byte) :=
  rs.flatMap (fun r => (List.range r.length).map (fun i => (r.area, r.start + i, s.tLive r.area (r.start + i))))

/-- What RAM keeps through a stop (R383): the retentive bytes, but for an instance that RAM does not hold and an edge detector that has
not been evaluated, which have nothing to keep. -/
def State.ramKeep (s : State) (rs : List RetainDef) : List (Nat × Nat × Byte) :=
  let held (c : Nat × Nat × Byte) : Bool :=
    if c.1 = 4 then (alGet s.tally.timers (c.2.1 / 16)).isSome
    else if c.1 = 5 then (alGet s.tally.counters (c.2.1 / 16)).isSome
    else if c.1 = 6 then (s.edgeOf c.2.1).known else true
  (s.retBytes rs).filter held

/-- The places of the retentive ranges. -/
def retPlaces (rs : List RetainDef) : List (Nat × Nat) :=
  rs.flatMap (fun r => (List.range r.length).map (fun i => (r.area, r.start + i)))

/-- A kept instance record: its 16 bytes, by the instance's number. -/
def keptRec (keep : List (Nat × Nat × Byte)) (area n : Nat) : Option (List Byte) :=
  let bs := (List.range 16).filterMap (fun i => ((keep.find? (fun c => c.1 == area && c.2.1 == n * 16 + i)).map (fun c => c.2.2)))
  if bs.length = 16 then some bs else none

def timerOfBytes (b : List Byte) : Timer :=
  let st := u8At b 8
  { elapsed := u32At b 0, preset := u32At b 4, q := st % 2 == 1, running := st / 2 % 2 == 1, inPrev := st / 4 % 2 == 1,
    frac := 0, last := none }
def counterOfBytes (b : List Byte) : Counter :=
  let st := u8At b 8
  { count := word (u32At b 0), preset := word (u32At b 4), q := st % 2 == 1, inPrev := st / 4 % 2 == 1,
    upPrev := st / 4 % 2 == 1, downPrev := st / 4 % 2 == 1 }

/-- A fresh instance: everything 0, PRESET from the instance table. -/
def freshTimer (d : InstDef) : Timer := ⟨0, d.preset.toNat, false, false, false, 0, none⟩
def freshCounter (d : InstDef) : Counter := ⟨0, d.preset, false, false, false, false⟩

/-- The areas' contents at a restart (R383): initial values, then what is kept. -/
def Tally.fresh (t : Tally) (p : Prog) (keep : List (Nat × Nat × Byte)) : Tally :=
  let putMem (area : Nat) (m : List Host.Cell) : List Host.Cell :=
    (keep.filter (fun c => c.1 == area)).foldl (fun m c => Mem.write m c.2.1 c.2.2) m
  let words := p.inits.foldl (fun m d => Mem.writes m (4 * d.1) (leBytes 4 d.2.toNat)) []
  let markers := putMem 2 []
  let words := putMem 3 words
  let timers := (p.insts.filter (fun d => d.area == 4)).foldl (fun l d =>
    alPut l d.inst (((keptRec keep 4 d.inst).map timerOfBytes).getD (freshTimer d))) []
  let counters := (p.insts.filter (fun d => d.area == 5)).foldl (fun l d =>
    alPut l d.inst (((keptRec keep 5 d.inst).map counterOfBytes).getD (freshCounter d))) []
  let edge (d : InstDef) : Edge := match keep.find? (fun c => c.1 == 6 && c.2.1 == d.inst) with
    | some c => ⟨c.2.2.getLsbD 0, c.2.2.getLsbD 1, true⟩
    | none => ⟨false, false, false⟩
  let edges := (p.insts.filter (fun d => d.area == 6)).foldl (fun l d => alPut l d.inst (edge d)) []
  { t with markers := markers, words := words, pubMarkers := markers, pubWords := words, timers := timers, counters := counters,
           edges := edges }

/-- Transmit objects of the Tally start from their safe data (R383). -/
def State.txSafe (s : State) : State :=
  let one (s : State) (b o : Nat) : State :=
    if s.tallyOwns b o then s.loadTx b o ((s.bus b).txObj o).safe else s
  (List.range 2).foldl (fun s b => ((s.bus b).tx.map Prod.fst).foldl (fun s o => one s b o) s) s

/-- A restart (R383). `flash`: at start-up. -/
def State.tStart (s : State) (warm flash : Bool) : State :=
  match s.tally.prog with
  | none => s
  | some p =>
    let stored := s.tally.flash.getD ⟨[], 0xFFFFFFFF, 0⟩
    let crc := crc32c (stored.cells.map (fun c => c.2.2))
    let ok := s.tally.flash.isSome && crc == stored.crc && stored.cells.map (fun c => (c.1, c.2.1)) == retPlaces p.retains
    let s : State := if warm && flash && !ok then s.raise 0x82 [u32 stored.crc.toNat, u32 crc.toNat] else s
    let kept := warm && (!flash || ok)
    let keep := if !kept then [] else if flash then stored.cells else s.ramKeep p.retains
    let part := if flash then stored.partWay else 0
    let s : State := { s with tally := { (s.tally.fresh p keep) with run := .running, mode := b01 (!kept), outImg := s.tally.cfg.safeDio } }
    let s : State := (s.tHalt.txSafe.stnSafe).driveDio
    let s : State := s.raise 0x81 [u16 (b01 (!kept)), u16 s.tally.bank, u32 p.revision, u32 part]
    if s.activeOrSolo then s.tSchedule else s

/-- Run a bank's image. -/
def State.runBank (s : State) (i : Nat) : State :=
  { s with tally := { s.tally with bank := i, prog := some (parseProg (s.tally.banks.getD i default).bytes) } }

def State.bankStatus (s : State) (i : Nat) : Nat :=
  let b := (s.tally.banks.getD i default).bytes
  (tallyChecks b b.length s.houseId s.fuse).1

def State.setBank (s : State) (i : Nat) (x : Bank) : State :=
  { s with tally := { s.tally with banks := s.tally.banks.set i x } }

/-- The bank not in use. -/
def State.spareBank (s : State) : Nat := if s.tally.prog.isSome && s.tally.bank = 0 then 1 else 0

/-- The loaded bank becomes the running bank, with the next activation sequence (R389). -/
def State.activateBank (s : State) : State :=
  let i := s.spareBank
  let q := (s.tally.banks.map (·.seq)).foldl max 0 + 1
  let s : State := s.setBank i { s.tally.banks.getD i default with seq := q }
  ({ s with tally := { s.tally with loaded := false } }).runBank i

/-- After a reset: whether the other bank holds a checked image that has not run (R394, R396). -/
def State.noteLoaded (s : State) : State :=
  let i := s.spareBank
  let b := s.tally.banks.getD i default
  { s with tally := { s.tally with loaded := b.seq == 0 && !b.bytes.isEmpty && s.bankStatus i == 0 } }

/-- Start-up step 9 (R384, R389): the bank with the highest activation sequence is checked, then the other, whether or not it has ever
run; a bank run without a sequence gets the next. Where neither bank has a sequence none has become the running bank, and none runs. -/
def State.bootBank (s : State) : State :=
  let q (i : Nat) : Nat := (s.tally.banks.getD i default).seq
  let first := if q 0 < q 1 then 1 else 0
  let other := 1 - first
  let s : State := { s with tally := { s.tally with mode := s.tally.cfg.restart } }
  let boot (s : State) (i : Nat) : State := (s.runBank i).tStart (s.tally.cfg.restart == 0) true
  let st := s.bankStatus first
  if q first ≠ 0 && st = 0 then boot s first
  else
    let s : State := if q first = 0 then s else s.raise 0x87 [u16 first, u16 st]
    let st2 := s.bankStatus other
    let held : Bool := !(s.tally.banks.getD other default).bytes.isEmpty
    if q first ≠ 0 && held && st2 = 0 then
      boot (if q other = 0 then s.setBank other { s.tally.banks.getD other default with seq := q first + 1 } else s) other
    else
      let s : State := if q first = 0 || !held then s else s.raise 0x87 [u16 other, u16 st2]
      (s.tStopNow 7 0xFFFF 0 0).raise 0x88 [u16 (s.bankStatus 0), u16 (s.bankStatus 1)]

def State.tallyBoot (s : State) : State := s.bootBank.noteLoaded

/-- Start-up step 11: the images in force are applied (R384); of a stopped Tally's objects only those with SEND_ON_STOP (R380). -/
def State.tallyLive (s : State) : State :=
  let sends (b o : Nat) : Bool := s.tally.run != .stopped || ((s.bus b).txObj o).sendOnStop
  let one (s : State) (b o : Nat) : State := if s.tallyOwns b o && sends b o then s.handBus b o none else s
  (List.range 2).foldl (fun s b => ((s.bus b).tx.map Prod.fst).foldl (fun s o => one s b o) s) s.driveDio

/-! ### Role changes (R393) -/

/-- The tablet no longer runs tasks: cycles end without commit, and with them a disable that waited for one (R392). -/
def State.tallyLeave (s : State) : State := s.tHalt.refuseExchange.driveDio.tSettle

/-- The tablet runs tasks again; `takeover`: it has been promoted. -/
def State.tallyTake (s : State) (takeover : Bool) : State :=
  if s.tally.run = .stopped || s.tally.prog.isNone then s.driveDio
  else
    let s : State := s.tSchedule.driveDio
    if takeover then s.raise 0x8A [u32 s.tallyRev, u32 (min ((s.now - s.tally.lastMirror) / usNs) 0xFFFFFFFF)] else s

end Sys2Proof.Machine
end

