-- ==== Sys2Proof/Machine/StartUp.lean ====
section
/-! DEFINITION. Start-up: what the end of one step begins (spec/20_supplies_startup_ratings.md, R671), and what a change of the
twin's role starts and stops (R491, R499, R502). -/

namespace Sys2Proof.Machine

open Sys2Proof

/-! ### The engines and the role (R203, R238, R269, R345, R393) -/

/-- What a swap waits for has ended now (R141). -/
def State.noteClear (s : State) : State := { s with model := { s.model with clearAt := s.tai } }

/-- The Reckoner reaches DISABLED (R43, R166); parameter: the solve retired, 0 for none. -/
def State.settleReck (s : State) (retired : Nat) : State :=
  if s.reck.en = .quiescing && s.reck.running.isNone then
    ({ s with reck := { s.reck with en := .disabled } }).raise 0x35 [u32 retired]
  else s

/-- A Reckoner solve under way ends without report (R502). -/
def State.reckDrop (s : State) : State :=
  match s.reck.running with
  | some r => (({ s with reck := { s.reck with running := none } }).noteClear).settleReck r.number
  | none => s

/-- Planning, look-ahead, rollouts and Tally tasks end, and the loops track: the tablet becomes STANDBY or ISOLATED. -/
def State.enginesStop (s : State) : State := s.modelLeave.reckDrop.optDrop.laDrop.rollDrop.tallyLeave.loopsFollow

/-- The tablet commands: its sequencer goes on with the mirrored rollouts, its loops close, its Tally releases its tasks,
the optimiser hands nothing over until a pressure solve has published, and contexts that quiesce without a transaction end (R238, R270,
R318, R345, R393). -/
def State.enginesStart (s : State) : State :=
  let s : State := { s with opt := { s.opt with holdHandover := true } }
  s.stnConfigured.foldl State.settleCtx ((s.rollTakeOver.loopsPromote).tallyTake true)

/-- A negotiation won: the Tally releases its tasks. -/
def State.enginesResume (s : State) : State := s.tallyTake false

/-- A SOLO tablet begins to negotiate: it plans and commands nothing (R491). -/
def State.enginesPause (s : State) : State := s.optDrop.laDrop.rollDrop.tallyLeave.loopsOpen

/-! ### The steps -/

/-- A TRIAL bank that has reached step 11 is confirmed (R653). -/
def State.confirmBank (s : State) : State :=
  match s.fw.running with
  | none => s
  | some i =>
    let b := s.fw.banks.getD i default
    if b.trial then
      let s : State := { s with fw := { s.fw with banks := s.fw.banks.modify i (fun b => { b with trial := false }) } }
      s.raise 0xF6 [u16 i, u32 (u32At b.bytes 8)]
    else s

/-- Step 11: the outputs are enabled, a TRIAL bank is confirmed, START_DONE. -/
def State.step11 (s : State) : State :=
  let ms := (s.now - s.sup.startedAt) / (10 * msNs)
  let s : State := { s with sup := { s.sup with step := 11, elapsed := min ms 0xFFFF } }
  let s : State := s.loopsStart.tallyLive
  let s : State := s.confirmBank
  let s : State := s.raise 0x00 [u16 (causeCode s.sup.cause), u32 s.sup.elapsed,
    u16 s.tally.mode, u16 (roleCode s.twin.role)]
  { s with sup := { s.sup with step := 12 } }

/-- Step 9: the Tally restarts; step 10 waits for the Reckoner's first solve. -/
def State.step9 (s : State) : State :=
  let s : State := ({ s with sup := { s.sup with step := 9 } }).tallyBoot
  { s with sup := { s.sup with step := 10 } }

/-- Step 8: a twin tablet negotiates; a tablet without a twin is SOLO, with an epoch that is not 0 (R28, R491, R494). -/
def State.step8 (s : State) : State :=
  let s : State := { s with sup := { s.sup with step := 8 } }
  let e := epochMax s.twin.storedEpoch s.twin.flashEpoch
  let s : State := { s with twin := { s.twin with epoch := e } }
  if s.twinEn then ({ s with twin := { s.twin with en := .enabled } }).beginNegotiation cStart
  else
    let s : State := if e = 0 then s.setEpoch (epochStep e) else s
    (s.setRole .solo cStart).step9

/-- Step 7: time acquisition begins; a clock that has locked already ends it. -/
def State.step7 (s : State) : State :=
  let s : State := { s with sup := { s.sup with step := 7 }, time := { s.time with acqStart := s.now } }
  if s.time.firstLock then s.step8 else s

/-- The end of step `n`: the next one begins, unless the hold-up sequence runs (R663). -/
def State.stepDone (s : State) (n : Nat) : State :=
  if s.sup.holdUp then s
  else if n = 6 then s.step7
  else if n = 7 then s.step8
  else if n = 8 then s.step9
  else if n = 10 then s.step11
  else { s with sup := { s.sup with step := n + 1 } }

end Sys2Proof.Machine
end

