-- ==== Sys2Proof/Machine/Ring.lean ====
section
/-! DEFINITION. The commands of the ring ports and the bypass legs, and of the TX stamp queues
(spec/13_ring_bypass_time.md, R450–R461, R476–R479). -/

namespace Sys2Proof.Machine

open Sys2Proof

/-! ### Bypass legs (R457–R460) -/

/-- Causes of R457 by their place in its list, from 0. -/
def legUnpowered : Nat := 0
def legReset : Nat := 1
def legBeam : Nat := 2
def legHouse : Nat := 3
def legRing : Nat := 4
def legAtStart : Nat := 5

/-- The station frames that have not been handed over retire (R455). -/
def State.retireAllFrames (s : State) : State := (s.stn.ctxs.map (·.cfg.station)).foldl State.retireFrames s

/-- The legs close; frames not yet handed over retire, the HSR tables empty, and the ring is DISABLED (R455, R457). `waiting`: other
frames than the stations' that were on their way to a transmit crossing. -/
def State.closeLegs (s : State) (cause waiting : Nat) : State :=
  let was := s.ring
  let gone := s.framesWaiting + waiting
  let s : State := { s with ring := { was with
    en := .disabled, legsClosed := true, ready := false, dups := [], nodes := [], owedA := none, owedB := none,
    framesRetired := if was.en = .disabled then was.framesRetired else gone } }
  let s : State := if was.en = .disabled then s else (s.retireAllFrames).raise 0xB7 [u16 gone]
  (if was.legsClosed then s else s.raise 0xB1 [u16 cause]).judgeFit

/-- BYPASS_AT_START keeps the legs closed (R457). -/
def State.bypassAtStart (s : State) : Bool := s.fld rRingCfgReg 3 3 == 1 && !s.ring.bypassReleased

/-- A cause of R457 holds while the tablet runs. -/
def State.legsMustClose (s : State) : Bool := s.houseId == 0 || s.ring.bypassed || s.fab.beamLost || s.bypassAtStart

/-- The ports are declared ready (R459). -/
def State.portsReady (s : State) : State := { s with ring := { s.ring with ready := true, readyAt := s.now, portsUp := true } }

/-- LEGS_OPEN (R459): 2 ms after the ports are ready; where BYPASS_AT_START keeps the legs closed, start-up goes on. -/
def State.legsOpen (s : State) : State :=
  let r := s.ring
  if r.ready && r.readyAt + 2 * msNs ≤ s.now && r.legsClosed then
    let s : State :=
      if s.legsMustClose then s
      else (({ s with ring := { r with en := .enabled, legsClosed := false, senseDiff := 0 } }).raise 0xB2
        [u32 ((s.now - r.readyAt) / usNs)]).judgeFit
    if s.sup.step = 6 then s.stepDone 6 else s
  else s

def execLegsOpen (s : State) : Host.Outcome State Fault Refusal := .next s.legsOpen

/-- LEGS_SENSE_CHECK (R460). -/
def State.legsSense (s : State) (measuredClosed : Bool) : State :=
  let r := { s.ring with senseAt := s.now }
  if s.now < s.ring.senseAt + msNs then s
  else if measuredClosed = r.legsClosed then
    { s with ring := { r with senseDiff := 0, legsSense := measuredClosed } }
  else
    let s : State := { s with ring := { r with
      senseDiff := r.senseDiff + 1, legsSense := if 3 ≤ r.senseDiff + 1 then measuredClosed else r.legsSense } }
    if r.senseDiff + 1 = 3 then s.raise 0xB3 [u16 (b01 r.legsClosed), u16 (b01 measuredClosed)] else s

def execLegsSenseCheck (measuredClosed : Bool) (s : State) : Host.Outcome State Fault Refusal :=
  .next (s.legsSense measuredClosed)

/-- RING_BYPASS (R456): BYPASS 0 brings ports that start-up has declared ready back through the steps of R459. `waiting`: as in
`closeLegs`. -/
def State.ringBypass (s : State) (ref : OrderRef) (bypass force waiting : Nat) : State :=
  let done (s : State) (st : Nat) : State := s.answer ref 0x0C01 (orderDone st)
  if 1 < bypass || 1 < force then done s stRange
  else if bypass = 1 then
    if s.twin.role = .active && force = 0 then done s stRange
    else done (({ s with ring := { s.ring with bypassed := true } }).closeLegs legRing waiting) stDone
  else
    let s : State := { s with ring := { s.ring with bypassed := false, bypassReleased := true } }
    done (if s.ring.legsClosed && s.ring.portsUp then s.portsReady else s) stDone

def execRingBypass (ref : OrderRef) (bypass force waiting : Nat) (s : State) : Host.Outcome State Fault Refusal :=
  .next (s.runOrder ref 0x0C01 (fun s => s.ringBypass ref bypass force waiting))

/-! ### HSR (R450–R454) -/

/-- The tablet's MAC address in RING_MAC_HI and RING_MAC_LO (R451). -/
def State.ringMac (s : State) : Nat := bits (s.reg 0x4010).toNat 15 0 * 2 ^ 32 + (s.reg 0x400C).toNat

def dupForget : Nat := 400 * msNs
def dupMax : Nat := 4096
def nodeMax : Nat := 2048

/-- The oldest entry leaves a full table. -/
def dropOldest (l : List DupEntry) : List DupEntry :=
  match l.foldl (fun (a : Option DupEntry) e => match a with
      | some b => if e.heard < b.heard then some e else a
      | none => some e) none with
  | some o => l.erase o
  | none => l

/-- Enter a frame in the duplicate table, and say whether it is a duplicate. -/
def State.dupCheck (s : State) (f : RingFrame) : State × Bool :=
  let r := s.ring
  let live := r.dups.filter (fun e => s.now < e.heard + dupForget)
  if live.any (fun e => e.mac == f.mac && e.seq == f.seq) then
    ({ s with ring := { r with dups := live, dupDrop := satInc r.dupDrop } }, true)
  else if live.length < dupMax then
    ({ s with ring := { r with dups := live ++ [(⟨f.mac, f.seq, s.now⟩ : DupEntry)] } }, false)
  else
    let s : State := { s with ring := { r with
      dups := dropOldest live ++ [(⟨f.mac, f.seq, s.now⟩ : DupEntry)], dupEvict := satInc r.dupEvict } }
    (s.raiseTimed2 0xB5 0 [] true 1 0, false)

/-- Enter a node in the node table; a full table refuses it. -/
def State.noteNode (s : State) (mac : Nat) : State :=
  let r := s.ring
  if (alGet r.nodes mac).isSome || r.nodes.length < nodeMax then { s with ring := { r with nodes := alPut r.nodes mac s.now } }
  else ({ s with ring := { r with nodeFull := satInc r.nodeFull } }).raiseTimed2 0xB5 0 [] true 0 1

/-- One of the tablet's own supervision frames is back on a port; the ring is whole again once both ports have them (R454). -/
def State.ownBack (s : State) (port : Nat) : State :=
  let r := s.ring
  let r := if port = 0 then { r with owedA := none } else { r with owedB := none }
  if r.ringOpen && r.owedA.isNone && r.owedB.isNone then
    ({ s with ring := { r with ringOpen := false } }).raise 0xB4 [u16 port, u16 0]
  else { s with ring := r }

/-- The answer to a request for one of the tablet's addresses, of a family that is on (R451). -/
def State.answerAsk (s : State) (mac : Nat) (asked : Option IpAddr) : State :=
  match asked with
  | some a =>
    if s.familyUp a.v6 && a = s.ownIp a.v6 then
      ({ s with ring := { s.ring with hsrSeq := s.ring.hsrSeq + 1 } }).cross (txXings 3)
        (.neighbour s.ring.hsrSeq s.ringVlan mac a)
    else s
  | none => s

/-- The largest ring frame, with its HSR tag and FCS (R450). -/
def ringFrameMax : Nat := 1528

/-- RING_FRAME_RX (R450–R453). -/
def State.ringFrame (s : State) (port : Nat) (f : RingFrame) : State :=
  if s.ring.legsClosed || s.ring.en = .disabled || 1 < port || ringFrameMax < f.length then s
  else if !f.tagOk then
    ({ s with ring := { s.ring with foreign := satInc s.ring.foreign } }).raiseTimed 0xB6 port [u16 port]
  else if f.mac = s.ringMac then (if f.ownSupervision then s.ownBack port else s)
  else
    let s : State := s.noteNode f.mac
    let d := s.dupCheck f
    if d.2 then d.1
    else
      let s : State := d.1
      let modeN := s.fld rRingCfgReg 2 2 = 1
      let s : State := if f.dest = .me || modeN then s else s.emit (.ringForward (1 - port))
      if f.dest = .others then s else (s.emit (.ringUp port)).answerAsk f.mac f.asks

def execRingFrameRx (port : Nat) (f : RingFrame) (s : State) : Host.Outcome State Fault Refusal :=
  .next (s.ringFrame port f)

/-- LifeCheckInterval (R450). -/
def lifeCheck : Nat := 2 * secNs

/-- HSR_SUPERVISION, every LifeCheckInterval: one frame with one sequence number on both ports, which each port owes the other. -/
def State.supervision (s : State) : State :=
  let r := s.ring
  if r.en = .disabled || r.legsClosed || s.now < (r.supAt.map (· + lifeCheck)).getD 0 then s
  else ({ s with ring := { r with
    hsrSeq := r.hsrSeq + 1, supAt := some s.now, owedA := r.owedA.or (some s.now), owedB := r.owedB.or (some s.now) } }).cross
    (txXings 3) (.supervision r.hsrSeq s.ringVlan)

def execHsrSupervision (s : State) : Host.Outcome State Fault Refusal := .next s.supervision

/-- The frames that a port is owed have not come back for 3 intervals (R454). -/
def State.owedLong (s : State) (o : Option Nat) : Bool := (o.map (fun t => decide (t + 3 * lifeCheck ≤ s.now))).getD false

/-- RING_OPEN_DETECT. -/
def State.ringOpenDetect (s : State) : State :=
  let r := s.ring
  if !r.ringOpen && (s.owedLong r.owedA || s.owedLong r.owedB) then
    ({ s with ring := { r with ringOpen := true, openCnt := satInc r.openCnt } }).raise 0xB4
      [u16 (if s.owedLong r.owedA then 0 else 1), u16 1]
  else s

def execRingOpenDetect (s : State) : Host.Outcome State Fault Refusal := .next s.ringOpenDetect

/-- NODE_FORGET_TIME (R450): unheard for 60 s. -/
def State.forgetNode (s : State) (mac : Nat) : State :=
  match alGet s.ring.nodes mac with
  | some t => if t + 60 * secNs ≤ s.now then { s with ring := { s.ring with nodes := alDel s.ring.nodes mac } } else s
  | none => s

def execNodeForgetTime (mac : Nat) (s : State) : Host.Outcome State Fault Refusal := .next (s.forgetNode mac)

/-- LINK_CHANGE (R490, R492); an ACTIVE counts from the moment both links are down (R501). -/
def State.linkChange (s : State) (port : Nat) (up speed100 : Bool) : State :=
  if 1 < port then s
  else
    let r := s.ring
    -- a port runs at the speed set for it, and at no other (R450)
    let up := up && speed100 == (s.fld rRingCfgReg port port == 1)
    let r := if port = 0 then { r with linkA := up, spdA := up && speed100 } else { r with linkB := up, spdB := up && speed100 }
    let down := !r.linkA && !r.linkB
    let r := { r with bothDownSince := if down then (match s.ring.bothDownSince with
      | some t => some t
      | none => some s.now) else none }
    let same : Bool := r.linkA == s.ring.linkA && r.linkB == s.ring.linkB && r.spdA == s.ring.spdA && r.spdB == s.ring.spdB
    let s : State := { s with ring := r }
    (if same then s else (s.alarm 0x09).raise 0xB0 [u16 port, u16 (b01 up), u16 (b01 speed100)]).judgeFit

def execLinkChange (port : Nat) (up speed100 : Bool) (s : State) : Host.Outcome State Fault Refusal :=
  .next (s.linkChange port up speed100)

/-! ### Sending and TX stamps (R476–R479) -/

def stampLife : Nat := 10 * msNs
def TxQueue.take (q : TxQueue) (now : Nat) : Option (Nat × TxQueue) :=
  match q.pool.issue 4096 16 with
  | some (ig, p) => some (ig.2 * 4096 + ig.1, { q with pool := p, live := q.live ++ [(ig.1, ig.2, now + stampLife)] })
  | none => none

def State.txQ (s : State) (q : Nat) : TxQueue := s.time.txq.getD q default
def State.setTxQ (s : State) (q : Nat) (x : TxQueue) : State :=
  { s with time := { s.time with txq := s.time.txq.set q x } }

/-- The stamp queues a port's request takes its ids from. -/
def stampQueues (port : Nat) : List Nat := if port = 3 then [0, 1] else [port]

def State.ringSent (s : State) (ref : OrderRef) (st a b : Nat) : State :=
  s.answer ref 0x0C02 (ownReport st [u8 st, u8 0, u16 a, u16 b])

/-- The host's frame leaves (R479): on the ring with the next HSR sequence number and the ring's VLAN tag. -/
def State.sendFrame (s : State) (port : Nat) (bytes : List Byte) : State :=
  let tag := if port = 2 then none else some (s.ring.hsrSeq, s.ringVlan)
  let s : State := if port = 2 then s else { s with ring := { s.ring with hsrSeq := s.ring.hsrSeq + 1 } }
  s.cross (txXings port) (.frameTx port tag bytes)

/-- RING_SEND (R479). -/
def State.ringSend (s : State) (ref : OrderRef) (port : Nat) (stamp : Bool) (f : SendFrame) : State :=
  let send (s : State) : State := s.sendFrame port (f.data.take f.length)
  if 3 < port || !between 60 1514 f.length then s.ringSent ref 1 0xFFFF 0xFFFF
  else if port ≠ 2 && s.ring.en ≠ .enabled then s.ringSent ref 2 0xFFFF 0xFFFF
  else if !stamp then (send s).ringSent ref 0 0xFFFF 0xFFFF
  else
    let qs := stampQueues port
    let got := qs.map (fun q => (q, (s.txQ q).take s.now))
    if got.any (fun g => g.2.isNone) then s.ringSent ref 3 0xFFFF 0xFFFF
    else
      let s : State := got.foldl (fun s g => match g.2 with
        | some x => s.setTxQ g.1 x.2
        | none => s) s
      let idOf (q : Nat) : Nat := ((got.find? (fun g => g.1 == q)).bind (fun g => g.2.map Prod.fst)).getD 0xFFFF
      (send s).ringSent ref 0 (if port = 2 then idOf 2 else idOf 0) (idOf 1)

def execRingSend (ref : OrderRef) (port : Nat) (stamp : Bool) (frame : SendFrame) (s : State) :
    Host.Outcome State Fault Refusal :=
  .next (s.runOrder ref 0x0C02 (fun s => s.ringSend ref port stamp frame))

/-- TX_STAMP_CAPTURE (R476, R477). A stamp that finds its queue full is dropped; its request stays live until its 10 ms are over. -/
def State.stampCapture (s : State) (q id gen : Nat) : State :=
  if 3 ≤ q then s
  else
    let x := s.txQ q
    if x.live.any (fun l => l.1 == id && l.2.1 == gen && s.now < l.2.2) then
      if x.entries.length < 32 then
        s.setTxQ q { x with
          live := x.live.filter (fun l => !(l.1 == id && l.2.1 == gen)), pool := x.pool.free id gen,
          entries := x.entries ++ [⟨id, gen, s.tai⟩] }
      else
        let s : State := s.setTxQ q { x with drop := satInc x.drop }
        let s : State := { s with time := { s.time with txqOvf := setBit s.time.txqOvf q } }
        s.raiseTimed2 0xC6 q [u16 q] true 1 0
    else (s.setTxQ q { x with late := satInc x.late }).raiseTimed2 0xC6 q [u16 q] true 0 1

def execTxStampCapture (q id gen : Nat) (s : State) : Host.Outcome State Fault Refusal := .next (s.stampCapture q id gen)

/-- TX_STAMP_EXPIRY (R476). -/
def State.stampExpiry (s : State) (q id gen : Nat) : State :=
  let x := s.txQ q
  if q < 3 && x.live.any (fun l => l.1 == id && l.2.1 == gen && l.2.2 ≤ s.now) then
    s.setTxQ q { x with live := x.live.filter (fun l => !(l.1 == id && l.2.1 == gen)), pool := x.pool.free id gen }
  else s

def execTxStampExpiry (q id gen : Nat) (s : State) : Host.Outcome State Fault Refusal := .next (s.stampExpiry q id gen)

/-- TXQ_HEAD_WRITE (R478): the entries before the new HEAD are released. -/
def State.txqHead (s : State) (q : Nat) (head : Word) : State :=
  let x := s.txQ q
  let n := (head - word x.head).toNat
  if q < 3 && n ≤ x.entries.length then s.setTxQ q { x with entries := x.entries.drop n, head := head.toNat } else s

def execTxqHeadWrite (q : Nat) (head : Word) (s : State) : Host.Outcome State Fault Refusal := .next (s.txqHead q head)

end Sys2Proof.Machine
end

