-- ==== Sys2Proof/Machine/Time.lean ====
section
/-! DEFINITION. The commands of the time unit (spec/13_ring_bypass_time.md, R462–R486). -/

namespace Sys2Proof.Machine

open Sys2Proof

/-! ### Fields -/

def State.gmRole (s : State) : Bool := s.fld rTimeCfg 1 0 == 1
/-- Domain B is followed only in the slave-only role with B_EN (R472, R475). -/
def State.bEnabled (s : State) : Bool := s.fld rTimeCfg 6 6 == 1 && !s.gmRole
def State.slewPpm (s : State) : Nat := s.fld rTimeSlew 8 0
def State.dom (s : State) (b : Bool) : PtpDomain := if b then s.time.domB else s.time.domA
def State.setDom (s : State) (b : Bool) (d : PtpDomain) : State :=
  { s with time := if b then { s.time with domB := d } else { s.time with domA := d } }
/-- A domain that the unit may follow. -/
def State.domQual (s : State) (b : Bool) : Bool := (s.dom b).qual && (!b || s.bEnabled)
def domSrc (b : Bool) : TimeSrc := if b then .domB else .domA

/-- clockClass as advertised in the grandmaster role (R475). -/
def State.clockClass (s : State) : Nat :=
  if !s.time.firstLock then 248 else if s.time.ppsQual && s.time.st == .locked then 6 else 7

/-- A 64-bit parameter keeps its own size, aligned to 4 bytes (R555). -/
def idFld (i : DWord) : Fld := recFld 8 i.toNat
def i32 (i : Int) : Fld := u32 (satInt32 i).toNat

/-! ### Slewing (R466) -/

/-- µs that a slew takes at its rate. -/
def slewUs (offset : Int) (ppm : Nat) : Nat := offset.natAbs * 1000 / max ppm 1

/-- The clock goes on from where it stands toward a new target; TIME_SLEW marks a slew above 1 µs. -/
def State.retarget (s : State) (offset : Int) : State :=
  let run := s.time.slew
  let got : Int := match run with
    | some w => slewDone s.now w
    | none => 0
  let wasBig := (run.map (·.big)).getD false
  let big := wasBig || 1000 < offset.natAbs
  let s : State := { s with clockOfs := s.clockOfs + got, time := { s.time with
    slew := if offset = 0 then none else some ⟨offset, s.now, s.slewPpm, big⟩ } }
  if big && !wasBig then s.raise 0xC5 [i32 offset, u32 (slewUs offset s.slewPpm)]
  else if wasBig && offset = 0 then s.raise 0xC5 [i32 0, u32 0]
  else s

/-- A slew under way goes on at the rate that SLEW_PPM now sets. -/
def State.reslew (s : State) : State :=
  match s.time.slew with
  | some w => if w.ppm = s.slewPpm then s else s.retarget (w.offset - slewDone s.now w)
  | none => s

/-- SLEW_DONE. -/
def State.slewEnd (s : State) : State :=
  match s.time.slew with
  | some w =>
    if slewDone s.now w = w.offset then
      let s : State := { s with clockOfs := s.clockOfs + w.offset, time := { s.time with slew := none } }
      if w.big then s.raise 0xC5 [i32 0, u32 0] else s
    else s
  | none => s

def execSlewDone (s : State) : Host.Outcome State Fault Refusal := .next s.slewEnd

/-! ### First lock and the servo (R469, R470) -/

/-- A domain's offset as it stands: the measured one, less what the clock has moved since. -/
def State.domOfs (s : State) (b : Bool) : Int := match (s.dom b).base with
  | some x => x + s.now - s.tai
  | none => (s.dom b).ofs

/-- DISAGREE of R474, from offsets that both domains have had measured since they became qualified. -/
def State.judgeDisagree (s : State) : State :=
  let diff : Int := match s.time.domA.base, s.time.domB.base with
    | some a, some b => a - b
    | _, _ => 0
  let d := s.domQual false && s.domQual true && 1000 < diff.natAbs
  if d = s.time.disagree then s
  else ({ s with time := { s.time with disagree := d } }).raise 0xC4 [i32 diff]

/-- The one step of the clock: TIME_LOCKED, and start-up step 7 ends (R466, R470). The shown offsets move with the clock. -/
def State.firstLock (s : State) (src : TimeSrc) (step : Int) (st : TimeSt) : State :=
  let moved (d : PtpDomain) : PtpDomain := if d.base.isSome then { d with ofs := d.ofs - step } else d
  let s : State := { s with clockOfs := s.clockOfs + step, time := { s.time with
    firstLock := true, st := st, src := src, slew := none, goodSyncs := 0, acqHeld := false,
    domA := moved s.time.domA, domB := moved s.time.domB } }
  let s : State := (s.raise 0xC0 [u16 (timeSrcCode src), i32 (step / 1000000000), u32 (step % 1000000000).toNat]).judgeFit
  if s.sup.step = 7 then s.stepDone 7 else s

/-- The servo sees the offset of its reference, which is slewed out: LOCKED after 16 consecutive ones below 100 ns, ACQUIRING again
after one that is not. -/
def State.servo (s : State) (src : TimeSrc) (offset : Int) : State :=
  let n := if offset.natAbs < 100 then s.time.goodSyncs + 1 else 0
  ({ s with time := { s.time with goodSyncs := n, st := if 16 ≤ n then .locked else .acquiring, src := src } }).retarget offset

/-- HOLDOVER is left, for ACQUIRING (R471). -/
def State.leaveHoldover (s : State) (src : TimeSrc) : State :=
  match s.time.st with
  | .holdover =>
    let since := s.time.holdSince.getD s.now
    ({ s with time := { s.time with st := .acquiring, src := src, holdSince := none, holdLong := false, goodSyncs := 0 } }).raise
      0xC3 [u16 1, u32 (min ((s.now - since) / usNs) 0xFFFFFFFF)]
  | .unlocked => { s with time := { s.time with st := .acquiring, src := src, goodSyncs := 0 } }
  | _ => s

/-- No source is left: HOLDOVER after a first lock, else UNLOCKED (R471). -/
def State.noSource (s : State) : State :=
  if !s.time.firstLock then { s with time := { s.time with st := .unlocked, src := .none } }
  else if s.time.st = .holdover then s
  else
    ({ s with time := { s.time with
      st := .holdover, src := .none, holdSince := some s.now, holdLong := false } }).raise 0xC3 [u16 0, u32 0]

/-- The switch of R473: the servo takes the new domain, the offset is slewed out. -/
def State.switchDomain (s : State) (toB : Bool) (cause : Nat) : State :=
  let o := s.domOfs toB
  let s : State := { s with time := { s.time with onB := toB, src := domSrc toB, goodSyncs := 0 } }
  let s : State := s.raise 0xC1 [u16 (b01 (!toB)), u16 (b01 toB), i32 o, u16 cause]
  if s.time.firstLock && (s.dom toB).base.isSome then s.retarget o else s

/-- Causes of TIME_DOMAIN_SWITCH. -/
def swUnqualified : Nat := 0
def swRank : Nat := 1
def swRevert : Nat := 2
def swSelect : Nat := 3

/-- Lexicographic comparison of grandmaster ranks. -/
def rankLt : List Nat → List Nat → Bool
  | [], [] => false
  | [], _ => true
  | _, [] => false
  | a :: as, b :: bs => a < b || (a == b && rankLt as bs)

/-- The choice between the domains after something has changed (R473): TIME_SELECT's domain, else the automatic one. The first source to
become qualified sets the clock (R470), so ranks count from the first lock on. -/
def State.chooseDomain (s : State) : State :=
  let cur := s.time.onB
  let oth := !cur
  match s.time.forced with
  | some f => if f ≠ cur && (!f || s.bEnabled) then s.switchDomain f swSelect else s
  | none =>
    if !s.domQual cur && s.domQual oth then s.switchDomain oth swUnqualified
    else if s.time.firstLock && s.domQual cur && s.domQual oth && rankLt (s.dom oth).rank (s.dom cur).rank
        && (!cur || s.fld rTimeCfg 7 7 == 1) then
      s.switchDomain oth swRank
    else s

/-- What the state becomes as sources become qualified or not (R469, R471): HOLDOVER without any; ACQUIRING where HOLDOVER ends, and
where the selected domain has gone while another is qualified, which TIME_SELECT keeps from being followed. -/
def State.settleSource (s : State) : State :=
  let sel := s.time.onB
  if s.gmRole then s
  else if !s.domQual false && !s.domQual true then s.noSource
  else match s.time.st with
    | .holdover | .unlocked => s.leaveHoldover (if s.domQual sel then domSrc sel else .none)
    | _ =>
      if s.domQual sel then { s with time := { s.time with src := domSrc sel } }
      else { s with time := { s.time with st := .acquiring, src := .none, goodSyncs := 0 } }

/-- Domain A is qualified and ranked at least equal since (R473). -/
def State.noteGoodA (s : State) : State :=
  let a := s.time.domA
  let good := a.qual && !rankLt s.time.domB.rank a.rank
  { s with time := { s.time with domA := { a with
    goodSince := if good then (match a.goodSince with
      | some t => some t
      | none => some s.now) else none } } }

/-! ### PTP messages (R467–R474) -/

/-- The domain that a domain number stands for: A, or B while B is followed (R472). -/
def State.domainOf (s : State) (n : Nat) : Option Bool :=
  if n = s.fld rTimeCfg 15 8 then some false
  else if s.bEnabled && n = s.fld rTimeCfg 23 16 then some true
  else none

/-- The peer delay of a port in ns (R468). -/
def State.pdelay (s : State) (port : Nat) : Nat :=
  (if port = 0 then s.time.pdelayA else if port = 1 then s.time.pdelayB else s.time.pdelayT).toNat

/-- Domain time minus local clock at a Sync: the origin time, corrected, with the peer delay of its port, against the Sync's stamp. -/
def State.syncOffset (s : State) (m : SyncRx) : Int :=
  (m.origin : Int) + m.correction + s.pdelay m.port - ((s.tai : Int) - m.age)

/-- PTP frames arrive on a ring port only while the ring is not DISABLED. -/
def State.ptpHeard (s : State) (port : Nat) : Bool := port == 2 || s.ring.en != .disabled

/-- The transparent clock between Ring A and Ring B, for every domain (R467, R468): a Sync leaves the other port as a two-step one, and its
Follow_Up adds the residence and the peer delay of the port it came in by. In mode N nothing is forwarded (R452). -/
def State.ptpForward (s : State) (domain : Nat) (m : SyncRx) : State :=
  if 1 < m.port || s.fld rRingCfgReg 2 2 = 1 then s
  else
    let out := 1 - m.port
    s.crossAll (txXings out) [.ptp out none (.sync domain),
      .ptp out none (.followUp domain m.origin (m.correction + m.residence + s.pdelay m.port))]

/-- The measured offset of a domain steers the servo, sets the clock, or is shown. -/
def State.domSync (s : State) (b : Bool) (offset : Int) : State :=
  let s : State := s.setDom b { s.dom b with ofs := offset, base := some (offset + s.tai - s.now) }
  if s.gmRole || !s.domQual b || b ≠ s.time.onB then s.judgeDisagree
  else if s.time.firstLock then (s.servo (domSrc b) offset).judgeDisagree
  else if s.sup.step = 7 then ((s.firstLock (domSrc b) offset .acquiring).chooseDomain).judgeDisagree
  else s

/-- PTP_SYNC_RX. -/
def State.ptpSync (s : State) (domain : Nat) (m : SyncRx) : State :=
  if !s.ptpHeard m.port then s
  else
    let s : State := s.ptpForward domain m
    match s.domainOf domain with
    | some b => s.domSync b (s.syncOffset m)
    | none => s

def execPtpSyncRx (domain : Nat) (m : SyncRx) (s : State) : Host.Outcome State Fault Refusal := .next (s.ptpSync domain m)

/-- A domain becomes unqualified; the unit switches, or enters HOLDOVER. -/
def State.domLost (s : State) (b : Bool) : State :=
  let d := s.dom b
  if !d.qual then s
  else
    let s : State := s.setDom b { d with qual := false, base := none }
    let s : State := (s.raise 0xC2 [u16 (timeSrcCode (domSrc b)), u16 0, idFld d.gmId]).noteGoodA
    if s.gmRole then s else s.chooseDomain.settleSource.judgeDisagree

/-- The announce receipt timeout of a domain's profile: three announce intervals, of 2 s in the default profile and of 1 s in the power
utility profile (R467, R469; PRESUMED). -/
def State.receiptTimeout (s : State) (b : Bool) : Nat :=
  let utility := if b then s.fld rTimeCfg 5 5 else s.fld rTimeCfg 4 4
  3 * (if utility = 1 then 1 else 2) * secNs

/-- ANNOUNCE_TIMEOUT. -/
def State.announceTimeout (s : State) (b : Bool) : State :=
  if (s.dom b).announced + s.receiptTimeout b ≤ s.now then s.domLost b else s

/-- An Announce of a domain that the unit follows: the PTP timescale qualifies it, another one does not (R467); the selected domain may
change. Before the first lock the first to become qualified is selected, unless TIME_SELECT has forced one. -/
def State.domAnnounce (s : State) (b : Bool) (m : Announce) : State :=
  if !m.ptpScale then s.domLost b
  else
    let d := s.dom b
    let s : State := s.setDom b { d with qual := true, rank := m.rank, gmId := m.gmId, announced := s.now, utcOfs := m.utcOfs }
    let s : State := if d.qual then s else s.raise 0xC2 [u16 (timeSrcCode (domSrc b)), u16 1, idFld m.gmId]
    let s : State := s.noteGoodA
    let s : State := if s.domQual s.time.onB || s.time.firstLock || s.time.forced.isSome then s
      else { s with time := { s.time with onB := b } }
    s.chooseDomain.settleSource.judgeDisagree

/-- PTP_ANNOUNCE_RX. -/
def State.ptpAnnounce (s : State) (domain : Nat) (m : Announce) : State :=
  if s.gmRole || !s.ptpHeard m.port then s
  else match s.domainOf domain with
    | some b => s.domAnnounce b m
    | none => s

def execPtpAnnounceRx (domain : Nat) (m : Announce) (s : State) : Host.Outcome State Fault Refusal :=
  .next (s.ptpAnnounce domain m)

def execAnnounceTimeout (domB : Bool) (s : State) : Host.Outcome State Fault Refusal := .next (s.announceTimeout domB)

/-- DOMAIN_REVERT (R473). -/
def State.domainRevert (s : State) : State :=
  match s.time.domA.goodSince with
  | some t =>
    if s.time.onB && s.time.forced.isNone && s.fld rTimeCfg 7 7 = 1 && t + 60 * secNs ≤ s.now && s.domQual false then
      (s.switchDomain false swRevert).settleSource
    else s
  | none => s

def execDomainRevert (s : State) : Host.Outcome State Fault Refusal := .next s.domainRevert

/-- HOLDOVER_LONG (R471). -/
def State.holdoverLong (s : State) : State :=
  match s.time.st, s.time.holdSince with
  | .holdover, some t =>
    if !s.time.holdLong && t + s.fld rTimeAcq 31 16 * secNs ≤ s.now then
      ({ s with time := { s.time with holdLong := true } }).raise 0xC3
        [u16 2, u32 (min ((s.now - t) / usNs) 0xFFFFFFFF)]
    else s
  | _, _ => s

def execHoldoverLong (s : State) : Host.Outcome State Fault Refusal := .next s.holdoverLong

/-- START_HELD: a start-up step holds (source 0x01). -/
def State.startHeld (s : State) (step seconds : Nat) : State := s.raise 0x01 [u16 step, u32 seconds]

/-- A source of the unit's role is qualified. -/
def State.sourceQual (s : State) : Bool := if s.gmRole then s.time.ppsQual else s.domQual false || s.domQual true

/-- ACQ_TIMEOUT (R470), where no source is qualified: WAIT holds start-up; RTC sets the clock from the battery domain, unless its clock is lost (R674). -/
def State.acqTimeout (s : State) : State :=
  let t := s.fld rTimeAcq 15 0
  if s.time.firstLock || s.sup.step ≠ 7 || s.time.acqHeld || s.sourceQual || s.now < s.time.acqStart + t * secNs then s
  else
    let held (s : State) : State := ({ s with time := { s.time with acqHeld := true } }).startHeld 7 t
    match s.sup.battClock with
    | some b =>
      if s.fld rTimeCfg 2 2 = 1 then
        let s : State := s.firstLock .rtc (b - s.clockOfs) .holdover
        ({ s with time := { s.time with holdSince := some s.now, holdLong := false } }).raise 0xC3 [u16 0, u32 0]
      else held s
    | none => held s

def execAcqTimeout (s : State) : Host.Outcome State Fault Refusal := .next s.acqTimeout

/-- The grandmaster's messages on the ring, with the class of R475: an Announce, and a Sync with its Follow_Up. -/
def State.ptpServe (s : State) : State :=
  let d := s.fld rTimeCfg 15 8
  let send (s : State) (m : PtpMsg) : State :=
    ({ s with ring := { s.ring with hsrSeq := s.ring.hsrSeq + 1 } }).cross (txXings 3) (.ptp 3 (some s.ring.hsrSeq) m)
  [.announce d s.clockClass, .sync d, .followUp d s.tai 0].foldl send s

/-- PDELAY_MEASURE, once per second on each port (R468): the request leaves, and the measured delay is shown. A grandmaster serves the ring
at the same rate (assumption). -/
def State.pdelayMeasure (s : State) (port : Nat) (delayNs : Word) : State :=
  if 2 < port || !s.ptpHeard port || s.now < s.time.pdelayAt.getD port 0 + secNs then s
  else
    let s : State := s.cross (txXings port) (.ptp port none .pdelayReq)
    let u := { s.time with pdelayAt := s.time.pdelayAt.set port s.now }
    let s : State := { s with
      time := if port = 0 then { u with pdelayA := delayNs } else if port = 1 then { u with pdelayB := delayNs }
        else { u with pdelayT := delayNs } }
    if port = 0 && s.gmRole then s.ptpServe else s

def execPdelayMeasure (port : Nat) (delayNs : Word) (s : State) : Host.Outcome State Fault Refusal :=
  .next (s.pdelayMeasure port delayNs)

/-! ### PPS_IN (R469, R475, R483) -/

/-- The signed distance of an instant from the nearest whole second. -/
def fromSecond (t : Nat) : Int :=
  let m := t % secNs
  if m < secNs / 2 then m else (m : Int) - secNs

/-- PPS_IN becomes unqualified; a grandmaster enters HOLDOVER. -/
def State.ppsLost (s : State) : State :=
  let s : State := ({ s with time := { s.time with ppsQual := false } }).raise 0xC2 [u16 3, u16 0, idFld 0]
  if s.gmRole then s.noSource else s

/-- The TAI second of an edge at `now`: what TIME_TOD gives the next edge, or the last edge's with the seconds since (R475). -/
def State.edgeSecond (s : State) : Option Nat :=
  match s.time.tod, s.time.edgeSec, s.time.ppsLast with
  | some x, _, _ => some x
  | none, some x, some u => some (x + (s.now - u + secNs / 2) / secNs)
  | _, _, _ => none

/-- PPS_EDGE: the edge crosses on 0x0C and its stamp, the clock's reading now corrected for the cable, on 0x0A (R483). In the slave-only role
it is a check; a grandmaster takes the ordered time of day, or before the first lock the battery clock's. -/
def State.ppsEdge (s : State) : State :=
  if s.fld rPpsCtl 0 0 ≠ 1 then s
  else
    let s : State := s.alarm 0x0C
    if s.xingStopped 0x0A then s
    else
      let t := s.tai - s.fld rPpsCtl 31 16
      let good := match s.time.ppsLast with
        | some u => u ≤ s.now && secNs - 10 * usNs ≤ s.now - u && s.now - u ≤ secNs + 10 * usNs
        | none => false
      let sec := s.edgeSecond
      let s' : State := (s.emit (.crossed 0x0A))
      let s' : State := { s' with time := { s'.time with ppsLast := some s.now, tod := none, edgeSec := sec } }
      let s' : State :=
        if good && !s.time.ppsQual then
          let s' : State := ({ s' with time := { s'.time with ppsQual := true } }).raise 0xC2 [u16 3, u16 1, idFld 0]
          if s.gmRole then s'.leaveHoldover .pps else s'
        else if !good && s.time.ppsQual then s'.ppsLost
        else s'
      if !s.gmRole then { s' with time := { s'.time with ppsCheck := fromSecond t } }
      else if !good then s'
      else
        let tod : Option Nat := match sec with
          | some x => some (x * secNs)
          | none => if s.time.firstLock then none else
            s.sup.battClock.map (fun b => (((s.now : Int) + b).toNat + secNs / 2) / secNs * secNs)
        let off : Int := match tod with
          | some x => (x : Int) - t
          | none => - fromSecond t
        if s.time.firstLock then s'.servo .pps off
        else if s.sup.step = 7 && tod.isSome then s'.firstLock .pps off .acquiring
        else s'

def execPpsEdge (s : State) : Host.Outcome State Fault Refusal := .next s.ppsEdge

/-- PPS_IN_LOSS: no edge within 1 s + 10 µs of the last one (R469). -/
def State.ppsInLoss (s : State) : State :=
  if s.time.ppsQual && (s.time.ppsLast.map (fun u => decide (u + secNs + 10 * usNs < s.now))).getD true then s.ppsLost else s

def execPpsInLoss (s : State) : Host.Outcome State Fault Refusal := .next s.ppsInLoss

/-- RTC_WRITE (R470): once per hour while LOCKED. -/
def State.rtcWrite (s : State) : State :=
  if s.time.st = .locked && (s.sup.battClock.isNone || s.time.rtcWritten + 3600 * secNs ≤ s.now) then
    { s with sup := { s.sup with battClock := some ((s.tai : Int) - s.now) }, time := { s.time with rtcWritten := s.now } }
  else s

def execRtcWrite (s : State) : Host.Outcome State Fault Refusal := .next s.rtcWrite

/-- TIME_LATCH (R465). -/
def State.timeLatch (s : State) : State :=
  { s with time := { s.time with latchCount := s.time.latchCount + 1, latchTai := s.tai, latchState := s.time.st } }

def execTimeLatch (s : State) : Host.Outcome State Fault Refusal := .next s.timeLatch

/-! ### Timed outputs (R480–R482) -/

def State.tout (s : State) (n : Nat) : TOut := s.time.touts.getD n default
def State.setTout (s : State) (n : Nat) (x : TOut) : State :=
  { s with time := { s.time with touts := s.time.touts.set n x } }

/-- Causes of TOUT_STATE. -/
def toLate : Nat := 0
def toRefused : Nat := 1
def toQuiesced : Nat := 2


/-- One pulse, unless TWIN_ACTIVE_ONLY holds the output at its inactive level (R481). -/
def State.pulse (s : State) (n : Nat) (e : ArmedEdge) : State :=
  if e.activeOnly && !s.activeOrSolo then s else (s.emit (.toutPulse n e.at_ e.widthNs e.activeLow)).alarm 0x0C

/-- TOUT_FIRE: the scheduled edge; a quiescing output reaches DISABLED. -/
def State.toutFire (s : State) (n : Nat) : State :=
  let x := s.tout n
  if 8 ≤ n then s
  else match x.stands with
  | some e =>
    if e.at_ ≤ s.tai then
      let s : State := (s.pulse n e).setTout n { x with stands := none, en := if x.en = .quiescing then .disabled else x.en }
      if x.en = .quiescing then s.raise 0xC7 [u16 n, u16 toQuiesced] else s
    else s
  | none =>
    match x.next with
    | some t =>
      if x.en = .enabled && t ≤ s.tai then
        let s : State := s.pulse n ⟨t, x.widthNs, x.activeLow, x.activeOnly⟩
        let s : State := if x.late then s.raise 0xC7 [u16 n, u16 toLate] else s
        s.setTout n (if x.periodic then { x with next := some (t + x.periodNs), late := false }
          else { x with next := none, late := false, en := .disabled })
      else s
    | none => s

def execToutFire (output : Nat) (s : State) : Host.Outcome State Fault Refusal := .next (s.toutFire output)

/-- The status of TOUT_SET. -/
def State.toutStatus (s : State) (o : ToutSet) : Nat :=
  if 7 < o.output || 2 < o.mode then 1
  else if o.mode = 0 then 0
  else if (s.tout o.output).en = .quiescing then 4
  else if 2 ^ 48 ≤ o.startS || secNs ≤ o.startNs || o.widthNs < 20
      || (o.mode = 2 && (!between 1000 (10 ^ 12) o.periodNs || o.periodNs ≤ o.widthNs)) then 1
  else if !s.time.firstLock then 3
  else if s.tai + 1000 * secNs < o.startS * secNs + o.startNs then 2
  else 0

/-- The first start + k × period that is at least 2 µs ahead. -/
def firstEdge (start period earliest : Nat) : Nat :=
  if earliest ≤ start then start else start + ((earliest - start + period - 1) / max period 1) * period

/-- The edge of a running output that is due within 2 µs stands (R481). -/
def State.standing (s : State) (x : TOut) : Option ArmedEdge :=
  match x.stands, x.next with
  | some e, _ => some e
  | none, some t => if x.en = .enabled && t ≤ s.tai + 2 * usNs then some ⟨t, x.widthNs, x.activeLow, x.activeOnly⟩ else none
  | none, none => none

def State.timeResult (s : State) (ref : OrderRef) (op st en : Nat) : State :=
  s.answer ref op (ownReport st [u8 st, u8 en])

/-- TOUT_SET (R480–R482). -/
def State.toutSet (s : State) (ref : OrderRef) (o : ToutSet) : State :=
  let st := s.toutStatus o
  let n := o.output
  let x := s.tout n
  if st ≠ 0 then (s.raise 0xC7 [u16 n, u16 toRefused]).timeResult ref 0x0C03 st (enCode x.en)
  else if o.mode = 0 then
    match s.standing x with
    | some e =>
      (s.setTout n { x with en := .quiescing, next := none, stands := some e }).timeResult ref 0x0C03 0 2
    | none =>
      let s' : State := s.setTout n { x with en := .disabled, next := none }
      let s' : State := if x.en = .enabled then s'.raise 0xC7 [u16 n, u16 toQuiesced] else s'
      s'.timeResult ref 0x0C03 0 0
  else
    let start := o.startS * secNs + o.startNs
    let late := o.mode = 1 && start < s.tai + 2 * usNs
    let next := if o.mode = 2 then firstEdge start o.periodNs (s.tai + 2 * usNs) else if late then s.tai else start
    let x' : TOut := ⟨.enabled, o.mode == 2, o.activeLow, o.activeOnly, some next, o.widthNs, o.periodNs, late, s.standing x⟩
    (s.setTout n x').timeResult ref 0x0C03 0 1

def execToutSet (ref : OrderRef) (o : ToutSet) (s : State) : Host.Outcome State Fault Refusal :=
  .next (s.runOrder ref 0x0C03 (fun s => s.toutSet ref o))

/-! ### The remaining orders (R483) -/

/-- TIME_SELECT: 0 A, 1 B, 2 automatic. -/
def State.timeSelect (s : State) (ref : OrderRef) (domain : Nat) : State :=
  if 2 < domain then s.timeResult ref 0x0C04 1 0
  else
    let s : State := { s with time := { s.time with forced := if domain = 2 then none else some (domain == 1) } }
    let s : State := s.chooseDomain
    (if s.time.firstLock then s.settleSource else s).timeResult ref 0x0C04 0 0

def execTimeSelect (ref : OrderRef) (domain : Nat) (s : State) : Host.Outcome State Fault Refusal :=
  .next (s.runOrder ref 0x0C04 (fun s => s.timeSelect ref domain))

/-- TIME_TOD: applied at the next PPS edge; only in the grandmaster role. -/
def State.timeTod (s : State) (ref : OrderRef) (sec : DWord) : State :=
  if !s.gmRole then s.timeResult ref 0x0C05 5 0
  else if 2 ^ 48 ≤ sec.toNat then s.timeResult ref 0x0C05 1 0
  else ({ s with time := { s.time with tod := some sec.toNat } }).timeResult ref 0x0C05 0 0

def execTimeTod (ref : OrderRef) (sec : DWord) (s : State) : Host.Outcome State Fault Refusal :=
  .next (s.runOrder ref 0x0C05 (fun s => s.timeTod ref sec))

/-- TIME_CFG, TIME_SLEW and TIME_ACQ as stored (R484, R485). -/
def timeCfgStored (v : Nat) : Nat :=
  let v := v &&& 0x00FFFFF7
  if 2 ≤ v % 4 then v / 4 * 4 else v
def timeSlewStored (v : Nat) : Nat := if between 1 500 v then v else 100

/-- A TIME_CFG that in the slave-only role follows B with both domains the same number is refused (R472). -/
def timeCfgOk (v : Nat) : Bool := !(bits v 1 0 != 1 && bits v 6 6 == 1 && bits v 23 16 == bits v 15 8)

/-- The TIME_CFG order; after the seal only SLEW_PPM, REVERT and HOLDOVER_S change. -/
def State.timeCfg (s : State) (ref : OrderRef) (cfg slew acq : Word) : State :=
  let c := timeCfgStored cfg.toNat
  let ho := bits acq.toNat 31 16
  let at_ := bits acq.toNat 15 0
  if !timeCfgOk c || !between 1 500 slew.toNat || !between 10 65535 ho || !between 5 3600 at_ then s.timeResult ref 0x0C06 1 0
  else
    let c := if s.setup.sealed then
        ((s.reg rTimeCfg).toNat &&& 0xFFFFFF7F) + bits c 7 7 * 128 else c
    let a := if s.setup.sealed then ho * 2 ^ 16 + s.fld rTimeAcq 15 0 else acq.toNat
    let s : State := ((s.setReg rTimeCfg (word c)).setReg rTimeSlew slew).setReg rTimeAcq (word a)
    s.reslew.timeResult ref 0x0C06 0 0

def execTimeCfg (ref : OrderRef) (cfg slew acq : Word) (s : State) : Host.Outcome State Fault Refusal :=
  .next (s.runOrder ref 0x0C06 (fun s => s.timeCfg ref cfg slew acq))

end Sys2Proof.Machine
end

