-- ==== Sys2Proof/Machine/BarWrite.lean ====
section
/-! DEFINITION. Writes to BAR0 (R16, R17, R521): what each register stores, the seal (R524, R525), and what a write changes beside
the register. -/

namespace Sys2Proof.Machine

open Sys2Proof

/-! ### What a write stores -/

/-- A field's value where it lies within its bounds, else what the spec stores in its place. -/
def orElse (lo hi dflt n : Nat) : Nat := if between lo hi n then n else dflt

def normGlb (o n : Nat) : Nat :=
  if o = rGlbHouse then (if n % 2 ^ 16 = 0xFFFF then 0 else n % 2 ^ 16)
  else if o = rHoldCfg then orElse 47 10000 470 (n / 2 ^ 16) * 2 ^ 16 + orElse 16 36 30 (n % 2 ^ 8)
  else n

def normByte31 (b : Nat) : Nat := if 31 < b then 0 else b

/-- Rings' addresses end in six zero bits; a route byte above 31 is stored as 0 (R546). -/
def normHostq (o n : Nat) : Nat :=
  if o = rShadowLo || (between 0x1100 0x14FC o && o % 16 == 0) then n / 64 * 64
  else if o = rRoute0 || o = rRoute1 then
    ((List.range 4).map (fun k => normByte31 (bits n (8 * k + 7) (8 * k)) * 2 ^ (8 * k))).sum
  else n

def normFab (o n : Nat) : Nat :=
  if o = rPaceCtl then bits n 2 2 * 4 + (if bits n 1 0 < 2 then bits n 1 0 else 0)
  else if o = rThermCtl then orElse 90 110 110 (n % 2 ^ 7)
  else if o = rScrubCtl then orElse 1 168 24 (n % 2 ^ 8)
  else if o = rXingSel then n % 2 ^ 5
  else if o = rPlaceCtl then orElse 2 15 5 (bits n 11 8) * 2 ^ 8 + n % 2 ^ 4
  else n

def normTime (o n : Nat) : Nat :=
  if o = rTimeCfg then bits n 23 4 * 2 ^ 4 + bits n 2 2 * 4 + (if bits n 1 0 < 2 then bits n 1 0 else 0)
  else if o = rTimeSlew then orElse 1 500 100 (n % 2 ^ 9)
  else if o = rPpsCtl then bits n 31 16 * 2 ^ 16 + n % 4
  else n

def normRing (o n : Nat) : Nat :=
  if o = rRingCfgReg then
    bits n 22 20 * 2 ^ 20 + (if bits n 19 8 = 4095 then 0 else bits n 19 8) * 2 ^ 8 + n % 2 ^ 4
  else if o = rIpv4Pfx then n % 2 ^ 6
  else if o = rIpv6Pfx then n % 2 ^ 8
  else n

def normTwin (o n : Nat) : Nat :=
  if o = rTwinCfg then
    orElse 500 30000 3000 (bits n 31 16) * 2 ^ 16 + orElse 10 255 50 (bits n 15 8) * 2 ^ 8 + n % 2 ^ 3
  else if o = rPeerMacHi then n % 2 ^ 16
  else n

def normFbus (o n : Nat) : Nat :=
  let f := (o - 0x6000) % 0x800
  if f = 0 then bits n 2 2 * 4 + n % 2
  else if f = 4 then n / 2 ^ 5 * 2 ^ 5
  else if f = 8 then n / 2 ^ 6 * 2 ^ 6
  else n

def normMeter (o n : Nat) : Nat :=
  if o = rClkCtl then
    bits n 24 24 * 2 ^ 24 + bits n 20 16 * 2 ^ 16 + orElse 313 1250 625 (n % 2 ^ 11)
  else if o = rChSel then n % 2 ^ 5
  else if o = rBattCtl then orElse 0 11 0 (bits n 11 8) * 2 ^ 8 + orElse 2 8 4 (bits n 4 1) * 2 + n % 2
  else if o = rHeatCtl then orElse 10 1000 100 (n % 2 ^ 10)
  else n

def normPanel (o n : Nat) : Nat :=
  if o = rPanelCfg then bits n 31 30 * 2 ^ 30 + orElse 1 272 272 (bits n 24 16) * 2 ^ 16 + orElse 1 480 480 (n % 2 ^ 9)
  else if o = rPanelTiming then orElse 500 10000 2000 (bits n 31 16) * 2 ^ 16 + orElse 1000 10000 2000 (n % 2 ^ 16)
  else if o = rPanelBright then n % 2 ^ 8
  else if o = rAgeK then
    (let x : F32 := BitVec.ofNat 32 n
     if !fFinite x || fLt x 0 then 0x3727C5AC else n)
  else if o = rAgeCtl then bits n 8 8 * 2 ^ 8 + orElse 0 50 25 (n % 2 ^ 8)
  else if o = rBlinkCtl 0 || o = rBlinkCtl 1 then (normBlinkCtl (word n)).toNat
  else if o = rBlinkAlt 0 || o = rBlinkAlt 1 then n % 2 ^ 18
  else if o = rTagCfg then
    bits n 16 16 * 2 ^ 16 + orElse 0 62 0 (bits n 15 10) * 2 ^ 10 + orElse 100 1000 250 (n % 2 ^ 10)
  else n

def normSvc (o n : Nat) : Nat :=
  if o = rSvcUart then orElse 9600 3000000 115200 (n % 2 ^ 22) else n

/-- The word that a write of `v` stores at an offset: reserved bits are 0 (R15), values out of range are stored as the
register's table says. -/
def normReg (o : Nat) (v : Word) : Word :=
  let n := v.toNat
  word (
    if o < 0x1000 then normGlb o n
    else if o < 0x2000 then normHostq o n
    else if o < 0x3000 then normFab o n
    else if o < 0x4000 then normTime o n
    else if o < 0x5000 then normRing o n
    else if o < 0x6000 then normTwin o n
    else if o < 0x7000 then normFbus o n
    else if o < 0x8000 then normMeter o n
    else if o < 0x9000 then normPanel o n
    else if o < 0xA000 then n
    else normSvc o n)

/-- The access type of a BAR0 offset (R16, R522). -/
def accOf (o : Nat) : Access :=
  if o % 4 ≠ 0 then .unassigned
  else if o < 0x1000 then accGlb o
  else if o < 0x2000 then accHostq o
  else if o < 0x3000 then accFab o
  else if o < 0x4000 then accTime o
  else if o < 0x5000 then accRing o
  else if o < 0x6000 then accTwin o
  else if o < 0x7000 then accFbus o
  else if o < 0x8000 then accMeter o
  else if o < 0x9000 then accPanel o
  else if o < 0xA000 then accNlog o
  else if o < 0xC000 then accSvc o
  else .unassigned

/-! ### What a write changes beside the register -/

/-- The host-set gain of a channel ends its UNCAL state (R405). -/
def State.gainWritten (s : State) (n : Nat) : State :=
  s.setChan n { s.chan n with uncal := false }

def State.afterWrite (s : State) (o : Nat) : State :=
  if o = rGlbHouse then
    (if s.houseId = 0 && !s.ring.legsClosed then s.closeLegs legHouse 0 else s)
  else if o = rRingCfgReg then (if s.bypassAtStart && !s.ring.legsClosed then s.closeLegs legAtStart 0 else s)
  else if o = rTimeSlew then s.reslew
  else if o = rPlaceCtl then (s.shiftEnable (s.fld rPlaceCtl 0 0 == 1)).1
  else if o = rClkCtl || o = rChEn then s.chansFollow
  else if o = rChSel then
    (let n := s.fld rChSel 4 0
     s.setChan n { s.chan n with clipSel := false })
  else if between 0x7080 0x70FC o then s.gainWritten ((o - 0x7080) / 4)
  else if o = rBlinkCtl 0 then s.blinkCtl 0
  else if o = rBlinkCtl 1 then s.blinkCtl 1
  else s

/-- RET_EN becomes 1: the 2 ms of R57 start in every deck. -/
def State.retEnWritten (s s' : State) : State :=
  if s.fld rPaceCtl 2 2 = 0 && s'.fld rPaceCtl 2 2 = 1 then (List.range 8).foldl State.stir s' else s'

/-- A TIME_CFG that would follow two domains of one number is refused: the register keeps its word (R472). -/
def refusedWrite (o : Nat) (v : Word) : Bool := o == rTimeCfg && !timeCfgOk (normReg o v).toNat

/-- A register's new word, with what follows from it. SVC_CODE holds its value where no read shows it (R657). -/
def State.storeReg (s : State) (o : Nat) (v : Word) : State :=
  if o = rSvcCode then { s with svc := { s.svc with code := v } }
  else if refusedWrite o v then s
  else s.retEnWritten ((s.setReg o (normReg o v)).afterWrite o)

/-! ### The seal (R524, R525, R561) -/

/-- The seal takes effect, by 0 a host write, 1 the set-up image, 2 SEAL_WAIT_S. Where step 6 holds with a house id now set, the
ring ports become ready. -/
def State.seal (s : State) (by_ : Nat) : State :=
  if s.setup.sealed then s
  else
    let s : State := { s with setup := { s.setup with sealed := true, sealBy := by_, sealDue := none } }
    let s : State := s.battSeal.raise 0xD1 [u16 by_, u32 s.setup.rev.toNat]
    if s.sup.step = 6 && s.sup.held6 && s.houseId ≠ 0 then
      ({ s with sup := { s.sup with held6 := false } }).portsReady
    else s

/-- A write to GLB_SETUP_SEAL: only 0x0000_5EA1 acts. -/
def State.sealWrite (s : State) (v : Word) : State := if v = 0x00005EA1#32 then s.seal 0 else s

def execSetupSeal (value : Word) (s : State) : Host.Outcome State Fault Refusal := .next (s.sealWrite value)

/-- No seal within SEAL_WAIT_S of the end of step 5 (R559). -/
def State.sealWait (s : State) : State :=
  match s.setup.sealDue with
  | some t => if t ≤ s.now then s.seal 2 else s
  | none => s

def execSealWaitExpiry (s : State) : Host.Outcome State Fault Refusal := .next s.sealWait

/-! ### Write-one-to-clear (R16) -/

def State.w1cWrite (s : State) (o : Nat) (v : Word) : State :=
  if o = 0x1010 then { s with host := { s.host with err := s.host.err &&& ~~~v } }
  else if o = 0x1014 then { s with host := { s.host with rerr0 := s.host.rerr0 &&& ~~~v } }
  else if o = 0x1018 then { s with host := { s.host with rerr1 := s.host.rerr1 &&& ~~~v } }
  else if o = 0x2088 then { s with fab := { s.fab with xingTo := s.fab.xingTo &&& ~~~v } }
  else if o = 0x208C then { s with fab := { s.fab with xingMrg := s.fab.xingMrg &&& ~~~v } }
  else if o = 0x301C then { s with time := { s.time with txqOvf := s.time.txqOvf &&& ~~~v } }
  else s

def execW1cWrite (offset : Nat) (value : Word) (s : State) : Host.Outcome State Fault Refusal := .next (s.w1cWrite offset value)

/-! ### A write by its offset (R16, R521) -/

/-- An aligned 32-bit write to BAR0: ring configurations and the seal act as their own commands do; a sealed register ignores the
write, which is counted; read-only and unassigned offsets ignore it. -/
def State.barWrite (s : State) (o : Nat) (v : Word) : State :=
  if o % 4 ≠ 0 then s.hostErr 0
  else match accOf o with
    | .ro | .unassigned => s
    | .w1c => s.w1cWrite o v
    | .rw =>
      if o = rGlbSeal then s.sealWrite v
      else if between 0x1100 0x14FC o && o % 16 == 8 then
        (let r := (o - 0x1100) / 16
         if getBit v 31 then s.ringEnable r v else s.ringDisable r v)
      else s.storeReg o v
    | .rws =>
      if s.setup.sealed then { s with host := { s.host with sealedWr := satInc s.host.sealedWr } }
      else s.storeReg o v

def execRegisterWrite (offset : Nat) (value : Word) (s : State) : Host.Outcome State Fault Refusal :=
  .next (s.barWrite offset value)

end Sys2Proof.Machine
end

