-- ==== Sys2Proof/Machine/NotchLog.lean ====
section
/-! DEFINITION. The Notch Log's commands (spec/17_notch_log.md). -/

namespace Sys2Proof.Machine

open Sys2Proof

/-! ### Records and the chain (R592, R593) -/

/-- Bytes 0x00–0x3B of a record. -/
def LogRec.bytes (r : LogRec) : List Byte :=
  r.event.bytes ++ layPacked [u8 (b01 r.captured + 2 * b01 r.queued), u8 r.snapRev] ++ leBytes 26 r.snap

/-- The chain CRC of a record behind the stored CRC of the slot before it. -/
def chainCrc (r : LogRec) (prev : Word) : Word := crc32 (r.bytes ++ leBytes 4 prev.toNat)

/-- The 4 bytes before slot 0 are NLOG_CLEARS. -/
def NLog.prevCrc (n : NLog) : Word :=
  match n.slots.getLast? with
  | some p => p.2
  | none => n.clears

def slotBytes (p : LogRec × Word) : List Byte := p.1.bytes ++ leBytes 4 p.2.toNat

/-- Write a record to the next slot. -/
def State.putSlot (s : State) (r : LogRec) : State :=
  let c := chainCrc r s.nlog.prevCrc
  { s with nlog := { s.nlog with slots := s.nlog.slots ++ [(r, c)], lastCrc := c } }

/-- Raise one of the log's own events and answer its record, which is not queued here. -/
def State.raiseOwn (s : State) (src : Nat) (params : List Fld) : State × LogRec :=
  let rc := s.recordOf (s.srcOf src) (s.eventOf src 0 params)
  (s.raiseReportOnly src params, rc)

/-- Slots that records fill before NLOG_FULL takes slot 65 535 (R600). -/
def fullSlots : Nat := 65535

/-- NLOG_FROZEN at the end of a freeze episode (R601). -/
def State.frozenParams (s : State) : List Fld :=
  [u16 s.nlog.drainCode, u16 s.nlog.drained, u32 (s.nlog.lost - s.nlog.lostAtFreeze).toNat]

/-- Append a record; with 65 535 slots written the log writes NLOG_FULL and enters FULL. A drain that ends so raises its
NLOG_FROZEN, which FULL does not record. A record for which a full log has no slot is counted (R598). -/
def State.appendRec (s : State) (r : LogRec) : State :=
  if fullSlots ≤ s.nlog.slots.length then { s with nlog := { s.nlog with fullDrop := satInc s.nlog.fullDrop } }
  else
    let s : State := s.putSlot r
    if s.nlog.slots.length < fullSlots then s
    else
      let f := s.raiseOwn 0xE8 [u32 s.nlog.suppr.toNat, u32 s.nlog.lost.toNat]
      let was := s.nlog.state
      let s : State := f.1.putSlot f.2
      let s : State := { s with nlog := { s.nlog with state := .full } }
      if was = .draining then s.raise 0xE9 s.frozenParams else s

/-- Append records in order, marked as held (`queued`) or captured, until the log is full. -/
def State.appendAll (s : State) : List LogRec → State
  | [] => s
  | r :: rs => State.appendAll (s.appendRec r) rs

/-- The log writes to flash: after the beam is up and before a power-fail warning (R604). -/
def State.canWrite (s : State) : Bool := !s.nlog.capturing

/-- NLOG_RECORD_WRITE (R599): the record at the head of the queue goes to the next slot. -/
def State.recordWrite (s : State) : State :=
  let n := s.nlog
  if (n.state = .recording || n.state = .draining) && s.canWrite then
    match n.queue with
    | [] => s
    | r :: rs =>
      let s : State := { s with nlog := { n with queue := rs, drained := if n.state = LogState.draining then n.drained + 1 else n.drained } }
      s.appendRec r
  else s

def execNlogRecordWrite (s : State) : Host.Outcome State Fault Refusal := .next s.recordWrite

/-! ### Freezing (R601) -/

/-- Enter DRAINING with the code of NLOG_FROZEN: 1 after an order, 2 after the timeout. -/
def State.startDrain (s : State) (code : Nat) : State :=
  { s with nlog := { s.nlog with state := .draining, drainCode := code, drained := 0, freezeDue := none } }

/-- The records accepted before a freeze are written before it (R601). -/
def State.writeWaiting (s : State) : State :=
  ({ s with nlog := { s.nlog with queue := [] } } : State).appendAll s.nlog.queue

/-- NLOG_FREEZE's effect; answers its STATUS. -/
def State.freezeLog (s : State) (freeze timeoutS : Nat) : State × Nat :=
  let n := s.nlog
  let due := if timeoutS = 0 then none else some (s.now + timeoutS * secNs)
  if 1 < freeze || 3600 < timeoutS then (s, 1)
  else if freeze = 1 then
    match n.state with
    | .recording =>
      let s : State := s.writeWaiting
      if s.nlog.state = .full then (s, 2)
      else
        let s : State := { s with nlog := { s.nlog with state := .frozen, freezeDue := due, lostAtFreeze := s.nlog.lost } }
        (s.raiseReportOnly 0xE9 [u16 0, u16 0, u32 0], 0)
    | .frozen => ({ s with nlog := { n with freezeDue := due } }, 0)
    | _ => (s, 2)
  else if n.state = .frozen then (s.startDrain 1, 0)
  else (s, 0)

/-- NLOG_RESULT. -/
def State.nlogResult (s : State) (st : Nat) : List Fld :=
  [u8 st, u8 (logStCode s.nlog.state), u16 s.nlog.queued, u32 (s.nlog.lost - s.nlog.lostAtFreeze).toNat]

def State.nlogFreeze (s : State) (ref : OrderRef) (freeze timeoutS : Nat) : State :=
  let r := s.freezeLog freeze timeoutS
  r.1.answer ref 0x0F02 (ownReport r.2 (r.1.nlogResult r.2))

def execNlogFreeze (ref : OrderRef) (freeze timeoutS : Nat) (s : State) : Host.Outcome State Fault Refusal :=
  .next (s.runOrder ref 0x0F02 (fun s => s.nlogFreeze ref freeze timeoutS))

/-- NLOG_FREEZE_TIMEOUT. -/
def State.freezeTimeout (s : State) : State :=
  match s.nlog.freezeDue with
  | some t => if s.nlog.state = .frozen && t ≤ s.now then s.startDrain 2 else s
  | none => s

def execNlogFreezeTimeout (s : State) : Host.Outcome State Fault Refusal := .next s.freezeTimeout

/-- NLOG_DRAIN_DONE: the queue is appended; NLOG_FROZEN for the whole episode; RECORDING again. -/
def State.drainDone (s : State) : State :=
  if s.nlog.state = .draining && s.nlog.queue.isEmpty && s.canWrite then
    let f := s.raiseOwn 0xE9 s.frozenParams
    let s : State := { f.1 with nlog := { f.1.nlog with state := .recording } }
    s.appendRec f.2
  else s

def execNlogDrainDone (s : State) : Host.Outcome State Fault Refusal := .next s.drainDone

/-! ### Start-up and clearing (R603, R605) -/

/-- The three groups of R605, then NLOG_CAPTURE; `bad` names the capture records that fail their own CRC. -/
def State.appendStart (s : State) (bad : List Nat) : State :=
  let n := s.nlog
  let good := (n.capture.zipIdx.filter (fun p => !bad.contains p.2 && !p.1.damaged)).map Prod.fst
  let invalid := n.capture.length - good.length
  let appended := min good.length (fullSlots - n.slots.length)
  let s : State := { s with nlog := { n with queue := [], battRecs := [], capture := [], captureLost := 0, captureDue := false } }
  let s : State := s.appendAll (good.map (fun r => { r with captured := true }))
  let s : State := s.appendAll n.battRecs
  let s : State := s.appendAll (n.queue.map (fun r => { r with queued := true }))
  let f := s.raiseOwn 0xEB [u16 appended, u32 n.captureLost, u16 invalid]
  f.1.appendRec f.2

/-- State after an append: RECORDING unless the log has become full. -/
def State.toRecording (s : State) : State :=
  if s.nlog.state = .full then s else { s with nlog := { s.nlog with state := .recording } }

/-- The log has been looking for its write index (R605). -/
def State.logFound (s : State) : Bool := s.nlog.state == .starting && (3 < s.sup.step || s.fw.recovery)

/-- NLOG_READY (R605): the write index is found; `torn` says that the last slot was torn by the power loss. -/
def State.nlogReady (s : State) (bad : List Nat) (torn : Bool) : State :=
  if s.logFound then
    let tear (l : List (LogRec × Word)) : List (LogRec × Word) :=
      match l.getLast? with
      | some p => l.dropLast ++ [({ p.1 with damaged := true }, p.2)]
      | none => l
    let n := s.nlog
    let n := { n with slots := if torn then tear n.slots else n.slots }
    let n := { n with lastCrc := match n.slots.getLast? with
      | some p => p.2
      | none => n.lastCrc }
    let s : State := { s with nlog := n }
    if n.clearMark then
      let capture := (n.capture.zipIdx.map (fun p => if bad.contains p.2 then { p.1 with damaged := true } else p.1))
      { s with nlog := { n with state := .clearing, clearFrom := n.slots.length, capture := capture } }
    else if fullSlots < n.slots.length then { s with nlog := { n with state := .full } }.appendStart bad
    else ({ s with nlog := { n with state := .recording } }.appendStart bad).toRecording
  else s

/-- NLOG_CLEAR (R603). -/
def State.nlogClear (s : State) (ref : OrderRef) (confirm : Word) : State :=
  let n := s.nlog
  let st : Nat := match n.state with
    | .recording | .full => if confirm = n.lastCrc then 0 else 3
    | _ => 2
  let s : State := if st = 0 then
    { s with nlog := { n with state := .clearing, clearMark := true, clears := n.clears + 1, clearFrom := n.slots.length } }
    else s
  s.answer ref 0x0F04 (ownReport st (s.nlogResult st))

def execNlogClear (ref : OrderRef) (confirm : Word) (s : State) : Host.Outcome State Fault Refusal :=
  .next (s.runOrder ref 0x0F04 (fun s => s.nlogClear ref confirm))

/-- The erase of a clearing has ended. -/
def State.erased (s : State) : Bool := s.nlog.state == .clearing && s.canWrite

/-- NLOG_ERASE_DONE: slots empty, NLOG_CLEARED in slot 0, the queue behind it; at start-up the three groups of R605. -/
def State.eraseDone (s : State) : State :=
  if s.erased then
    let s : State := { s with nlog := { s.nlog with slots := [] } }
    let f := s.raiseOwn 0xEA [u32 s.nlog.clearFrom, u32 s.nlog.clears.toNat]
    let s : State := f.1.appendRec f.2
    let s : State := { s with nlog := { s.nlog with clearMark := false } }
    if s.nlog.captureDue then (s.appendStart []).toRecording
    else
      let q := s.nlog.queue
      let s : State := { s with nlog := { s.nlog with queue := [] } }
      (s.appendAll (q.map (fun r => { r with queued := true }))).toRecording
  else s

/-! ### Sources and reading (R597, R602, R606) -/

/-- The fields of NLOG_SRC are in range. -/
def srcOk (x : NlogSrc) : Bool :=
  x.source < 256 && !ownSource x.source &&
  (x.read || ((x.defaultRate || (x.rate < 65536 && between 1 1024 x.burst)) && x.slots.length ≤ 8
    && x.slots.all (fun f => f.offset % 4 == 0 && f.offset < 0x10000 && between 1 32 f.width && f.lsb + f.width ≤ 32)
    && (x.slots.map (·.width)).sum ≤ 208))

/-- A source's configuration in the order's layout from 0x02 to 0x27. -/
def State.srcConfig (s : State) (src : Nat) : List Fld :=
  let x := s.srcOf src
  let rb := s.bucketOf x.cfg
  let slots := x.slots ++ List.replicate (8 - x.slots.length) ⟨0, 0, 0⟩
  [u16 rb.1, u16 rb.2, u8 x.slots.length, u8 0] ++
    (slots.map (fun f => [u16 f.offset, u8 f.lsb, u8 f.width])).flatten

def State.nlogSrc (s : State) (ref : OrderRef) (x : NlogSrc) : State :=
  if !srcOk x then s.answer ref 0x0F01 (ownReport 1 (s.nlogResult 1))
  else if x.read then s.answer ref 0x0F01 (ownReport 0 (s.nlogResult 0 ++ s.srcConfig x.source))
  else
    let cfg := if x.defaultRate then none else some (x.rate, x.burst)
    let old := s.srcOf x.source
    let s : State := s.setSrc x.source { old with
      cfg := cfg, tokens := (s.bucketOf cfg).2 * tokenUnit, updated := s.now, cfgCount := old.cfgCount + 1,
      slots := x.slots.map (fun f => ⟨f.offset, f.lsb, f.width⟩) }
    s.answer ref 0x0F01 (ownReport 0 (s.nlogResult 0))

def execNlogSrc (ref : OrderRef) (x : NlogSrc) (s : State) : Host.Outcome State Fault Refusal :=
  .next (s.runOrder ref 0x0F01 (fun s => s.nlogSrc ref x))

/-- Whether the record of a slot passes its check (R593). -/
def NLog.slotOk (n : NLog) (i : Nat) : Bool :=
  match n.slots[i]? with
  | some p =>
    let prev := if i = 0 then n.clears else ((n.slots[i - 1]?).map Prod.snd).getD 0
    !p.1.damaged && chainCrc p.1 prev == p.2
  | none => false

/-- The slots of a read: from FIRST, at most COUNT, up to the write index. -/
def NLog.readRange (n : NLog) (first count : Nat) : List Nat :=
  (List.range (min count (n.slots.length - first))).map (· + first)

def NLog.slotData (n : NLog) (is : List Nat) : List Fld :=
  (is.map (fun i => ((n.slots[i]?).map (fun p => (slotBytes p).map (fun b => u8 b.toNat))).getD [])).flatten

/-- NLOG_READ (R602). -/
def State.nlogRead (s : State) (ref : OrderRef) (first count addr : Nat) : State :=
  let n := s.nlog
  if n.slots.length ≤ first || count = 0 || 4096 < count || addr % 64 ≠ 0 then
    s.answer ref 0x0F03 (ownReport 1 [u8 1, u8 0, u16 0, u32 first, u32 0, u32 n.slots.length])
  else
    let is := n.readRange first count
    let bad := (is.filter (fun i => !n.slotOk i)).length
    let s : State := s.toHost (.hostData addr (n.slotData is))
    s.answer ref 0x0F03 (ownReport 0
      [u8 0, u8 0, u16 is.length, u32 (first + is.length), u32 bad, u32 n.slots.length])

def execNlogRead (ref : OrderRef) (first count addr : Nat) (s : State) : Host.Outcome State Fault Refusal :=
  .next (s.runOrder ref 0x0F03 (fun s => s.nlogRead ref first count addr))

end Sys2Proof.Machine
end

