-- ==== Sys2Proof/Machine/Boot.lean ====
section
/-! DEFINITION. The reset of the tablet: what it loses, and what flash, fuses and the battery domain carry across it
(spec/20_supplies_startup_ratings.md, R663, R674; R137, R625, R648, R653). -/

namespace Sys2Proof.Machine

open Sys2Proof

/-- The calibration registers of a page and the values they load (R444, R644). -/
def pageRegs (p : List Byte) : List (Nat × Word) :=
  let row (f : Nat → Nat) (o : Nat) : List (Nat × Word) := (List.range 32).map (fun n => (f n, f32At p (o + 4 * n)))
  row rChGain 0x30 ++ row rChOfs 0xB0 ++ row rChPhase 0x130
    ++ (List.range 48).map (fun i => (rCirc (i / 4) (i % 4), f32At p (0x1B0 + 4 * i)))

/-- GLB_SERIAL and RING_MAC from a serial and a MAC address (R451, R523, R645). -/
def idRegs (serial : Nat) (mac : List Byte) : List (Nat × Word) :=
  [(0x0004, word serial), (0x0008, word (serial / 2 ^ 32)), (0x400C, word (beNat ((mac.drop 2).take 4))),
   (0x4010, word (beNat (mac.take 2)))]

def State.setRegs (s : State) (l : List (Nat × Word)) : State := l.foldl (fun s p => s.setReg p.1 p.2) s

/-- The registers marked "page" at a reset (R405, R646). -/
def State.loadPage (s : State) : State :=
  let p := s.cal.page
  if pageOk p then
    let s : State := s.setRegs (pageRegs p ++ idRegs (pageSerial p) ((p.drop 0x18).take 6))
    { s with
      cal := { s.cal with
        valid := true, sense := [f32At p 0x270, f32At p 0x274, f32At p 0x278],
        tofs := (List.range 8).map (fun d => f32At p (0x280 + 4 * d)) }
      meter := { s.meter with chans := s.meter.chans.map (fun c => { c with uncal := false }) } }
  else
    let s : State := s.setRegs (idRegs s.fuses.serial.toNat s.fuses.mac)
    ({ s with cal := { s.cal with valid := false } }).raise 0xF3 [u16 0]

/-! ### What a reset interrupts -/

/-- The segments of a strip whose update a reset interrupts: those being driven stand as free values. -/
def State.segsAtReset (s : State) : DWord × State :=
  let t := s.tag
  let all : DWord := ~~~seg63
  let torn (driven : DWord) : DWord × State :=
    let a := s.takeFree 8
    let b := a.2.takeFree 8
    let free : DWord := BitVec.ofNat 64 (a.1.toNat * 2 ^ 32 + b.1.toNat)
    ((t.segs &&& ~~~driven) ||| (free &&& driven), b.2)
  match t.run, t.phase with
  | some _, .mark | some _, .unmark => torn seg63
  | some u, .drive => torn (if u.full then all else u.image ^^^ t.shown)
  | _, _ => (t.segs, s)

/-- Model slots: one that was being written holds no image (R137). -/
def State.slotsAtReset (s : State) : List ModelSlot :=
  match s.model.load with
  | some l => if l.stage = .writing then s.model.slots.set l.slot ⟨[], 0⟩ else s.model.slots
  | none => s.model.slots

/-- A TRIAL bank that was running is marked bad (R653). -/
def State.banksAtReset (s : State) : List FwBank :=
  match s.fw.running with
  | some i => s.fw.banks.modify i (fun b => { b with bad := b.bad || b.trial })
  | none => s.fw.banks

/-- The tablet resets with a cause: it stands before step 1. The local clock counts from the reset until it is set. -/
def State.reboot (s : State) (cause : ResetCause) : State :=
  let g := s.segsAtReset
  let s : State := g.2
  let z : State := State.reset
  { z with
    now := s.now, clockOfs := -(s.now : Int), freeCnt := s.freeCnt, fuses := s.fuses, pending := s.pending,
    out := s.out ++ [.reset]
    fab := { z.fab with decks := z.fab.decks.map (fun d => { d with idleSince := s.now }), scrubSince := s.now }
    nlog := { z.nlog with
      slots := s.nlog.slots, clears := s.nlog.clears, clearMark := s.nlog.clearMark, capture := s.nlog.capture,
      captureLost := s.nlog.captureLost }
    twin := { z.twin with storedEpoch := s.twin.storedEpoch, flashEpoch := s.twin.flashEpoch }
    sup := { z.sup with
      cause := cause, pfCnt := s.sup.pfCnt, battClock := s.sup.battClock, flushesLost := s.sup.flushesLost }
    setup := { z.setup with slots := s.setup.slots }
    model := { z.model with slots := s.slotsAtReset }
    tally := { z.tally with banks := s.tally.banks, flash := s.tally.flash }
    meter := { z.meter with batt := s.meter.batt, saves := s.meter.saves }
    panel := { z.panel with
      saves := s.panel.saves, refreshAt := s.now, ageAt := s.now, savedAt := s.now, crackAt := s.now }
    tag := { z.tag with flag := s.tag.flag, shown := s.tag.shown, wanted := s.tag.wanted, segs := g.1 }
    cal := { z.cal with page := if s.cal.write.isSome then [] else s.cal.page, writes := s.cal.writes }
    fw := { z.fw with banks := s.banksAtReset } }

end Sys2Proof.Machine
end

