-- ==== Sys2Proof/Machine/Calib.lean ====
section
/-! DEFINITION. Writing and reading the calibration page, and loading firmware (spec/19_service_monitor_calibration.md,
R643–R656). -/

namespace Sys2Proof.Machine

open Sys2Proof

/-! ### The calibration page -/

/-- A CALI transfer or a page write is in progress (R643). -/
def State.calBusy (s : State) : Bool :=
  s.cal.write.isSome || (match s.svc.xfer with
    | some (.page, _) => true
    | _ => false)

/-- CAL_RESULT (R656); an invalid page shows zeros. -/
def State.calBody (s : State) (st : Nat) : List Fld :=
  let v := s.cal.valid
  [u8 st, u8 (if v then calOrigin s.cal else 0), u16 0, u32 (calCrc s.cal), u32 (if v then calWrites s.cal else 0)]

/-- The monitor's final line for a function's status: BUSY (6 of R656) is ER 04, another refusal ER 07. -/
def monStatus (busy st : Nat) : Nat := if st = 0 then 0 else if st = busy then 4 else 7

/-- A calibration operation ends: its order or its monitor line is answered. -/
def State.calEnd (s : State) (src : SvcSrc) (op st : Nat) : State :=
  match src with
  | .order ref => s.answer ref op (ownReport st (s.calBody st))
  | .monitor =>
    let s : State := if st = 0 then s.cross [0x16] (.monLine [u32 (calCrc s.cal)]) else s
    s.cross [0x16] (.monDone (monStatus 6 st))

/-- The page as stored; an erased sector reads as ones. -/
def Calib.stored (c : Calib) : List Byte := (c.page ++ List.replicate 4096 0xFF#8).take 4096

/-- Steps 1 and 2 of a write (R648), behind the checks of the page itself: CONFIRM, the energy check, and the erase begins. -/
def State.calWrite (s : State) (src : SvcSrc) (origin : Nat) (consts : List Byte) (confirm : Word) (validateOnly : Bool)
    (rawMv : Nat) : State :=
  let op := if origin = 1 then 0x1102 else 0x1103
  if confirm.toNat ≠ calCrc s.cal then s.calEnd src op 4
  else if validateOnly then s.calEnd src op 0
  else if s.sup.holdUp then s.calEnd src op 7
  else
    let v := s.sensed 1 rawMv
    if s.usableMj v.2 < 60 + reserveMj then v.1.calEnd src op 5
    else
      let s : State := v.1
      let w := (if s.cal.valid then calWrites s.cal else s.cal.writes) + 1
      let page := mkPage origin w s.fuses.serial.toNat s.fuses.mac (s.tai / secNs % 2 ^ 48) consts
      { s with cal := { s.cal with write := some ⟨src, page, origin, word (calCrc s.cal), false⟩, writes := w } }

/-- The checks of an imported page (R647). -/
def State.calImportChecked (s : State) (src : SvcSrc) (page : List Byte) (confirm : Word) (validateOnly : Bool) (rawMv : Nat) :
    State :=
  if !pageOk page then s.calEnd src 0x1102 2
  else if pageSerial page ≠ s.fuses.serial.toNat then s.calEnd src 0x1102 3
  else s.calWrite src 1 ((page.take 0xFFC).drop 0x30) confirm validateOnly rawMv

/-- CAL_IMPORT. -/
def State.calImport (s : State) (src : SvcSrc) (page : List Byte) (confirm : Word) (validateOnly : Bool) (rawMv : Nat) : State :=
  if s.calBusy then s.calEnd src 0x1102 6 else s.calImportChecked src page confirm validateOnly rawMv

def execCalImport (ref : OrderRef) (page : List Byte) (confirm : Word) (validateOnly : Bool) (rawMv : Nat) (s : State) :
    Host.Outcome State Fault Refusal :=
  .next (s.runOrder ref 0x1102 (fun s => s.calImport (.order ref) page confirm validateOnly rawMv))

/-- The constants of a capture: the working registers, SENSE and DECK_TOFS of the current page or the defaults (R647). -/
def State.captured (s : State) : List Byte :=
  let row (f : Nat → Nat) : List F32 := (List.range 32).map (fun n => s.reg (f n))
  let circs : List F32 := (List.range 48).map (fun i => s.reg (rCirc (i / 4) (i % 4)))
  let p := s.cal.page
  let at_ (n o : Nat) (dflt : F32) : List F32 := (List.range n).map (fun i => if s.cal.valid then f32At p (o + 4 * i) else dflt)
  pageConsts (row rChGain ++ row rChOfs ++ row rChPhase) circs (at_ 3 0x270 fOne) (at_ 8 0x280 0)

/-- CAL_CAPTURE. -/
def State.calCapture (s : State) (src : SvcSrc) (confirm : Word) (rawMv : Nat) : State :=
  if s.calBusy then s.calEnd src 0x1103 6 else s.calWrite src 2 s.captured confirm false rawMv

def execCalCapture (ref : OrderRef) (confirm : Word) (rawMv : Nat) (s : State) : Host.Outcome State Fault Refusal :=
  .next (s.runOrder ref 0x1103 (fun s => s.calCapture (.order ref) confirm rawMv))

/-- The battery domain's gains and offsets after a page write (R433). -/
def State.battRefresh (s : State) : State :=
  let p := s.cal.page
  let b := s.meter.batt
  { s with meter := { s.meter with batt := { b with
    cals := b.cals.map (fun c => (c.1, f32At p (0x30 + 4 * c.1), f32At p (0xB0 + 4 * c.1))) } } }

/-- CAL_WRITE_DONE (R648): a read-back that fails is retried once. -/
def State.calWriteDone (s : State) (ok : Bool) : State :=
  match s.cal.write with
  | none => s
  | some w =>
    let op := if w.origin = 1 then 0x1102 else 0x1103
    if ok then
      let s : State := { s with cal := { s.cal with page := w.page, valid := true, write := none } }
      let s : State := s.battRefresh.raise 0xF2
        [u16 w.origin, u32 (calWrites s.cal), u32 (calCrc s.cal), u32 w.oldCrc.toNat]
      s.calEnd w.src op 0
    else if w.retried then
      let s : State := { s with cal := { s.cal with page := [], valid := false, write := none } }
      (s.raise 0xF3 [u16 1]).calEnd w.src op 8
    else { s with cal := { s.cal with write := some { w with retried := true } } }

def execCalWriteDone (ok : Bool) (s : State) : Host.Outcome State Fault Refusal := .next (s.calWriteDone ok)

/-- CAL_EXPORTED. -/
def State.calExported (s : State) (source : Nat) : State := s.raise 0xF4 [u16 source, u32 (u32At s.cal.stored 0xFFC)]

/-- CAL_EXPORT: the bytes as stored. -/
def State.calExport (s : State) (ref : OrderRef) (addr : Nat) : State :=
  if s.calBusy then s.calEnd (.order ref) 0x1101 6
  else
    let s : State := s.toHost (.hostData addr (s.cal.stored.map (fun b => u8 b.toNat)))
    (s.calExported 0).calEnd (.order ref) 0x1101 (if s.cal.valid then 0 else 1)

def execCalExport (ref : OrderRef) (addr : Nat) (s : State) : Host.Outcome State Fault Refusal :=
  .next (s.runOrder ref 0x1101 (fun s => s.calExport ref addr))

/-! ### Firmware (R651–R656) -/

/-- A load or an IMG transfer is in progress (R643). -/
def State.fwBusy (s : State) : Bool :=
  s.fw.load.isSome || (match s.svc.xfer with
    | some (.firmware _, _) => true
    | _ => false)

/-- FW_RESULT, or the monitor's final line. -/
def State.fwEnd (s : State) (src : SvcSrc) (st : Nat) (img : List Byte) : State :=
  match src with
  | .order ref => s.answer ref 0x1104 (ownReport st [u8 st, u8 0, u8 0, u8 0, u32 (fwRevision img)])
  | .monitor => s.cross [0x16] (.monDone (monStatus 7 st))

def State.fwBank (s : State) (i : Nat) : FwBank := s.fw.banks.getD i default
def State.fwRunning (s : State) : Nat := s.fw.running.getD 0
def State.fwRevNow (s : State) : Nat := if s.fw.running.isSome then fwRevision (s.fwBank s.fwRunning).bytes else 0

/-- The bank that is not running; in RECOVERY bank A (R654). -/
def State.fwSpare (s : State) : Nat := if s.fw.running = some 0 then 1 else 0

def State.setFwBank (s : State) (i : Nat) (b : FwBank) : State :=
  { s with fw := { s.fw with banks := s.fw.banks.set i b } }

/-- The checks of a load, and its write begins: the bank is erased. A load in RECOVERY activates its bank. -/
def State.fwStart (s : State) (src : SvcSrc) (img : List Byte) (length : Nat) (validateOnly allowOlder activate : Bool) : State :=
  let st := fwChecks s.fuses.vendor img length
  if st ≠ 0 then s.fwEnd src st img
  else if fwRevision img < s.fwRevNow && !allowOlder then s.fwEnd src 6 img
  else if validateOnly then s.fwEnd src 0 img
  else
    let s : State := s.setFwBank s.fwSpare default
    { s with fw := { s.fw with load := some ⟨src, img, activate || s.fw.recovery⟩ } }

/-- FW_LOAD. -/
def State.fwLoad (s : State) (src : SvcSrc) (img : List Byte) (length : Nat) (validateOnly allowOlder activate : Bool) : State :=
  if s.fwBusy then s.fwEnd src 7 img else s.fwStart src img length validateOnly allowOlder activate

def execFwLoad (ref : OrderRef) (img : List Byte) (length : Nat) (validateOnly allowOlder activate : Bool) (s : State) :
    Host.Outcome State Fault Refusal :=
  .next (s.runOrder ref 0x1104 (fun s => s.fwLoad (.order ref) img length validateOnly allowOlder activate))

/-- FW_LOAD_DONE: the bank's write has been read back. In RECOVERY the tablet then resets. -/
def State.fwLoadDone (s : State) (ok : Bool) : State :=
  match s.fw.load with
  | none => s
  | some l =>
    let s : State := { s with fw := { s.fw with load := none } }
    if !ok then s.fwEnd l.src 8 l.bytes
    else
      let i := s.fwSpare
      let next := (s.fw.banks.map (·.seq)).foldl max 0 + 1
      let s : State := s.setFwBank i ⟨l.bytes, if l.activate then next else 0, l.activate, false⟩
      let s : State := s.raise 0xF5 [u16 i, u32 (fwRevision l.bytes), u16 (b01 l.activate)]
      let s : State := s.fwEnd l.src 0 l.bytes
      if s.fw.recovery then s.reboot .recovery else s

def execFwLoadDone (ok : Bool) (s : State) : Host.Outcome State Fault Refusal := .next (s.fwLoadDone ok)

/-- FW_INFO (R656). -/
def State.fwInfo (s : State) : List Fld :=
  let a := s.fwBank s.fwRunning
  let b := s.fwBank (1 - s.fwRunning)
  [u8 s.fwRunning, u8 (b01 a.trial + 2 * b01 b.bad + 4 * b01 s.fw.fallback), u16 0, u32 s.fwRevNow,
   u32 (if b.bytes.isEmpty then 0 else fwRevision b.bytes)]

def State.fwQuery (s : State) (ref : OrderRef) : State := s.answer ref 0x1105 (stateReport stDone s.fwInfo)

def execFwQuery (ref : OrderRef) (s : State) : Host.Outcome State Fault Refusal :=
  .next (s.runOrder ref 0x1105 (fun s => s.fwQuery ref))

end Sys2Proof.Machine
end

