-- ==== Sys2Proof/Machine/Loop.lean ====
section
/-! DEFINITION. The commands of the loop engine (spec/10_loop_engine.md). -/

namespace Sys2Proof.Machine

open Sys2Proof

/-! ### Output (R330, R343, R353) -/

/-- Hand an output to its destination: only from start-up step 11 on, on an ACTIVE or SOLO tablet (R345, R346). -/
def State.loopDrive (s : State) (l : Loop) (v : F32) : State :=
  let d := l.dest
  if !s.driven || !s.activeOrSolo then s
  else if d / 2 ^ 14 = 2 then s.busPutLoop (d / 32 % 2) (d % 32) v (l.flag fSingle)
  else if d / 2 ^ 14 = 3 then
    { s with loops := { s.loops with pwmNext := alPut s.loops.pwmNext (d % 16) (fClamp 0 (fOfInt 1 1) v) } }
  else s

/-- What one sample has read and computed. -/
structure SampleOut where
  inst : Nat
  latencyNs : Nat
  pv : F32 × Quality × Nat
  pos : F32 × Quality × Nat
  e : F32
  out : F32
  flags : Nat

/-- Only finite values are published (R328). -/
def pvFinite (v : F32) : F32 := if fFinite v then v else 0

def secF (ns : Nat) : F32 := fOfInt ns secNs

/-- The eight process values (R353). -/
def Loop.entries (l : Loop) (o : SampleOut) : List PvEntry :=
  let e (v : F32) (q : Quality) : PvEntry := ⟨pvFinite v, o.inst, q, 0, 0, 0⟩
  [e o.pv.1 o.pv.2.1, e l.sp .good, e o.out .good, e o.e o.pv.2.1, e o.pos.1 o.pos.2.1, e (secF o.latencyNs) .good,
    e (secF l.latAll) .good, e (fOfInt (modeCode l.mode) 1) .good]

/-- A trace record (R352): written while a trace of the loop runs. -/
def State.traceSample (s : State) (n : Nat) (l : Loop) (o : SampleOut) : State :=
  match s.loops.trace with
  | some t =>
    if t.loop ≠ n then s
    else
      let s : State := s.toHost (.hostData (t.addr + 16 * t.done)
        [u32 o.inst, f32 o.pv.1, f32 o.out, u16 (min (o.latencyNs / 10) 0xFFFF), u8 (modeCode l.mode), u8 o.flags])
      let s : State := { s with loops := { s.loops with trace := some { t with done := t.done + 1 } } }
      if t.count ≤ t.done + 1 then s.endTrace else s
  | none => s

/-- Issue a sample's output: counts, latency, destination, mirror, process values, trace. An unfit SOLO tablet's outputs hold (R88). -/
def State.loopIssue (s : State) (n : Nat) (l : Loop) (o : SampleOut) : State :=
  let o : SampleOut := if s.unfitSolo then { o with out := l.out } else o
  let late := s.derateTime (classBoundNs l.cls) < o.latencyNs
  let l : Loop := { l with
    out := o.out, lastAt := some o.inst, limited := cfgBit o.flags 0, samples := l.samples + 1,
    latLast := o.latencyNs, latMax := max l.latMax o.latencyNs, latAll := max l.latAll o.latencyNs,
    overCnt := if late then satInc l.overCnt else l.overCnt }
  let s : State := s.setLoop n { l with pv := l.entries o }
  let s : State := if late then s.raiseTimed2 0x72 n [u16 n] true 1 (o.latencyNs / usNs) else s
  let s : State := s.mirror 0x03 [u16 n, u8 (modeCode l.mode), u8 0, u32 o.inst, f32 o.out, f32 l.sp]
  (s.loopDrive l o.out).traceSample n l o

/-! ### One sample (R331–R336) -/

/-- FORCE_BIT is 1, or the Tally is stopped with SAFE_ON_STOP; neither counts on a STANDBY or ISOLATED tablet (R345). Answers the
cause of R354. -/
def State.loopForce (s : State) (l : Loop) : Option Nat :=
  if s.follows then none
  else if l.forceBit ≠ 0xFFFFFFFF && s.pubMarker l.forceBit then some 0
  else if s.tallyStopped && l.flag fSafeOnStop then some 1
  else none

/-- The track value: the mirrored output of a standby, data word TRACK_WORD while its bits are finite, or OUT_MAN (R336). -/
def State.loopTrack (s : State) (l : Loop) : F32 :=
  if s.follows then l.track
  else if l.trackWord = 0xFFFF then l.outMan
  else if fFinite (s.pubWord l.trackWord) then s.pubWord l.trackWord else l.track

/-- The first sample after promotion (R345): TRACKING to CLOSED, unless it is forced open or a mode order came first; counted for
LOOP_TAKEOVER: loops that closed with a usable PV, and loops whose PV was not usable. -/
def State.loopTake (s : State) (n : Nat) (usable forced : Bool) : State :=
  match s.loopOf n with
  | some l =>
    if !l.first then s
    else
      let m : Loop := { l with promote := false, first := false }
      let s : State := if l.promote && !forced then s.loopMode n { m with closing := true } .closed 4 else s.setLoop n m
      let closed := !forced && (l.promote || l.mode == .closed)
      ({ s with loops := { s.loops with
        takeUsable := s.loops.takeUsable + b01 (usable && closed), takeBad := s.loops.takeBad + b01 (!usable) } }).settleTakeover
  | none => s

/-- A forced sample (R331, R335): OPEN at SAFE_OUT without rate limit. -/
def State.loopForced (s : State) (n : Nat) (l : Loop) (cause : Nat) (o : SampleOut) : State :=
  let s : State := if l.mode = .opened then s else s.raise 0x74 [u16 n, u16 cause]
  let s : State := s.loopMode n { l with
    forcedOpen := true, outMan := l.safeOut, closing := false, startClose := false } .opened cause
  match s.loopOf n with
  | some l => s.loopIssue n l { o with out := l.safeOut }
  | none => s

/-- The error: SP − PV, or PV − SP with REVERSE (R331). -/
def Loop.errorOf (l : Loop) (pv sp : F32) : F32 := if l.flag fReverse then fSub pv sp else fSub sp pv

/-- POS is named and usable (R334). -/
def Loop.posOk (l : Loop) (o : SampleOut) : Bool := l.srcKind oPos != 0 && qUsable o.pos.2.1

/-- The previous position for the next sample (R339): this one's, where it could be read. -/
def Loop.posSeen (l : Loop) (o : SampleOut) : Option (F32 × Nat) := if l.posOk o then some (o.pos.1, o.inst) else l.posPrev

/-- A sample with an unusable PV (R333): the previous output again, and OPEN at the PV_BAD_N-th of a CLOSED loop. -/
def State.loopBad (s : State) (n : Nat) (l : Loop) (o : SampleOut) : State :=
  let bad := l.badCount + 1
  let l : Loop := { l with badCount := bad, pvBad := true, forcedOpen := false, posPrev := l.posSeen o }
  let o : SampleOut := { o with out := l.out, e := pvFinite (l.errorOf o.pv.1 l.sp), flags := o.flags + 4 }
  if l.mode = .closed && l.pvBadN ≤ bad then
    let out := if l.flag fPvBadSafe then l.safeOut else l.out
    let s : State := s.raise 0x71 [u16 n, u16 (qCode o.pv.2.1), u32 ((o.inst - o.pv.2.2) / usNs)]
    let s : State := s.loopMode n { l with outMan := out, closing := false } .opened 2
    match s.loopOf n with
    | some l => s.loopIssue n l { o with out := out }
    | none => s
  else s.loopIssue n l o

/-- The set-point of a sample: the one in force for KIND 8 and on a standby, where it follows the mirrored one (R345), else its source
where usable, else the previous one; the last component says that it was held (R334). -/
def State.loopSpUse (s : State) (l : Loop) (inst : Nat) : F32 × Bool :=
  if l.srcKind oSp = 8 || s.follows then (l.sp, false)
  else
    let r := s.loopSrc l oSp inst
    if l.srcKind oSp ≠ 0 && qUsable r.2.1 then (r.1, false) else (l.sp, l.srcKind oSp != 0)

/-- The computation of R331. -/
def State.loopCompute (s : State) (n : Nat) (l : Loop) (o : SampleOut) : State :=
  let spu := s.loopSpUse l o.inst
  let sp := spu.1
  let posOk := l.posOk o
  let p := o.pos.1
  let tNs := match l.lastAt with
    | some a => o.inst - a
    | none => l.periodUs * usNs
  let e := l.errorOf o.pv.1 sp
  let cog := if posOk then s.tableAt l l.cogTable p else 0
  let fric := if posOk then fMul (s.tableAt l l.fricTable p) (l.dir p o.inst e) else 0
  let spFf := fMul l.ffSp sp
  let ff := fAdd (fAdd spFf cog) fric
  let xl := lastInput l.sections e
  let secs := if l.closing && l.mode == .closed then secBumpless l.sections xl (fSub l.out ff) l.gain else l.sections
  let r := secRunAll secs e
  let u := match l.mode with
    | .closed => fAdd (fAdd (fAdd (fMul l.gain r.1) spFf) cog) fric
    | .opened => l.outMan
    | .tracking => s.loopTrack l
  let c := fClamp l.outMin l.outMax u
  let step := fMul l.rate (fOfInt tNs secNs)
  let ulim := if fLt 0 l.rate then fClamp (fSub l.out step) (fAdd l.out step) c else c
  let limited := !fEq ulim u && fSgn (fSub u ulim) == fSgn (fMul l.gain e)
  let held := limited && secs.any (fun c => c.integ)
  let secs := secStep limited secs r.2
  let secs := if l.mode = .closed then secs else secBumpless secs xl (fSub ulim ff) l.gain
  let l : Loop := { l with
    sections := secs, sp := sp, badCount := 0, pvBad := false, forcedOpen := false, closing := l.closing && l.mode != .closed,
    track := if l.mode = .tracking then u else l.track, posPrev := l.posSeen o }
  s.loopIssue n l { o with
    e := e, out := ulim,
    flags := o.flags + b01 limited + 2 * b01 held + 16 * b01 spu.2 + 32 * b01 (l.srcKind oPos != 0 && !posOk) }

/-- One sample at an instant, up to its output. `noPv`: the timeout of R326. -/
def State.loopRun (s : State) (n : Nat) (inst : Nat) (noPv : Bool) (x : LoopIn) : State :=
  match s.loopOf n with
  | none => s
  | some l =>
    let t := (l.settleLater inst).takeSp inst
    let l : Loop := { t.1 with lastTrig := inst, trig := false, due := none }
    let s : State := s.setLoop n l
    let pv := s.loopSrc l oPv inst
    let pos := s.loopSrc l oPos inst
    let usable := !noPv && l.pvUsable pv inst
    let o : SampleOut := ⟨inst, x.latencyNs, pv, pos, 0, 0, 8 * b01 t.2⟩
    let force := s.loopForce l
    let s : State := s.loopTake n usable force.isSome
    match s.loopOf n with
    | none => s
    | some l =>
      match force with
      | some c => s.loopForced n l c o
      | none =>
        let go := l.startClose && usable && s.activeOrSolo && s.driven && !l.coefMissing
        let s : State := if go then s.loopMode n { l with startClose := false, closing := true } .closed 5 else s
        match s.loopOf n with
        | some l => if usable then s.loopCompute n l o else s.loopBad n l o
        | none => s

/-- A sample at an instant. Once it has issued its output, a mode order that came after the instant takes effect (R342), and a
QUIESCING loop is DISABLED (R347). -/
def State.loopSample (s : State) (n : Nat) (inst : Nat) (noPv : Bool) (x : LoopIn) : State :=
  let s : State := s.loopRun n inst noPv x
  match s.loopOf n with
  | some l =>
    if l.en = .quiescing then s.loopOff n (l.settleLater s.tai)
    else if l.later.isSome then s.setLoop n (l.settleLater s.tai)
    else s
  | none => s

/-- Loops of one role that share an instant are sampled in ascending number: no lower one still waits for it (R325). -/
def State.loopTurn (s : State) (n t : Nat) : Bool :=
  !s.loops.loops.any (fun p => decide (p.1 < n) && p.1 / 16 == n / 16 && p.2.en != .disabled && s.loopDue p.2 == some t)

/-- LOOP_SAMPLE; each sample ends with a checkpoint (R83). -/
def State.loopTrigger (s : State) (n : Nat) (x : LoopIn) : State :=
  match s.loopOf n with
  | none => s
  | some l =>
    if l.en = .disabled then s
    else match s.loopDue l with
      | none => s
      | some t =>
        if s.loopRoleDown n then s.loopCatchUp n l (s.downFor (loopRole n))
        else if s.loopTurn n t then (s.loopSample n t false x).checkpoint (loopRole n)
        else s

def execLoopSample (loop : Nat) (x : LoopIn) (s : State) : Host.Outcome State Fault Refusal := .next (s.loopTrigger loop x)

/-- LOOP_TRIGGER_TIMEOUT (R326): PERIOD_US without a FIELDBUS trigger. -/
def State.loopTimeout (s : State) (n : Nat) (x : LoopIn) : State :=
  match s.loopOf n with
  | none => s
  | some l =>
    if l.en ≠ .enabled || l.trigger ≠ 2 || l.trig || s.tai < l.lastTrig + l.periodUs * usNs then s
    else if s.loopRoleDown n then s.loopMiss n l s.tai 1
    else (s.loopSample n s.tai true x).checkpoint (loopRole n)

def execLoopTriggerTimeout (loop : Nat) (x : LoopIn) (s : State) : Host.Outcome State Fault Refusal :=
  .next (s.loopTimeout loop x)

/-- PWM_PERIOD_START (R330): the latest duty value takes effect, and the period crosses as an alarm (R69); a standby's output stays at its inactive level (R345). -/
def State.pwmStart (s : State) (n : Nat) : State :=
  let t : State := s.alarm 0x0C
  if 16 ≤ n then s
  else if !s.driven || !s.activeOrSolo then t
  else match alGet s.loops.pwmNext n with
    | some v => ({ t with loops := { t.loops with pwm := alPut t.loops.pwm n v } }).cross [0x0A] (.pwm n v)
    | none => t

def execPwmPeriodStart (output : Nat) (s : State) : Host.Outcome State Fault Refusal := .next (s.pwmStart output)

/-! ### Orders (R337, R340, R348–R352) -/

def State.loopAnswer (s : State) (ref : OrderRef) (opcode loop st : Nat) : State :=
  s.answer ref opcode (ownReport st [u16 loop, u8 st, u8 0])

def zeroAt (d : List Byte) (o n : Nat) : Bool := ((d.drop o).take n).all (fun b => b == 0#8)

/-- A source descriptor is in range (R327, R348 check 4). -/
def loopSrcOk (d : List Byte) (o : Nat) : Bool :=
  let k := u8At d o
  let enc := u8At d (o + 1)
  let i := u16At d (o + 2)
  let off := u8At d (o + 4)
  let size := if enc = 0 || enc = 3 then 4 else 2
  k ≤ 8 && enc ≤ 3 && zeroAt d (o + 5) 3 && fFinite (f32At d (o + 8)) && !fIsZero (f32At d (o + 8)) && fFinite (f32At d (o + 12))
    && off % size == 0 && !(o == oPv && k == 0) && (k != 8 || o == oSp) && !((k == 4 || k == 5) && u8At d 2 == 0)
    && (match k with
      | 0 => i == 0
      | 1 => i ≤ 31
      | 2 => i ≤ 30 && i % 2 == 0
      | 3 => i ≤ 255 && off + size ≤ 64
      | 4 => i ≤ 1023 && off + size ≤ 64
      | 6 => i ≤ 511
      | 7 => off + size ≤ 4
      | 8 => i == 0
      | _ => true)

/-- The destination is in range and the loop's to write (R330, R574). -/
def State.loopDestOk (s : State) (n d : Nat) : Bool :=
  let k := d / 2 ^ 14
  if k = 0 then d == 0
  else if k = 2 then
    d / 64 % 256 == 0 && s.busOwner (d / 32 % 2) (d % 32) == some 1
      && !s.loops.loops.any (fun p => p.1 != n && p.2.dest == d)
  else if k = 3 then d / 16 % 1024 == 0
  else false

/-- A table that a descriptor names, with the kind under which it names it. -/
def State.tableOk (s : State) (t kind : Nat) : Bool :=
  t == 0xFFFF || (t ≤ 1023 && ((alGet s.loops.tables t).map (fun x => x.kind == kind)).getD true)

/-- Field ranges and table kinds (R348 check 3). -/
def State.loopFieldsOk (s : State) (n : Nat) (d : List Byte) : Bool :=
  let l : Loop := { (default : Loop) with desc := d }
  let floats := [0x48, 0x4C, 0x50, 0x54, 0x58, 0x5C, 0x60, 0x64, 0x68, 0x6C].map (f32At d)
  n ≤ 511 && u16At d 0 == n && l.cls ≤ 1 && between 1 8 l.nSec && between (classLeastUs l.cls) (classMostUs l.cls) l.periodUs
    && l.trigger ≤ 2 && u8At d 9 == 0 && u16At d 0x0A < 64
    && (match l.trigger with
      | 0 => l.trigIndex == 0
      | 1 => l.cls == 0 && l.periodUs % 125 == 0 && l.trigIndex ≤ 31
      | _ => l.trigIndex ≤ 255)
    && between 1 1000 l.pvBadN && s.tableOk l.fricTable 0 && s.tableOk l.cogTable 1 && floats.all fFinite && !fIsZero l.gain
    && fLt l.outMin l.outMax && fLe 0 l.rate && fBetween l.outMin l.outMax l.safeOut && fLt l.posMin l.posMax && fLe 0 l.velDb
    && fLt 0 l.eDb && between 1 20000000 l.freshUs && (l.forceBit ≤ 0xFFFF || l.forceBit == 0xFFFFFFFF) && zeroAt d 0x78 4

/-- The SP chain from a loop on comes back to loop `n` (R329). -/
def State.spCycle : Nat → State → Nat → List Byte → Bool
  | 0, _, _, _ => false
  | k + 1, s, n, d =>
    if u8At d oSp ≠ 6 then false
    else if u16At d (oSp + 2) = n then true
    else match s.loopOf (u16At d (oSp + 2)) with
      | some m => State.spCycle k s n m.desc
      | none => false

/-- The checks of R348, first failure first. -/
def State.loopCfgStatus (s : State) (n : Nat) (d : List Byte) : Nat :=
  if ((s.loopOf n).map (fun l => l.mode != .opened)).getD false then 1
  else if crc32c (d.take 0x7C) ≠ word (u32At d 0x7C) then 3
  else if !s.loopFieldsOk n d then 2
  else if !(loopSrcOk d oPv && loopSrcOk d oSp && loopSrcOk d oPos && s.loopDestOk n (u16At d 0x40)) then 2
  else if (if u8At d 2 = 0 then 64 else 448) ≤ (s.loops.loops.filter (fun p => p.1 != n && p.2.cls == u8At d 2)).length then 5
  else if State.spCycle 513 s n d then 12
  else 0

/-- A loop as its first descriptor makes it (R346). -/
def newLoop (d : List Byte) (follows : Bool) (now : Nat) : Loop :=
  let safe := f32At d 0x5C
  { (default : Loop) with
    desc := d, en := .enabled, mode := if follows then .tracking else .opened, sections := List.replicate (u8At d 3) secZero,
    outMan := safe, out := safe, track := safe, coefMissing := true, lastTrig := now - 1,
    pv := List.replicate 8 pvInvalid }

/-- LOOP_CFG. -/
def State.loopCfg (s : State) (ref : OrderRef) (n : Nat) (d : List Byte) : State :=
  let st := s.loopCfgStatus n d
  if st ≠ 0 then s.loopAnswer ref 0x0901 n st
  else
    let l : Loop := match s.loopOf n with
      | none => newLoop d s.follows s.tai
      | some l =>
        if l.periodUs = u32At d 4 && l.nSec = u8At d 3 then { l with desc := d }
        else { l with desc := d, coefMissing := true, sections := (l.sections.map (fun c => { c with written := false })).take (u8At d 3)
                 ++ List.replicate (u8At d 3 - l.sections.length) secZero }
    (s.setLoop n { l with queue := if u8At d oSp = 8 then l.queue else [] }).loopAnswer ref 0x0901 n 0

def execLoopCfg (ref : OrderRef) (loop : Nat) (desc : List Byte) (s : State) : Host.Outcome State Fault Refusal :=
  .next (s.runOrder ref 0x0901 (fun s => s.loopCfg ref loop desc))

/-- |a2| ≤ 1 and |a1| ≤ 1 + a2 (R332). -/
def secStable (c : LoopCoef) : Bool := fLe (fAbs c.a2) (fOfInt 1 1) && fInt (fAbs c.a1) ≤ 2 ^ 149 + fInt c.a2

/-- LOOP_COEF. -/
def State.loopCoef (s : State) (ref : OrderRef) (c : LoopCoef) : State :=
  match s.loopOf c.loop with
  | none => s.loopAnswer ref 0x0902 c.loop 6
  | some l =>
    if l.mode ≠ .opened then s.loopAnswer ref 0x0902 c.loop 1
    else if l.nSec ≤ c.section_ || 1 < c.sflags || !([c.b0, c.b1, c.b2, c.a1, c.a2].all fFinite) then
      s.loopAnswer ref 0x0902 c.loop 2
    else if !secStable c then s.loopAnswer ref 0x0902 c.loop 4
    else
      let sec : Section := ⟨true, c.sflags == 1, c.b0, c.b1, c.b2, c.a1, c.a2, 0, 0⟩
      let secs := l.sections.set c.section_ sec
      (s.setLoop c.loop { l with sections := secs, coefMissing := secs.any (fun c => !c.written) }).loopAnswer ref 0x0902 c.loop 0

def execLoopCoef (ref : OrderRef) (c : LoopCoef) (s : State) : Host.Outcome State Fault Refusal :=
  .next (s.runOrder ref 0x0902 (fun s => s.loopCoef ref c))

/-- A sample's instant has passed, and its output is still to come (R342, R347). -/
def State.loopUnderWay (s : State) (l : Loop) : Bool := match s.loopDue l with
  | some t => l.en != .disabled && decide (t < s.tai)
  | none => false

/-- LOOP_MODE (R335, R350): in effect at once, or after the sample under way (R342). -/
def State.loopModeOrder (s : State) (ref : OrderRef) (n mode : Nat) (outMan : F32) : State :=
  let say (s : State) (st : Nat) : State := s.loopAnswer ref 0x0903 n st
  if s.follows && mode ≤ 2 then say s (if mode = 0 then 8 else 14)
  else match s.loopOf n with
  | none => say s 6
  | some l =>
    let pv := s.loopSrc l oPv s.tai
    let forced := l.forceBit ≠ 0xFFFFFFFF && s.pubMarker l.forceBit
    if 2 < mode || (mode == 1 && !fFinite outMan) then say s 2
    else if mode = 0 && (l.coefMissing || !l.pvUsable pv s.tai || forced || !s.activeOrSolo) then say s 8
    else
      let m : LoopMode := if mode = 0 then .closed else if mode = 1 then .opened else .tracking
      say (s.setLoop n (if s.loopUnderWay l then { l with later := some ⟨m, outMan, s.tai⟩ } else l.ordered m outMan)) 0

def execLoopMode (ref : OrderRef) (loop mode : Nat) (outMan : F32) (s : State) : Host.Outcome State Fault Refusal :=
  .next (s.runOrder ref 0x0903 (fun s => s.loopModeOrder ref loop mode outMan))

/-- LOOP_SP (R341, R350): an apply-at of 0/0 means the next sample. -/
def State.loopSpOrder (s : State) (ref : OrderRef) (n : Nat) (value : F32) (atS atNs : Nat) : State :=
  if s.follows then s.loopAnswer ref 0x0904 n 14
  else if (s.loopOf n).isNone then s.loopAnswer ref 0x0904 n 6
  else if !fFinite value || 999999999 < atNs then s.loopAnswer ref 0x0904 n 2
  else
    let applyAt := if atS = 0 && atNs = 0 then s.tai else s.tai / (secNs * 2 ^ 32) * (secNs * 2 ^ 32) + atS * secNs + atNs
    let r := s.loopSpIn n value applyAt 0
    r.1.loopAnswer ref 0x0904 n r.2

def execLoopSp (ref : OrderRef) (loop : Nat) (value : F32) (atS atNs : Nat) (s : State) : Host.Outcome State Fault Refusal :=
  .next (s.runOrder ref 0x0904 (fun s => s.loopSpOrder ref loop value atS atNs))

/-- One loop's enable (R347), and whether it is taken: it starts OPEN at its last output. A disable lets the sample under way issue its
output; one that fell to a role that is REPLACING is missed at once. -/
def State.loopEnable (s : State) (n enable : Nat) : State × Bool :=
  match s.loopOf n with
  | none => (s, true)
  | some l =>
    let due := s.loopDue l
    let r := enRequest l.en (enable == 1) due.isSome
    if r.2 = .quiescingRefused then (s, false)
    else if enable = 1 then
      if l.en = .enabled then (s, true)
      else
        let l : Loop := { l with en := .enabled, outMan := l.out, closing := false, lastTrig := s.tai - 1 }
        (if s.follows then s.loopMode n l .tracking 3 else s.loopMode n l .opened (Config.enableCause n), true)
    else if l.en ≠ .enabled then (s, true)
    else if r.2 = .quiescedNow then (s.loopOff n l, true)
    else
      let l : Loop := { l with en := .quiescing, due := due }
      let s : State := s.setLoop n l
      (if s.loopRoleDown n then s.loopCatchUp n l (s.downFor (loopRole n)) else s, true)

/-- The least advanced of the enables named (R322, R350). -/
def State.loopEnables (s : State) (n : Nat) : Nat :=
  let es := (s.loops.loops.filter (fun p => n == 0xFFFF || p.1 == n)).map (fun p => p.2.en)
  if es.isEmpty || es.any (fun e => e == .disabled) then 0 else if es.any (fun e => e == .quiescing) then 2 else 1

/-- LOOP_CTL. -/
def State.loopCtl (s : State) (ref : OrderRef) (n enable : Nat) : State :=
  let say (s : State) (st : Nat) : State := s.answer ref 0x0905 (stateReport st [u16 n, u8 (s.loopEnables n)])
  if 1 < enable || (n ≠ 0xFFFF && (s.loopOf n).isNone) then say s stRange
  else
    let ids : List Nat := if n = 0xFFFF then s.loops.loops.map Prod.fst else [n]
    let r : State × Bool := ids.foldl (fun (r : State × Bool) k =>
      let q := r.1.loopEnable k enable
      (q.1, r.2 && q.2)) (s, true)
    say r.1 (if r.2 then stDone else stQuiescing)

def execLoopCtl (ref : OrderRef) (loop enable : Nat) (s : State) : Host.Outcome State Fault Refusal :=
  .next (s.runOrder ref 0x0905 (fun s => s.loopCtl ref loop enable))

/-- A loop's entry (R351). -/
def State.loopQueryEntry (s : State) (n : Nat) (l : Loop) : List Fld :=
  let flags := b01 l.limited + 2 * b01 l.pvBad + 4 * b01 l.forcedOpen + 8 * b01 (s.follows && l.mode == .tracking)
    + 16 * b01 l.coefMissing
  [u16 n, u8 (modeCode l.mode), u8 (enCode l.en), u8 l.cls, u8 flags, u8 l.queue.length, u8 0, u32 l.samples.toNat,
   u16 (min (l.latLast / 10) 0xFFFF), u16 (min (l.latMax / 10) 0xFFFF), u32 l.overCnt.toNat, u32 l.missed.toNat, f32 l.sp, f32 l.out]

/-- LOOP_QUERY. -/
def State.loopQuery (s : State) (ref : OrderRef) (first count addr : Nat) : State :=
  if 511 < first || !between 1 512 count || addr % 16 ≠ 0 then s.answer ref 0x0906 (ownReport 2 (traceData 2 0))
  else
    let ls := s.loops.loops.filter (fun p => between first (first + count - 1) p.1)
    let s : State := if ls.isEmpty then s else s.toHost (.hostData addr (ls.map (fun p => s.loopQueryEntry p.1 p.2)).flatten)
    let s : State := ls.foldl (fun s p => s.setLoop p.1 { p.2 with latMax := 0 }) s
    s.answer ref 0x0906 (ownReport 0 (traceData 0 ls.length))

def execLoopQuery (ref : OrderRef) (first count addr : Nat) (s : State) : Host.Outcome State Fault Refusal :=
  .next (s.runOrder ref 0x0906 (fun s => s.loopQuery ref first count addr))

/-- LOOP_TRACE. -/
def State.loopTraceOrder (s : State) (ref : OrderRef) (n count addr : Nat) : State :=
  let refuse (st : Nat) : State := s.answer ref 0x0907 (ownReport st (traceData st 0))
  if (s.loopOf n).isNone then refuse 6
  else if count = 0 || 0xFFFF < count || addr % 16 ≠ 0 then refuse 2
  else if s.loops.trace.isSome then refuse 15
  else { s with loops := { s.loops with trace := some ⟨ref, n, count, addr, 0⟩ } }

def execLoopTrace (ref : OrderRef) (loop count addr : Nat) (s : State) : Host.Outcome State Fault Refusal :=
  .next (s.runOrder ref 0x0907 (fun s => s.loopTraceOrder ref loop count addr))

/-- The checks of LOOP_TABLE (R340) on its 1 040-byte image. -/
def State.loopTableStatus (s : State) (d : List Byte) : Nat :=
  let t := u16At d 0
  let kind := u16At d 2
  let users := s.loops.loops.filter (fun p => p.2.fricTable == t || p.2.cogTable == t)
  let entries := (List.range 256).map (fun k => f32At d (0x10 + 4 * k))
  if crc32c (d.take 12 ++ (d.drop 16).take 1024) ≠ word (u32At d 12) then 3
  else if 1023 < t || 1 < kind || !zeroAt d 4 8 || !entries.all fFinite then 2
  else if users.any (fun p => if kind = 0 then p.2.cogTable == t else p.2.fricTable == t) then 2
  else if users.any (fun p => p.2.mode != .opened) then 7
  else 0

/-- LOOP_TABLE. -/
def State.loopTable (s : State) (ref : OrderRef) (d : List Byte) : State :=
  let t := u16At d 0
  let st := s.loopTableStatus d
  if st ≠ 0 then s.loopAnswer ref 0x0908 t st
  else
    let tb : LoopTable := ⟨u16At d 2, (List.range 256).map (fun k => f32At d (0x10 + 4 * k))⟩
    let users := s.loops.loops.filter (fun p => p.2.fricTable == t || p.2.cogTable == t)
    let s : State := { s with loops := { s.loops with tables := alPut s.loops.tables t tb } }
    (s.raise 0x76 [u16 t, u16 tb.kind, u16 users.length]).loopAnswer ref 0x0908 t 0

def execLoopTable (ref : OrderRef) (image : List Byte) (s : State) : Host.Outcome State Fault Refusal :=
  .next (s.runOrder ref 0x0908 (fun s => s.loopTable ref image))

end Sys2Proof.Machine
end

