-- ==== Sys2Proof/Machine/Can.lean ====
section
/-! DEFINITION. The commands of the field buses (spec/16_field_buses.md). -/

namespace Sys2Proof.Machine

open Sys2Proof

/-! ### Reception (R566, R569, R570, R579) -/

/-- A frame that no object takes is counted in UNMATCHED, or in SHORT. -/
def State.canUnmatched (s : State) (b id : Nat) (short : Bool) : State :=
  (s.setBus b (fun u => if short then { u with short := satInc u.short } else { u with unmatched := satInc u.unmatched })).raiseTimed
    0xE5 b [u16 b, u32 id]

/-- The rule of R579: a sequence byte is newer than the one held, or none is held. -/
def seqNewer (now freshMs : Nat) (held : Option (Byte × Nat)) (q : Byte) : Bool :=
  match held with
  | some (p, t) => t + freshMs * msNs < now || between 1 127 (q - p).toNat
  | none => true

/-- A loop's FIELDBUS trigger (R326): merged where it comes too early or another one waits. -/
def State.canTrigger (s : State) (i : Nat) : State :=
  s.eachLoop (fun s n l =>
    if l.en ≠ .enabled || l.trigger ≠ 2 || l.trigIndex ≠ i then s
    else if s.loopRoleDown n then s.loopMiss n l s.tai 1
    else if l.trig || (match l.lastAt with
        | some a => decide (s.tai < a + classLeastUs l.cls * usNs)
        | none => false) then s.loopMerge n l s.tai
    else s.setLoop n { l with trig := true, lastTrig := s.tai })

/-- Store a frame whole in its object. -/
def State.canStore (s : State) (b k : Nat) (x : RxObj) (f : CanFrame) (q : Byte) : State :=
  let s : State := s.setRx b k { x with
    data := padTo 64 f.data, len := f.data.length, fd := f.fd, esi := f.esi, isNew := true, lost := x.lost || x.isNew,
    overwrites := x.overwrites + b01 x.isNew, at_ := some s.tai, seq := some (q, s.now) }
  let s : State := s.setBus b (fun u => { u with rxCnt := satInc u.rxCnt })
  let s : State := if x.isNew then s.raiseTimed 0xE4 b [u16 b, u16 k] else s
  (s.canTrigger (b * 128 + k)).tRx b k

/-- The object of a bus that holds an identifier. -/
def Bus.rxFor (u : Bus) (ide : Bool) (id : Nat) : Option (Nat × RxObj × RxCfg) :=
  u.rx.findSome? (fun p => match p.2.cfg with
    | some c => if c.id = id && cfgBit c.flags 0 = ide then some (p.1, p.2, c) else none
    | none => none)

/-- The receive error counter after a frame without error (ISO 11898-1): one less, or a free value from 119 to 127. -/
def State.rxGood (s : State) (b : Nat) : State :=
  let u := s.bus b
  if u.rxe = 0 then s
  else if u.rxe ≤ 127 then (s.setBus b (fun u => { u with rxe := u.rxe - 1 })).judgeErrors b
  else
    let r := s.takeFree 3
    (r.2.setBus b (fun u => { u with rxe := 119 + r.1.toNat % 9 })).judgeErrors b

/-- CAN_FRAME_RX. -/
def State.canRx (s : State) (b : Nat) (f : CanFrame) : State :=
  let u := s.bus b
  if 2 ≤ b || u.en = .disabled || u.estate = .busOff || u.estate = .recovering || s.xingStopped (busXing b) then s
  else
    let s : State := s.rxGood b
    if f.remote then s.canUnmatched b f.id false
    else match (s.bus b).rxFor f.ide f.id with
      | none => s.canUnmatched b f.id false
      | some (k, x, c) =>
        let q := (padTo 64 f.data).getD c.seqPos 0
        if f.data.length < c.minLen then s.canUnmatched b f.id true
        else if cfgBit c.flags 2 && !seqNewer s.now c.freshMs x.seq q then s.canUnmatched b f.id false
        else s.canStore b k x f q

def execCanFrameRx (bus : Nat) (f : CanFrame) (s : State) : Host.Outcome State Fault Refusal := .next (s.canRx bus f)

/-- BUS_ERROR_RX: an error while receiving raises REC by 1, or by 8 where the standard says so. -/
def State.busErrorRx (s : State) (b rise : Nat) : State :=
  let u := s.bus b
  if 2 ≤ b || u.en = .disabled || u.estate = .busOff || u.estate = .recovering || !(rise == 1 || rise == 8) then s
  else (s.setBus b (fun u => { u with rxe := min (u.rxe + rise) 255, errCnt := satInc u.errCnt })).judgeErrors b

def execBusErrorRx (bus rise : Nat) (s : State) : Host.Outcome State Fault Refusal := .next (s.busErrorRx bus rise)

/-! ### Arbitration and the end of an attempt (R575, R581, R582, R584) -/

/-- The arbitration field of an identifier: lower wins; a base identifier wins over an extended one with the same first 11 bits. -/
def arbKey (c : TxCfg) : Nat :=
  if cfgBit c.flags 0 then c.id / 2 ^ 18 * 2 ^ 19 + 2 ^ 18 + c.id % 2 ^ 18 else c.id * 2 ^ 19

def State.frameKey (s : State) (b : Nat) (f : BusFrame) : Nat := (((s.bus b).txObj f.object).cfg.map arbKey).getD 0
def State.frameLate (s : State) (b : Nat) (f : BusFrame) : Bool :=
  decide (f.handedAt + ((((s.bus b).txObj f.object).cfg.map (·.deadlineUs)).getD 0) * usNs < s.now)

/-- A controller that is QUIESCING with no frame left is DISABLED (R584). -/
def State.settleBus (s : State) (b : Nat) : State :=
  let u := s.bus b
  if u.en = .quiescing && u.frames.isEmpty then
    (s.setBus b (fun u => { u with en := .disabled, retired := 0 })).raise 0xE7 [u16 b, u16 u.retired]
  else s

/-- ARBITRATION_WON: the lowest identifier among the queued frames whose deadline has not passed. -/
def State.arbitrate (s : State) (b : Nat) : State :=
  let u := s.bus b
  if 2 ≤ b || s.houseId = 0 || u.en = .disabled || u.estate = .busOff || u.estate = .recovering || u.frames.any (fun f => f.onWire) then s
  else
    let best := (u.frames.filter (fun f => !s.frameLate b f)).foldl (fun (a : Option BusFrame) f => match a with
      | some g => if s.frameKey b f < s.frameKey b g then some f else a
      | none => some f) none
    match best with
    | none => s
    | some f =>
      let s : State := s.setBus b (fun u => { u with
        frames := u.frames.map (fun g => if g.id = f.id then { g with onWire := true } else g) })
      let x := (s.bus b).txObj f.object
      (s.setTx b f.object { x with st := .onWire, cause := 0, requeued := f.requeued, seq := f.seq }).emit
        (.canFrame b f.object f.data)

def execArbitrationWon (bus : Nat) (s : State) : Host.Outcome State Fault Refusal := .next (s.arbitrate bus)

def txEndCause : TxEnd → Nat
  | .sent => 0
  | .ack => 1
  | .bit => 2
  | .stuff => 3
  | .form => 4
  | .crc => 5

/-- The run of acknowledge errors and ALONE (R581). -/
def State.ackRunOf (s : State) (b : Nat) (e : TxEnd) : State :=
  let u := s.bus b
  match e with
  | .ack =>
    let n := min (u.ackRun + 1) 255
    let s : State := s.setBus b (fun u => { u with ackRun := n })
    if n = 16 && !u.alone then (s.setBus b (fun u => { u with alone := true })).raise 0xE3 [u16 b, u16 1] else s
  | .sent =>
    let s : State := s.setBus b (fun u => { u with ackRun := 0, alone := false })
    if u.alone then s.raise 0xE3 [u16 b, u16 0] else s
  | _ => s.setBus b (fun u => { u with ackRun := 0 })

/-- FBUS_ATTEMPT_END. -/
def State.attemptEnd (s : State) (b : Nat) (e : TxEnd) : State :=
  match (s.bus b).frames.find? (fun f => f.onWire) with
  | none => s
  | some f =>
    let s : State := (s.dropFrame b f.id).ackRunOf b e
    if e = .sent then
      let s : State := s.setBus b (fun u => { u with tec := u.tec - 1 })
      (((s.endFrame b f .sent 0).showFrame b f.object).judgeErrors b).settleBus b
    else
      let passive := (s.bus b).estate == .passive
      let rise := if e = .ack && passive then 0 else 8
      let s : State := s.setBus b (fun u => { u with tec := u.tec + rise, errCnt := satInc u.errCnt })
      let s : State := (s.endFrame b f .failed (txEndCause e)).showFrame b f.object
      (if 255 < (s.bus b).tec then s.goBusOff b else s.judgeErrors b).settleBus b

def execFbusAttemptEnd (bus : Nat) (e : TxEnd) (s : State) : Host.Outcome State Fault Refusal := .next (s.attemptEnd bus e)

/-- FBUS_DEADLINE: a queued frame of an object that has not won by its deadline. -/
def State.busDeadline (s : State) (b o : Nat) : State :=
  match (s.bus b).frames.find? (fun f => f.object == o && !f.onWire && s.frameLate b f) with
  | some f => ((s.dropFrame b f.id).endFrame b f .failed 6).showFrame b o
  | none => s

def execFbusDeadline (bus object : Nat) (s : State) : Host.Outcome State Fault Refusal := .next (s.busDeadline bus object)

/-- FBUS_PERIOD (R577): a standby runs no periods (R580). -/
def State.busPeriod (s : State) (b o : Nat) : State :=
  let x := (s.bus b).txObj o
  match x.cfg with
  | none => s
  | some c =>
    let inst := s.tai / (c.periodUs * usNs) * (c.periodUs * usNs)
    if c.periodUs = 0 || inst ≤ x.lastPer || !s.activeOrSolo then s
    else (s.setTx b o { x with lastPer := inst }).handBus b o none

def execFbusPeriod (bus object : Nat) (s : State) : Host.Outcome State Fault Refusal := .next (s.busPeriod bus object)

/-- FBUS_RECOVERY_DONE (R583): the counters are 0; must-deliver frames within their deadlines are queued again once. -/
def State.busRecovered (s : State) (b : Nat) : State :=
  let u := s.bus b
  if 2 ≤ b || u.estate ≠ .recovering || u.en = .disabled then s
  else
    let again := (u.stranded.filter (fun f => !s.frameLate b f
      && !u.stranded.any (fun g => g.object == f.object && f.id < g.id))).map (fun f => { f with requeued := true, ref := none, onWire := false })
    let s : State := s.setBus b (fun u => { u with tec := 0, rxe := 0, stranded := [], frames := again })
    let s : State := s.setEState b .active
    let s : State := again.foldl (fun s f => s.showFrame b f.object) s
    s.raise 0xE6 [u16 b, u32 (min ((s.now - u.offAt) / usNs) 0xFFFFFFFF), u16 (b01 u.ordered), u16 again.length]

def execFbusRecoveryDone (bus : Nat) (s : State) : Host.Outcome State Fault Refusal := .next (s.busRecovered bus)

/-! ### The host's read lock (R572) -/

/-- A slot's 64 bytes. -/
def State.slotData (s : State) (b slot : Nat) : List Byte :=
  if slot < 128 then ((s.bus b).rxObj slot).bytes else ((s.bus b).txObj (slot - 128)).bytes

/-- Word `i` of a slot's data. -/
def slotWord (bs : List Byte) (i : Nat) : Word := word (u32At bs (4 * i))

/-- FBUS_LOCK_READ: a read of word 0. -/
def State.lockRead (s : State) (b slot : Nat) : State :=
  if 2 ≤ b || 160 ≤ slot then s
  else
    let bs := s.slotData b slot
    let stat := if slot < 128 then s.rxStat b slot else ((s.bus b).txObj (slot - 128)).statWord
    let stamp := if slot < 128 then (s.bus b).rxStamp slot else 0
    let s : State := s.setBus b (fun u => { u with lock := some ⟨slot, bs, stat, stamp⟩ })
    let s : State := if slot < 128 && (alGet (s.bus b).rx slot).isSome then
        s.setRx b slot { (s.bus b).rxObj slot with isNew := false, lost := false, overwrites := 0 }
      else s
    s.emit (.barRead (0x8000 + b * 0x4000 + slot * 64) (slotWord bs 0))

def execFbusLockRead (bus slot : Nat) (s : State) : Host.Outcome State Fault Refusal := .next (s.lockRead bus slot)

/-- FBUS_UNLOCK_READ: a read of word 15. -/
def State.unlockRead (s : State) (b slot : Nat) : State :=
  if 2 ≤ b || 160 ≤ slot then s
  else
    let at_ := 0x8000 + b * 0x4000 + slot * 64 + 0x3C
    match (s.bus b).lock.filter (fun l => l.slot == slot) with
    | some l => (s.setBus b (fun u => { u with lock := none })).emit (.barRead at_ (slotWord l.data 15))
    | none => s.emit (.barRead at_ (slotWord (s.slotData b slot) 15))

def execFbusUnlockRead (bus slot : Nat) (s : State) : Host.Outcome State Fault Refusal := .next (s.unlockRead bus slot)

/-! ### Orders (R567, R569, R574, R583–R585) -/

def State.busAnswer (s : State) (ref : OrderRef) (opcode b o st : Nat) : State :=
  s.answer ref opcode (ownReport st (busResult b o st 0 0 0))

def idOk (ide : Bool) (id : Nat) : Bool := if ide then id ≤ 0x1FFFFFFF else id ≤ 0x7FF

/-- Configuration after the seal needs a DISABLED controller (R584). -/
def State.busFixed (s : State) (b : Nat) : Bool := s.setup.sealed && (s.bus b).en != .disabled

/-- FBUS_RX_CFG. -/
def State.rxCfg (s : State) (ref : OrderRef) (c : RxCfg) : State :=
  let say (s : State) (st : Nat) : State := s.busAnswer ref 0x0E01 c.bus c.object st
  let remove := cfgBit c.flags 3
  let ide := cfgBit c.flags 0
  if 1 < c.bus || 127 < c.object || 15 < c.flags then say s 1
  else if !remove && (64 < c.minLen || !idOk ide c.id || !between 1 60000 c.freshMs || 63 < c.seqPos) then say s 1
  else if s.busFixed c.bus then say s 2
  else if remove then say (s.setBus c.bus (fun u => { u with rx := alDel u.rx c.object })) 0
  else match (s.bus c.bus).rxFor ide c.id with
    | some (k, _, _) => if k = c.object then say (s.setRx c.bus c.object { (default : RxObj) with cfg := some c }) 0 else say s 3
    | none => say (s.setRx c.bus c.object { (default : RxObj) with cfg := some c }) 0

def execFbusRxCfg (ref : OrderRef) (c : RxCfg) (s : State) : Host.Outcome State Fault Refusal :=
  .next (s.runOrder ref 0x0E01 (fun s => s.rxCfg ref c))

/-- The fields of FBUS_TX_CFG. -/
def txCfgOk (c : TxCfg) : Bool :=
  let fd := cfgBit c.flags 1
  idOk (cfgBit c.flags 0) c.id && (fd || !cfgBit c.flags 2)
    && (c.len ≤ 8 || (fd && [12, 16, 20, 24, 32, 48, 64].contains c.len))
    && (!cfgBit c.flags 4 || c.seqPos < c.len)
    && (c.periodUs == 0 || (between 1000 10000000 c.periodUs && c.periodUs % 1000 == 0)) && between 100 1000000 c.deadlineUs

/-- FBUS_TX_CFG. -/
def State.txCfg (s : State) (ref : OrderRef) (c : TxCfg) : State :=
  let say (s : State) (st : Nat) : State := s.busAnswer ref 0x0E02 c.bus c.object st
  let remove := cfgBit c.flags 8
  if 1 < c.bus || 31 < c.object || 2 ^ 9 ≤ c.flags || (!remove && !txCfgOk c) then say s 1
  else if s.busFixed c.bus then say s 2
  else
    let x := (s.bus c.bus).txObj c.object
    let y : TxObj := { (default : TxObj) with
      safe := x.safe, sendOnStop := x.sendOnStop, seqCount := x.seqCount, lastPer := s.tai, cfg := if remove then none else some c }
    say (s.setTx c.bus c.object y) 0

def execFbusTxCfg (ref : OrderRef) (c : TxCfg) (s : State) : Host.Outcome State Fault Refusal :=
  .next (s.runOrder ref 0x0E02 (fun s => s.txCfg ref c))

/-- FBUS_SEND: answered when its attempt ends. -/
def State.fbusSend (s : State) (ref : OrderRef) (b o : Nat) (data : List Byte) : State :=
  let say (st : Nat) : State := s.busAnswer ref 0x0E03 b o st
  if 1 < b || 31 < o then say 1
  else if s.busOwner b o ≠ some 3 then say 4
  else if !s.activeOrSolo then say 8
  else if (s.bus b).en = .quiescing then say 9
  else if (s.bus b).en = .disabled then s.answer ref 0x0E03 (stateReport stDisabled (busResult b o 0 0 0 0))
  else (s.loadTx b o data).handBus b o (some ref)

def execFbusSend (ref : OrderRef) (bus object : Nat) (data : List Byte) (s : State) : Host.Outcome State Fault Refusal :=
  .next (s.runOrder ref 0x0E03 (fun s => s.fbusSend ref bus object data))

/-- The bit timing is within R567: nominal rate, data rate, and data not below nominal. -/
def State.busTimingOk (s : State) (b : Nat) : Bool :=
  let f (o hi lo : Nat) : Nat := s.fld o hi lo + 1
  let n := f (rFbusNbt b) 31 27 * (1 + f (rFbusNbt b) 26 19 + f (rFbusNbt b) 18 12)
  let d := f (rFbusDbt b) 31 27 * (1 + f (rFbusDbt b) 26 22 + f (rFbusDbt b) 21 18)
  80 ≤ n && 10 ≤ d && d ≤ n

/-- Enable a controller: it integrates with both error counters at 0. -/
def State.busEnable (s : State) (b : Nat) : State :=
  if (s.bus b).en ≠ .disabled then s
  else if !s.busTimingOk b then s.setBus b (fun u => { u with btErr := true })
  else (s.setBus b (fun u => { u with en := .enabled, btErr := false, tec := 0, rxe := 0, stranded := [] })).setEState b .active

/-- Disable a controller: its queued frames retire. -/
def State.busDisable (s : State) (b : Nat) : State :=
  if (s.bus b).en ≠ .enabled then s
  else
    let fs := (s.bus b).frames.filter (fun f => !f.onWire)
    let s : State := s.setBus b (fun u => { u with
      en := .quiescing, retired := fs.length, stranded := [], frames := u.frames.filter (fun f => f.onWire) })
    (fs.foldl (fun s f => (s.endFrame b f .disabled 0).showFrame b f.object) s).settleBus b

/-- The least advanced read-back of the buses named (R322). -/
def State.busEnables (s : State) (b : Nat) : Nat :=
  let es := if b = 0xFF then [(s.bus 0).en, (s.bus 1).en] else [(s.bus b).en]
  if es.contains .disabled then 0 else if es.contains .quiescing then 2 else 1

/-- FBUS_CTL. -/
def State.fbusCtl (s : State) (ref : OrderRef) (b enable : Nat) : State :=
  let say (s : State) (st : Nat) : State := s.answer ref 0x0E04 (stateReport st [u8 b, u8 (s.busEnables b)])
  let bs := if b = 0xFF then [0, 1] else [b]
  if 1 < enable || (1 < b && b ≠ 0xFF) then say s stRange
  else if enable = 1 then
    let st := if bs.any (fun i => (s.bus i).en == .quiescing) then stQuiescing else stDone
    say (bs.foldl (fun s i => s.busEnable i) s) st
  else say (bs.foldl (fun s i => s.busDisable i) s) stDone

def execFbusCtl (ref : OrderRef) (bus enable : Nat) (s : State) : Host.Outcome State Fault Refusal :=
  .next (s.runOrder ref 0x0E04 (fun s => s.fbusCtl ref bus enable))

/-- FBUS_RECOVER. -/
def State.fbusRecover (s : State) (ref : OrderRef) (b : Nat) : State :=
  if 1 < b || (s.bus b).estate ≠ .busOff then s.answer ref 0x0E05 (orderDone stRange)
  else ((s.setBus b (fun u => { u with ordered := true })).setEState b .recovering).answer ref 0x0E05 (orderDone stDone)

def execFbusRecover (ref : OrderRef) (bus : Nat) (s : State) : Host.Outcome State Fault Refusal :=
  .next (s.runOrder ref 0x0E05 (fun s => s.fbusRecover ref bus))

/-- The buses whose EN bit is set are enabled when the set-up image is applied (R587). -/
def State.busBoot (s : State) : State :=
  [0, 1].foldl (fun s b => if s.fld (rFbusCtl b) 0 0 = 1 then s.busEnable b else s) s

end Sys2Proof.Machine
end

