-- ==== Sys2Proof/Machine/Admm.lean ====
section
/-! DEFINITION. Convex programs and their solution by ADMM (spec/07_dispatch_optimiser.md, R228), over the engines' working
numbers. -/

namespace Sys2Proof.Machine

open Sys2Proof

/-- A variable of a program: a plan item's kind, object and step; kinds from 100 on are a program's own auxiliary amounts. -/
structure VKey where
  kind : Nat
  object : Nat
  step : Nat
  deriving DecidableEq, Repr, Inhabited

/-- The classes of R223: never relaxed, relaxed at a stage, priced. -/
inductive Cls where
  | fixed
  | relaxable
  | soft
  deriving DecidableEq, Repr, Inhabited

/-- A variable with its bounds (none: unbounded), linear price, the coefficient of a cubic price, and the class of its bounds. -/
structure PVar where
  key : VKey
  lo : Option Num
  hi : Option Num
  price : Num
  cubic : Option Num
  cls : Cls
  deriving DecidableEq, Repr, Inhabited

/-- A linear form. -/
abbrev Form := List (VKey × Num)

/-- A program: variables, equality constraints form = number, and squares weight × (form − number)² in the price. -/
structure CvxProg where
  vars : List PVar
  eqs : List (Form × Num)
  sqs : List (Form × Num × Num)
  deriving DecidableEq, Repr, Inhabited

/-- The coefficient of a variable in a form. -/
def Form.coef (f : Form) (k : VKey) : Num := nSum ((f.filter (fun x => x.1 == k)).map Prod.snd)

/-! ### The quadratic step -/

/-- The KKT matrix: the Hessian of the squares plus ρ on the diagonal, bordered by the equalities. -/
def kkt (p : CvxProg) (rho : Num) : Mat :=
  let ks := p.vars.map (·.key)
  let hess (a b : VKey) : Num := nSum (p.sqs.map (fun s => nMul (nDbl s.2.2) (nMul (s.1.coef a) (s.1.coef b))))
  let top := ks.map (fun a =>
    ks.map (fun b => if a = b then nAdd (hess a b) rho else hess a b) ++ p.eqs.map (fun e => e.1.coef a))
  let low := p.eqs.map (fun e => ks.map (fun k => e.1.coef k) ++ p.eqs.map (fun _ => nZero))
  top ++ low

/-- Minus the linear price of each variable, the squares' share included. -/
def minusPrice (p : CvxProg) : List Num :=
  p.vars.map (fun v => nSub
    (nSum (p.sqs.map (fun s => nMul (nDbl s.2.2) (nMul (s.1.coef v.key) s.2.1)))) v.price)

/-! ### The projection -/

/-- The value of a variable's own term nearest to `v`: a cubic price k·x³ by its proximal step, then the box. -/
def projectVar (rho : Num) (x : PVar) (v : Num) : Num :=
  let w := match x.cubic with
    | some k =>
      if nLt nZero v && nLt nZero k then
        let six := nMul (nc 6 1) k
        nDiv (nSub (Config.numSqrt (nAdd (nSq rho) (nMul (nDbl six) (nMul rho v)))) rho) six
      else v
    | none => v
  let w := match x.lo with
    | some l => nMax l w
    | none => w
  match x.hi with
  | some h => nMin h w
  | none => w

/-! ### The iteration -/

/-- An iterate with its primal residual, the tolerance and the scale of it. -/
structure AdmmBest where
  rp : Num
  epsP : Num
  scale : Num
  x : List Num
  z : List Num
  u : List Num
  rho : Num
  deriving DecidableEq, Repr, Inhabited

/-- Where a pass stands; `z0`: z of the iteration before; `u25`: u at the last check; `best`: the iterate of the least primal residual at
a check. -/
structure Admm where
  x : List Num
  z : List Num
  z0 : List Num
  u : List Num
  u25 : List Num
  rho : Num
  iters : Nat
  rp : Num
  epsP : Num
  scale : Num
  best : Option AdmmBest
  deriving DecidableEq, Repr, Inhabited

/-- How a pass ends; the cap or the time budget ends it with its best iterate. -/
inductive AdmmEnd where
  | converged
  | infeasible
  | stopped
  deriving DecidableEq, Repr, Inhabited

def admmStep (p : CvxProg) (f : Ldl) (a : Admm) : Admm :=
  let rhs := vecAdd (vecScale a.rho (vecSub a.z a.u)) (minusPrice p) ++ p.eqs.map Prod.snd
  let x := (ldlSolve f rhs).take p.vars.length
  let z := List.zipWith (projectVar a.rho) p.vars (vecAdd x a.u)
  { a with x := x, z := z, z0 := a.z, u := vecSub (vecAdd a.u x) z, iters := a.iters + 1 }

/-- The residuals with their tolerances: 10⁻⁴ plus EPS_REL times the scale of the respective vectors (R228). -/
def admmResid (epsRel : Num) (a : Admm) : Num × Num × Num × Num × Num :=
  let rp := nMaxAbs (vecSub a.x a.z)
  let rd := nMaxAbs (vecScale a.rho (vecSub a.z a.z0))
  let sp := nMax (nMaxAbs a.x) (nMaxAbs a.z)
  let sd := nMaxAbs (vecScale a.rho a.u)
  let e (s : Num) : Num := nAdd (nc 1 10000) (nMul epsRel s)
  (rp, rd, e sp, e sd, sp)

/-- The part of a vector that no equality sees. -/
def freePart (p : CvxProg) (w : List Num) : List Num :=
  let m := kkt { p with sqs := [] } nOne
  (ldlSolve (ldlFactor m) (w ++ p.eqs.map (fun _ => nZero))).take p.vars.length

/-- The infeasibility certificate: the change of u since the last check, scaled to 1, separates the boxes from the equalities
within 10⁻⁶. -/
def certificate (p : CvxProg) (a : Admm) : Bool :=
  let d := vecSub a.u a.u25
  let size := nMaxAbs d
  let eps := nc 1 1000000
  if nLt nZero size then
    let w := d.map (fun v => nDiv v size)
    let side (v : PVar) (k : Num) : Option Num :=
      if nLt eps k then v.hi.map (nMul k) else if nLt k (nNeg eps) then v.lo.map (nMul k) else some nZero
    let sides := List.zipWith side p.vars w
    nLe (nMaxAbs (freePart p w)) eps && sides.all Option.isSome
      && nLt (nAdd (nSum (sides.map (fun o => o.getD nZero))) eps) (nDot w a.x)
  else false

/-- The iterate as it stands, with its residual. -/
def Admm.here (a : Admm) (epsRel : Num) : AdmmBest :=
  let r := admmResid epsRel a
  ⟨r.1, r.2.2.1, r.2.2.2.2, a.x, a.z, a.u, a.rho⟩

/-- The better of the best iterate so far and the present one. -/
def Admm.better (a : Admm) (epsRel : Num) : AdmmBest :=
  let h := a.here epsRel
  match a.best with
  | some b => if nLt h.rp b.rp then h else b
  | none => h

/-- Iterate at most `fuel` times; every 25 iterations the residuals and the certificate are looked at, and ρ is scaled and K
factorised again where the residuals lie apart by more than 10. -/
def admmRun (p : CvxProg) (epsRel : Num) : Nat → Ldl → Admm → Admm × AdmmEnd
  | 0, _, a => (a, .stopped)
  | fuel + 1, f, a =>
    let a := admmStep p f a
    if a.iters % 25 = 0 then
      let r := admmResid epsRel a
      let a := { a with rp := r.1, epsP := r.2.2.1, scale := r.2.2.2.2, best := some (a.better epsRel) }
      if nLe r.1 r.2.2.1 && nLe r.2.1 r.2.2.2.1 then (a, .converged)
      else if certificate p a then (a, .infeasible)
      else
        let a := { a with u25 := a.u }
        let apart := nLt (nMul (nc 10 1) r.2.1) r.1 || nLt (nMul (nc 10 1) r.1) r.2.1
        if apart then
          let rho := nMul a.rho (Config.numSqrt (nDiv r.1 r.2.1))
          admmRun p epsRel fuel (ldlFactor (kkt p rho)) { a with rho := rho }
        else admmRun p epsRel fuel f a
    else admmRun p epsRel fuel f a

/-- A pass of at most `fuel` iterations from a start. Where the pass is stopped it ends with its best iterate, the last one among them
(R230). -/
def admmPass (p : CvxProg) (epsRel : Num) (fuel : Nat) (start : Admm) : Admm × AdmmEnd :=
  let r := admmRun p epsRel fuel (ldlFactor (kkt p start.rho)) start
  match r.2 with
  | .stopped =>
    let b := r.1.better epsRel
    ({ r.1 with x := b.x, z := b.z, u := b.u, rho := b.rho, rp := b.rp, epsP := b.epsP, scale := b.scale }, .stopped)
  | _ => r

/-- The price of a point: linear, cubic and square terms. -/
def progPrice (p : CvxProg) (z : List Num) : Num :=
  let val := p.vars.map (·.key) |>.zip z
  let at_ (k : VKey) : Num := ((val.find? (fun x => x.1 == k)).map Prod.snd).getD nZero
  let form (f : Form) : Num := nSum (f.map (fun t => nMul t.2 (at_ t.1)))
  nAdd (nSum (List.zipWith (fun v x => nAdd (nMul v.price x) (match v.cubic with
      | some k => nMul k (nMul x (nSq x))
      | none => nZero)) p.vars z))
    (nSum (p.sqs.map (fun s => nMul s.2.2 (nSq (nSub (form s.1) s.2.1)))))

end Sys2Proof.Machine
end

