-- ==== Sys2Proof/Machine/Plans.lean ====
section
/-! DEFINITION. The programs of the two layers and their solution (spec/07_dispatch_optimiser.md, R214–R231), over the engines'
working numbers. -/

namespace Sys2Proof.Machine

open Sys2Proof

/-! ### Tables and profiles at a step (R218, R221) -/

/-- What the programs are built from: the model, the inputs, the configuration, the boundary, the relaxation stage. -/
structure PlanIn where
  img : List Byte
  inp : OptIn
  cfg : OptCfg
  t0 : Nat
  stage : Nat
  deriving DecidableEq, Repr, Inhabited

/-- Price and carbon of a tariff table at TAI seconds `at_`. -/
def PlanIn.tariffAt (p : PlanIn) (i at_ : Nat) : Num × Num :=
  match alGet p.inp.tariffs i with
  | some t =>
    let k := (edgeSlot (leAt 8 t 8) (u16At t 2) at_).1
    (nField t (0x20 + 8 * k), nField t (0x24 + 8 * k))
  | none => (nZero, nZero)

def PlanIn.profile (p : PlanIn) (i at_ : Nat) : Num :=
  match alGet p.inp.profiles i with
  | some r => nField r (0x10 + 4 * (edgeSlot (leAt 8 r 8) (u16At r 2) at_).1)
  | none => nc 1 2

def PlanIn.importAt (p : PlanIn) (at_ : Nat) : Num × Num := p.tariffAt p.cfg.importTable at_
/-- The export price, clipped to the import price. -/
def PlanIn.exportAt (p : PlanIn) (at_ : Nat) : Num × Num :=
  let x := p.tariffAt p.cfg.exportTable at_
  (nMin x.1 (p.importAt at_).1, x.2)

/-- 1 + (b − 1)·exp(−(t − t0) ÷ BIAS_TAU). -/
def PlanIn.fade (p : PlanIn) (b : Num) (at_ : Nat) : Num :=
  nAdd nOne (nMul (nSub b nOne) (Config.numExp (nNeg (nDiv (nc (at_ - p.t0) 1) (nF p.cfg.biasTau)))))

/-- d(s,t) of a station (R214). -/
def PlanIn.demand (p : PlanIn) (r : List Byte) (at_ : Nat) : Num :=
  let b := nAt nOne p.inp.bias (u8At r 9)
  nMul (nMul (nField r 0xC) (p.profile (u16At r 0x24) at_)) (p.fade b at_)
def PlanIn.netDemand (p : PlanIn) (n at_ : Nat) : Num :=
  nSum (((stationRecs p.img).filter (fun r => u8At r 8 == n)).map (fun r => p.demand r at_))
/-- The electrical base load. -/
def PlanIn.baseLoad (p : PlanIn) (at_ : Nat) : Num :=
  nMul (nMul (nF p.cfg.elecBase) (p.profile p.cfg.elecProfile at_)) (p.fade p.inp.elecBias at_)

/-! ### Design quantities (R222) -/

def cold (img : List Byte) (n : Nat) : Bool := u8At (netRec img n) 1 == 1
/-- ρ·cp of a network at its design mean. -/
def netRhoCp (img : List Byte) (n : Nat) : Num :=
  nMul (rho0 img n) (waterCp (holdP img n) (meanT img n))
/-- Power per flow at the design difference. -/
def storeConv (img : List Byte) (n : Nat) : Num := nMul (netRhoCp img n) (nAbs (nSub (supplyT img n) (returnT img n)))

/-- E_MAX and the store reserve; on a cold network energy is counted below RETURN_T. -/
def storeRange (img : List Byte) (r : List Byte) : Num × Num :=
  let n := u8At r 1
  let k := nMul (nField r 0xC) (netRhoCp img n)
  let rt := returnT img n
  let hi := if cold img n then nSub rt (nField r 0x28) else nSub (nField r 0x2C) rt
  let lo := if cold img n then nSub rt (nField r 0x2C) else nSub (nField r 0x28) rt
  (nMul k hi, nDiv (nMul k lo) (nc (u8At r 2) 1))

/-- Reckoned energy and mean temperature of a store at the start. -/
def PlanIn.store0 (p : PlanIn) (r : List Byte) : Num × Num :=
  let n := u8At r 1
  let ls := u8At r 2
  let v := nDiv (nField r 0xC) (nc ls 1)
  let ts := (List.range ls).map (fun l => p.inp.num.layerTemp p.img r l)
  let e := nSum (ts.map (fun t =>
    nMul (nMul v (nMul (waterRho (holdP p.img n) t) (waterCp (holdP p.img n) t))) (nSub t (returnT p.img n))))
  (if cold p.img n then nNeg e else e, nMean ts)

/-- A store's reckoned flow as power, positive to the network. -/
def PlanIn.storeF0 (p : PlanIn) (r : List Byte) : Num :=
  nNeg (nMul (nAt nZero p.inp.num.flows (u16At r 8)) (storeConv p.img (u8At r 1)))

/-- G: the derivative of a network's loss with its supply temperature, from the pipes of the supply side and their parcels (R223). -/
def PlanIn.lossSlope (p : PlanIn) (n : Nat) : Num :=
  let tg := nField (netRec p.img n) 8
  let t0 := nAt (supplyT p.img n) p.inp.supply n
  nSum (((brsOf p.img).filter (fun b => b.type == 3 && b.net == n && u8At (nodeRec p.img b.fr) 3 % 2 == 0)).map (fun b =>
    nDiv (nMul (nMul (nField b.rcd 0x1C) (nField b.rcd 8)) (nSub (p.inp.num.branchTemp p.img b) tg)) (nSub t0 tg)))

/-! ### Building blocks -/

def vk (kind object step : Nat) : VKey := ⟨kind, object, step⟩
def var (k : VKey) (lo hi : Option Num) : PVar := ⟨k, lo, hi, nZero, none, .fixed⟩
def priced (v : PVar) (c : Num) : PVar := { v with price := c }
def classed (v : PVar) (c : Cls) : PVar := { v with cls := c }
def nonNeg (k : VKey) : PVar := var k (some nZero) none
def CvxProg.add (a b : CvxProg) : CvxProg := ⟨a.vars ++ b.vars, a.eqs ++ b.eqs, a.sqs ++ b.sqs⟩
def progSum (l : List CvxProg) : CvxProg := l.foldl CvxProg.add ⟨[], [], []⟩

/-- A change from step to step, of weight `w` when divided by `range`; before step 0 stands `before`. -/
def moveSq (k : Nat → VKey) (t : Nat) (before w range : Num) : Form × Num × Num :=
  let wt := nDiv w (nSq range)
  if t = 0 then ([(k 0, nOne)], before, wt) else ([(k t, nOne), (k (t - 1), nNeg nOne)], nZero, wt)

/-! ### The day layer (R222–R225) -/

/-- The step's length in s as a number. -/
def dayDt : Num := nc 900 1

/-- Whether a plant may be on at a step, and its commitment where it is fixed. -/
abbrev Commit := List (Nat × Nat × Num)
def commitOf (u : Option Commit) (p t : Nat) : Option Num :=
  u.bind (fun l => (l.find? (fun x => x.1 == p && x.2.1 == t)).map (fun x => x.2.2))

/-- A plant's share of a step: bounds, ramp, commitment, fuel and movement. -/
def PlanIn.dayPlant (p : PlanIn) (u : Option Commit) (t : Nat) (r : List Byte) : CvxProg :=
  let k := u8At r 0
  let kind := u8At r 1
  let at_ := p.t0 + 900 * t
  let lo := nField r 0xC
  let hi := nField r 0x10
  let ramp := nMul (nField r 0x14) dayDt
  let now := nAt nZero p.inp.pNow k
  let fuel := p.tariffAt (u8At r 0x28) at_
  let eff := if kind = 5 then nOne else nField r 0x20
  let burns := kind ≤ 1 || kind = 5
  let money := nAdd (nMul (nF p.cfg.wCost) fuel.1) (nMul (nF p.cfg.wCarbon) fuel.2)
  let price := if burns then nDiv (nMul money dayDt) eff else nZero
  let bound := if p.inp.permits.contains k then nOne else nZero
  let uv := match commitOf u k t with
    | some v => var (vk 1 k t) (some v) (some v)
    | none => var (vk 1 k t) (some nZero) (some bound)
  let ramped : Form × Num := if t = 0 then ([(vk 0 k 0, nOne), (vk 102 k 0, nNeg nOne)], now)
    else ([(vk 0 k t, nOne), (vk 0 k (t - 1), nNeg nOne), (vk 102 k t, nNeg nOne)], nZero)
  ⟨[priced (var (vk 0 k t) none none) price, uv, nonNeg (vk 100 k t), nonNeg (vk 101 k t),
    var (vk 102 k t) (some (nNeg ramp)) (some ramp)],
   [([(vk 0 k t, nOne), (vk 1 k t, nNeg lo), (vk 100 k t, nNeg nOne)], nZero),
    ([(vk 1 k t, hi), (vk 0 k t, nNeg nOne), (vk 101 k t, nNeg nOne)], nZero), ramped],
   [moveSq (vk 0 k) t now (nF p.cfg.wMove) hi]⟩

/-- A store's share of a step. The reserve is softened at stage 2, the terminal energy goes at stage 1. -/
def PlanIn.dayStore (p : PlanIn) (t : Nat) (r : List Byte) : CvxProg :=
  let k := u8At r 0
  let conv := storeConv p.img (u8At r 1)
  let qc := nMul (nField r 0x18) conv
  let qd := nMul (nField r 0x1C) conv
  let e := storeRange p.img r
  let s0 := p.store0 r
  let lost := nMul (nMul (nField r 0x14) (nSub s0.2 (nField r 0x24))) dayDt
  let bal : Form × Num := if t = 0 then ([(vk 4 k 0, nOne), (vk 3 k 0, dayDt)], nSub s0.1 lost)
    else ([(vk 4 k t, nOne), (vk 4 k (t - 1), nNeg nOne), (vk 3 k t, dayDt)], nNeg lost)
  let hard := if 2 ≤ p.stage then none else some nZero
  let viol := priced (classed (var (vk 104 k t) (some nZero) hard) .relaxable) (nDiv (nF p.cfg.wRelax) e.1)
  let last : CvxProg := if t = 95 && p.stage = 0 then
      ⟨[classed (nonNeg (vk 105 k t)) .relaxable],
       [([(vk 4 k t, nOne), (vk 105 k t, nNeg nOne)], nMul (nF p.cfg.terminal) s0.1)], []⟩
    else ⟨[], [], []⟩
  CvxProg.add
    ⟨[var (vk 3 k t) (some (nNeg qc)) (some qd), var (vk 4 k t) (some nZero) (some e.1),
      classed (nonNeg (vk 103 k t)) .relaxable, viol],
     [bal, ([(vk 4 k t, nOne), (vk 104 k t, nOne), (vk 103 k t, nNeg nOne)], e.2)],
     [moveSq (vk 3 k) t (p.storeF0 r) (nF p.cfg.wMove) (nMax qc qd)]⟩ last

/-- A network's share: supply temperature within its running plants' range, comfort, heat balance. -/
def PlanIn.dayNet (p : PlanIn) (u : Option Commit) (t : Nat) (r : List Byte) : CvxProg :=
  let n := u8At r 0
  let at_ := p.t0 + 900 * t
  let mine (l : List (List Byte)) (o : Nat) : List (List Byte) := l.filter (fun x => u8At x o == n)
  let ps := mine (plants p.img) 2
  let running := ps.filter (fun x => match commitOf u (u8At x 0) t with
    | some v => nLe (nc 1 2) v
    | none => p.inp.permits.contains (u8At x 0))
  let best (f : Num → Num → Num) (o : Nat) : Option Num :=
    running.foldl (fun a x => some (match a with
      | some y => f y (nField x o)
      | none => nField x o)) none
  let t0 := nAt (supplyT p.img n) p.inp.supply n
  let g := p.lossSlope n
  let drop := nF p.cfg.supplyDrop
  let comfort : Form × Num := if cold p.img n then
      ([(vk 2 n t, nOne), (vk 106 n t, nNeg nOne), (vk 107 n t, nOne)], nAdd (supplyT p.img n) drop)
    else ([(vk 2 n t, nOne), (vk 106 n t, nOne), (vk 107 n t, nNeg nOne)], nSub (supplyT p.img n) drop)
  let heat : Form :=
    ps.map (fun x => (vk 0 (u8At x 0) t, nOne)) ++ (mine (stores p.img) 1).map (fun x => (vk 3 (u8At x 0) t, nOne))
      ++ (mine (zones p.img) 1).map (fun x => (vk 7 (u8At x 0) t, nOne)) ++ [(vk 2 n t, nNeg g)]
  ⟨[var (vk 2 n t) (best nMax 0x18) (best nMin 0x1C),
    priced (classed (nonNeg (vk 106 n t)) .soft) (nMul (nMul (nF p.cfg.wComfort) (nc 1000000 1)) dayDt),
    classed (nonNeg (vk 107 n t)) .soft],
   [comfort, (heat, nSub (nAdd (p.netDemand n at_) (nAt nZero p.inp.loss n)) (nMul g t0))], []⟩

/-- The electrical balance with import and export, and the unmet demand of every zone. -/
def PlanIn.dayElec (p : PlanIn) (t : Nat) : CvxProg :=
  let at_ := p.t0 + 900 * t
  let im := p.importAt at_
  let ex := p.exportAt at_
  let money (x : Num × Num) : Num := nMul (nAdd (nMul (nF p.cfg.wCost) x.1) (nMul (nF p.cfg.wCarbon) x.2)) dayDt
  let form : Form := (plants p.img).filterMap (fun r =>
    let k := vk 0 (u8At r 0) t
    match u8At r 1 with
    | 1 => some (k, nField r 0x24)
    | 2 | 3 | 4 => some (k, nNeg (nDiv nOne (nField r 0x20)))
    | _ => none)
  ⟨priced (var (vk 5 0 t) (some nZero) (some (nF p.cfg.importMax))) (money im)
     :: priced (var (vk 6 0 t) (some nZero) (some (nF p.cfg.exportMax))) (nNeg (money ex))
     :: (zones p.img).map (fun z => priced (classed (nonNeg (vk 7 (u8At z 0) t)) .soft) (nMul (nF p.cfg.wComfort) dayDt)),
   [((vk 5 0 t, nOne) :: (vk 6 0 t, nNeg nOne) :: form, p.baseLoad at_)], []⟩

/-- The day program, with the commitment free or fixed. -/
def PlanIn.dayProg (p : PlanIn) (u : Option Commit) : CvxProg :=
  progSum ((List.range 96).map (fun t => progSum
    ((plants p.img).map (p.dayPlant u t) ++ (stores p.img).map (p.dayStore t) ++ (networks p.img).map (p.dayNet u t)
      ++ [p.dayElec t])))

/-- Fix a plant's commitment from its first-pass values (R225): `left` is the time in s that it must still run. -/
def fixCommit (p minRun : Nat) (may : Bool) : Nat → Nat → Bool → List Num → Commit
  | _, _, _, [] => []
  | t, left, on, v :: vs =>
    let wants := nLe (nc 1 2) v && may
    let now := 0 < left || wants
    let left' := if now && !on then max minRun left else left
    (p, t, if now then nOne else nZero) :: fixCommit p minRun may (t + 1) (left' - 900) now vs

def valueOf (p : CvxProg) (z : List Num) (k : VKey) : Num :=
  (((p.vars.map (·.key)).zip z).find? (fun x => x.1 == k)).elim nZero Prod.snd

def PlanIn.commitment (p : PlanIn) (g : CvxProg) (z : List Num) : Commit :=
  (plants p.img).flatMap (fun r =>
    let k := u8At r 0
    let run := alGet p.inp.runLeft k
    fixCommit k (fCeil (fieldAt r 0x2C)) (p.inp.permits.contains k) 0 (run.getD 0) run.isSome
      ((List.range 96).map (fun t => valueOf g z (vk 1 k t))))

/-! ### The pressure layer (R226, R227) -/

/-- A pump or valve that the layer moves: its item kind and number, its branch, its reckoned value, bounds, and the most it may move
from step to step. -/
structure Mover where
  kind : Nat
  object : Nat
  branch : Br
  v0 : Num
  lo : Num
  hi : Num
  step : Num
  deriving DecidableEq, Repr, Inhabited

def PlanIn.movers (p : PlanIn) : List Mover :=
  (brsOf p.img).filterMap (fun b =>
    let v := nAt nZero p.inp.num.settings b.id
    match b.type with
    | 4 =>
      if u8At b.rcd 7 % 2 = 1 && u16At b.rcd 0x2C ≠ 0xFFFF then
        let w := nc 15 100
        some ⟨8, u8At b.rcd 6, b, v, nMax (nField b.rcd 0x18) (nSub v w), nMin (nField b.rcd 0x1C) (nAdd v w), nc 5 100⟩
      else none
    | 5 => if u16At b.rcd 0x1C ≠ 0xFFFF then some ⟨9, u16At b.rcd 6, b, v, nZero, nOne, nc 1 10⟩ else none
    | _ => none)

/-- The day plan's value of an item at an instant. -/
def PlanIn.dayValue (p : PlanIn) (kind object at_ : Nat) : Option Num :=
  p.inp.dayPlan.bind (fun d =>
    (d.2.find? (fun i => i.kind == kind && i.object == object && i.step == (at_ - d.1) / 900)).map (fun i => nF i.value))

/-- The hydraulic system at the pinned state with its store flows held, how heads and flows move with each mover, and each store with
its record and how heads move with its flow (R226, R227). -/
structure Lin where
  inp : HydIn
  hyd : Hyd
  moves : List (Mover × Sens)
  stores : List (List Byte × Sens)
  deriving DecidableEq, Repr, Inhabited

def PlanIn.linear (p : PlanIn) : Lin :=
  let n := p.inp.num
  let env (b : Br) : BrEnv :=
    let t := n.branchTemp p.img b
    let pr := holdP p.img b.net
    let v := nAt nZero n.settings b.id
    ⟨waterRho pr t, Config.waterNu pr t, waterCp pr t, rho0 p.img b.net, v, v⟩
  let brs := brsOf p.img
  let i : HydIn := ⟨p.img, brs.map (fun b => (b, env b)),
    (brs.filter (fun b => b.type == 7)).map (fun b => (b.id, nAt nZero n.flows b.id))⟩
  let h := judgeStations i ⟨n.heads, n.flows, n.closed, [], []⟩
  let ns := freeNodes p.img
  -- a store's flow is set, as a station's demand is
  let held (b : Br) : Br := if b.type = 9 then { b with type := 7 } else b
  let ih : HydIn := { i with
    brs := i.brs.map (fun x => (held x.1, x.2)),
    demand := i.demand ++ (brs.filter (fun b => b.type == 9)).map (fun b => (b.id, nAt nZero n.flows b.id)) }
  let f := ldlFactor (nodalMatrix ns (lawful ih h))
  ⟨ih, h, p.movers.map (fun m => (m, unkSens ih h ns f ⟨m.branch, nZero, nOne⟩)),
   (brs.filter (fun b => b.type == 9)).map (fun b => (b.rcd, unkSens ih h ns f ⟨held b, nZero, nOne⟩))⟩

/-- How far a store's flow lies at a step from its reckoned one: the day plan's value for the step it covers, less the reckoned (R226). -/
def PlanIn.storeShift (p : PlanIn) (r : List Byte) (t : Nat) : Num :=
  match p.dayValue 3 (u8At r 0) (p.t0 + 30 * t) with
  | some v => nSub (nNeg (nDiv v (storeConv p.img (u8At r 1)))) (nAt nZero p.inp.num.flows (u16At r 8))
  | none => nZero

/-- The linearised pressure of a node at a step: terms, and what stands when no mover moves and the stores' flows are the day
plan's. -/
def pressForm (p : PlanIn) (l : Lin) (n t : Nat) : Form × Num :=
  let k := nMul (rho0 p.img ((nodeNet p.img n).getD 0)) gravity
  let terms := l.moves.map (fun m => (m.1, nMul k (m.2.head n)))
  (terms.map (fun m => (vk m.1.kind m.1.object t, m.2)),
   nSub (nAdd (nodeP p.img l.hyd n) (nSum (l.stores.map (fun s => nMul (nMul k (s.2.head n)) (p.storeShift s.1 t)))))
     (nSum (terms.map (fun m => nMul m.2 m.1.v0))))

/-- The linearised flow of a branch. -/
def flowForm (p : PlanIn) (l : Lin) (b t : Nat) : Form × Num :=
  let ls := lawful l.inp l.hyd
  let terms := l.moves.map (fun m => (m.1, m.2.flow ls b))
  (terms.map (fun m => (vk m.1.kind m.1.object t, m.2)),
   nSub (nAdd (l.hyd.flow b) (nSum (l.stores.map (fun s => nMul (s.2.flow ls b) (p.storeShift s.1 t)))))
     (nSum (terms.map (fun m => nMul m.2 m.1.v0))))

def formNeg (f : Form) : Form := f.map (fun x => (x.1, nNeg x.2))

/-- A pump's reckoned shaft power ρ·g·Q·H ÷ η. -/
def shaftPower (l : Lin) (m : Mover) : Num :=
  match l.inp.brs.find? (fun x => x.1.id == m.branch.id) with
  | some x =>
    let q := l.hyd.flow m.branch.id
    let h := nNeg (headDrop l.inp.img x.1 x.2 q).1
    let r := nDiv q (nMul m.v0 (nField m.branch.rcd 0x20))
    let eta := nClamp (nc 5 100) (nField m.branch.rcd 0x24) (nMul (nField m.branch.rcd 0x24) (nSub (nDbl r) (nSq r)))
    nDiv (nMul (nMul (nMul x.2.rho gravity) q) h) eta
  | none => nZero

/-- A mover's share of a step: bounds, trust region, pumping power, movement. -/
def PlanIn.pressMover (p : PlanIn) (l : Lin) (t : Nat) (m : Mover) : CvxProg :=
  let k := vk m.kind m.object t
  let price := (p.importAt (p.t0 + 30 * t)).1
  let cubic := if m.kind = 8 then
      some (nDiv (nMul (nMul (shaftPower l m) (nc 30 1)) (nMul price (nF p.cfg.wCost))) (nMul m.v0 (nSq m.v0)))
    else none
  let v : PVar := { var k (some m.lo) (some m.hi) with cubic := cubic }
  let range := if m.kind = 8 then nSub (nField m.branch.rcd 0x1C) (nField m.branch.rcd 0x18) else nOne
  let sq := moveSq (vk m.kind m.object) t m.v0 (nF p.cfg.wMove) range
  if t = 0 then ⟨[v], [], [sq]⟩
  else
    ⟨[v, var (vk (121 + m.kind) m.object t) (some (nNeg m.step)) (some m.step)],
     [([(k, nOne), (vk m.kind m.object (t - 1), nNeg nOne), (vk (121 + m.kind) m.object t, nNeg nOne)], nZero)], [sq]⟩

/-- The target a zone's DP_CTRL stations give: the largest DP_MIN·(d ÷ LOAD_D)². -/
def PlanIn.zoneTarget (p : PlanIn) (z at_ : Nat) : Num :=
  ((stationRecs p.img).filter (fun r => u8At r 9 == z && u16At r 0xA % 2 == 1)).foldl (fun a r =>
    nMax a (nMul (nField r 0x14) (nSq (nDiv (p.demand r at_) (nField r 0xC))))) nZero

/-- A zone's share: the critical point's difference, the station-derived target, its shortfall. -/
def PlanIn.pressZone (p : PlanIn) (l : Lin) (t : Nat) (z : List Byte) : CvxProg :=
  let k := u8At z 0
  let key := vk 10 k t
  let a := pressForm p l (u16At z 0x18) t
  let b := pressForm p l (u16At z 0x1A) t
  let lo := nField z 0x10
  let hi := nField z 0x14
  let range := nSub hi lo
  let soft := if 2 ≤ p.stage then none else some nZero
  let price := nAdd (nMul (nF p.cfg.wComfort) (nc 30 1)) (nDiv (nF p.cfg.wRelax) range)
  ⟨[var key (some lo) (some hi), nonNeg (vk 120 k t), classed (nonNeg (vk 121 k t)) .relaxable,
    priced (classed (var (vk 122 k t) (some nZero) soft) .relaxable) price],
   [(a.1 ++ formNeg b.1 ++ [(key, nNeg nOne), (vk 120 k t, nNeg nOne)], nSub b.2 a.2),
    ([(key, nOne), (vk 122 k t, nOne), (vk 121 k t, nNeg nOne)], p.zoneTarget k (p.t0 + 30 * t))],
   [moveSq (vk 10 k) t (nSub (nodeP p.img l.hyd (u16At z 0x18)) (nodeP p.img l.hyd (u16At z 0x1A))) (nF p.cfg.wMove) range]⟩

/-- A node's linearised pressure within P_MIN + GUARD_PA and P_MAX − GUARD_PA. -/
def PlanIn.pressNode (p : PlanIn) (l : Lin) (t : Nat) (r : List Byte) : CvxProg :=
  let n := u16At r 0
  let f := pressForm p l n t
  let g := nF p.inp.guard
  let lo := nAdd (nField r 8) g
  let hi := nSub (nField r 0xC) g
  let soft := if 2 ≤ p.stage then none else some nZero
  let price := nDiv (nF p.cfg.wRelax) (nSub hi lo)
  let viol (k : Nat) : PVar := priced (classed (var (vk k n t) (some nZero) soft) .relaxable) price
  ⟨[classed (nonNeg (vk 124 n t)) .relaxable, viol 125, classed (nonNeg (vk 126 n t)) .relaxable, viol 127],
   [(f.1 ++ [(vk 125 n t, nOne), (vk 124 n t, nNeg nOne)], nSub lo f.2),
    (f.1 ++ [(vk 127 n t, nNeg nOne), (vk 126 n t, nOne)], nSub hi f.2)], []⟩

/-- A plant's flow within what its planned output needs. -/
def PlanIn.pressPlant (p : PlanIn) (l : Lin) (t : Nat) (r : List Byte) : CvxProg :=
  let k := u8At r 0
  let n := u8At r 2
  let at_ := p.t0 + 30 * t
  match p.dayValue 0 k at_ with
  | none => ⟨[], [], []⟩
  | some w =>
    let ts := (p.dayValue 2 n at_).getD (supplyT p.img n)
    let tr := p.inp.num.nodeTemp p.img (u16At r 8)
    let need := nDiv w (nMul (netRhoCp p.img n) (nAbs (nSub ts tr)))
    let f := flowForm p l (u16At r 4) t
    ⟨[var (vk 128 k t) (some nZero) (some need)], [(f.1 ++ [(vk 128 k t, nNeg nOne)], nNeg f.2)], []⟩

def PlanIn.pressProg (p : PlanIn) : CvxProg :=
  let l := p.linear
  progSum ((List.range 20).map (fun t => progSum
    (p.movers.map (p.pressMover l t) ++ (zones p.img).map (p.pressZone l t) ++ (nodes p.img).map (p.pressNode l t)
      ++ (plants p.img).map (p.pressPlant l t))))

/-! ### Passes, ladder and result (R225, R228–R231) -/

/-- The start of a pass: the latest plan shifted by whole steps with its dual variables, its last step repeated; or cold, at zero with
bounds clipped (R229). -/
def PlanIn.start (p : PlanIn) (period steps : Nat) (rho : Num) (g : CvxProg) : Admm :=
  let item (v : PVar) : Option PlanItem :=
    p.inp.warm.bind (fun w => w.2.find? (fun i => i.kind == v.key.kind && i.object == v.key.object
      && i.step == min (v.key.step + (p.t0 - w.1) / period) (steps - 1)))
  let x := g.vars.map (fun v => ((item v).map (fun i => nF i.value)).getD nZero)
  let clip (v : PVar) (a : Num) : Num := projectVar rho { v with cubic := none } a
  let z := List.zipWith clip g.vars x
  let u := g.vars.map (fun v => ((item v).map (fun i => nDiv (nF i.dual) rho)).getD nZero)
  ⟨x, z, z, u, u, rho, 0, nZero, nZero, nZero, none⟩

/-- How far a layer solve has come: the program in force with its stage, the iterate, and how the pass ended. -/
structure LayerNum where
  stage : Nat
  prog : CvxProg
  it : Admm
  ended : AdmmEnd
  deriving DecidableEq, Repr, Inhabited

/-- Start one program's iterate from another's, by variable. -/
def carryOver (old new : CvxProg) (a : Admm) : Admm :=
  let tbl := (old.vars.map (·.key)).zip (a.x.zip (a.z.zip a.u))
  let of (f : Num × Num × Num → Num) : List Num :=
    new.vars.map (fun v => ((tbl.find? (fun e => e.1 == v.key)).map (fun e => f e.2)).getD nZero)
  let u := of (fun e => e.2.2)
  { a with x := of (fun e => e.1), z := of (fun e => e.2.1), z0 := of (fun e => e.2.1), u := u, u25 := u, best := none }

/-- A pass with the ladder of R231: an infeasible pass is solved again from its last iterate under the next stage. `build` gives the
program at a stage; `cap` is the iteration cap of a pass; `left` the iterations that the time budget leaves. -/
def ladder (build : Nat → CvxProg) (eps : Num) (cap : Nat) : Nat → Nat → Nat → Admm → LayerNum
  | fuel, stage, left, start =>
    let g := build stage
    let n0 := start.iters
    let r := admmPass g eps (min cap left) start
    let here : LayerNum := ⟨stage, g, r.1, r.2⟩
    match r.2, fuel with
    | .infeasible, fuel + 1 =>
      ladder build eps cap fuel (stage + 1) (left - (r.1.iters - n0)) (carryOver g (build (stage + 1)) r.1)
    | _, _ => here

/-- The day layer's two passes, and whether the second has begun: only its result is a plan (R225). -/
def PlanIn.dayNum (p : PlanIn) (left : Nat) : LayerNum × Bool :=
  let eps := nF p.cfg.epsRel
  let rho := Config.admmRho 0
  let at_ (u : Option Commit) (st : Nat) : CvxProg := { p with stage := st }.dayProg u
  let a := ladder (at_ none) eps 4000 2 0 left (p.start 900 96 rho (at_ none 0))
  match a.ended with
  | .converged =>
    let u := some (p.commitment a.prog a.it.z)
    let g := at_ u a.stage
    (ladder (at_ u) eps 4000 (2 - a.stage) a.stage (left - a.it.iters)
      { ({ p with stage := a.stage }.start 900 96 rho g) with iters := a.it.iters }, true)
  | _ => (a, false)

/-- The pressure layer's pass. -/
def PlanIn.pressNum (p : PlanIn) (left : Nat) : LayerNum :=
  let at_ (st : Nat) : CvxProg := { p with stage := st }.pressProg
  ladder at_ (nF p.cfg.epsRel) 800 2 0 left (p.start 30 20 (Config.admmRho 1) (at_ 0))

/-! ### Items and sums (R242, R243) -/

/-- A variable at one of its bounds. -/
def atBound (v : PVar) (z : Num) : Bool := v.lo == some z || v.hi == some z

/-- The auxiliary amounts whose bounds are the constraints of an item (R223, R226): a plant's output range and ramp, a network's comfort,
a store's reserve and terminal energy, a pump's and a valve's trust region, a zone's critical point and station-derived target. -/
def auxOf (kind : Nat) : List Nat :=
  match kind with
  | 0 => [100, 101, 102]
  | 2 => [107]
  | 4 => [103, 105]
  | 8 => [129]
  | 9 => [130]
  | 10 => [120, 121]
  | _ => []

/-- DUAL (R242): the largest multiplier among the active constraints of an item, 0 with none active. -/
def tightest (l : List (Bool × Num)) : Num :=
  (l.filter Prod.fst).foldl (fun a x => if nLt (nAbs a) (nAbs x.2) then x.2 else a) nZero

/-- Every variable of a solution with its multiplier (R229). -/
def LayerNum.duals (l : LayerNum) : List PlanItem :=
  (l.prog.vars.zip (l.it.z.zip l.it.u)).map (fun e =>
    ⟨e.1.key.kind, 0, e.1.key.object, e.1.key.step, nToF e.2.1, nToF (nMul l.it.rho e.2.2)⟩)

/-- The plan items of a solution: every variable that is an item, with AT_BOUND, RELAXED and its dual. -/
def PlanIn.items (p : PlanIn) (l : LayerNum) : List PlanItem :=
  let val (k : VKey) : Option Num := (((l.prog.vars.map (·.key)).zip l.it.z).find? (fun x => x.1 == k)).map Prod.snd
  let zero (k : VKey) : Bool := val k == some nZero
  let pos (k : VKey) : Bool := ((val k).map (fun v => nLt nZero v)).getD false
  let all := l.prog.vars.zip (l.it.z.zip l.it.u)
  let active (e : PVar × Num × Num) : Bool × Num := (atBound e.1 e.2.1, nMul l.it.rho e.2.2)
  all.filterMap (fun e =>
    let k := e.1.key
    if 100 ≤ k.kind then none
    else
      let aux := all.filter (fun x => (auxOf k.kind).contains x.1.key.kind && x.1.key.object == k.object && x.1.key.step == k.step)
      let bound := atBound e.1 e.2.1 || (k.kind == 0 && (zero (vk 100 k.object k.step) || zero (vk 101 k.object k.step)))
      let short := k.kind == 4 && k.step == 95 && 1 ≤ l.stage
        && ((recByKey p.img 9 k.object).map (fun r => nLt e.2.1 (nMul (nF p.cfg.terminal) (p.store0 r).1))).getD false
      let relaxed := (k.kind == 4 && pos (vk 104 k.object k.step)) || (k.kind == 10 && pos (vk 122 k.object k.step)) || short
      some ⟨k.kind, b01 bound + 2 * b01 relaxed, k.object, k.step, nToF e.2.1,
        nToF (tightest ((e :: aux).map active))⟩)

/-- Money for fuel and electricity, kg of CO₂ and unmet energy over a day plan. -/
def PlanIn.daySums (p : PlanIn) (l : LayerNum) : Num × Num × Num :=
  let v (k o t : Nat) : Num := valueOf l.prog l.it.z (vk k o t)
  let step (t : Nat) : Num × Num × Num :=
    let at_ := p.t0 + 900 * t
    let im := p.importAt at_
    let ex := p.exportAt at_
    let fuel := (plants p.img).filterMap (fun r =>
      let kind := u8At r 1
      if kind ≤ 1 || kind = 5 then
        let x := nDiv (v 0 (u8At r 0) t) (if kind = 5 then nOne else nField r 0x20)
        let f := p.tariffAt (u8At r 0x28) at_
        some (nMul x f.1, nMul x f.2)
      else none)
    let m := v 5 0 t
    let x := v 6 0 t
    (nMul dayDt (nAdd (nSum (fuel.map Prod.fst)) (nSub (nMul m im.1) (nMul x ex.1))),
     nMul dayDt (nAdd (nSum (fuel.map Prod.snd)) (nSub (nMul m im.2) (nMul x ex.2))),
     nMul dayDt (nSum ((zones p.img).map (fun z => v 7 (u8At z 0) t))))
  let all := (List.range 96).map step
  (nSum (all.map (·.1)), nSum (all.map (·.2.1)), nSum (all.map (·.2.2)))

/-- Money and CO₂ of a pressure plan's pumping power. -/
def PlanIn.pressSums (p : PlanIn) (l : LayerNum) : Num × Num × Num :=
  let lin := p.linear
  let one (t : Nat) (m : Mover) : Num × Num :=
    let r := nDiv (valueOf l.prog l.it.z (vk 8 m.object t)) m.v0
    let e := nMul (nMul (shaftPower lin m) (nMul r (nSq r))) (nc 30 1)
    let im := p.importAt (p.t0 + 30 * t)
    (nMul e im.1, nMul e im.2)
  let all := (List.range 20).flatMap (fun t => (p.movers.filter (fun m => m.kind == 8)).map (one t))
  (nSum (all.map Prod.fst), nSum (all.map Prod.snd), nZero)

/-- The class of the constraint that binds most. -/
def bindingClass (l : LayerNum) : Nat :=
  let w := (l.prog.vars.zip (vecSub l.it.u l.it.u25)).foldl (fun (a : Option (PVar × Num)) e => match a with
    | some b => if nLt (nAbs b.2) (nAbs e.2) then some e else a
    | none => some e) none
  match w.map (fun e => e.1.cls) with
  | some Cls.relaxable => 1
  | some Cls.soft => 2
  | _ => 0

/-- The numbers of a layer solve that has taken at most `left` iterations. -/
def layerOutcome (img : List Byte) (y : Layer) (r : LayerRun) (left : Nat) : LayerResult :=
  let p : PlanIn := ⟨img, r.inp, r.cfg, r.boundary, 0⟩
  let n : LayerNum × Bool := match y with
    | .day => p.dayNum left
    | .pressure => (p.pressNum left, true)
  let l := n.1
  let sums := match y with
    | .day => p.daySums l
    | .pressure => p.pressSums l
  let size := if nLt nZero l.it.scale then l.it.scale else nOne
  let ended : PassEnd := match l.ended with
    | .converged => .converged
    | .infeasible => .infeasible (bindingClass l)
    | .stopped => if n.2 then .capped else .uncommitted
  ⟨ended, l.stage, p.items l, l.it.iters, nToF (progPrice l.prog l.it.z), nToF sums.1, nToF sums.2.1, nToF sums.2.2,
   nToF (nDiv l.it.rp size), nToF (nDiv l.it.epsP size),
   (stores img).map (fun k => (u8At k 0, nToF (nMul (nField k 0x18) (storeConv img (u8At k 1))))),
   l.duals⟩

end Sys2Proof.Machine
end

