-- ==== Sys2Proof/Machine/Meas.lean ====
section
/-! DEFINITION. The sources of the Reckoner's measurements (spec/04_network_model.md, R130). -/

namespace Sys2Proof.Machine

open Sys2Proof

/-- The published value of a heat point that a measurement KIND takes: 6 thermal power, 3 flow, 2 the supply temperature
(DEDUCED: R130 names the point, and the kind names which of its values). -/
def heatValue : Nat → Option Nat
  | 6 => some 0
  | 3 => some 1
  | 2 => some 2
  | _ => none

/-- Raw value, quality and acquisition time (TAI ns) of a MEASUREMENTS record, none without a source (R130). -/
def State.measSource (s : State) (r : List Byte) : Option (F32 × Quality × Nat) :=
  let i := u16At r 8
  let off := u8At r 0xA
  let enc := u8At r 0xB
  match u8At r 3 with
  | 0 => (s.ctxOf i).map (fun c => (rawOf true enc off c.inImg, s.inputQuality c, c.acq.getD 0))
  | 1 =>
    let b := s.busRead (i / 128) (i % 128)
    some (rawOf ((s.bus (i / 128)).rxObj (i % 128)).big enc off b.1, b.2.1, b.2.2)
  | 2 => (heatValue (u8At r 2)).map (fun k =>
    let e := s.pvEntry (0xD000 + i * 8 + k)
    (e.value, s.pvQuality (0xD000 + i * 8 + k), e.at_))
  | _ => alGet s.reck.hostMeas (u16At r 0)

end Sys2Proof.Machine
end

