-- ==== Sys2Proof/Machine/Reck.lean ====
section
/-! DEFINITION. The Reckoner's commands (spec/05_state_reckoning.md). -/

namespace Sys2Proof.Machine

open Sys2Proof

/-! ### Pins and state sets (R170, R171) -/

def State.cadNs (s : State) : Nat := s.reck.cfg.cadenceMs * msNs

/-- The owner number of a STATE_QUERY's pin (R170). -/
def queryPin : Nat := 6
/-- A pin is held: a query's until the instant at which it was taken is over. -/
def State.pinHeld (s : State) (p : Nat × Nat) : Bool := p.1 != queryPin || s.reck.queryAt == some s.now

/-- The set that is neither pinned nor the latest. -/
def State.freeSet (s : State) : Option Nat :=
  (List.range 9).find? (fun i => s.reck.latest != some i && !s.reck.pins.any (fun p => s.pinHeld p && p.2 == i))

/-! ### The input snapshot (R146, R147, R130, R131) -/

/-- The freshness limit of a measurement in ns: FRESH × 10 ms, or twice the cadence. -/
def State.freshNs (s : State) (r : List Byte) : Nat :=
  if u16At r 0xC = 0 then 2 * s.cadNs else u16At r 0xC * (10 * msNs)

/-- What the snapshot holds for one measurement: raw × SCALE + OFFSET, its quality at the tick, and whether it is excluded. -/
def State.sampleOf (s : State) (tick : Nat) (r : List Byte) : Sample :=
  match s.measSource r with
  | some (raw, q, at_) =>
    let v := fAdd (fMul raw (fieldAt r 0x14)) (fieldAt r 0x18)
    let q := qAged q (tick - at_) (s.freshNs r)
    let q := if fLe (fieldAt r 0x1C) v && fLe v (fieldAt r 0x20) then q else qMax q .invalid
    ⟨v, q, at_, 2 ≤ qCode q⟩
  | none => ⟨0, .invalid, 0, true⟩

def State.snapshotAt (s : State) (tick : Nat) : List (Nat × Sample) :=
  (measRecs s.model.run).map (fun r => (u16At r 0, s.sampleOf tick r))

/-! ### Ends of a solve (R158, R163–R169) -/

/-- The status block at 0x8_B600, rewritten whole after every solve (R173). -/
def State.statusBlock (s : State) (r : Solve) (status durUs steps accepted rejected substituted : Nat) : List PvEntry :=
  let e (v : F32) : PvEntry := ⟨v, r.tickTai, .good, 0, BitVec.ofNat 16 r.number, 0⟩
  [e (fc status 1), e (fc durUs 1000000), e (fc steps 1), e (fc accepted 1), e (fc rejected 1), e (fc substituted 1),
   e (fc r.cfg.cadenceMs 1000), e (fc (s.modelRev % 2 ^ 24) 1)]

/-- STATE_SUMMARY (R178), while SUMMARY is 1. -/
def State.postSummary (s : State) (r : Solve) (status steps iters : Nat) (poolMerge : Bool)
    (accepted excluded rejected substituted : Nat) (jNorm : F32) (worst : Option (Nat × F32)) : State :=
  if r.cfg.flags % 2 = 1 then
    let ep := b01 r.cold + 2 * b01 poolMerge + 4 * b01 s.reck.skippedSince
    let body := [u32 r.number, u32 (r.tickTai % 2 ^ 32), u8 status, u8 steps, u8 iters, u8 ep, u16 accepted, u16 excluded,
      u16 rejected, u16 substituted, f32 jNorm, u32 ((s.now - r.tickAt) / usNs), u32 s.modelRev,
      u8 ((worst.map Prod.fst).getD 0xFF), u8 0, u8 0, u8 0, f32 ((worst.map Prod.snd).getD 0)]
    ({ s with reck := { s.reck with skippedSince := false } }).report 1 0x0003 body
  else s

/-- Start-up step 10 ends with the first solve (R671). -/
def State.endStep10 (s : State) : State := if s.sup.step = 10 then s.stepDone 10 else s

/-- Excluded measurements of a snapshot. -/
def excludedOf (l : List (Nat × Sample)) : Nat := (l.filter (fun p => p.2.excluded)).length

/-- The measurement with the largest normalised residual of a pass, of those not yet rejected. -/
def worstOf (gone : List Nat) (p : ResidualPass) : Option (Nat × F32) :=
  (p.filter (fun x => !gone.contains x.1)).foldl (fun a x => match a with
    | some b => if fLt b.2 x.2 then some x else a
    | none => some x) none

/-- The bad-data test (R156): the measurements rejected with their residuals, and whether REJECT_MAX was reached. -/
def badData (t : F32) (max : Nat) : List ResidualPass → List (Nat × F32) → List (Nat × F32) × Bool
  | [], gone => (gone, false)
  | p :: ps, gone =>
    match worstOf (gone.map Prod.fst) p with
    | none => (gone, false)
    | some m =>
      if fLe m.2 t then (gone, false)
      else if gone.length = max then (gone, true)
      else badData t max ps (gone ++ [m])

/-- BAD_DATA_REJECTED for each measurement that a solve has rejected (R156, R179). -/
def State.raiseRejected (s : State) (r : Solve) (gone : List (Nat × F32)) : State :=
  gone.foldl (fun s m => s.raise 0x32 [u16 m.1, f32 m.2, u32 r.number]) s

/-- A solve that publishes nothing: FAILED 2, LATE 3, DISABLED 4; `gone`: the measurements it has rejected (R156). -/
def State.solveUnpublished (s : State) (r : Solve) (status iters steps worstNode : Nat) (gone : List (Nat × F32)) : State :=
  let dur := (s.now - r.tickAt) / usNs
  let ex := excludedOf r.snapshot
  let rejected := gone.length
  let accepted := r.snapshot.length - ex - rejected
  let fails := if status = 4 then s.reck.failRun else s.reck.failRun + 1
  let block := s.statusBlock r status dur steps accepted rejected 0
  let s : State := { s with reck := { s.reck with running := none, failRun := fails, status := block, lastStatus := some status } }
  let s : State := s.noteClear.raiseRejected r gone
  let s : State := if status = 4 then s
    else s.raise 0x30 [u32 r.number, u16 status, u16 iters, u16 worstNode, u16 (b01 (3 ≤ fails))]
  let s : State := s.postSummary r status steps iters false accepted ex rejected 0 0 none
  (s.settleReck (if status = 4 then r.number else 0)).endStep10

/-- The least accepted fraction over the networks that have measurements, and its network (R158). -/
def leastFraction (img : List Byte) (accepted : List Nat) : Option (F32 × Nat) :=
  let per (n : Nat) : Option (F32 × Nat) :=
    let ms := (measRecs img).filter (fun r => measNet img r == some n)
    if ms.isEmpty then none
    else some (fc (ms.filter (fun r => accepted.contains (u16At r 0))).length ms.length, n)
  ((networks img).filterMap (fun r => per (u8At r 0))).foldl (fun (a : Option (F32 × Nat)) x => match a with
    | some b => if fLt x.1 b.1 then some x else a
    | none => some x) none

def measBase : Nat := 0x8000

/-- The KIND of a measurement by its index. -/
def measKind (img : List Byte) (i : Nat) : Option Nat := (recByKey img 11 i).map (fun r => u8At r 2)

/-- An entry of the area is an absolute pressure (R173). -/
def pressureAt (img : List Byte) (index : Nat) : Bool :=
  index < 0x2000 || (between measBase (measBase + 2047) index && measKind img (index - measBase) == some 0)
    || (between 0x8B40 0x8B5F index && index % 8 == 3)
/-- An entry of the area is a temperature (R173). -/
def temperatureAt (img : List Byte) (index : Nat) : Bool :=
  between 0x2000 0x3FFF index || (between 0x7000 0x7FFF index && index % 4 == 2)
    || (between measBase (measBase + 2047) index
        && (measKind img (index - measBase) == some 2 || measKind img (index - measBase) == some 7))
    || between 0x8800 0x89FF index || (between 0x8B00 0x8B3F index && index % 2 == 1)

/-- A published value outside its physical range is INVALID (R169): absolute pressures, temperatures, finite values. -/
def physical (img : List Byte) (index : Nat) (v : F32) : Bool :=
  fFinite v && (!pressureAt img index || fLe 0 v)
    && (!temperatureAt img index || fIn (fc 27315 100) (fc 42315 100) v)

/-- The stations and plants among a model's branches whose record a test takes: where each one's entries begin (R173). -/
def stnPoints (img : List Byte) (k : Nat) (f : List Byte → Bool) : List Nat :=
  ((stationRecs img).filter f).map (fun r => 0x7000 + 4 * u16At r 0 + k)
def plantPoints (img : List Byte) (k : Nat) (f : List Byte → Bool) : List Nat :=
  ((plants img).filter f).map (fun r => 0x8B00 + 4 * u8At r 0 + k)

/-- The estimates at the point of a GOOD measurement (R169): at the node of a pressure or temperature, with a network's HOLD
pressure, a station's and a plant's return temperature and a plant's supply temperature there (R161); at the branch of a flow, with
its station's or plant's flow; at a layer. -/
def goodPoints (img : List Byte) (r : List Byte) : List Nat :=
  let o := u16At r 4
  match u8At r 2 with
  | 0 => o :: ((networks img).filter (fun n => u16At n 2 == o)).map (fun n => 0x8B40 + 8 * u8At n 0 + 3)
  | 2 => (0x2000 + o) :: (stnPoints img 2 (fun x => u16At x 6 == o) ++ plantPoints img 1 (fun x => u16At x 6 == o)
      ++ plantPoints img 3 (fun x => u16At x 8 == o))
  | 3 => (0x4000 + o) :: (stnPoints img 1 (fun x => u16At x 2 == o) ++ plantPoints img 2 (fun x => u16At x 4 == o))
  | 7 => [0x8800 + o]
  | _ => []

/-- The entry a solve publishes for an estimate. -/
def entryOf (img : List Byte) (r : Solve) (converged : Bool) (good rejected : List Nat) (e : Estimate) : PvEntry :=
  let mk (v : F32) (q : Quality) (fl : Nat) : PvEntry :=
    ⟨v, r.tickTai, if physical img e.index v then q else .invalid, fl, BitVec.ofNat 16 r.number, e.sigma⟩
  let lim := b01 e.limit
  if between measBase (measBase + 2047) e.index then
    let i := e.index - measBase
    match alGet r.snapshot i with
    | none => mk e.value .invalid lim
    | some x =>
      let rej := rejected.contains i
      if x.excluded || rej then
        if converged then mk e.value .estimated (lim + 2 + (if rej then 4 else 0))
        else mk x.value (if rej then qMax x.quality .invalid else x.quality) (lim + (if rej then 4 else 0))
      else mk e.value (if converged then x.quality else qMax x.quality .estimated) lim
  else mk e.value (if converged && good.contains e.index then .good else .estimated) lim

/-- Zone runs after a published solve (R159); a zone whose residual reads INVALID ends both runs. -/
def zoneRunStep (n : Nat) (trust : F32) (rho : Option F32) (x : ZoneRun) : ZoneRun :=
  match rho.filter fFinite with
  | none => { x with above := 0, below := 0 }
  | some v =>
    if fLt trust v then
      { x with above := x.above + 1, below := 0, raised := x.raised || n ≤ x.above + 1 }
    else { x with below := x.below + 1, above := 0, raised := x.raised && x.below + 1 < n }

/-- ZONE_MISMATCH where a zone enters or leaves it. -/
def State.judgeZone (s : State) (r : Solve) (res : SolveResult) (z : List Byte) : State :=
  let k := u8At z 0
  let old := (alGet s.reck.zoneRuns k).getD default
  let rho := alGet res.zoneResid k
  let new := zoneRunStep r.cfg.mismatchN (fieldAt z 8) rho old
  let s : State := { s with reck := { s.reck with zoneRuns := alPut s.reck.zoneRuns k new } }
  if old.raised = new.raised then s
  else s.raise 0x33 [u16 k, f32 (rho.getD 0), f32 (fieldAt z 8), u16 (b01 (!new.raised))]

/-- The zone with the highest residual. -/
def worstZone (l : List (Nat × F32)) : Option (Nat × F32) :=
  l.foldl (fun a x => match a with
    | some b => if fLt b.2 x.2 then some x else a
    | none => some x) none

/-- A new model's first solve has published: its load ends OK (step 7 of the load sequence), and MODEL_LOADED is raised. -/
def State.firstPublished (s : State) : State :=
  if !s.model.firstDue then s
  else
    let s : State := { s with model := { s.model with firstDue := false } }
    let s : State := match s.model.load with
      | some l => if l.stage = .firstSolve then s.dropLoad.endLoad l.ref checkOk l.bytes else s
      | none => s
    s.raise 0x3C [u32 s.modelRev, recFld 8 (imgDigest8 s.model.run), u16 (s.model.runSlot.getD 0)]

/-- Publish a solve (R169, R170); `num`: the Reckoner's numbers after it. -/
def State.publishSolve (s : State) (r : Solve) (res : SolveResult) (num : RecNum) : State :=
  let img := s.model.run
  let cfg := r.cfg
  let bd := badData cfg.rejectT cfg.rejectMax res.passes []
  let rejected := bd.1.map Prod.fst
  let accepted := (r.snapshot.filter (fun p => !p.2.excluded && !rejected.contains p.1)).map Prod.fst
  let least := leastFraction img accepted
  let low := (least.map (fun x => fLt x.1 cfg.coverMin)).getD false
  let degraded := bd.2 || low || res.restarted
  let status := b01 degraded
  let goodIdx := (r.snapshot.filter (fun p => p.2.quality == .good && accepted.contains p.1)).map Prod.fst
  let goodPts := ((measRecs img).filter (fun m => goodIdx.contains (u16At m 0))).flatMap (goodPoints img)
  let resid := (zones img).map (fun z =>
    let k := u8At z 0
    (0x8A00 + 4 * k + 1, match alGet res.zoneResid k with
      | some v => (⟨v, r.tickTai, if fFinite v then .estimated else .invalid, 0, BitVec.ofNat 16 r.number, 0⟩ : PvEntry)
      | none => ⟨0, r.tickTai, .invalid, 0, BitVec.ofNat 16 r.number, 0⟩))
  -- a network with no accepted measurement has an INVALID residual (R157)
  let noResid := ((networks img).map (fun x => 0x8B40 + 8 * u8At x 0 + 5)).filter (fun j => !res.estimates.any (fun e => e.index == j))
  let entries := (res.estimates.map (fun e => (e.index, entryOf img r (!degraded) goodPts rejected e))) ++ resid
    ++ noResid.map (fun j => (j, ⟨0, r.tickTai, .invalid, 0, BitVec.ofNat 16 r.number, 0⟩))
  let substituted := (entries.filter (fun e => between measBase (measBase + 2047) e.1 && e.2.flags / 2 % 2 == 1)).length
  let dur := (s.now - r.tickAt) / usNs
  let block := s.statusBlock r status dur res.steps accepted.length rejected.length substituted
  let set : StateSet := ⟨r.number, r.tickTai, r.tickAt, status, s.modelRev, entries⟩
  let i := s.freeSet.getD 0
  let s : State := { s with reck := { s.reck with
    running := none, num := num, failRun := 0, status := block, lastStatus := some status,
    sets := s.reck.sets.set i (some set), latest := some i } }
  let s : State := s.noteClear.raiseRejected r bd.1
  let s : State := if degraded then
      s.raise 0x31 [u32 r.number, u16 (if bd.2 then 0 else if low then 1 else 2),
        f32 ((least.map Prod.fst).getD 0), u16 ((least.map Prod.snd).getD 0xFFFF)]
    else s
  let s : State := (zones img).foldl (fun s z => s.judgeZone r res z) s
  let s : State := s.postSummary r status res.steps res.iters res.poolMerge accepted.length (excludedOf r.snapshot)
    rejected.length substituted res.jNorm (worstZone res.zoneResid)
  (s.firstPublished.settleReck 0).endStep10

/-- The numbers of the solve that ends: those the command names, or else what the laws of R148–R162 give; with the Reckoner's own
numbers after it. -/
def State.solveNumbers (s : State) (r : Solve) (given : Option SolveResult) : SolveResult × RecNum :=
  match given with
  | some x => (x, s.reck.num)
  | none => solveOutcome s.model.run s.reck.num s.reck.lastStatus r

/-- Two cadences have passed since a solve's tick (R164). -/
def State.pastDue (s : State) (r : Solve) : Bool := r.tickAt + 2 * (r.cfg.cadenceMs * msNs) ≤ s.now

/-- SOLVE_END (R153, R156, R158, R166, R169); a solve two cadences old is LATE, whichever of its end and its deadline comes first
here (R164). -/
def State.solveEnd (s : State) (given : Option SolveResult) : State :=
  match s.reck.running with
  | none => s
  | some r =>
    let x := s.solveNumbers r given
    let stop (status : Nat) : State :=
      s.solveUnpublished r status x.1.iters x.1.steps x.1.worstNode (badData r.cfg.rejectT r.cfg.rejectMax x.1.passes []).1
    if s.reck.en = .quiescing then stop 4
    else if s.pastDue r then stop 3
    else if !x.1.converged then stop 2
    else s.publishSolve r x.1 x.2

def execSolveEnd (given : Option SolveResult) (s : State) : Host.Outcome State Fault Refusal := .next (s.solveEnd given)

/-- SOLVE_LATE (R164): two cadences after its tick; `passes`: the residuals of the bad-data test so far. -/
def State.solveLate (s : State) (iters steps worstNode : Nat) (passes : List ResidualPass) : State :=
  match s.reck.running with
  | none => s
  | some r =>
    if s.pastDue r then
      s.solveUnpublished r 3 iters steps worstNode (badData r.cfg.rejectT r.cfg.rejectMax passes []).1
    else s

def execSolveLate (work : SolveWork) (worstNode : Nat) (passes : List ResidualPass) (s : State) :
    Host.Outcome State Fault Refusal :=
  .next (s.solveLate work.iters work.steps worstNode passes)

/-! ### Ticks (R146, R164, R165, R175, R209) -/

/-- Layers that wait for a tick take this one (R209). -/
def State.tickLayers (s : State) (solve : Option Nat) : State :=
  let mark (x : LayerSt) : LayerSt := { x with due := x.due.map (fun d =>
    if d.tick.isNone then { d with tick := some (s.now, solve) } else d) }
  { s with opt := { s.opt with day := mark s.opt.day, pressure := mark s.opt.pressure } }

/-- A standby takes the snapshot mirrored from the active (R168). -/
def State.tickSnapshot (s : State) (tick : Nat) : List (Nat × Sample) :=
  if s.twin.role = .standby then
    match s.reck.mirrorSnap with
    | some m => m.2.2
    | none => []
  else s.snapshotAt tick

/-- An input snapshot as mirrored to the standby: 16-byte entries (R172, R506) for the indices from 0 on, INVALID where the model
has no measurement. -/
def snapFlds (l : List (Nat × Sample)) : List Fld :=
  let one (x : Sample) : List Fld := [f32 x.value, u32 (x.at_ % 2 ^ 32), u8 (qCode x.quality), u8 0, u16 0, u32 0]
  let n := (l.map (fun p => p.1 + 1)).foldl max 0
  (List.range n).flatMap (fun i => one ((alGet l i).getD ⟨0, .invalid, 0, true⟩))

/-- RECKON_TICK: a tick that falls while a solve still runs is skipped and counted, also in QUIESCING (R164). -/
def State.reckonTick (s : State) : State :=
  let cfg := s.reck.pendingCfg.getD s.reck.cfg
  let tick := tickOf cfg s.tai
  if (s.reck.en ≠ .enabled && s.reck.running.isNone) || s.model.runSlot.isNone then
    if s.reck.lastTick < tick then
      (({ s with reck := { s.reck with lastTick := tick, cfg := cfg, pendingCfg := none } }).meterTick.tickLayers none).endStep10
    else s
  else if tick ≤ s.reck.lastTick then s
  else
    let prev := (s.latestSet.map (·.tickTai)).getD 0
    let s : State := { s with reck := { s.reck with lastTick := tick, cfg := cfg, pendingCfg := none } }
    let s : State := s.meterTick
    match s.reck.running with
    | some r =>
      (({ s with reck := { s.reck with skippedSince := true, skips := s.reck.skips + 1 } }).raise 0x34
        [u32 r.number, u32 ((s.now - r.tickAt) / usNs)]).tickLayers none
    | none =>
      let s : State := s.applyAlloc 1
      let n := s.reck.solves + 1
      let snap := s.tickSnapshot tick
      let cold := s.model.coldNext || 3 ≤ s.reck.failRun
      let run : Solve := ⟨n, tick, s.now, prev, cold, cfg, snap, s.solveInputs tick⟩
      let s : State := { s with
        reck := { s.reck with solves := n, running := some run }, model := { s.model with coldNext := false } }
      let s : State := s.mirror 0x04 ([u32 n, u32 (tick % 2 ^ 32), u16 0, u16 ((snapFlds snap).length / 6)] ++ snapFlds snap)
      (s.checkpointKind 1).tickLayers (some n)

def execReckonTick (s : State) : Host.Outcome State Fault Refusal := .next s.reckonTick

/-! ### Orders (R146, R175–R177) -/

/-- MEAS_PUT: a measurement of SOURCE 3; STAMP 0 takes the acceptance. -/
def State.measPut (s : State) (ref : OrderRef) (index quality : Nat) (stamp : Word) (raw : F32) : State :=
  match recByKey s.model.run 11 index with
  | some r =>
    if u8At r 3 = 3 then
      let at_ := if stamp = 0 then s.tai else s.extendStamp stamp
      let s : State := { s with reck := { s.reck with hostMeas := alPut s.reck.hostMeas index (raw, qOfCode quality, at_) } }
      s.answer ref 0x0404 (orderDone stDone)
    else s.answer ref 0x0404 (orderDone stRange)
  | none => s.answer ref 0x0404 (orderDone stRange)

def execMeasPut (ref : OrderRef) (index quality : Nat) (stamp : Word) (raw : F32) (s : State) :
    Host.Outcome State Fault Refusal :=
  .next (s.runOrder ref 0x0404 (fun s => s.measPut ref index quality stamp raw))

def reckonCfgOk (c : ReckonCfg) : Bool :=
  between 500 10000 c.cadenceMs && c.cadenceMs % 10 == 0 && fIn (fc 3 1) (fc 10 1) c.rejectT && c.rejectMax ≤ 64
    && c.flags < 2 && fIn 0 (fc 1 1) c.coverMin && fIn (fc 5 100) (fc 1 1) c.pseudo && fIn (fc 1 100) (fc 1 1) c.mergeDt
    && between 1 100 c.mismatchN && c.reserved == 0

/-- RECKON_CFG: takes effect from the first tick of the new grid after acceptance. -/
def State.reckonCfg (s : State) (ref : OrderRef) (c : ReckonCfg) : State :=
  if reckonCfgOk c then
    let s : State := { s with reck := { s.reck with pendingCfg := some c, lastTick := tickOf c s.tai } }
    s.answer ref 0x0401 (orderDone stDone)
  else s.answer ref 0x0401 (orderDone stRange)

def execReckonCfg (ref : OrderRef) (c : ReckonCfg) (s : State) : Host.Outcome State Fault Refusal :=
  .next (s.runOrder ref 0x0401 (fun s => s.reckonCfg ref c))

/-- RECKON_CTL (R166, R176). -/
def State.reckonCtl (s : State) (ref : OrderRef) (enable : Nat) : State :=
  let say (s : State) (st : Nat) : State := s.answer ref 0x0402 (stateReport st [u8 (enCode s.reck.en)])
  if 1 < enable then say s stRange
  else
    let a := enRequest s.reck.en (enable == 1) s.reck.running.isSome
    let s' : State := { s with reck := { s.reck with en := a.1 } }
    match a.2 with
    | .quiescingRefused => say s stQuiescing
    | .accepted => say s' stDone
    | .quiescedNow => say (s'.raise 0x35 [u32 0]) stDone

def execReckonCtl (ref : OrderRef) (enable : Nat) (s : State) : Host.Outcome State Fault Refusal :=
  .next (s.runOrder ref 0x0402 (fun s => s.reckonCtl ref enable))

def pvFlds (e : PvEntry) : List Fld :=
  [f32 e.value, u32 e.stamp.toNat, u8 (qCode e.quality), u8 e.flags, u16 e.solve.toNat, f32 e.sigma]

/-- STATE_QUERY (R177): entries of the latest set, and the status block as it stands. One query at a time: it runs, with its set
pinned, until the instant at which it was taken is over (DESIGN CHOICE: the spec gives the copy no length). -/
def State.stateQuery (s : State) (ref : OrderRef) (addr offset count : Nat) : State :=
  let say (s : State) (st n k : Nat) : State := s.answer ref 0x0403 (ownReport st [u8 st, u8 0, u8 0, u8 0, u32 n, u32 k])
  if addr % 16 ≠ 0 || offset % 16 ≠ 0 || 0x8B6F0 < offset || count = 0 || 65536 < count || 0x8B700 < offset + 16 * count then
    say s 2 0 0
  else if s.reck.queryAt = some s.now then say s 1 0 0
  else
    let pin := (s.reck.latest.map (fun i => (queryPin, i))).toList
    let s : State := { s with reck := { s.reck with
      queryAt := some s.now, pins := pin ++ s.reck.pins.filter (fun p => p.1 != queryPin) } }
    let es := (List.range count).map (fun i => s.reckEntry (offset / 16 + i))
    say (s.toHost (.hostData addr (es.map pvFlds).flatten)) 0 s.latestSolve count

def execStateQuery (ref : OrderRef) (addr offset count : Nat) (s : State) : Host.Outcome State Fault Refusal :=
  .next (s.runOrder ref 0x0403 (fun s => s.stateQuery ref addr offset count))

end Sys2Proof.Machine
end

