-- ==== Sys2Proof/Machine/Opt.lean ====
section
/-! DEFINITION. The dispatch optimiser's commands (spec/07_dispatch_optimiser.md). -/

namespace Sys2Proof.Machine

open Sys2Proof

/-! ### Layers -/

/-- The time bound of a layer solve in µs (R230), scaled by the optimiser's bead count (R87) and derated (R681). -/
def State.layerBoundUs (s : State) (y : Layer) : Nat :=
  let n := s.kindCount 3
  let base := match y with
    | .day => 20000000
    | .pressure => 2000000
  s.derateTime (if n < 96 then base * 96 / max n 1 else base)

/-! ### Tables and profiles (R217–R221) -/

def State.tariff (s : State) (i : Nat) : Option (List Byte) := alGet s.opt.tariffs i
def tabKind (t : List Byte) : Nat := u8At t 1
def tabCount (t : List Byte) : Nat := u16At t 2
def tabStart (t : List Byte) : Nat := leAt 8 t 8
def tabPrice (t : List Byte) (k : Nat) : F32 := f32At t (0x20 + 8 * k)

/-- The instants at which a layer's steps begin. -/
def stepTimes (y : Layer) (boundary : Nat) : List Nat := (List.range (layerSteps y)).map (fun t => boundary + t * layerPeriod y)

/-- The tariff tables a solve uses: import, export, and the fuel plants' (R218). -/
def State.usedTables (s : State) : List Nat :=
  [s.opt.cfg.importTable, s.opt.cfg.exportTable] ++
    ((plants s.model.run).filter (fun r => u8At r 1 ≤ 1 || u8At r 1 == 5)).map (fun r => u8At r 0x28)

/-- The profiles a solve uses: the stations' and the electrical base load's (R214). -/
def State.usedProfiles (s : State) : List Nat :=
  s.opt.cfg.elecProfile :: (stationRecs s.model.run).map (fun r => u16At r 0x24)

/-- The first table that the edge rule applies to. -/
def State.tariffEdge (s : State) (ts : List Nat) : Option Nat :=
  s.usedTables.find? (fun i => match s.tariff i with
    | some t => ts.any (fun x => (edgeSlot (tabStart t) (tabCount t) x).2)
    | none => false)

/-- The export price exceeds the import price in a step (R218). -/
def State.tariffClipped (s : State) (ts : List Nat) : Option Nat :=
  match s.tariff s.opt.cfg.importTable, s.tariff s.opt.cfg.exportTable with
  | some m, some x =>
    let at_ (t : List Byte) (u : Nat) : F32 := tabPrice t (edgeSlot (tabStart t) (tabCount t) u).1
    if ts.any (fun u => fLt (at_ m u) (at_ x u)) then some s.opt.cfg.exportTable else none
  | _, _ => none

def State.forecastEdge (s : State) (ts : List Nat) : Option Nat :=
  s.usedProfiles.find? (fun i => match alGet s.opt.profiles i with
    | some p => ts.any (fun x => (edgeSlot (leAt 8 p 8) (u16At p 2) x).2)
    | none => false)

def State.forecastDefault (s : State) : Option Nat := s.usedProfiles.find? (fun i => (alGet s.opt.profiles i).isNone)

/-- Flags 1–4 of R243 that a solve's inputs set, each with an index. -/
def State.inputEdges (s : State) (y : Layer) (boundary : Nat) : List (Nat × Nat) :=
  let ts := stepTimes y boundary
  let one (f : Nat) (o : Option Nat) : List (Nat × Nat) := (o.map (fun i => (f, i))).toList
  one 1 (s.tariffEdge ts) ++ one 2 (s.tariffClipped ts) ++ one 3 (s.forecastEdge ts) ++ one 4 s.forecastDefault

/-- The bytes of a table that its CRC covers, and its field ranges (R217). -/
def tariffStatus (t : List Byte) (length : Nat) : Nat :=
  if length < 0x20 || t.length ≠ length || length ≠ 0x20 + 8 * tabCount t then 4
  else if (crc32c (t.take 0x1C ++ t.drop 0x20)).toNat ≠ u32At t 0x1C then 1
  else if u8At t 0 < 32 && tabKind t < 3 && between 1 192 (tabCount t) && u32At t 4 = 0 && tabStart t % 900 = 0
      && tabStart t < 2 ^ 48
      && (List.range (tabCount t)).all (fun k => fNonNeg (tabPrice t k)
        && (if tabKind t < 2 then fNonNeg (f32At t (0x24 + 8 * k)) else fOk (f32At t (0x24 + 8 * k)))) then 0
  else 2

/-- The KIND of a table fits every use of its INDEX (R218, R219). -/
def State.tariffFits (s : State) (i kind : Nat) : Bool :=
  (plants s.model.run).all (fun r =>
    let k := u8At r 1
    u8At r 0x28 != i || kind == (if k ≤ 1 || k = 5 then 0 else 1))
    && (s.opt.cfg.importTable != i || kind == 1) && (s.opt.cfg.exportTable != i || kind == 2)

def State.optResult (s : State) (ref : OrderRef) (op st : Nat) : State := s.answer ref op (ownReport st [u8 st])

/-- TARIFF_PUT (R219). -/
def State.tariffPut (s : State) (ref : OrderRef) (t : List Byte) (length : Nat) : State :=
  let st := tariffStatus t length
  if st ≠ 0 then s.optResult ref 0x0603 st
  else if !s.tariffFits (u8At t 0) (tabKind t) then s.optResult ref 0x0603 3
  else ({ s with opt := { s.opt with tariffs := alPut s.opt.tariffs (u8At t 0) t } }).optResult ref 0x0603 0

def execTariffPut (ref : OrderRef) (table : List Byte) (length : Nat) (s : State) : Host.Outcome State Fault Refusal :=
  .next (s.runOrder ref 0x0603 (fun s => s.tariffPut ref table length))

/-- A forecast profile's checks (R220). -/
def profileStatus (p : List Byte) (length : Nat) : Nat :=
  if length < 0x10 || p.length ≠ length || length ≠ 0x10 + 4 * u16At p 2 then 4
  else if (crc32c (p.take 4 ++ p.drop 8)).toNat ≠ u32At p 4 then 1
  else if u16At p 0 < 256 && between 1 192 (u16At p 2) && leAt 8 p 8 % 900 = 0 && leAt 8 p 8 < 2 ^ 48
      && (List.range (u16At p 2)).all (fun k => fIn 0 (fc 3 1) (f32At p (0x10 + 4 * k))) then 0
  else 2

/-- FORECAST_PUT (R221). -/
def State.forecastPut (s : State) (ref : OrderRef) (p : List Byte) (length : Nat) : State :=
  let st := profileStatus p length
  if st ≠ 0 then s.optResult ref 0x0604 st
  else ({ s with opt := { s.opt with profiles := alPut s.opt.profiles (u16At p 0) p } }).optResult ref 0x0604 0

def execForecastPut (ref : OrderRef) (profile : List Byte) (length : Nat) (s : State) : Host.Outcome State Fault Refusal :=
  .next (s.runOrder ref 0x0604 (fun s => s.forecastPut ref profile length))

/-! ### Summaries and ends (R232, R236, R243) -/

def planItemFlds (i : PlanItem) : List Fld :=
  [u8 i.kind, u8 i.flags, u16 i.object, u16 i.step, u16 0, f32 i.value, f32 i.dual]

/-- Items in order of STEP, KIND, OBJECT (R241). -/
def itemLe (a b : PlanItem) : Bool :=
  a.step < b.step || (a.step == b.step && (a.kind < b.kind || (a.kind == b.kind && a.object ≤ b.object)))
def insItem (i : PlanItem) : List PlanItem → List PlanItem
  | [] => [i]
  | j :: js => if itemLe i j then i :: j :: js else j :: insItem i js
def sortItems (is : List PlanItem) : List PlanItem := is.foldr insItem []

/-- A solve that publishes nothing: INFEASIBLE, FAILED, DISABLED or ABANDONED. -/
def State.endUnpublished (s : State) (y : Layer) (r : LayerRun) (status : Nat) (p : Plan) : State :=
  let x := s.layer y
  let fails := if status = 3 || status = 4 then x.fails + 1 else 0
  let c := r.cfg
  let s : State := (s.setLayer y { x with run := none, fails := fails, coldNext := x.coldNext || 2 ≤ fails }).unpin (pinLayer y)
  let p := { p with status := status, number := r.number, boundary := r.boundary, solve := r.solve, flags := r.flags,
                    durationUs := (s.now - r.startedAt) / usNs }
  let s : State := if status = 6 then { s with opt := { s.opt with retired := s.opt.retired + 1 } } else s
  (s.postPlan c y p 0).settleOpt

/-! ### Boundaries and starts (R209–R213) -/

/-- The optimiser plans: ENABLED on an ACTIVE or SOLO tablet (R236, R238, R491). -/
def State.optRuns (s : State) : Bool := s.opt.en == .enabled && s.activeOrSolo

/-- The Reckoner tick already taken at or after a boundary, with the solve it started (R209): the boundary's own tick where RECKON_TICK
came before LAYER_BOUNDARY. -/
def State.tickTaken (s : State) (boundary : Nat) : Option (Nat × Option Nat) :=
  if s.reck.lastTick < boundary * secNs then none
  else match s.reck.running with
    | some r => if r.tickTai = s.reck.lastTick then some (r.tickAt, some r.number) else some (s.now, none)
    | none => some (s.now, none)

/-- LAYER_BOUNDARY (R209, R212): the latest whole multiple of the layer's period, where it has not been taken yet. -/
def State.layerBoundary (s : State) (y : Layer) : State :=
  let b := s.tai / secNs / layerPeriod y * layerPeriod y
  if b ≤ (s.layer y).lastBoundary then s
  else
    let s : State := s.setLayer y { s.layer y with lastBoundary := b }
    let x := s.layer y
    if !s.optRuns then s
    else match x.run with
      | some r =>
        (s.setLayer y { x with skips := x.skips + 1, skippedSince := true }).raise 0x46
          [u16 (layerCode y), u32 r.number, u32 ((s.now - r.startedAt) / usNs)]
      | none => s.setLayer y { x with due := some ⟨b, s.tickTaken b⟩ }

def execLayerBoundary (layer : Layer) (s : State) : Host.Outcome State Fault Refusal := .next (s.layerBoundary layer)

/-- The state of the tick is there, or is waited for no longer (R210). -/
def State.layerReady (s : State) (d : LayerDue) : Bool :=
  match d.tick with
  | none => false
  | some (at_, n) =>
    (match n with
     | some n => !(s.reck.running.map (fun r => r.number == n)).getD false
     | none => true) || at_ + s.fullSolveUs * usNs ≤ s.now

/-- Why a solve is refused (R232), 0 if it is not. -/
def State.layerRefusal (s : State) (y : Layer) (boundary : Nat) : Nat :=
  if s.model.runSlot.isNone then 2
  else if s.stateStale then 1
  else if (s.tariff s.opt.cfg.importTable).isNone || (s.tariff s.opt.cfg.exportTable).isNone then 4
  else match y with
    | .day => 0
    | .pressure => match s.opt.day.plan with
      | some p => if p.boundary ≤ boundary && boundary < p.boundary + 96 * 900 then 0 else 3
      | none => 3

/-- OPT_DATA_EDGE: flags first set, or cleared. -/
def State.noteEdges (s : State) (y : Layer) (es : List (Nat × Nat)) : State :=
  let old := (s.layer y).edges
  let s : State := s.setLayer y { s.layer y with edges := es }
  let fresh := es.filter (fun e => !old.any (fun o => o.1 == e.1))
  let gone := old.filter (fun o => !es.any (fun e => o.1 == e.1))
  (fresh ++ gone).foldl (fun s e => s.raise 0x45 [u16 e.1, u16 e.2]) s

/-! ### The inputs of a solve (R213–R216, R225, R229) -/

/-- The bias of a zone: its reckoned thermal load over the forecast of its stations at the state's tick, within 0.5–2 (R214, R215). -/
def State.zoneBias (s : State) (z : Nat) : Num :=
  let e := s.reckEntry (0x8A00 + 4 * z + 2)
  let tick := ((s.latestSet.map (·.tickTai)).getD 0) / secNs
  let d := nSum (((stationRecs s.model.run).filter (fun r => u8At r 9 == z)).map (fun r =>
    nMul (nField r 0xC) (nF (s.profileAt (u16At r 0x24) tick))))
  if qCode e.quality ≤ 1 && (nLt nZero d || nLt d nZero) then nClamp (nc 1 2) (nc 2 1) (nDiv (nF e.value) d) else nOne

/-- A reading is at most 5 s old and GOOD or ESTIMATED. -/
def State.fresh5 (s : State) (e : PvEntry) : Bool :=
  qCode (qAged e.quality (s.tai - e.at_) (5 * secNs)) ≤ 1

/-- The import that the day plan in force plans for the current step. -/
def State.plannedImport (s : State) : Option Num :=
  s.opt.day.plan.bind (fun p =>
    (p.items.find? (fun i => i.kind == 5 && i.step == (s.tai / secNs - p.boundary) / 900)).map (fun i => nF i.value))

/-- The bias of the electrical base load: measured over planned import; without a fresh reading its last value (R213). -/
def State.baseBias (s : State) : Num :=
  let last := s.opt.elecBias.getD nOne
  if s.opt.cfg.importCircuit = 0xFF then last
  else
    let e := s.pvEntry (0xA000 + 32 * s.opt.cfg.importCircuit + 10)
    match s.plannedImport with
    | some m => if s.fresh5 e && (nLt nZero m || nLt m nZero) then nClamp (nc 1 2) (nc 2 1) (nDiv (nF e.value) m) else last
    | none => last

/-- A plant's output: from its circuit or its own thermal measurement where a reading is fresh and plausible (R131), else as reckoned
(R213). -/
def State.plantNow (s : State) (r : List Byte) : Num :=
  let kind := u8At r 1
  let reck := nF (s.reckEntry (0x8B00 + 4 * u8At r 0)).value
  let heat := (measRecs s.model.run).find? (fun m => u8At m 2 == 6 && u16At m 4 == u16At r 4)
  let own := heat.bind (fun m => (s.measSource m).bind (fun x =>
    let v := nAdd (nMul (nF x.1) (nField m 0x14)) (nField m 0x18)
    let inRange := nLe (nField m 0x1C) v && nLe v (nField m 0x20)
    if inRange && qCode (qAged x.2.1 (s.tai - x.2.2) (5 * secNs)) ≤ 1 then some v else none))
  let e := s.pvEntry (0xA000 + 32 * u8At r 0x29 + 10)
  if u8At r 0x29 ≠ 0xFF && s.fresh5 e && between 1 4 kind then
    if kind = 1 then nDiv (nAbs (nF e.value)) (nField r 0x24) else nMul (nF e.value) (nField r 0x20)
  else own.getD reck

/-- The plants whose last start or stop was a start, with the seconds of MIN_RUN that are left. -/
def State.runsLeft (s : State) : List (Nat × Nat) :=
  (plants s.model.run).filterMap (fun r =>
    (s.roll.hist.reverse.find? (fun h => h.kind == 1 && h.object == u8At r 0 && h.alive)).bind (fun h =>
      if fLe (fc 1 2) h.value then some (u8At r 0, fCeil (fieldAt r 0x2C) - (s.tai - h.applyAt) / secNs) else none))

/-- The reckoned supply temperature of a network: that of its plants, weighted by their flows. -/
def State.supplyNow (s : State) (n : Nat) : Num :=
  let l := ((plants s.model.run).filter (fun r => u8At r 2 == n)).map (fun r =>
    let i := 0x8B00 + 4 * u8At r 0
    (nF (s.reckEntry (i + 2)).value, nF (s.reckEntry (i + 1)).value))
  let q := nSum (l.map Prod.fst)
  if nLt nZero q then nDiv (nSum (l.map (fun x => nMul x.1 x.2))) q else supplyT s.model.run n

def State.optInputs (s : State) (y : Layer) (warm : Bool) : OptIn :=
  let img := s.model.run
  ⟨s.opt.tariffs, s.opt.profiles, s.pinnedNumbers, (zones img).map (fun z => (u8At z 0, s.zoneBias (u8At z 0))), s.baseBias,
   (plants img).map (fun r => (u8At r 0, s.plantNow r)), ((plants img).map (fun r => u8At r 0)).filter s.permit, s.runsLeft,
   (networks img).map (fun r => (u8At r 0, nF (s.reckEntry (0x8B40 + 8 * u8At r 0 + 1)).value)),
   (networks img).map (fun r => (u8At r 0, s.supplyNow (u8At r 0))), s.opt.day.plan.map (fun p => (p.boundary, p.items)),
   if warm then (s.layer y).plan.map (fun p => (p.boundary, p.duals)) else none, s.la.cfg.guardPa⟩

/-- LAYER_SOLVE_START (R210, R211, R213, R85): cold where R229 says so, or where the layer has no plan to start from. -/
def State.layerStart (s : State) (y : Layer) : State :=
  match (s.layer y).due with
  | none => s
  | some d =>
    if !s.optRuns || !s.layerReady d || (s.layer y).run.isSome then s
    else
      let s : State := s.applyAlloc 3
      if s.kindCount 3 = 0 then s.optShed
      else
        let x := s.layer y
        let n := x.plans + 1
        let s : State := s.setLayer y { x with plans := n, due := none, shedTold := false }
        let why := s.layerRefusal y d.boundary
        if why ≠ 0 then
          -- a REFUSED solve lies between two failures (R229)
          ((s.setLayer y { s.layer y with fails := 0 }).raise 0x43 [u16 (layerCode y), u16 why]).postPlan s.opt.cfg y
            (barePlan n 5 d.boundary 0 0 0) why
        else
          let es := s.inputEdges y d.boundary
          let s : State := s.noteEdges y es
          let cold := x.coldNext || x.plan.isNone
          let flags := b01 s.stateDegraded + packBits (es.map Prod.fst) + (if cold then 32 else 0)
          let run : LayerRun := ⟨n, d.boundary, s.now, s.latestSolve, flags, es, s.optInputs y (!cold), s.opt.cfg⟩
          let s : State := { s with opt := { s.opt with elecBias := some s.baseBias } }
          ((s.setLayer y { s.layer y with run := some run, coldNext := false }).pinLatest (pinLayer y)).checkpointKind 3

def execLayerSolveStart (layer : Layer) (s : State) : Host.Outcome State Fault Refusal := .next (s.layerStart layer)

/-! ### Handing over (R233, R234) -/

/-- The difference of two values exceeds a deadband; a value never commanded always does. -/
def beyond (last : Option F32) (v band : F32) : Bool :=
  match last with
  | some l => fLt band (fAbs (fSub v l))
  | none => true

/-- Fewest branches from a node to a plant's SUPPLY or RETURN node, over the graph (R233). -/
def hopsTo (img : List Byte) (targets : List Nat) : Nat → List Nat → Nat → Option Nat
  | 0, _, _ => none
  | fuel + 1, seen, d =>
    if targets.any (fun t => seen.contains t) then some d
    else
      let next := (branches img).foldl (fun a p =>
        let x := u16At p.2 (fromOff p.1)
        let y := u16At p.2 (toOff p.1)
        if seen.contains x && !a.contains y then y :: a else if seen.contains y && !a.contains x then x :: a else a) seen
      if next.length = seen.length then none else hopsTo img targets fuel next (d + 1)

/-- The plant nearest to a node in its network; a tie goes to the lower number. -/
def nearestPlant (img : List Byte) (node : Nat) : Option Nat :=
  let net := nodeNet img node
  let cand := (plants img).filter (fun r => some (u8At r 2) == net)
  let dist := cand.filterMap (fun r =>
    (hopsTo img [u16At r 6, u16At r 8] (nodes img).length [node] 0).map (fun d => (d, u8At r 0)))
  (dist.foldl (fun (a : Option (Nat × Nat)) p => match a with
    | some b => if p.1 < b.1 || (p.1 == b.1 && p.2 < b.2) then some p else a
    | none => some p) none).map Prod.snd

/-- Where a pump's or valve's change travels: its zone, or the nearest plant of its network. -/
def branchUnit (img : List Byte) (zone node : Nat) : Option RollUnit :=
  if zone = 0xFF then (nearestPlant img node).map .plant else some (.zone zone)

/-- The units an item goes to (R233): a network's supply temperature to each running plant of the network. -/
def State.itemUnits (s : State) (its : List PlanItem) (i : PlanItem) : List RollUnit :=
  let img := s.model.run
  let runs (p : Nat) : Bool := match its.find? (fun x => x.kind == 1 && x.object == p) with
    | some x => fLe (fc 1 2) x.value
    | none => (s.lastCommanded 1 p).map (fun v => fLe (fc 1 2) v) == some true
  match i.kind with
  | 0 | 1 => [.plant i.object]
  | 2 => ((plants img).filter (fun r => u8At r 2 == i.object && runs (u8At r 0))).map (fun r => .plant (u8At r 0))
  | 3 => [.store i.object]
  | 8 => match pumpRec img i.object with
    | some r => (branchUnit img (u8At r 0x2E) (u16At r 2)).toList
    | none => []
  | 9 => match valveRec img i.object with
    | some r => (branchUnit img (u8At r 0x0E) (u16At r 2)).toList
    | none => []
  | 10 => [.zone i.object]
  | _ => []

/-- The item differs from what was last commanded by more than its deadband (R233). -/
def State.itemMoves (s : State) (res : LayerResult) (i : PlanItem) : Bool :=
  let last := s.lastCommanded i.kind i.object
  let img := s.model.run
  match i.kind with
  | 0 => match recByKey img 8 i.object with
    | some r => beyond last i.value (fMul (fc 5 1000) (fieldAt r 0x10))
    | none => false
  | 1 => match last with
    | some l => !fEq l i.value
    | none => true
  | 2 => beyond last i.value (fc 2 10)
  | 3 => match alGet res.storeCharge i.object with
    | some q => beyond last i.value (fMul (fc 1 100) q)
    | none => false
  | 8 => beyond last i.value (fc 5 1000)
  | 9 => beyond last i.value (fc 1 100)
  | 10 => beyond last i.value (fc 1000 1)
  | _ => false

def unitNet (img : List Byte) : RollUnit → Option Nat
  | .zone z => zoneNet img z
  | .plant p => (recByKey img 8 p).map (fun r => u8At r 2)
  | .store k => (recByKey img 9 k).map (fun r => u8At r 1)

/-- The permit bit that withholds an item in a unit's change, if one does (R234), under the configuration of the solve (R239). -/
def State.withheldBy (s : State) (c : OptCfg) (u : RollUnit) (i : PlanItem) : Option Nat :=
  let net := (unitNet s.model.run u).getD 0
  let stop (n : Nat) : Option Nat := if s.permitUnder c n then none else some n
  match u with
  | .zone z => (stop (16 + z)).or (stop (80 + net))
  | .plant p => (stop (80 + net)).or (if i.kind = 1 && fLe (fc 1 2) i.value then stop p else none)
  | .store _ => stop (80 + net)

/-- The units that some plan withholds. -/
def Optimiser.withheld (o : Optimiser) (u : RollUnit) : Bool := o.withheldDay.contains u || o.withheldPressure.contains u

/-- PLAN_WITHHELD: a zone or plant, the permit bit, withheld 1 or released 0. -/
def State.tellWithheld (s : State) (u : RollUnit) (bit on_ : Nat) : State :=
  match u with
  | .zone z => s.raise 0x44 [u16 z, u16 bit, u16 on_]
  | .plant p => s.raise 0x44 [u16 p, u16 bit, u16 on_]
  | .store _ => s

/-- The bit of a unit's own permit. -/
def ownPermit : RollUnit → Nat
  | .zone z => 16 + z
  | .plant p => p
  | .store _ => 0

/-- One item to one unit: in the change of that unit, or withheld. -/
structure Offer where
  unit : RollUnit
  item : PlanItem
  by_ : Option Nat
  deriving DecidableEq, Repr, Inhabited

/-- The offers of a plan's first step. -/
def State.offers (s : State) (c : OptCfg) (res : LayerResult) : List Offer :=
  let first := res.items.filter (fun i => i.step == 0)
  (first.filter (s.itemMoves res)).flatMap (fun i => (s.itemUnits first i).map (fun u => ⟨u, i, s.withheldBy c u i⟩))

def addToChange (plan boundary : Nat) (cs : List Change) (o : Offer) : List Change :=
  let it := (o.item.kind, o.item.object, o.item.value)
  if cs.any (fun c => c.unit == o.unit) then
    cs.map (fun c => if c.unit = o.unit then { c with items := c.items ++ [it] } else c)
  else cs ++ [⟨o.unit, plan, [it], boundary⟩]

/-- The items with WITHHELD and HANDED set: a supply temperature that goes to several plants can be both. -/
def markItems (os : List Offer) (its : List PlanItem) : List PlanItem :=
  its.map (fun i =>
    let mine := os.filter (fun o => o.item.kind == i.kind && o.item.object == i.object)
    if i.step ≠ 0 then i
    else { i with flags := i.flags % 4 + 4 * b01 (mine.any (fun o => o.by_.isSome)) + 8 * b01 (mine.any (fun o => o.by_.isNone)) })

/-- Items withheld (R243). -/
def withheldCount (its : List PlanItem) : Nat := (its.filter (fun i => i.flags / 4 % 2 == 1)).length

/-- The withheld state of every zone and plant after a layer's plan: a unit is withheld while the latest plan of some layer withholds
an item from it. Each change of it is told once, with the first permit that stops an item (R234). -/
def State.noteOffers (s : State) (y : Layer) (os : List Offer) : State :=
  let held := (os.filter (fun o => o.by_.isSome)).foldl (fun a o => if a.contains o.unit then a else a ++ [o.unit]) []
  let was := s.opt
  let now : Optimiser := match y with
    | .day => { was with withheldDay := held }
    | .pressure => { was with withheldPressure := held }
  let gone := (was.withheldDay ++ was.withheldPressure).eraseDups.filter (fun u => !now.withheld u)
  let new := held.filter (fun u => !was.withheld u)
  let bit (u : RollUnit) : Nat := ((os.filter (fun o => o.unit == u)).findSome? (·.by_)).getD (ownPermit u)
  let s : State := { s with opt := now }
  new.foldl (fun s u => s.tellWithheld u (bit u) 1) (gone.foldl (fun s u => s.tellWithheld u (ownPermit u) 0) s)

/-- Changes to the sequencer in publication order; a day plan's go before those that the pressure layer has handed over in the same tick
(R235). -/
def State.handOver (s : State) (y : Layer) (cs : List Change) : State :=
  let q := s.roll.incoming
  let mine := if s.opt.lastHand.1 = s.tickNow then min s.opt.lastHand.2 q.length else 0
  match y with
  | .day => { s with roll := { s.roll with incoming := q.take (q.length - mine) ++ cs ++ q.drop (q.length - mine) } }
  | .pressure =>
    { s with roll := { s.roll with incoming := q ++ cs }, opt := { s.opt with lastHand := (s.tickNow, mine + cs.length) } }

/-- Publish a plan: it takes force, is mirrored, and its first step is handed over. -/
def State.publishPlan (s : State) (y : Layer) (r : LayerRun) (res : LayerResult) (status : Nat) : State :=
  let hold := s.opt.holdHandover && y = .day
  let os := if hold then [] else s.offers r.cfg res
  let cs := (os.filter (fun o => o.by_.isNone)).foldl (addToChange r.number r.boundary) []
  let items := markItems os res.items
  let p : Plan := ⟨r.number, status, res.relax, r.boundary, r.solve, r.flags, items, res.iters, (s.now - r.startedAt) / usNs,
    res.objective, res.cost, res.carbon, res.unmet, cs.length, withheldCount items, res.primal, res.duals⟩
  let x := s.layer y
  let s : State := (s.setLayer y { x with
    run := none, plan := some p, fails := 0, lastRelax := res.relax }).unpin (pinLayer y)
  let s : State := if y = .pressure then { s with opt := { s.opt with holdHandover := false } } else s
  let s : State := if x.lastRelax = res.relax then s
    else s.raise 0x42 [u16 (layerCode y), u32 r.number, u16 x.lastRelax, u16 res.relax]
  let s : State := (s.noteOffers y os).handOver y cs
  let s : State := s.mirror 0x06 (planBody y p 0 ++ ((sortItems p.items).map planItemFlds).flatten)
  s.postPlan r.cfg y p 0

/-- The numbers of a layer solve: those the command names, or else what the programs of R222–R231 give after at most `left`
iterations. -/
def State.layerNumbers (s : State) (y : Layer) (r : LayerRun) (left : Nat) (given : Option LayerResult) : LayerResult :=
  match given with
  | some x => x
  | none => layerOutcome s.model.run y r left

/-- The best iterate so far: INEXACT where its primal residual is at most 10 × eps_p, else FAILED (R230). The day layer's first pass has
none to publish (R225). -/
def State.bestIterate (s : State) (y : Layer) (r : LayerRun) (res : LayerResult) (p : Plan) : State :=
  if res.ended ≠ .uncommitted && fLe res.primal (fMul (fc 10 1) res.epsP) then s.publishPlan y r res 1
  else (s.raise 0x41 [u16 (layerCode y), u32 r.number, u16 res.iters, f32 res.primal]).endUnpublished y r 4 p

/-- More iterations than every pass and stage together can take. -/
def noBudget : Nat := 100000

/-- LAYER_SOLVE_END (R231, R232, R236). -/
def State.layerEnd (s : State) (y : Layer) (given : Option LayerResult) : State :=
  match (s.layer y).run with
  | none => s
  | some r =>
    let res := s.layerNumbers y r noBudget given
    let p := { barePlan r.number 0 r.boundary r.solve r.flags 0 with
      iters := res.iters, primal := res.primal, relax := res.relax, objective := res.objective }
    if s.opt.en ≠ .enabled then s.endUnpublished y r 6 p
    else match res.ended with
      | .converged => s.publishPlan y r res (if res.relax = 0 then 0 else 2)
      | .infeasible c =>
        (s.raise 0x40 [u16 (layerCode y), u32 r.number, u16 c]).endUnpublished y r 3 p
      | .capped | .uncommitted => s.bestIterate y r res p

def execLayerSolveEnd (layer : Layer) (given : Option LayerResult) (s : State) : Host.Outcome State Fault Refusal :=
  .next (s.layerEnd layer given)

/-- OPT_BUDGET_EXPIRY (R230): `iters` are the iterations done. -/
def State.budgetExpiry (s : State) (y : Layer) (iters : Nat) (given : Option LayerResult) : State :=
  match (s.layer y).run with
  | none => s
  | some r =>
    let res := s.layerNumbers y r iters given
    let p := { barePlan r.number 0 r.boundary r.solve r.flags 0 with
      iters := res.iters, primal := res.primal, relax := res.relax, objective := res.objective }
    if s.now < r.startedAt + s.layerBoundUs y * usNs then s
    else if s.opt.en ≠ .enabled then s.endUnpublished y r 6 p
    else s.bestIterate y r res p

def execOptBudgetExpiry (layer : Layer) (iters : Nat) (given : Option LayerResult) (s : State) :
    Host.Outcome State Fault Refusal :=
  .next (s.budgetExpiry layer iters given)

/-! ### Orders (R239–R241) -/

/-- Every field of OPT_CFG is in range and names something defined. -/
def State.optCfgOk (s : State) (c : OptCfg) : Bool :=
  fIn 0 (fc 10 1) c.wCost && fIn 0 (fc 10 1) c.wCarbon && fIn (fc 1 (10 ^ 9)) (fc 1 1000) c.wComfort && fIn 0 (fc 100 1) c.wMove
    && fIn (fc 1 1) (fc (10 ^ 9) 1) c.wRelax && fIn 0 (fc 1 1) c.terminal && fIn 0 (fc 20 1) c.supplyDrop
    && fIn 0 (fc (10 ^ 9) 1) c.importMax && fIn 0 (fc (10 ^ 9) 1) c.exportMax && fIn 0 (fc (10 ^ 9) 1) c.elecBase
    && fIn (fc 60 1) (fc 86400 1) c.biasTau && fIn (fc 1 (10 ^ 6)) (fc 1 100) c.epsRel
    && c.importTable < 32 && c.exportTable < 32 && c.elecProfile < 256 && c.permitBase ≤ 8181
    && ((s.tariff c.importTable).map tabKind == some 1) && ((s.tariff c.exportTable).map tabKind == some 2)
    && (alGet s.opt.profiles c.elecProfile).isSome && (c.importCircuit == 0xFF || s.circConfigured c.importCircuit)

/-- OPT_CFG: applies to each layer's next solve. -/
def State.optCfg (s : State) (ref : OrderRef) (c : OptCfg) : State :=
  if s.optCfgOk c then ({ s with opt := { s.opt with cfg := c } }).answer ref 0x0601 (orderDone stDone)
  else s.answer ref 0x0601 (orderDone stRange)

def execOptCfg (ref : OrderRef) (c : OptCfg) (s : State) : Host.Outcome State Fault Refusal :=
  .next (s.runOrder ref 0x0601 (fun s => s.optCfg ref c))

/-- OPT_CTL (R236, R240). -/
def State.optCtl (s : State) (ref : OrderRef) (enable : Nat) : State :=
  let say (s : State) (st : Nat) : State := s.answer ref 0x0602 (stateReport st [u8 (enCode s.opt.en)])
  if 1 < enable then say s stRange
  else
    let busy := s.opt.day.run.isSome || s.opt.pressure.run.isSome
    let a := enRequest s.opt.en (enable == 1) busy
    let was := s.opt.en
    let s' : State := { s with opt := { s.opt with en := a.1, retired := if was = .enabled then 0 else s.opt.retired } }
    match a.2 with
    | .quiescingRefused => say s stQuiescing
    | .accepted => say s' stDone
    | .quiescedNow => say (s'.raise 0x47 [u16 0]) stDone

def execOptCtl (ref : OrderRef) (enable : Nat) (s : State) : Host.Outcome State Fault Refusal :=
  .next (s.runOrder ref 0x0602 (fun s => s.optCtl ref enable))

/-- PLAN_QUERY (R241). One query at a time: it runs until the instant at which it was taken is over (DESIGN CHOICE: the spec gives the
copy no length). -/
def State.planQuery (s : State) (ref : OrderRef) (layer addr maxItems : Nat) : State :=
  let y : Layer := if layer = 0 then .day else .pressure
  let say (s : State) (st n : Nat) : State := s.answer ref 0x0605 (ownReport st [u8 st, u8 0, u8 0, u8 0, u32 n])
  match (s.layer y).plan with
  | none => say s 1 0
  | some p =>
    if 1 < layer then say s 1 0
    else if s.opt.queryAt = some s.now then say s 2 0
    else
      let s : State := { s with opt := { s.opt with queryAt := some s.now } }
      let is := (sortItems p.items).take maxItems
      say (s.toHost (.hostData addr (planBody y p 0 ++ (is.map planItemFlds).flatten))) 0 is.length

def execPlanQuery (ref : OrderRef) (layer addr maxItems : Nat) (s : State) : Host.Outcome State Fault Refusal :=
  .next (s.runOrder ref 0x0605 (fun s => s.planQuery ref layer addr maxItems))

/-! ### Model swap and mirror (R142, R238) -/

/-- A plan less the items of elements that the new model lacks. -/
def keepItem (img : List Byte) (i : PlanItem) : Bool :=
  let has (t : Nat) : Bool := (recByKey img t i.object).isSome
  match i.kind with
  | 0 | 1 => has 8
  | 2 => has 1
  | 3 | 4 => has 9
  | 7 | 10 => has 10
  | 8 => (pumpRec img i.object).isSome
  | 9 => (valveRec img i.object).isSome
  | _ => true

/-- Layer solves in flight end ABANDONED; both layers solve at once, cold. -/
def State.optSwap (s : State) (img : List Byte) : State :=
  let one (s : State) (y : Layer) : State :=
    let s : State := match (s.layer y).run with
      | some r => s.endUnpublished y r 7 (barePlan r.number 7 r.boundary r.solve r.flags 0)
      | none => s
    let x := s.layer y
    let b := s.tai / secNs / layerPeriod y * layerPeriod y
    s.setLayer y { x with
      coldNext := true, due := if s.optRuns then some ⟨b, none⟩ else x.due,
      plan := x.plan.map (fun p => { p with items := p.items.filter (keepItem img) }) }
  one (one s .day) .pressure

end Sys2Proof.Machine
end

