-- ==== Sys2Proof/Machine/TallyIns.lean ====
section
/-! DEFINITION. The instructions of the Logic Tally (spec/11_logic_tally.md, R359–R363, R366–R368, R371, R375–R377). Each command is
one instruction executed by the task that runs: it has its effect where the word at that task's place in the running bank is
the instruction with these operands. -/

namespace Sys2Proof.Machine

open Sys2Proof

/-! ### One instruction -/

/-- An instruction word (R362). -/
def insWord (op area addr : Nat) : Word := word (op * 2 ^ 24 + area * 2 ^ 20 + addr)

/-- Where an instruction is the next one to execute: the task and its state. -/
def State.tallyAt (s : State) (op area addr : Nat) : Option (Nat × TaskSt) :=
  match s.tally.prog, s.curTask with
  | some p, some k =>
    if s.tallyRuns && area < 16 && addr < 2 ^ 20 && p.code[(s.task k).pc]? == some (insWord op area addr) then some (k, s.task k)
    else none
  | _, _ => none

/-- Execute an instruction: the task's place moves past its words, then its effect. -/
def State.tStep (s : State) (op area addr : Nat) (f : State → Nat → TaskSt → State) : State :=
  match s.tallyAt op area addr with
  | some (k, t) =>
    let t : TaskSt := { t with pc := t.pc + (if takesImm op area then 2 else 1) }
    f (s.setTask k t) k t
  | none => s

/-- T0. -/
def TaskSt.top (t : TaskSt) : Bool := t.stack.headD false

def State.tPush (s : State) (k : Nat) (t : TaskSt) (b : Bool) : State := s.setTask k { t with stack := b :: t.stack }
def State.tTop (s : State) (k : Nat) (t : TaskSt) (b : Bool) : State := s.setTask k { t with stack := b :: t.stack.drop 1 }
def State.tPop (s : State) (k : Nat) (t : TaskSt) : State := s.setTask k { t with stack := t.stack.drop 1 }
def State.tCombine (s : State) (k : Nat) (t : TaskSt) (f : Bool → Bool → Bool) : State :=
  s.setTask k { t with stack := f ((t.stack.drop 1).headD false) t.top :: t.stack.drop 2 }
def State.tW (s : State) (k : Nat) (t : TaskSt) (w : Word) : State := s.setTask k { t with w := w }

/-- A 32-bit operand: the immediate word of area 11, or a load. -/
def State.tOperand (s : State) (t : TaskSt) (area addr : Nat) : Word :=
  if area = 11 then ((s.tally.prog.map (·.code)).getD []).getD (t.pc - 1) 0 else word (s.tLoad t area addr 4)

def State.tJump (s : State) (k : Nat) (t : TaskSt) (addr : Nat) (go : Bool) : State :=
  s.setTask k (if go then { t with pc := addr } else t)

/-! ### Arithmetic (R363) -/

/-- An arithmetic fault at the instruction just executed: `size` words before the task's place. -/
def State.tFault (s : State) (k : Nat) (t : TaskSt) (size : Nat) : State :=
  (s.setTask k { t with arith := t.arith + 1 }).raiseTimed2 0x86 k [u16 k] true 1 (t.pc - size)

/-- DIV: toward zero; the one quotient that a word does not hold is free. -/
def divWord (x y : Word) : Word := if x = 0x80000000#32 && y = 0xFFFFFFFF#32 then Config.divOverflow else BitVec.sdiv x y

def State.tDivide (s : State) (k : Nat) (t : TaskSt) (area addr : Nat) (f : Word → Word → Word) : State :=
  let d := s.tOperand t area addr
  if d = 0 then s.tFault k { t with w := 0 } (if area = 11 then 2 else 1) else s.tW k t (f t.w d)

/-- A NaN result is a quiet NaN whose sign and payload are free. -/
def quietNaN (op : Nat) (x y : F32) : F32 := (Config.nanBits op x y &&& 0x803FFFFF#32) ||| 0x7FC00000#32

def State.tFloat (s : State) (k : Nat) (t : TaskSt) (op : Nat) (f : F32 → F32 → F32) (y : F32) : State :=
  let r := f t.w y
  s.tW k t (if fIsNaN r then quietNaN op t.w y else r)

/-- FMIN and FMAX: IEEE 754 leaves open which of a number and a NaN, and which of two zeros, they give. -/
def fPick (op : Nat) (lt : F32 → F32 → Bool) (x y : F32) : F32 :=
  let pick := Config.minMaxPick op x y
  if fIsNaN x && fIsNaN y then x
  else if fIsNaN x then (if pick then x else y)
  else if fIsNaN y then (if pick then y else x)
  else if fIsZero x && fIsZero y then (if pick then y else x)
  else if lt y x then y else x

def State.tToInt (s : State) (k : Nat) (t : TaskSt) : State :=
  if fIsNaN t.w then s.tFault k { t with w := 0 } 1 else s.tW k t (satInt32 (fToInt t.w))

/-! ### Quality and time (R377) -/

def staleAtLeast (q : Quality) (aged : Bool) : Quality := if aged then qMax q .stale else q

/-- A transmit object has neither a quality nor an acquisition time: free values. -/
def State.tLoadQuality (s : State) (k : Nat) (t : TaskSt) (area addr : Nat) : State :=
  let say (m : ModCopy) : State := s.tW k t (word (qCode (staleAtLeast m.quality m.aged)))
  if area = 0 then say (t.copyOf .dio)
  else if area = 7 then say (t.copyOf (.station (addr / 64)))
  else if area = 10 then
    s.tW k t (word (qCode (s.pvQuality (addr / 16))))
  else if slotTx addr then
    let r := s.takeFree 1
    r.2.tW k t r.1
  else say (t.copyOf (.rx (addr / 0x4000) (slotOf addr)))

def State.tLoadStamp (s : State) (k : Nat) (t : TaskSt) (area addr : Nat) : State :=
  let say (m : ModCopy) : State := s.tW k t (word m.at_)
  if area = 0 then say (t.copyOf .dio)
  else if area = 7 then say (t.copyOf (.station (addr / 64)))
  else if area = 10 then s.tW k t (s.pvEntry (addr / 16)).stamp
  else if slotTx addr then
    let r := s.takeFree 2
    r.2.tW k t r.1
  else say (t.copyOf (.rx (addr / 0x4000) (slotOf addr)))

/-! ### Timers, counters and edge detectors (R365–R368) -/

/-- The time base of a task's evaluations: release instants of a cyclic task, start stamps of the others (R366). -/
def evalBase (k : Nat) (t : TaskSt) : Nat := if k < 8 then t.relAt else t.startTai

/-- ELAPSED moved on by dt in whole ms, the rest kept (R366). -/
def Timer.advance (x : Timer) (base : Nat) : Timer :=
  let d := x.frac + (match x.last with
    | some b => base - b
    | none => 0)
  { x with elapsed := min (x.elapsed + d / msNs) 0xFFFFFFFF, frac := d % msNs }

def timerOn (x : Timer) (inp : Bool) (base : Nat) : Timer :=
  if !inp then { x with q := false, running := false, elapsed := 0, frac := 0 }
  else if !x.inPrev then
    if x.preset = 0 then { x with elapsed := 0, frac := 0, q := true, running := false }
    else { x with elapsed := 0, frac := 0, running := true }
  else if x.running then
    let y := x.advance base
    if y.preset ≤ y.elapsed then { y with q := true, running := false } else y
  else x

def timerOff (x : Timer) (inp : Bool) (base : Nat) : Timer :=
  if inp then { x with q := true, running := false, elapsed := 0, frac := 0 }
  else if x.inPrev then { x with running := true, frac := 0 }
  else if x.running then
    let y := x.advance base
    if y.preset ≤ y.elapsed then { y with q := false, running := false } else y
  else x

def timerPulse (x : Timer) (inp : Bool) (base : Nat) : Timer :=
  if inp && !x.inPrev && !x.q then { x with q := true, running := true, elapsed := 0, frac := 0 }
  else if x.running then
    let y := x.advance base
    if y.preset ≤ y.elapsed then { y with q := false, running := false } else y
  else x

def State.tTimerEval (s : State) (k : Nat) (t : TaskSt) (n : Nat) (f : Timer → Bool → Nat → Timer) : State :=
  let base := evalBase k t
  let x : Timer := { f (s.timerOf n) t.top base with inPrev := t.top, last := some base }
  let s : State := { s with tally := { s.tally with timers := alPut s.tally.timers n x } }
  s.tTop k { t with touched := t.touched ++ [(4, n)] } x.q

def State.tTimerReset (s : State) (k : Nat) (t : TaskSt) (n : Nat) : State :=
  let x : Timer := { s.timerOf n with elapsed := 0, q := false, running := false, frac := 0 }
  ({ s with tally := { s.tally with timers := alPut s.tally.timers n x } }).setTask k { t with touched := t.touched ++ [(4, n)] }

/-- The kind of an instance of the running program. -/
def State.instKind (s : State) (area n : Nat) : Nat :=
  ((((s.tally.prog.map (·.insts)).getD []).find? (fun d => d.area == area && d.inst == n)).map (·.kind)).getD 0

def counterQ (kind : Nat) (c : Counter) : Counter :=
  { c with q := if kind = 1 then c.count.sle 0 else c.preset.sle c.count }

def State.putCounter (s : State) (k : Nat) (t : TaskSt) (n : Nat) (c : Counter) : State :=
  ({ s with tally := { s.tally with counters := alPut s.tally.counters n c } }).setTask k { t with touched := t.touched ++ [(5, n)] }

/-- CTU and CTD (R368): each judges the rise of T0 against its own previous input. -/
def State.tCount (s : State) (k : Nat) (t : TaskSt) (n : Nat) (step : Int) : State :=
  let c := s.counterOf n
  let up := decide (0 < step)
  let rise := t.top && !(if up then c.upPrev else c.downPrev)
  let c := counterQ (s.instKind 5 n) { c with
    count := if rise then satInt32 (c.count.toInt + step) else c.count, inPrev := t.top,
    upPrev := if up then t.top else c.upPrev, downPrev := if up then c.downPrev else t.top }
  s.putCounter k { t with stack := c.q :: t.stack.drop 1 } n c

def State.tCountReset (s : State) (k : Nat) (t : TaskSt) (n : Nat) : State :=
  let kind := s.instKind 5 n
  let c := s.counterOf n
  s.putCounter k t n (counterQ kind { c with count := if kind = 1 then c.preset else 0 })

def State.tCountAdd (s : State) (k : Nat) (t : TaskSt) (n : Nat) : State :=
  let c := s.counterOf n
  s.putCounter k t n (counterQ (s.instKind 5 n) { c with count := satInt32 (c.count.toInt + t.w.toInt) })

def State.tEdgeEval (s : State) (k : Nat) (t : TaskSt) (n : Nat) (rising : Bool) : State :=
  let e := s.edgeOf n
  let prev := if e.known then e.prev else t.top
  let out := if rising then t.top && !prev else prev && !t.top
  let s : State := { s with tally := { s.tally with edges := alPut s.tally.edges n ⟨t.top, out, true⟩ } }
  s.tTop k { t with touched := t.touched ++ [(6, n)] } out

/-! ### Commit (R375, R393) -/

/-- Ascending, each once. -/
def sorted (l : List Nat) : List Nat := (l.foldl (fun m a => alPut m a ()) []).map Prod.fst

/-- Runs of consecutive numbers: start and length. -/
def runsOf : List Nat → List (Nat × Nat)
  | [] => []
  | a :: l => match runsOf l with
    | (b, n) :: rs => if a + 1 = b then (a, n + 1) :: rs else (a, 1) :: (b, n) :: rs
    | [] => [(a, 1)]

/-- One TALLY record per changed range. -/
def State.mirrorTally (s : State) (area k start : Nat) (data : List Byte) : State :=
  s.mirror 0x05 ([u8 area, u8 k, u16 data.length, u32 start] ++ data.map (fun b => u8 b.toNat))

def State.mirrorRuns (s : State) (area k : Nat) (addrs : List Nat) (read : Nat → Byte) : State :=
  (runsOf (sorted addrs)).foldl (fun s r => s.mirrorTally area k r.1 ((List.range r.2).map (fun i => read (r.1 + i)))) s

/-- The addresses a cycle wrote in an area of its change set. -/
def TaskSt.wrote (t : TaskSt) (area : Nat) : List Nat := sorted ((t.writes.filter (fun w => w.1 == area)).map (fun w => w.2.1))

/-- The local output block. -/
def State.commitDio (s : State) (k : Nat) (t : TaskSt) : State :=
  if (t.wrote 1).isEmpty then s
  else
    let v := ordNat false ((List.range 4).map (fun a => overlay t.writes 1 a (s.tBase 1 a)))
    let s : State := ({ s with tally := { s.tally with outImg := word v } }).driveDio
    s.mirrorRuns 1 k (t.wrote 1) (fun a => (leBytes 4 v).getD a 0)

/-- Each station output image, bytes 0–47. -/
def State.commitStns (s : State) (k : Nat) (t : TaskSt) : State :=
  (sorted ((t.wrote 8).map (· / 64))).foldl (fun s id =>
    let new := (List.range 48).map (fun i => overlay t.writes 8 (id * 64 + i) (s.tBase 8 (id * 64 + i)))
    let s : State := s.stnOutputs id new false
    s.mirrorRuns 8 k ((t.wrote 8).filter (fun a => a / 64 == id)) (fun a => new.getD (a % 64) 0)) s

/-- Each transmit object, handed over once even when nothing has changed. -/
def State.commitTx (s : State) (k : Nat) (t : TaskSt) : State :=
  (sorted ((t.wrote 9).map (· / 64))).foldl (fun s u =>
    let new := (List.range 64).map (fun i => overlay t.writes 9 (u * 64 + i) (s.tBase 9 (u * 64 + i)))
    let s : State := s.mirrorTally 9 k (u * 64) new
    s.busCommit (u * 64 / 0x4000) (slotOf (u * 64) - 128) new) s

/-- Markers and data words written by the cycle are published together (R375, R376). -/
def State.publish (s : State) (k : Nat) (t : TaskSt) : State :=
  let mk := t.pubBits.foldl (fun m n => Mem.setBit m n (Mem.bit s.tally.markers n)) s.tally.pubMarkers
  let wd := t.pubWords.foldl (fun m n => Mem.writes m (4 * n) (Mem.reads s.tally.words (4 * n) 4)) s.tally.pubWords
  let s : State := { s with tally := { s.tally with pubMarkers := mk, pubWords := wd } }
  let s : State := s.mirrorRuns 2 k (t.pubBits.map (· / 8)) (Mem.read mk)
  s.mirrorRuns 3 k (t.pubWords.flatMap (fun n => [4 * n, 4 * n + 1, 4 * n + 2, 4 * n + 3])) (Mem.read wd)

/-- The changed instances. -/
def State.mirrorInsts (s : State) (k : Nat) (t : TaskSt) : State :=
  t.touched.dedup.foldl (fun s i =>
    let size := if i.1 = 6 then 1 else 16
    s.mirrorTally i.1 k (i.2 * size) ((List.range size).map (fun j => s.tLive i.1 (i.2 * size + j)))) s

/-- A writer has completed a fresh cycle for each RETURNING context it writes to (R314). -/
def State.writerDone (s : State) (k startAt : Nat) : State :=
  { s with stn := { s.stn with ctxs := s.stn.ctxs.map (fun c =>
    if c.st = .returning && (s.tallyWriters c.cfg.station).contains k && c.retSince < startAt && !c.retDone.contains k then
      { c with retDone := c.retDone ++ [k] } else c) } }

/-- The started task of highest priority runs on. -/
def State.tResume (s : State) : State :=
  match s.topTask with
  | some k => s.setTask k { s.task k with runFrom := some s.now }
  | none => s

/-- The cycle is over: its counts, and the background task's next release (R369). -/
def State.tDone (s : State) (k : Nat) (t : TaskSt) : State :=
  let ns := t.spent + (s.now - t.runFrom.getD s.now)
  let again := k == 24 && s.tally.run == .running && s.tally.en == .enabled
  let t : TaskSt := { t with
    started := false, stack := [], writes := [], pubBits := [], pubWords := [], touched := [], copies := [], runFrom := none,
    cycles := t.cycles + 1, execLast := ns, execMax := max t.execMax ns,
    rel := if again then some (s.tai, s.now) else t.rel }
  (s.setTask k t).tResume

/-- END. -/
def State.tEndCycle (s : State) (k : Nat) (t : TaskSt) : State :=
  let s : State := ((s.commitDio k t).commitStns k t).commitTx k t
  let s : State := (s.publish k t).mirrorInsts k t
  let s : State := if t.pubBits.isEmpty then s else s.checkPermits
  let s : State := (s.writerDone k t.startAt).tDone k t
  let s : State := if s.tally.en = .quiescing then
    { s with tally := { s.tally with quiesced := s.tally.quiesced + 1 } } else s
  s.tSettle

/-! ### The instructions -/

/-- PSH: Push the operand bit. -/
def execTPsh (area addr : Nat) (s : State) : Host.Outcome State Fault Refusal :=
  .next (s.tStep 0x01 area addr (fun s k t => s.tPush k t (s.tBit t area addr)))

/-- PSHN: Push NOT the operand bit. -/
def execTPshn (area addr : Nat) (s : State) : Host.Outcome State Fault Refusal :=
  .next (s.tStep 0x02 area addr (fun s k t => s.tPush k t (!s.tBit t area addr)))

/-- ANDB: T0 AND operand. -/
def execTAndb (area addr : Nat) (s : State) : Host.Outcome State Fault Refusal :=
  .next (s.tStep 0x03 area addr (fun s k t => s.tTop k t (t.top && s.tBit t area addr)))

/-- ANDNB: T0 AND NOT operand. -/
def execTAndnb (area addr : Nat) (s : State) : Host.Outcome State Fault Refusal :=
  .next (s.tStep 0x04 area addr (fun s k t => s.tTop k t (t.top && !s.tBit t area addr)))

/-- ORB: T0 OR operand. -/
def execTOrb (area addr : Nat) (s : State) : Host.Outcome State Fault Refusal :=
  .next (s.tStep 0x05 area addr (fun s k t => s.tTop k t (t.top || s.tBit t area addr)))

/-- ORNB: T0 OR NOT operand. -/
def execTOrnb (area addr : Nat) (s : State) : Host.Outcome State Fault Refusal :=
  .next (s.tStep 0x06 area addr (fun s k t => s.tTop k t (t.top || !s.tBit t area addr)))

/-- XORB: T0 XOR operand. -/
def execTXorb (area addr : Nat) (s : State) : Host.Outcome State Fault Refusal :=
  .next (s.tStep 0x07 area addr (fun s k t => s.tTop k t (t.top != s.tBit t area addr)))

/-- PSH0: Push 0. -/
def execTPsh0 (s : State) : Host.Outcome State Fault Refusal :=
  .next (s.tStep 0x08 0 0 (fun s k t => s.tPush k t false))

/-- PSH1: Push 1. -/
def execTPsh1 (s : State) : Host.Outcome State Fault Refusal :=
  .next (s.tStep 0x09 0 0 (fun s k t => s.tPush k t true))

/-- AND: T1 AND T0. -/
def execTAnd (s : State) : Host.Outcome State Fault Refusal :=
  .next (s.tStep 0x0A 0 0 (fun s k t => s.tCombine k t (fun x y => x && y)))

/-- OR: T1 OR T0. -/
def execTOr (s : State) : Host.Outcome State Fault Refusal :=
  .next (s.tStep 0x0B 0 0 (fun s k t => s.tCombine k t (fun x y => x || y)))

/-- XOR: T1 XOR T0. -/
def execTXor (s : State) : Host.Outcome State Fault Refusal :=
  .next (s.tStep 0x0C 0 0 (fun s k t => s.tCombine k t (fun x y => x != y)))

/-- NOT: NOT T0. -/
def execTNot (s : State) : Host.Outcome State Fault Refusal :=
  .next (s.tStep 0x0D 0 0 (fun s k t => s.tTop k t (!t.top)))

/-- DUP: Push a copy of T0. -/
def execTDup (s : State) : Host.Outcome State Fault Refusal :=
  .next (s.tStep 0x0E 0 0 (fun s k t => s.tPush k t t.top))

/-- DROP: Remove T0. -/
def execTDrop (s : State) : Host.Outcome State Fault Refusal :=
  .next (s.tStep 0x0F 0 0 (fun s k t => s.tPop k t))

/-- OUTB: Operand = T0. -/
def execTOutb (area addr : Nat) (s : State) : Host.Outcome State Fault Refusal :=
  .next (s.tStep 0x10 area addr (fun s k t => s.tStoreBit k area addr t.top))

/-- SETB: If T0, operand = 1. -/
def execTSetb (area addr : Nat) (s : State) : Host.Outcome State Fault Refusal :=
  .next (s.tStep 0x11 area addr (fun s k t => if t.top then s.tStoreBit k area addr true else s))

/-- CLRB: If T0, operand = 0. -/
def execTClrb (area addr : Nat) (s : State) : Host.Outcome State Fault Refusal :=
  .next (s.tStep 0x12 area addr (fun s k t => if t.top then s.tStoreBit k area addr false else s))

/-- EDGR: Rising edge of T0 (R368). -/
def execTEdgr (area addr : Nat) (s : State) : Host.Outcome State Fault Refusal :=
  .next (s.tStep 0x18 area addr (fun s k t => s.tEdgeEval k t addr true))

/-- EDGF: Falling edge of T0 (R368). -/
def execTEdgf (area addr : Nat) (s : State) : Host.Outcome State Fault Refusal :=
  .next (s.tStep 0x19 area addr (fun s k t => s.tEdgeEval k t addr false))

/-- TON: On-delay (R367). -/
def execTTon (area addr : Nat) (s : State) : Host.Outcome State Fault Refusal :=
  .next (s.tStep 0x20 area addr (fun s k t => s.tTimerEval k t addr timerOn))

/-- TOF: Off-delay (R367). -/
def execTTof (area addr : Nat) (s : State) : Host.Outcome State Fault Refusal :=
  .next (s.tStep 0x21 area addr (fun s k t => s.tTimerEval k t addr timerOff))

/-- TP: Pulse (R367). -/
def execTTp (area addr : Nat) (s : State) : Host.Outcome State Fault Refusal :=
  .next (s.tStep 0x22 area addr (fun s k t => s.tTimerEval k t addr timerPulse))

/-- TRST: If T0: ELAPSED = 0, Q = 0, RUNNING = 0. -/
def execTTrst (area addr : Nat) (s : State) : Host.Outcome State Fault Refusal :=
  .next (s.tStep 0x23 area addr (fun s k t => if t.top then s.tTimerReset k t addr else s))

/-- CTU: Count up on a rising T0; T0 = Q (R368). -/
def execTCtu (area addr : Nat) (s : State) : Host.Outcome State Fault Refusal :=
  .next (s.tStep 0x28 area addr (fun s k t => s.tCount k t addr 1))

/-- CTD: Count down on a rising T0; T0 = Q (R368). -/
def execTCtd (area addr : Nat) (s : State) : Host.Outcome State Fault Refusal :=
  .next (s.tStep 0x29 area addr (fun s k t => s.tCount k t addr (-1)))

/-- CRST: If T0: COUNT = PRESET for kind DOWN, else 0. -/
def execTCrst (area addr : Nat) (s : State) : Host.Outcome State Fault Refusal :=
  .next (s.tStep 0x2A area addr (fun s k t => if t.top then s.tCountReset k t addr else s))

/-- CADD: If T0: COUNT = COUNT + W, saturating. -/
def execTCadd (area addr : Nat) (s : State) : Host.Outcome State Fault Refusal :=
  .next (s.tStep 0x2B area addr (fun s k t => if t.top then s.tCountAdd k t addr else s))

/-- LDW: W = 32-bit operand. -/
def execTLdw (area addr : Nat) (s : State) : Host.Outcome State Fault Refusal :=
  .next (s.tStep 0x30 area addr (fun s k t => s.tW k t (s.tOperand t area addr)))

/-- LDBU: W = byte, zero-extended. -/
def execTLdbu (area addr : Nat) (s : State) : Host.Outcome State Fault Refusal :=
  .next (s.tStep 0x31 area addr (fun s k t => s.tW k t (word (s.tLoad t area addr 1))))

/-- LDHS: W = 16-bit operand, sign-extended. -/
def execTLdhs (area addr : Nat) (s : State) : Host.Outcome State Fault Refusal :=
  .next (s.tStep 0x32 area addr (fun s k t => s.tW k t ((BitVec.ofNat 16 (s.tLoad t area addr 2)).signExtend 32)))

/-- LDHU: W = 16-bit operand, zero-extended. -/
def execTLdhu (area addr : Nat) (s : State) : Host.Outcome State Fault Refusal :=
  .next (s.tStep 0x33 area addr (fun s k t => s.tW k t (word (s.tLoad t area addr 2))))

/-- LDQ: W = quality code of the module or entry (R377). -/
def execTLdq (area addr : Nat) (s : State) : Host.Outcome State Fault Refusal :=
  .next (s.tStep 0x34 area addr (fun s k t => s.tLoadQuality k t area addr))

/-- LDS: W = stamp32 acquisition time. -/
def execTLds (area addr : Nat) (s : State) : Host.Outcome State Fault Refusal :=
  .next (s.tStep 0x35 area addr (fun s k t => s.tLoadStamp k t area addr))

/-- STW: Operand = W. -/
def execTStw (area addr : Nat) (s : State) : Host.Outcome State Fault Refusal :=
  .next (s.tStep 0x38 area addr (fun s k t => s.tStore k area addr 4 t.w.toNat))

/-- STB: Operand byte = W [7:0]. -/
def execTStb (area addr : Nat) (s : State) : Host.Outcome State Fault Refusal :=
  .next (s.tStep 0x39 area addr (fun s k t => s.tStore k area addr 1 (t.w.toNat % 2 ^ 8)))

/-- STH: Operand = W [15:0]. -/
def execTSth (area addr : Nat) (s : State) : Host.Outcome State Fault Refusal :=
  .next (s.tStep 0x3A area addr (fun s k t => s.tStore k area addr 2 (t.w.toNat % 2 ^ 16)))

/-- ADD: W + operand, wrapping (R363). -/
def execTAdd (area addr : Nat) (s : State) : Host.Outcome State Fault Refusal :=
  .next (s.tStep 0x40 area addr (fun s k t => s.tW k t (t.w + (s.tOperand t area addr))))

/-- SUB: W − operand, wrapping (R363). -/
def execTSub (area addr : Nat) (s : State) : Host.Outcome State Fault Refusal :=
  .next (s.tStep 0x41 area addr (fun s k t => s.tW k t (t.w - (s.tOperand t area addr))))

/-- MUL: W × operand, wrapping (R363). -/
def execTMul (area addr : Nat) (s : State) : Host.Outcome State Fault Refusal :=
  .next (s.tStep 0x42 area addr (fun s k t => s.tW k t (t.w * (s.tOperand t area addr))))

/-- DIV: W ÷ operand toward zero; 0 and a fault by zero (R363). -/
def execTDiv (area addr : Nat) (s : State) : Host.Outcome State Fault Refusal :=
  .next (s.tStep 0x43 area addr (fun s k t => s.tDivide k t area addr divWord))

/-- MOD: W modulo operand with the dividend's sign (R363). -/
def execTMod (area addr : Nat) (s : State) : Host.Outcome State Fault Refusal :=
  .next (s.tStep 0x44 area addr (fun s k t => s.tDivide k t area addr BitVec.srem))

/-- ANDW: Bitwise. -/
def execTAndw (area addr : Nat) (s : State) : Host.Outcome State Fault Refusal :=
  .next (s.tStep 0x45 area addr (fun s k t => s.tW k t (t.w &&& s.tOperand t area addr)))

/-- ORW: Bitwise. -/
def execTOrw (area addr : Nat) (s : State) : Host.Outcome State Fault Refusal :=
  .next (s.tStep 0x46 area addr (fun s k t => s.tW k t (t.w ||| s.tOperand t area addr)))

/-- XORW: Bitwise. -/
def execTXorw (area addr : Nat) (s : State) : Host.Outcome State Fault Refusal :=
  .next (s.tStep 0x47 area addr (fun s k t => s.tW k t (t.w ^^^ s.tOperand t area addr)))

/-- SHL: Shift W by operand [4:0]. -/
def execTShl (area addr : Nat) (s : State) : Host.Outcome State Fault Refusal :=
  .next (s.tStep 0x48 area addr (fun s k t => s.tW k t (t.w <<< ((s.tOperand t area addr).toNat % 32))))

/-- SHR: Shift W by operand [4:0]. -/
def execTShr (area addr : Nat) (s : State) : Host.Outcome State Fault Refusal :=
  .next (s.tStep 0x49 area addr (fun s k t => s.tW k t (t.w >>> ((s.tOperand t area addr).toNat % 32))))

/-- ASR: Shift W by operand [4:0]. -/
def execTAsr (area addr : Nat) (s : State) : Host.Outcome State Fault Refusal :=
  .next (s.tStep 0x4A area addr (fun s k t => s.tW k t (t.w.sshiftRight ((s.tOperand t area addr).toNat % 32))))

/-- FADD: float32, round to nearest even (R363). -/
def execTFadd (area addr : Nat) (s : State) : Host.Outcome State Fault Refusal :=
  .next (s.tStep 0x50 area addr (fun s k t => s.tFloat k t (0x50) fAdd (s.tOperand t area addr)))

/-- FSUB: float32, round to nearest even (R363). -/
def execTFsub (area addr : Nat) (s : State) : Host.Outcome State Fault Refusal :=
  .next (s.tStep 0x51 area addr (fun s k t => s.tFloat k t (0x51) fSub (s.tOperand t area addr)))

/-- FMUL: float32, round to nearest even (R363). -/
def execTFmul (area addr : Nat) (s : State) : Host.Outcome State Fault Refusal :=
  .next (s.tStep 0x52 area addr (fun s k t => s.tFloat k t (0x52) fMul (s.tOperand t area addr)))

/-- FDIV: float32, round to nearest even (R363). -/
def execTFdiv (area addr : Nat) (s : State) : Host.Outcome State Fault Refusal :=
  .next (s.tStep 0x53 area addr (fun s k t => s.tFloat k t (0x53) fDiv (s.tOperand t area addr)))

/-- FMIN: float32 minimum (R363). -/
def execTFmin (area addr : Nat) (s : State) : Host.Outcome State Fault Refusal :=
  .next (s.tStep 0x54 area addr (fun s k t => s.tFloat k t 0x54 (fPick 0x54 fLt) (s.tOperand t area addr)))

/-- FMAX: float32 maximum (R363). -/
def execTFmax (area addr : Nat) (s : State) : Host.Outcome State Fault Refusal :=
  .next (s.tStep 0x55 area addr (fun s k t => s.tFloat k t 0x55 (fPick 0x55 (fun x y => fLt y x)) (s.tOperand t area addr)))

/-- ITF: W = float32 of signed W. -/
def execTItf (s : State) : Host.Outcome State Fault Refusal :=
  .next (s.tStep 0x58 0 0 (fun s k t => s.tW k t (fOfInt t.w.toInt 1)))

/-- FTI: W = signed integer nearest W, saturating; 0 and a fault for a NaN (R363). -/
def execTFti (s : State) : Host.Outcome State Fault Refusal :=
  .next (s.tStep 0x59 0 0 (fun s k t => s.tToInt k t))

/-- FABS: W = |W|. -/
def execTFabs (s : State) : Host.Outcome State Fault Refusal :=
  .next (s.tStep 0x5A 0 0 (fun s k t => s.tW k t (fAbs t.w)))

/-- FNEG: W = −W. -/
def execTFneg (s : State) : Host.Outcome State Fault Refusal :=
  .next (s.tStep 0x5B 0 0 (fun s k t => s.tW k t (fNeg t.w)))

/-- CEQ: Push a signed comparison of W with the operand. -/
def execTCeq (area addr : Nat) (s : State) : Host.Outcome State Fault Refusal :=
  .next (s.tStep 0x60 area addr (fun s k t => s.tPush k t (t.w == s.tOperand t area addr)))

/-- CNE: Push a signed comparison of W with the operand. -/
def execTCne (area addr : Nat) (s : State) : Host.Outcome State Fault Refusal :=
  .next (s.tStep 0x61 area addr (fun s k t => s.tPush k t (t.w != s.tOperand t area addr)))

/-- CGT: Push a signed comparison of W with the operand. -/
def execTCgt (area addr : Nat) (s : State) : Host.Outcome State Fault Refusal :=
  .next (s.tStep 0x62 area addr (fun s k t => s.tPush k t ((s.tOperand t area addr).slt t.w)))

/-- CGE: Push a signed comparison of W with the operand. -/
def execTCge (area addr : Nat) (s : State) : Host.Outcome State Fault Refusal :=
  .next (s.tStep 0x63 area addr (fun s k t => s.tPush k t ((s.tOperand t area addr).sle t.w)))

/-- CLT: Push a signed comparison of W with the operand. -/
def execTClt (area addr : Nat) (s : State) : Host.Outcome State Fault Refusal :=
  .next (s.tStep 0x64 area addr (fun s k t => s.tPush k t (t.w.slt (s.tOperand t area addr))))

/-- CLE: Push a signed comparison of W with the operand. -/
def execTCle (area addr : Nat) (s : State) : Host.Outcome State Fault Refusal :=
  .next (s.tStep 0x65 area addr (fun s k t => s.tPush k t (t.w.sle (s.tOperand t area addr))))

/-- FCEQ: Push a float32 comparison of W with the operand (R363). -/
def execTFceq (area addr : Nat) (s : State) : Host.Outcome State Fault Refusal :=
  .next (s.tStep 0x68 area addr (fun s k t => s.tPush k t (fEq t.w (s.tOperand t area addr))))

/-- FCNE: Push a float32 comparison of W with the operand (R363). -/
def execTFcne (area addr : Nat) (s : State) : Host.Outcome State Fault Refusal :=
  .next (s.tStep 0x69 area addr (fun s k t => s.tPush k t (!fEq t.w (s.tOperand t area addr))))

/-- FCGT: Push a float32 comparison of W with the operand (R363). -/
def execTFcgt (area addr : Nat) (s : State) : Host.Outcome State Fault Refusal :=
  .next (s.tStep 0x6A area addr (fun s k t => s.tPush k t (fLt (s.tOperand t area addr) t.w)))

/-- FCGE: Push a float32 comparison of W with the operand (R363). -/
def execTFcge (area addr : Nat) (s : State) : Host.Outcome State Fault Refusal :=
  .next (s.tStep 0x6B area addr (fun s k t => s.tPush k t (fLe (s.tOperand t area addr) t.w)))

/-- FCLT: Push a float32 comparison of W with the operand (R363). -/
def execTFclt (area addr : Nat) (s : State) : Host.Outcome State Fault Refusal :=
  .next (s.tStep 0x6C area addr (fun s k t => s.tPush k t (fLt t.w (s.tOperand t area addr))))

/-- FCLE: Push a float32 comparison of W with the operand (R363). -/
def execTFcle (area addr : Nat) (s : State) : Host.Outcome State Fault Refusal :=
  .next (s.tStep 0x6D area addr (fun s k t => s.tPush k t (fLe t.w (s.tOperand t area addr))))

/-- JMP: Jump. -/
def execTJmp (addr : Nat) (s : State) : Host.Outcome State Fault Refusal :=
  .next (s.tStep 0x70 0 addr (fun s k t => s.tJump k t addr true))

/-- JT: Remove T0; jump if it was 1. -/
def execTJt (addr : Nat) (s : State) : Host.Outcome State Fault Refusal :=
  .next (s.tStep 0x71 0 addr (fun s k t => s.tJump k { t with stack := t.stack.drop 1 } addr t.top))

/-- JF: Remove T0; jump if it was 0. -/
def execTJf (addr : Nat) (s : State) : Host.Outcome State Fault Refusal :=
  .next (s.tStep 0x72 0 addr (fun s k t => s.tJump k { t with stack := t.stack.drop 1 } addr (!t.top)))

/-- TRIG: If T0, release event task 0–15 (R371). -/
def execTTrig (addr : Nat) (s : State) : Host.Outcome State Fault Refusal :=
  .next (s.tStep 0x74 0 addr (fun s _ t => if t.top then s.tTrigger (8 + addr) else s))

/-- END: End of cycle and commit (R375). -/
def execTEnd (s : State) : Host.Outcome State Fault Refusal :=
  .next (s.tStep 0x78 0 0 (fun s k t => s.tEndCycle k t))

/-- NOP: No effect. -/
def execTNop (s : State) : Host.Outcome State Fault Refusal :=
  .next (s.tStep 0x79 0 0 (fun s _ _ => s))

end Sys2Proof.Machine
end

