-- ==== Sys2Proof/Machine/Resync.lean ====
section
/-! DEFINITION. The full resync of a standby (spec/14_twin_operation.md, R507). -/

namespace Sys2Proof.Machine

open Sys2Proof

/-- The PLAN record of a layer (R506). -/
def State.mirrorPlan (s : State) (y : Layer) : State :=
  match (s.layer y).plan with
  | some p => s.mirror 0x06 (planBody y p 0 ++ ((sortItems p.items).map planItemFlds).flatten)
  | none => s

/-- The published Tally areas: the marker bits, and the data words in eight parts. -/
def State.mirrorAreas (s : State) : State :=
  let bytes (m : List Host.Cell) (a n : Nat) : List Byte := (List.range n).map (fun i => Mem.read m (a + i))
  let s : State := s.mirrorTally 2 0 0 (bytes s.tally.pubMarkers 0 8192)
  (List.range 8).foldl (fun s k => s.mirrorTally 3 0 (k * 32768) (bytes s.tally.pubWords (k * 32768) 32768)) s

/-- Every record between two RESYNC records. A standby that asks is served again once it has stopped asking, or still asks after
it has applied the end record (`acked`). -/
def State.startResync (s : State) (acked : Word) : State :=
  if s.twin.resyncSince.isSome && 2 ^ 31 ≤ (acked - s.twin.resyncEnd).toNat then s
  else
    let s : State := { s with twin := { s.twin with resyncSince := some s.now } }
    let s : State := s.mirror 0x0D [u8 0, u8 0, u8 0, u8 0, u32 0]
    let first := s.twin.mirrorRecs
    let s : State := s.raise 0xCD [u16 0, u32 0, u32 0]
    let s : State := s.stnConfigured.foldl State.mirrorCtx s
    let s : State := s.roll.rolls.foldl State.mirrorRoll s
    let s : State := ((s.mirrorPlan .day).mirrorPlan .pressure).mirrorAllMeter.mirrorAreas
    let n := (s.twin.mirrorRecs - first).toNat
    let s : State := { s with twin := { s.twin with resyncEnd := s.twin.mirrorSeq } }
    let s : State := s.mirror 0x0D [u8 1, u8 0, u8 0, u8 0, u32 n]
    s.raise 0xCD [u16 1, u32 n, u32 0]

end Sys2Proof.Machine
end

