-- ==== Sys2Proof/Machine/RoleMachine.lean ====
section
/-! DEFINITION. The twin's role machine: roles, negotiation, heartbeats, promotion, handover and stepping down
(spec/14_twin_operation.md). -/

namespace Sys2Proof.Machine

open Sys2Proof

/-! ### Ranking and epochs (R494–R496) -/

def State.serialLo (s : State) : Word := s.reg 0x0004

/-- Whether this tablet outranks the partner: fitness, then PREFER, then the lower serial (R496). -/
def State.outranks (s : State) (ownFit : Bool) (h : Heartbeat) : Bool :=
  let pref := s.fld rTwinCfg 1 1 == 1
  if ownFit != h.fit then ownFit
  else if pref != h.prefer then pref
  else s.serialLo.toNat < h.serial.toNat

/-! ### Promotion and stepping down (R499, R502) -/

/-- A STANDBY or ISOLATED tablet promotes: epoch step(max(own, heard)), stored (R499). -/
def State.promote (s : State) (cause : Nat) : State :=
  let old := s.twin.epoch
  let new := epochStep (epochMax old s.twin.heard)
  let age := min ((s.now - s.twin.lastMirror) / usNs) 0xFFFFFFFF
  let s : State := { s with twin := { s.twin with
    promotions := satInc s.twin.promotions, handover := false, unsynced := false, resyncReq := false, emitOk := false,
    resyncSince := none } }
  let s : State := ((s.setEpoch new).setRole .active cause).enginesStart
  s.raise 0xC9 [u16 old.toNat, u16 new.toNat, u16 cause, u32 age]

/-- UNSYNCED with a resync asked for (R495, R507). -/
def State.goUnsynced (s : State) : State :=
  { s with twin := { s.twin with unsynced := true, resyncReq := true, handover := false, resyncSince := none, emitOk := false } }

/-- An ACTIVE tablet hears a newer epoch: STANDBY, which takes it (R502). `source` is 0 a twin frame, 1 a station echo. -/
def State.stepDown (s : State) (heard : Half) (source cause : Nat) : State :=
  let own := s.twin.epoch
  let s : State := ((s.setEpoch heard).setRole .standby cause).goUnsynced.enginesStop
  (s.raise 0xCA [u16 own.toNat, u16 heard.toNat, u16 source]).judgeFit

/-! ### Heartbeats (R495, R497–R503) -/

def pathCode : TwinPath → Nat
  | .twin => 0
  | .ring => 1

def hbPartner (h : Heartbeat) (lastT lastR : Option Nat) : Partner :=
  ⟨h.role, h.epoch, h.fit, h.leaving, h.resyncReq, h.acked, h.modelRev, h.tallyRev, h.serial, lastT, lastR⟩

/-- The path is alive; TWIN_PATH reports its return from a silence that was reported (R498). -/
def State.refreshPath (s : State) (p : TwinPath) (h : Heartbeat) : State :=
  let old := s.twin.partner
  let lost := match p with
    | .twin => s.twin.lostT
    | .ring => s.twin.lostR
  let lastT := match p with
    | .twin => some s.now
    | .ring => old.bind (·.lastT)
  let lastR := match p with
    | .ring => some s.now
    | .twin => old.bind (·.lastR)
  let w := s.twin
  let s : State := { s with twin := { w with
    partner := some (hbPartner h lastT lastR), heard := epochMax w.heard h.epoch,
    pathT := w.pathT || p = .twin, pathR := w.pathR || p = .ring,
    lostT := w.lostT && p ≠ .twin, lostR := w.lostR && p ≠ .ring } }
  if lost then s.raise 0xCB [u16 (pathCode p), u16 0] else s

/-- TWIN_MISMATCH where the revisions of the two tablets begin to differ: fields 1 model, 2 Tally (0 is the house id). -/
def State.noteMismatch (s : State) (h : Heartbeat) : State :=
  let m := word s.modelRev
  let t := word s.tallyRev
  let was := s.twin.differs
  let s : State := { s with twin := { s.twin with differs := (h.modelRev != m, h.tallyRev != t) } }
  let s : State := if h.modelRev ≠ m && !was.1 then s.raise 0xCE [u16 1, u32 m.toNat, u32 h.modelRev.toNat] else s
  if h.tallyRev ≠ t && !was.2 then s.raise 0xCE [u16 2, u32 t.toNat, u32 h.tallyRev.toNat] else s

/-- Become STANDBY under an ACTIVE partner, with its epoch (R493, R495). -/
def State.joinActive (s : State) (epoch : Half) (cause : Nat) : State :=
  ((s.setEpoch epoch).setRole .standby cause).goUnsynced

/-- Negotiation has ended: at start-up, step 8 with it. -/
def State.negDone (s : State) : State := if s.sup.step = 8 then s.stepDone 8 else s

/-- What the role machine does with a valid heartbeat. -/
def State.onHeartbeat (s : State) (h : Heartbeat) : State :=
  match s.twin.role with
  | .negotiating =>
    let e0 := epochMax s.twin.e0 h.epoch
    let s : State := { s with twin := { s.twin with e0 := e0 } }
    match h.role with
    | .active => (s.joinActive h.epoch cNegotiation).loopsFollow.negDone
    | .negotiating =>
      if s.outranks s.negFit h then (((s.setEpoch (epochStep e0)).setRole .active cNegotiation).enginesResume).negDone
      else ((s.setRole .standby cNegotiation).goUnsynced).loopsFollow.negDone
    | _ => s
  | .standby =>
    if h.role ≠ .active then { s with model := { s.model with mirrorReady := none } }
    else if h.leaving then (s.setRole .isolated cLeaving).enginesStop
    else
      let s : State := if epochRel s.twin.epoch h.epoch = .newer then s.setEpoch h.epoch else s
      if h.handover && s.twinFit then s.promote cHandover else s
  | .active =>
    if epochRel s.twin.epoch h.epoch = .newer then s.stepDown h.epoch 0 cNewerEpoch
    else if h.role = .active && h.epoch = s.twin.epoch then
      if s.outranks s.negFit h then s.setEpoch (epochStep s.twin.epoch) else s.stepDown h.epoch 0 cTie
    else
      let s : State := if (s.place.unfit || !s.fab.frameLost.isEmpty) && s.partnerFit then
        { s with twin := { s.twin with handover := true } } else s
      if h.role = .standby && h.resyncReq then s.startResync h.acked
      else { s with twin := { s.twin with resyncSince := none } }
  | .isolated =>
    if h.role = .active && !h.leaving && s.twin.en = .enabled then s.joinActive h.epoch cHeard else s
  | .solo => s

def State.twinDiscard (s : State) : State := { s with twin := { s.twin with discards := satInc s.twin.discards } }

/-- The checks of a twin frame (R28, R30, R31, R505), and what follows on one that passes; an older epoch than the highest accepted is
discarded. -/
def State.twinFrame (s : State) (good : Bool) (house epoch : Half) (k : State → State) : State :=
  if !good then s.twinDiscard
  else if house.toNat ≠ s.houseId then s.twinDiscard.raise 0xCE [u16 0, u32 s.houseId, u32 house.toNat]
  else if house = 0 || house = 0xFFFF || epoch = 0 || epochRel s.twin.accepted epoch = .older then s.twinDiscard
  else k { s with twin := { s.twin with accepted := epochMax s.twin.accepted epoch } }

/-- A SOLO tablet that hears a newer epoch adopts its step, or contests (R504). `station` is 0xFFFF for a twin frame. -/
def State.soloAhead (s : State) (station : Nat) (e : Half) : State :=
  let w := s.twin
  let tell (s : State) (flag : Nat) : State := s.raise 0x5A [u16 station, u16 e.toNat, u16 w.epoch.toNat, u16 flag]
  if (w.contestedUntil.map (fun t => decide (s.now < t))).getD false then tell s 2
  else
    let recent := w.adoptions.filter (fun t => s.now < t + 60 * secNs)
    if 3 ≤ recent.length then
      tell { s with twin := { s.twin with contestedUntil := some (s.now + 600 * secNs), adoptions := [] } } 2
    else
      let s : State := { s with twin := { s.twin with adoptions := recent ++ [s.now], contestedUntil := none } }
      (tell s 1).setEpoch (epochStep e)

/-- HEARTBEAT_RX (R497, R505). The ring path is silent while the ring is DISABLED (R455), both while the PHYs are off (R667). -/
def State.heartbeatRx (s : State) (p : TwinPath) (h : Heartbeat) : State :=
  if s.phyOff || (p = .ring && s.ring.en = .disabled) then s
  else s.twinFrame h.good h.house h.epoch (fun s =>
    if s.sup.step < 8 then s
    else if s.twin.role = .solo then (if epochRel s.twin.epoch h.epoch = .newer then s.soloAhead 0xFFFF h.epoch else s)
    else
      let s : State := (s.refreshPath p h).noteMismatch h
      (s.onHeartbeat h).judgeFit)

def execHeartbeatRx (p : TwinPath) (h : Heartbeat) (s : State) : Host.Outcome State Fault Refusal := .next (s.heartbeatRx p h)

/-- A tablet of a pair sends heartbeats: none with house id 0x0000 (R29), in hold-up (R667) or without a beam (R25). -/
def State.beats (s : State) : Bool :=
  s.twin.role != .solo && s.houseId != 0 && 8 ≤ s.sup.step && !s.phyOff && (s.twin.en != .disabled || s.twin.role == .isolated)

/-- A heartbeat: one frame on each path (R497). -/
def State.heartbeatOut (s : State) : State :=
  let w := s.twin
  if !s.beats then s
  else
    let acked := if w.role = .standby then w.mirrorRx.toNat else 0
    let body : List Fld := [u32 acked, u32 s.modelRev, u32 s.tallyRev, u32 s.serialLo.toNat]
    let send (s : State) (port path : Nat) (seq : Word) (ring : Option (Half × Option Vlan)) : State :=
      s.crossAll (txXings port) [.heartbeat path (s.twinHead seq ++ body), .twinFrame s.peerMac ring (s.twinPayload 1 seq (layNet body))]
    let s : State := send s 2 0 w.hbSeqT none
    let s : State := if s.ring.en = .disabled then s else send s 3 1 w.hbSeqR (some (s.ring.hsrSeq, s.ringVlan))
    if s.ring.en = .disabled then { s with twin := { s.twin with hbSeqT := w.hbSeqT + 1 } }
    else { s with
      twin := { s.twin with hbSeqT := w.hbSeqT + 1, hbSeqR := w.hbSeqR + 1 }, ring := { s.ring with hsrSeq := s.ring.hsrSeq + 1 } }

/-- HEARTBEAT_SEND, every 100 µs. -/
def State.heartbeatSend (s : State) : State :=
  if s.beats && s.twin.hbAt + 100 * usNs ≤ s.now then ({ s with twin := { s.twin with hbAt := s.now } }).heartbeatOut else s

def execHeartbeatSend (s : State) : Host.Outcome State Fault Refusal := .next s.heartbeatSend

/-- PATH_SILENT (R498, R499): 300 µs without a heartbeat on a path. -/
def State.pathSilent (s : State) (p : TwinPath) : State :=
  let w := s.twin
  let last := match p with
    | .twin => w.partner.bind (·.lastT)
    | .ring => w.partner.bind (·.lastR)
  let alive := match p with
    | .twin => w.pathT
    | .ring => w.pathR
  match last with
  | some t =>
    if alive && t + 300 * usNs ≤ s.now then
      let w := match p with
        | .twin => { w with pathT := false, lostT := true, emitOk := false, pathLostT := satInc w.pathLostT }
        | .ring => { w with pathR := false, lostR := true, pathLostR := satInc w.pathLostR }
      let s : State := ({ s with twin := w }).raise 0xCB [u16 (pathCode p), u16 1]
      if s.twin.pathT || s.twin.pathR then s
      else if s.twin.role = .standby then
        if s.twinFit then s.promote cSilence else (s.setRole .isolated cSilence).enginesStop
      else s
    else s
  | none => s

def execPathSilent (p : TwinPath) (s : State) : Host.Outcome State Fault Refusal := .next (s.pathSilent p)

/-- NEGOTIATION_TIMEOUT (R495): no partner heard within NEG_MS. -/
def State.negotiationTimeout (s : State) : State :=
  match s.twin.negSince with
  | some t =>
    if s.twin.role = .negotiating && s.twin.partner.isNone && t + s.fld rTwinCfg 31 16 * msNs ≤ s.now then
      let s : State := (s.setEpoch (epochStep s.twin.e0)).setRole .active cNegotiation
      let s : State := { s with twin := { s.twin with lostT := true, lostR := true } }
      let s : State := (s.raise 0xCB [u16 0, u16 1]).raise 0xCB [u16 1, u16 1]
      s.enginesResume.negDone
    else s
  | none => s

def execNegotiationTimeout (s : State) : Host.Outcome State Fault Refusal := .next s.negotiationTimeout

/-- RING_LOSS_HANDOVER (R501). -/
def State.ringLossHandover (s : State) : State :=
  match s.ring.bothDownSince with
  | some t =>
    if s.twin.role = .active && s.fld rTwinCfg 2 2 = 1 && s.partnerFit && t + s.fld rTwinCfg 15 8 * msNs ≤ s.now then
      { s with twin := { s.twin with handover := true } }
    else s
  | none => s

def execRingLossHandover (s : State) : Host.Outcome State Fault Refusal := .next s.ringLossHandover

/-! ### Orders (R510, R513) -/

def State.twinState (s : State) (ref : OrderRef) (op st : Nat) : State :=
  s.answer ref op (ownReport st [u8 st, u8 (roleCode s.twin.role), u8 (enCode s.twin.en)])

/-- The twin function reaches DISABLED; `retired` mirror records were not handed over (R510). -/
def State.twinQuiesced (s : State) (retired : Nat) : State :=
  ({ s with twin := { s.twin with en := .disabled } }).raise 0xCF [u16 retired]

/-- TWIN_CTL. On an ACTIVE the tablet becomes SOLO once its records have retired; on a STANDBY it becomes ISOLATED at once. -/
def State.twinCtl (s : State) (ref : OrderRef) (enable retired : Nat) : State :=
  let w := s.twin
  if 1 < enable then s.answer ref 0x0D01 (stateReport stRange [u8 0, u8 (roleCode w.role), u8 (enCode w.en)])
  else if enable = 0 then
    if w.en ≠ .enabled then s.twinState ref 0x0D01 0
    else
      let s : State := ({ s with twin := { w with leaving := true, handover := false } }).heartbeatOut
      let toSolo (s : State) : State := ({ s with twin := { s.twin with leaving := false } }).setRole .solo cDisabled
      let s : State := match w.role with
        | .active => toSolo s
        | .negotiating => (toSolo (s.setEpoch (epochStep w.e0))).enginesResume.negDone
        | .standby => (s.setRole .isolated cDisabled).enginesStop
        | _ => s
      (s.twinQuiesced retired).twinState ref 0x0D01 0
  else if w.en = .quiescing then s.twinState ref 0x0D01 3
  else if w.en = .enabled then s.twinState ref 0x0D01 0
  else
    let s : State := { s with twin := { w with en := .enabled, leaving := false } }
    let s : State := if w.role = .solo && 8 ≤ s.sup.step then s.enginesPause.beginNegotiation cEnabled else s
    s.twinState ref 0x0D01 0

def execTwinCtl (ref : OrderRef) (enable retired : Nat) (s : State) : Host.Outcome State Fault Refusal :=
  .next (s.runOrder ref 0x0D01 (fun s => s.twinCtl ref enable retired))

/-- TWIN_SWITCH (R501). -/
def State.twinSwitch (s : State) (ref : OrderRef) : State :=
  if s.twin.role ≠ .active then s.twinState ref 0x0D02 2
  else if !s.partnerFit then s.twinState ref 0x0D02 1
  else ({ s with twin := { s.twin with handover := true } }).twinState ref 0x0D02 0

def execTwinSwitch (ref : OrderRef) (s : State) : Host.Outcome State Fault Refusal :=
  .next (s.runOrder ref 0x0D02 (fun s => s.twinSwitch ref))

/-- TWIN_PROMOTE (R512). -/
def State.twinPromote (s : State) (ref : OrderRef) : State :=
  if s.twin.role ≠ .isolated then s.twinState ref 0x0D03 2 else (s.promote cOrder).twinState ref 0x0D03 0

def execTwinPromote (ref : OrderRef) (s : State) : Host.Outcome State Fault Refusal :=
  .next (s.runOrder ref 0x0D03 (fun s => s.twinPromote ref))

/-! ### A newer epoch in a station echo (R504) -/

/-- STN_EPOCH_AHEAD is raised in every role (R293); its flags: 0 reported, bit 0 ADOPTED, bit 1 CONTESTED. -/
def State.echoAhead (s : State) (station : Nat) (e : Half) : State :=
  let w := s.twin
  let told : State := s.raise 0x5A [u16 station, u16 e.toNat, u16 w.epoch.toNat, u16 0]
  match w.role with
  | .negotiating => { told with twin := { told.twin with heard := epochMax w.heard e, e0 := epochMax w.e0 e } }
  | .active => told.stepDown e 1 cNewerEpoch
  | .standby | .isolated => { told with twin := { told.twin with heard := epochMax w.heard e } }
  | .solo => s.soloAhead station e

end Sys2Proof.Machine
end

