-- ==== Sys2Proof/Machine/Stn.lean ====
section
/-! DEFINITION. The commands of station exchange: received frames, time-outs, context states and orders
(spec/09_station_exchange.md). -/

namespace Sys2Proof.Machine

open Sys2Proof

/-! ### Received frames: layout and checks (R282–R287) -/

/-- A field in network byte order. -/
def netAt (bs : List Byte) (o n : Nat) : Nat := ordNat true ((bs.drop o).take n)

/-- LEN of a record TYPE in words (R285). -/
def recLen : Nat → Option Nat
  | 0x01 => some 3
  | 0x02 => some 2
  | 0x03 => some 17
  | 0x04 => some 17
  | 0x05 => some 3
  | 0x06 => some 8
  | 0x07 => some 5
  | 0x08 => some 2
  | 0x09 => some 2
  | 0x0A => some 17
  | 0x0B => some 2
  | _ => none

/-- The records of a frame: type and body; none where a LEN or a TYPE is wrong (R284). -/
def parseRecs : Nat → List Byte → Option (List (Nat × List Byte))
  | 0, _ => none
  | n + 1, bs =>
    if bs.isEmpty then some []
    else match recLen (netAt bs 0 1) with
      | none => none
      | some w =>
        if netAt bs 1 1 ≠ w || bs.length < 4 * w then none
        else (parseRecs n (bs.drop (4 * w))).map (fun rs => (netAt bs 0 1, (bs.drop 4).take (4 * w - 4)) :: rs)

/-- Take the records of one type from the front: how many there are, and the rest. -/
def spanType (type : Nat) : List (Nat × List Byte) → Nat × List (Nat × List Byte)
  | [] => (0, [])
  | r :: rs => if r.1 = type then ((spanType type rs).1 + 1, (spanType type rs).2) else (0, r :: rs)

/-- The records stand in the order and numbers of R283. -/
def shapeOk : List (Nat × Nat × Nat) → List (Nat × List Byte) → Bool
  | [], rs => rs.isEmpty
  | (type, lo, hi) :: sh, rs => lo ≤ (spanType type rs).1 && (spanType type rs).1 ≤ hi && shapeOk sh (spanType type rs).2

def inputShape : List (Nat × Nat × Nat) := [(5, 1, 1), (4, 1, 1), (6, 0, 4), (7, 0, 8)]
def replyShape : List (Nat × Nat × Nat) := [(9, 1, 16), (5, 0, 1), (4, 0, 1), (6, 0, 4), (7, 0, 8)]

/-- A METER body names an INDEX of 0–3 and an MKIND of 0 or 1. -/
def meterOk (b : List Byte) : Bool := netAt b 0 1 ≤ 3 && netAt b 1 1 ≤ 1

def hasRec (type : Nat) (rs : List (Nat × List Byte)) : Bool := rs.any (fun r => r.1 == type)
def recBody (type : Nat) (rs : List (Nat × List Byte)) : Option (List Byte) := (rs.find? (fun r => r.1 == type)).map Prod.snd
def recBodies (type : Nat) (rs : List (Nat × List Byte)) : List (List Byte) := (rs.filter (fun r => r.1 == type)).map Prod.snd

/-- Records and time fields are valid for the kind (R283, R285). -/
def frameValid (reply : Bool) (ns : Nat) (rs : List (Nat × List Byte)) : Bool :=
  ns ≤ 999999999 && shapeOk (if reply then replyShape else inputShape) rs && (recBodies 6 rs).all meterOk
    && (!reply || !hasRec 4 rs || hasRec 5 rs)

/-- The STATUS record carries JOIN. -/
def joinIn (rs : List (Nat × List Byte)) : Bool := ((recBody 5 rs).map (fun b => netAt b 0 2 % 2 == 1)).getD false

/-- The receive window (R290): the highest sequence and the window after an accepted frame, none for a duplicate or an old one. -/
def windowStep (top : Word) (win : List Word) (seq : Word) : Option (Word × List Word) :=
  let d := (seq - top).toNat
  if win.isEmpty then some (seq, [seq])
  else if 1 ≤ d && d ≤ 2 ^ 31 - 1 then some (seq, seq :: win.filter (fun x => (seq - x).toNat ≤ 63))
  else if (top - seq).toNat ≤ 63 then (if win.contains seq then none else some (top, seq :: win))
  else none

def ctxAddrIs (c : StnCtxCfg) (a : IpAddr) : Bool :=
  a.v6 == (c.flags % 2 == 1) && a.bits == (if a.v6 then c.addr else c.addr / 2 ^ 96)

/-- A discarded frame (R287): counted for its context or the house, and reported per cause. -/
def State.frameBad (s : State) (cause : Nat) (station : Option Nat) : State :=
  let s : State := match station with
    | some id => s.setCtx id (fun c => { c with discards := satInc c.discards })
    | none => { s with stn := { s.stn with houseDiscards := satInc s.stn.houseDiscards } }
  s.raiseTimed 0x58 cause [u16 cause, u16 (station.getD 0xFFFF)]

/-! ### Context states (R279, R311–R316) -/

/-- A QUIESCING context without a transaction becomes DISABLED; event tasks see it. -/
def State.settleStn (s : State) (id : Nat) : State :=
  let was := (s.ctxOf id).map (·.st)
  let s : State := s.settleCtx id
  if (s.ctxOf id).map (·.st) = was then s else s.tStation id

/-- A context goes OFFLINE: cause 0 silence, 1 NOACK or a refused RESYNC. -/
def State.goOffline (s : State) (id cause : Nat) : State :=
  match s.ctxOf id with
  | none => s
  | some c =>
    if c.st = .offline || c.st = .disabled then s
    else
      let s : State := s.dropFrames id true
      let s : State := s.setCtx id (fun c => { c with
        st := .offline, rxWin := [], offSince := s.now, offlineCount := min (c.offlineCount + 1) 0xFFFF, noackRun := 0, retDone := [] })
      let s : State := s.raise 0x50 [u16 id, u16 cause, u32 c.lastRx.toNat]
      (((s.tStation id).rollStationLost id).mirrorCtx id).settleStn id

/-- A context enters RETURNING: cause 0 a frame, 1 JOIN. -/
def State.goReturning (s : State) (id cause : Nat) : State :=
  match s.ctxOf id with
  | none => s
  | some c =>
    let s : State := s.dropFrames id true
    let s : State := s.setCtx id (fun c => { c with st := .returning, rxWin := [], retSince := s.now, retDone := [], noackRun := 0 })
    let off := if c.st = .offline then (s.now - c.offSince) / usNs else 0
    let s : State := s.raise 0x51 [u16 id, u16 cause, u32 (min off 0xFFFFFFFF)]
    let s : State := s.tStation id
    let s : State := if cause = 1 then s.rollStationLost id else s
    (s.mirrorCtx id).settleStn id

/-- The RESYNC has been accepted (R314 step 4). -/
def State.goOnline (s : State) (id : Nat) (seq : Word) : State :=
  match s.ctxOf id with
  | none => s
  | some c =>
    let s : State := s.setCtx id (fun c => { c with st := .online, pending := false })
    let s : State := s.raise 0x52 [u16 id, u32 seq.toNat, u32 (min ((s.now - c.retSince) / usNs) 0xFFFFFFFF)]
    ((s.tStation id).rollStationBack id).mirrorCtx id

/-! ### An accepted frame -/

/-- An ACK record (R295–R299). -/
def State.ackIn (s : State) (id : Nat) (b : List Byte) : State :=
  if !s.activeOrSolo then s
  else
    let tag := netAt b 0 2
    let gen := netAt b 2 1
    let res := netAt b 3 1
    match (s.ctxOf id).bind (fun c => c.txns.find? (fun t => t.tag == tag && t.gen == gen)) with
    | none => (s.setCtx id (fun c => { c with lateReplies := satInc c.lateReplies })).raiseTimed 0x57 id [u16 id]
    | some t =>
      let s : State := (s.setCtx id (fun c => { c with
        txns := c.txns.filter (fun u => !(u.tag == tag && u.gen == gen)),
        order := c.order.filter (fun w => w.retry != some (tag, gen)), noackRun := 0 })).freeTag tag gen
      let s : State := s.noteTags
      let s : State :=
        if res = 0 then
          (if t.frame = .resync && ((s.ctxOf id).map (fun c => c.st == .returning)).getD false then s.goOnline id t.seq else s)
        else if between 2 6 res then
          let s : State := s.raise 0x59 [u16 id, u16 t.frame.kind, u32 t.seq.toNat, u16 res]
          match t.frame with
          | .command _ _ => s.rollRefused id t.seq
          | .resync => s.goOffline id 1
          | _ => s
        else s
      (s.pump id).settleStn id

/-- A STATUS record: SAFE, NOSYNC (also by an APPLIED record of its frame), BOOT, and JOIN (R301, R316, R430). -/
def State.statusIn (s : State) (id : Nat) (b : List Byte) (appliedNosync : Bool) : State :=
  match s.ctxOf id with
  | none => s
  | some c =>
    let fl := netAt b 0 2
    let nosync := fl / 2 % 2 == 1 || appliedNosync
    let boot := netAt b 4 2
    let join := fl % 2 == 1
    let s : State := s.setCtx id (fun c => { c with nosync := nosync, safe := fl / 4 % 2 == 1, boot := boot })
    let s : State := if nosync && !c.nosync then s.raise 0x55 [u16 id] else s
    let s : State := if join || boot ≠ c.boot then s.meterRebase id else s
    if join && c.st.up then (s.raise 0x54 [u16 id, u16 boot]).goReturning id 1 else s

/-- The TAI instant of an AT field (R301): the second nearest to house time. -/
def State.extendAt (s : State) (sec ns : Nat) : Nat :=
  let now := s.tai / secNs
  let d : Int := (BitVec.ofNat 32 sec - BitVec.ofNat 32 now).toInt
  (((now : Int) + d) * secNs + ns).toNat

/-- A station reports an application without house time in a frame without STATUS: an episode of NOSYNC begins (R301). -/
def State.noteNosync (s : State) (id : Nat) : State :=
  if ((s.ctxOf id).map (·.nosync)).getD true then s
  else (s.setCtx id (fun c => { c with nosync := true })).raise 0x55 [u16 id]

/-- An input image (R280, R308): image, declared quality and acquisition time together, and the state it brings about. -/
def State.inputIn (s : State) (id : Nat) (img status : List Byte) (at_ : Nat) : State :=
  let q := qOfCode (netAt status 2 1 % 8)
  let s : State := s.setCtx id (fun c => { c with
    inImg := img, declared := q, acq := some (if netAt status 0 2 / 2 % 2 = 1 then s.tai else at_) })
  let st : Option CtxSt := (s.ctxOf id).map (fun c => c.st)
  match st with
  | some .offline => s.goReturning id 0
  | some .stale => (s.setCtx id (fun c => { c with st := .online })).tStation id
  | _ => s

/-- What an accepted frame does, in the order of its records. -/
def State.frameIn (s : State) (id : Nat) (bs : List Byte) (rs : List (Nat × List Byte)) : State :=
  let e : Half := BitVec.ofNat 16 (netAt bs 6 2)
  let at_ := s.extendAt (netAt bs 0xC 4) (netAt bs 0x10 4)
  let applNosync := (recBodies 7 rs).any (fun b => netAt b 4 1 / 4 % 2 == 1)
  let s : State := s.setCtx id (fun c => { c with lastRx := s.stamp32 })
  let s : State := if e ≠ 0 && epochRel s.twin.epoch e = .newer then s.echoAhead id e else s
  let s : State := (recBodies 9 rs).foldl (fun s b => s.ackIn id b) s
  let s : State := match recBody 5 rs with
    | some b => s.statusIn id b applNosync
    | none => s
  let s : State := match recBody 4 rs, recBody 5 rs with
    | some img, some st => s.inputIn id img st at_
    | _, _ => s
  let s : State := (recBodies 6 rs).foldl (fun s b =>
    s.stationMeter id (netAt b 1 1) (netAt b 0 1) (netAt b 4 8) (netAt b 0xC 8) (netAt b 0x14 8) at_) s
  let s : State := if !hasRec 5 rs && applNosync then s.noteNosync id else s
  let s : State := if !s.activeOrSolo then s else (recBodies 7 rs).foldl (fun s b =>
    s.rollApplied id (BitVec.ofNat 32 (netAt b 0 4)) (netAt b 4 1 % 2 == 1) (s.extendAt (netAt b 8 4) (netAt b 0xC 4))) s
  s.mirrorCtx id

/-- A station frame from the ring: nothing arrives while the ring is DISABLED (R455) or the address family is off (R451). The checks of
R287 in order, then the frame. A frame of the other kind than the command's passes as its own KIND says. -/
def State.stationFrame (s : State) (src : IpAddr) (bs : List Byte) : State :=
  if s.ring.en = .disabled || !s.familyUp src.v6 then s
  else
  let n := bs.length
  let kind := netAt bs 1 1
  let id := netAt bs 4 2
  let crcOk := netAt bs (n - 4) 4 == (crc32c (bs.take (n - 4))).toNat
  if n < 24 || 544 < n || n % 4 ≠ 0 then s.frameBad 1 none
  else if !crcOk then s.frameBad 2 none
  else if netAt bs 0 1 ≠ 1 then s.frameBad 3 none
  else if netAt bs 2 2 ≠ s.houseId || s.houseId = 0 || s.houseId = 0xFFFF then s.frameBad 4 none
  else match s.ctxOf id with
    | none => s.frameBad 5 none
    | some c =>
      if !ctxAddrIs c.cfg src then s.frameBad 6 (some id)
      else if kind ≠ 0x81 && kind ≠ 0x82 then s.frameBad 7 (some id)
      else match parseRecs 140 ((bs.take (n - 4)).drop 0x14) with
        | none => s.frameBad 8 (some id)
        | some rs =>
          if !frameValid (kind == 0x82) (netAt bs 0x10 4) rs then s.frameBad 8 (some id)
          else if c.en = .disabled then s.frameBad 9 (some id)
          else match windowStep c.rxSeq (if joinIn rs || c.st == .offline || c.st == .returning then [] else c.rxWin) (BitVec.ofNat 32 (netAt bs 8 4)) with
            | none => s.frameBad 10 (some id)
            | some w => (s.setCtx id (fun c => { c with rxSeq := w.1, rxWin := w.2 })).frameIn id bs rs

/-- INPUT_FRAME_RX and REPLY_FRAME_RX: the UDP payload and its source. -/
def execInputFrameRx (src : IpAddr) (payload : List Byte) (s : State) : Host.Outcome State Fault Refusal :=
  .next (s.stationFrame src payload)
def execReplyFrameRx (src : IpAddr) (payload : List Byte) (s : State) : Host.Outcome State Fault Refusal :=
  .next (s.stationFrame src payload)

/-! ### Time-outs and sending (R279, R289, R297, R298, R306, R311, R314) -/

/-- STN_STALE_TIMEOUT. -/
def State.stnStale (s : State) (id : Nat) : State :=
  match s.ctxOf id with
  | some c =>
    let age := (s.inputAge c).getD 0
    if c.st = .online && c.en ≠ .disabled && s.stn.cfg.staleMs * msNs < age then
      let s : State := s.setCtx id (fun c => { c with st := .stale })
      ((s.raise 0x53 [u16 id, u32 (min (age / usNs) 0xFFFFFFFF)]).tStation id).mirrorCtx id
    else s
  | none => s

def execStnStaleTimeout (station : Nat) (s : State) : Host.Outcome State Fault Refusal := .next (s.stnStale station)

/-- STN_OFFLINE_TIMEOUT. -/
def State.stnOffline (s : State) (id : Nat) : State :=
  match s.ctxOf id with
  | some c => if s.stn.cfg.offlineMs * msNs < (s.inputAge c).getD 0 then s.goOffline id 0 else s
  | none => s

def execStnOfflineTimeout (station : Nat) (s : State) : Host.Outcome State Fault Refusal := .next (s.stnOffline station)

/-- Put a retry before every new frame, behind the retries that wait already. -/
def insRetry (w : Waiting) : List Waiting → List Waiting
  | [] => [w]
  | v :: vs => if v.retry.isSome then v :: insRetry w vs else w :: v :: vs

/-- The bound of QUIESCING has passed (R318). -/
def State.quiOver (s : State) (id : Nat) : Bool :=
  match s.ctxOf id with
  | some c => c.en == .quiescing && c.quiSince + ((s.stn.cfg.retries + 1) * s.stn.cfg.timeoutMs + 1) * msNs ≤ s.now
  | none => false

/-- A limit or a retry lets frames go: what may be sent is sent, and the standby learns of the context's change (R289, R506). -/
def State.release (s : State) (id : Nat) : State := (s.pump id).mirrorCtx id

/-- TXN_TIMEOUT: no ACK within TXN_TIMEOUT_MS of the sending, or the apply-at of a COMMAND whose retry waits has passed, or the bound
of QUIESCING. -/
def State.txnTimeout (s : State) (id tag gen : Nat) : State :=
  match (s.ctxOf id).bind (fun c => c.txns.find? (fun t => t.tag == tag && t.gen == gen)) with
  | none => s
  | some t =>
    let ended := s.quiOver id
    let past : Bool := match t.frame with
      | .command _ a => a < s.tai
      | _ => false
    let due : Bool := match t.sentAt with
      | some x => x + s.stn.cfg.timeoutMs * msNs ≤ s.now
      | none => past
    if !due && !ended then s
    else if t.attempt < s.stn.cfg.retries && !past && !ended then
      let next (u : Txn) : Txn := if u.tag = tag && u.gen = gen then { u with attempt := u.attempt + 1, sentAt := none } else u
      (s.setCtx id (fun c => { c with
        txns := c.txns.map next, order := insRetry ⟨t.seq, t.frame, some (tag, gen)⟩ c.order })).release id
    else
      let s : State := (s.setCtx id (fun c => { c with
        txns := c.txns.filter (fun u => !(u.tag == tag && u.gen == gen)), order := c.order.filter (fun w => w.retry != some (tag, gen)),
        noackCount := min (c.noackCount + 1) 0xFFFF, noackRun := c.noackRun + 1 })).freeTag tag gen
      -- the attempts sent: a retry that still waits is none
      let s : State := s.noteTags.raise 0x56 [u16 id, u16 t.frame.kind, u32 t.seq.toNat, u16 (if t.sentAt.isSome then t.attempt + 1 else t.attempt)]
      let run := ((s.ctxOf id).map (·.noackRun)).getD 0
      let s : State := if t.frame = .resync || s.stn.cfg.noackN ≤ run then s.goOffline id 1 else s.pump id
      (s.mirrorCtx id).settleStn id

def execTxnTimeout (station tag gen : Nat) (s : State) : Host.Outcome State Fault Refusal := .next (s.txnTimeout station tag gen)

/-- SEND_ORDER_RELEASE: what a limit held back is sent. -/
def execSendOrderRelease (station : Nat) (s : State) : Host.Outcome State Fault Refusal := .next (s.release station)

/-- OUTPUT_REFRESH: REFRESH_MS since the last image frame. -/
def State.outputRefresh (s : State) (id : Nat) : State :=
  match s.ctxOf id with
  | some c =>
    let due : Bool := match c.lastImage with
      | some t => t + s.stn.cfg.refreshMs * msNs ≤ s.now
      | none => true
    if due && s.stnUp id && s.stnMay then (s.queueOutput id).mirrorCtx id else s
  | none => s

def execOutputRefresh (station : Nat) (s : State) : Host.Outcome State Fault Refusal := .next (s.outputRefresh station)

/-- RESYNC_SEND: the last writer has completed its cycle (R314 step 3). -/
def State.resyncSend (s : State) (id : Nat) : State :=
  match s.ctxOf id with
  | some c =>
    let going := c.order.any (fun w => w.frame == .resync) || c.txns.any (fun t => t.frame == .resync)
    if c.st = .returning && c.en = .enabled && s.writersDone c && s.stnMay && !going then (s.queueFrame id .resync).1.mirrorCtx id else s
  | none => s

def execResyncSend (station : Nat) (s : State) : Host.Outcome State Fault Refusal := .next (s.resyncSend station)

/-! ### Orders (R318–R323) -/

def stnCfgOk (c : StnCfg) : Bool :=
  between 1 65535 c.port && between 100 60000 c.staleMs && between 200 60000 c.offlineMs && c.staleMs < c.offlineMs
    && between 5 1000 c.timeoutMs && between 100 10000 c.refreshMs && c.retries ≤ 3 && between 1 16 c.noackN && c.dscp ≤ 63
    && c.reserved == 0

/-- STN_CFG; after the seal only the four times may differ. -/
def State.stnCfg (s : State) (ref : OrderRef) (c : StnCfg) : State :=
  let old := s.stn.cfg
  if !stnCfgOk c then s.answer ref 0x0801 (orderDone stRange)
  else if s.setup.sealed && (c.port ≠ old.port || c.retries ≠ old.retries || c.noackN ≠ old.noackN || c.dscp ≠ old.dscp) then
    s.answer ref 0x0801 (orderDone stSealed)
  else ({ s with stn := { s.stn with cfg := c } }).answer ref 0x0801 (orderDone stDone)

def execStnCfg (ref : OrderRef) (c : StnCfg) (s : State) : Host.Outcome State Fault Refusal :=
  .next (s.runOrder ref 0x0801 (fun s => s.stnCfg ref c))

def stnCtxOk (c : StnCtxCfg) : Bool :=
  c.station ≤ 0x3FF && c.flags < 4 && between 1 65535 c.rport && between 4 64 c.qdepth && c.reserved == 0
    && (c.flags % 2 == 1 || c.addr % 2 ^ 96 == 0)

def freshCtx (c : StnCtxCfg) (enabled : Bool) (now : Nat) : Ctx :=
  { cfg := c, newCfg := none, en := if enabled then .enabled else .disabled, st := if enabled then .offline else .disabled,
    inImg := List.replicate 64 0#8, outImg := List.replicate 64 0#8, safeImg := List.replicate 48 0#8, declared := .good, acq := none,
    nosync := false, safe := false, boot := 0, pending := false, txSeq := none, rxSeq := 0, rxWin := [], order := [], txns := [],
    outstanding := [], sentAt := [], lastImage := none, lastRx := 0, offSince := now, retSince := now, retDone := [], noackRun := 0,
    offlineCount := 0, noackCount := 0, discards := 0, lateReplies := 0, retired := 0, quiSince := now }

/-- Contexts in the order of their ids. -/
def insCtx (c : Ctx) : List Ctx → List Ctx
  | [] => [c]
  | d :: ds => if c.cfg.station < d.cfg.station then c :: d :: ds else if c.cfg.station = d.cfg.station then c :: ds else d :: insCtx c ds

/-- An order of a set-up image, not of a host. -/
def refOfImage : OrderRef → Bool
  | .setup _ => true
  | _ => false

/-- STN_CTX. Only the set-up image creates a context and enables it (R278, R320); a host's order changes an existing one: its ADDR,
RPORT and QDEPTH, at once before the seal, and once the context is DISABLED after it. -/
def State.stnCtx (s : State) (ref : OrderRef) (c : StnCtxCfg) : State :=
  let say (s : State) (st : Nat) : State := s.answer ref 0x0802 (orderDone st)
  if !stnCtxOk c then say s stRange
  else if refOfImage ref then
    say { s with stn := { s.stn with ctxs := insCtx (freshCtx c (c.flags / 2 % 2 == 1) s.now) s.stn.ctxs } } stDone
  else match s.ctxOf c.station with
    | none => say s stRange
    | some x =>
      if s.setup.sealed && c.flags % 2 ≠ x.cfg.flags % 2 && c.addr = x.cfg.addr then say s stSealed
      else
        let n : StnCtxCfg := { c with flags := x.cfg.flags / 2 * 2 + c.flags % 2 }
        let now := x.en == .disabled || !s.setup.sealed
        say (s.setCtx c.station (fun x => if now then { x with cfg := n } else { x with newCfg := some n })) stDone

def execStnCtx (ref : OrderRef) (c : StnCtxCfg) (s : State) : Host.Outcome State Fault Refusal :=
  .next (s.runOrder ref 0x0802 (fun s => s.stnCtx ref c))

/-- STN_SAFE: the 48 bytes read from the host. -/
def State.stnSafeCfg (s : State) (ref : OrderRef) (id : Nat) (img : List Byte) : State :=
  if (s.ctxOf id).isNone then s.answer ref 0x0803 (orderDone stRange)
  else (s.setCtx id (fun c => { c with safeImg := padTo 48 img })).answer ref 0x0803 (orderDone stDone)

def execStnSafe (ref : OrderRef) (station : Nat) (image : List Byte) (s : State) : Host.Outcome State Fault Refusal :=
  .next (s.runOrder ref 0x0803 (fun s => s.stnSafeCfg ref station image))

/-- Enable or disable one context (R318). -/
def State.ctxEnable (s : State) (id : Nat) (want : Bool) : State × Bool :=
  match s.ctxOf id with
  | none => (s, true)
  | some c =>
    if want then
      match c.en with
      | .quiescing => (s, false)
      | .enabled => (s, true)
      | .disabled =>
        let s : State := s.setCtx id (fun c => { c with
          en := .enabled, st := .offline, rxWin := [], offSince := s.now, noackRun := 0, retDone := [] })
        ((s.tStation id).mirrorCtx id, true)
    else if c.en ≠ .enabled then (s, true)
    else
      let gone := (c.order.filter (fun w => w.retry.isNone)).length
      let s : State := s.setCtx id (fun c => { c with en := .quiescing, retired := gone, quiSince := s.now })
      let s : State := s.retireFrames id
      (((s.rollStationLost id).mirrorCtx id).settleStn id, true)

/-- STN_CTL. -/
def State.stnCtl (s : State) (ref : OrderRef) (station enable : Nat) : State :=
  let ids : List Nat := if station = 0xFFFF then s.stnConfigured else [station]
  let back (s : State) : List Fld :=
    let ens := ids.map (fun c => ((s.ctxOf c).map (·.en)).getD .disabled)
    let least := if ens.isEmpty || ens.contains .disabled then Enable.disabled
      else if ens.contains .quiescing then Enable.quiescing else Enable.enabled
    [u16 station, u8 (enCode least)]
  if 1 < enable || ids.any (fun c => (s.ctxOf c).isNone) then s.answer ref 0x0804 (stateReport stRange (back s))
  else
    let r : State × Bool := ids.foldl (fun (r : State × Bool) c =>
      let q := r.1.ctxEnable c (enable == 1)
      (q.1, r.2 && q.2)) (s, true)
    r.1.answer ref 0x0804 (stateReport (if r.2 then stDone else stQuiescing) (back r.1))

def execStnCtl (ref : OrderRef) (station enable : Nat) (s : State) : Host.Outcome State Fault Refusal :=
  .next (s.runOrder ref 0x0804 (fun s => s.stnCtl ref station enable))

/-- STN_QUERY. -/
def State.stnQuery (s : State) (ref : OrderRef) (first count addr : Nat) : State :=
  let body (st n : Nat) : List Fld := [u8 st, u8 0, u8 0, u8 0, u32 n]
  if 0x3FF < first || !between 1 1024 count || addr % 16 ≠ 0 then s.answer ref 0x0805 (ownReport 1 (body 1 0))
  else
    let cs := (s.stn.ctxs.filter (fun c => first ≤ c.cfg.station)).take count
    (s.toHost (.hostData addr (cs.map (s.ctxEntry)).flatten)).answer ref 0x0805 (ownReport 0 (body 0 cs.length))

def execStnQuery (ref : OrderRef) (first count addr : Nat) (s : State) : Host.Outcome State Fault Refusal :=
  .next (s.runOrder ref 0x0805 (fun s => s.stnQuery ref first count addr))

end Sys2Proof.Machine
end

