-- ==== Sys2Proof/Machine/Tally.lean ====
section
/-! DEFINITION. The Logic Tally's releases, cycles, overruns, exchange and orders (spec/11_logic_tally.md). -/

namespace Sys2Proof.Machine

open Sys2Proof

/-! ### Releases and cycles (R369–R374) -/

/-- TALLY_CYCLIC_RELEASE: the task is released at its TAI instant; a cycle that is not done is a period overrun. -/
def State.tRelease (s : State) (k : Nat) : State :=
  let t := s.task k
  let p := (s.taskDef k).param
  let inst := s.tai / (p * msNs) * (p * msNs)
  if 8 ≤ k || !s.taskUsed k || !s.tallyRuns || inst ≤ t.lastPer then s
  else
    let s : State := s.setTask k { t with lastPer := inst }
    if s.tally.en ≠ .enabled then s
    else if t.rel.isSome || t.started then s.tStop 1 k (s.tIndex k) (p * 1000)
    else s.setTask k { t with lastPer := inst, rel := some (inst, s.now) }

def execTallyCyclicRelease (task : Nat) (s : State) : Host.Outcome State Fault Refusal := .next (s.tRelease task)

/-- A module as it stands when a task copies it (R374, R377). -/
def State.modCopy (s : State) : TMod → ModCopy
  | .dio => ⟨s.dioBytes, if s.xingStopped 0x0B then .invalid else .good, s.tai, false⟩
  | .station id => match s.ctxOf id with
    | some c => ⟨c.inImg, s.inputQuality c, c.acq.getD 0, false⟩
    | none => ⟨[], .invalid, 0, false⟩
  | .rx b o =>
    let r := s.busRead b o
    ⟨r.1, r.2.1, r.2.2, false⟩

/-- The running task is pre-empted: its time so far is kept. -/
def State.tPreempt (s : State) : State :=
  match s.topTask with
  | some k =>
    let t := s.task k
    s.setTask k { t with spent := t.spent + (s.now - t.runFrom.getD s.now), runFrom := none }
  | none => s

/-- TALLY_CYCLE_START. -/
def State.tBegin (s : State) (k : Nat) : State :=
  if !s.tallyRuns || !s.mayStart k then s
  else
    let s : State := s.tPreempt
    let t := s.task k
    let mods := ((s.tally.prog.map (·.reads)).getD []).getD k []
    s.setTask k { t with
      rel := none, started := true, stack := [], w := 0, pc := (s.taskDef k).entry, relAt := (t.rel.getD (0, 0)).1,
      startTai := s.tai, startAt := s.now, spent := 0, runFrom := some s.now, copies := mods.map (fun m => (m, s.modCopy m)),
      writes := [], pubBits := [], pubWords := [], touched := [] }

def execTallyCycleStart (task : Nat) (s : State) : Host.Outcome State Fault Refusal := .next (s.tBegin task)

/-- TALLY_BUDGET_OVERRUN (R373): the time of the cycle, pre-emption excluded, exceeds the budget. -/
def State.tBudget (s : State) (k : Nat) : State :=
  let t := s.task k
  let b := (s.taskDef k).budgetUs
  let spent := t.spent + (match t.runFrom with
    | some a => s.now - a
    | none => 0)
  if 24 ≤ k || !t.started || !s.tallyRuns || spent ≤ b * usNs then s else s.tStop 2 k t.pc b

def execTallyBudgetOverrun (task : Nat) (s : State) : Host.Outcome State Fault Refusal := .next (s.tBudget task)

/-- TALLY_BG_OVERRUN (R373): the background cycle has lasted longer than BG_MAX_MS, pre-emption included. -/
def State.tBgOverrun (s : State) : State :=
  let t := s.task 24
  let m := (s.taskDef 24).param
  if !t.started || !s.tallyRuns || s.now - t.startAt ≤ m * msNs then s else s.tStop 3 24 t.pc (m * 1000)

def execTallyBgOverrun (s : State) : Host.Outcome State Fault Refusal := .next s.tBgOverrun

/-- The controller reads its code memory: an uncorrectable error in the running bank stops it (R379, cause 6). -/
def State.codeRead (s : State) (bank : Nat) (what : MemAccess) : State :=
  if what = .double then
    (if s.tally.prog.isSome && bank = s.tally.bank then s.tStopPlain 6 else s).emit (.memAck .void)
  else s.emit (.memAck .normal)

/-- MEMORY_ACCESS: of the fabric's memories (R52, R53), or of a bank of the Tally's code memory (R379). -/
def State.anyAccess (s : State) (a : MemReq) : State :=
  if a.mem = .tallyCode then s.codeRead a.idx a.what else s.memoryAccess a

def execMemoryAccess (mem : MemKind) (idx addr : Nat) (what : MemAccess) (reader ckptOf : Option Half) (s : State) :
    Host.Outcome State Fault Refusal :=
  .next (s.anyAccess ⟨mem, idx, addr, what, reader, ckptOf⟩)

/-- How many changes of a quadrature count are kept, to latch it at a sample's instant. -/
def quadDepth : Nat := 1024

/-- DIO_EDGE (R327, R357, R371): an edge crosses on crossing 0x0B, with its line's count and its pair's quadrature count. -/
def State.dioEdge (s : State) (line : Nat) (level : Bool) : State :=
  if 32 ≤ line || getBit s.tally.dioIn line == level || s.xingStopped 0x0B then s
  else
    let n := (alGet s.tally.dioCount line).getD 0
    let was := s.tally.dioIn
    let dio := if level then setBit was line else clrBit was line
    let a := line / 2 * 2
    let q := (alGet s.tally.quad a).getD []
    let c := (q.head?.map Prod.snd).getD 0
      + Config.quadStep (getBit was a) (getBit was (a + 1)) (getBit dio a) (getBit dio (a + 1))
    let s : State := { s with tally := { s.tally with
      dioIn := dio, quad := alPut s.tally.quad a (((s.tai, c) :: q).take quadDepth),
      dioCount := if level then alPut s.tally.dioCount line (n + 1) else s.tally.dioCount } }
    s.tEdge line level

def execDioEdge (line : Nat) (level : Bool) (s : State) : Host.Outcome State Fault Refusal := .next (s.dioEdge line level)

/-! ### Exchange (R390, R391) -/

/-- No cyclic or event task is running or released. -/
def State.exchangePoint (s : State) : Bool :=
  (List.range 24).all (fun k => !(s.task k).started && (s.task k).rel.isNone) && !(s.task 24).started

/-- What becomes of the instances (R391): kept where number and kind match, reset otherwise. -/
def carryInsts (t : Tally) (old new : List InstDef) : Tally :=
  let same (d : InstDef) : Bool := old.any (fun e => e.area == d.area && e.inst == d.inst && e.kind == d.kind)
  let timers := (new.filter (fun d => d.area == 4)).foldl (fun l d =>
    alPut l d.inst (if same d then { (alGet t.timers d.inst).getD default with preset := d.preset.toNat } else freshTimer d)) []
  let counters := (new.filter (fun d => d.area == 5)).foldl (fun l d =>
    alPut l d.inst (if same d then { (alGet t.counters d.inst).getD default with preset := d.preset } else freshCounter d)) []
  let edges := (new.filter (fun d => d.area == 6)).foldl (fun l d =>
    alPut l d.inst (if same d then (alGet t.edges d.inst).getD default else ⟨false, false, false⟩)) []
  { t with timers := timers, counters := counters, edges := edges }

/-- The bank switch, the carry-over and the new sets take effect together. -/
def State.exchangeNow (s : State) : State :=
  let oldRev := s.tallyRev
  let old := (s.tally.prog.map (·.insts)).getD []
  let s : State := s.activateBank
  let new := (s.tally.prog.map (·.insts)).getD []
  let s : State := { s with tally := carryInsts s.tally old new }
  let known (l : List InstDef) (d : InstDef) : Bool := l.any (fun e => e.area == d.area && e.inst == d.inst)
  let kept := (new.filter (fun d => old.any (fun e => e.area == d.area && e.inst == d.inst && e.kind == d.kind))).length
  let added := (new.filter (fun d => !known old d)).length
  let gone := (old.filter (fun d => !known new d)).length
  let s : State := { s with stn := { s.stn with ctxs := s.stn.ctxs.map (fun c =>
    if c.st = .returning then { c with retDone := [], retSince := s.now } else c) } }
  let s : State := s.raise 0x84 [u32 oldRev, u32 s.tallyRev, u16 kept, u16 (new.length - kept - added + gone), u16 added]
  (s.mirrorTally 0xFF 0xFF 0 []).judgeFit

/-- TALLY_EXCHANGE_POINT. -/
def State.tExchange (s : State) : State :=
  match s.tally.exch with
  | some x =>
    if s.tally.run ≠ .exchanging || !s.exchangePoint then s
    else
      let s : State := s.exchangeNow
      let s : State := { s with tally := { s.tally with exch := none, run := .running } }
      s.tSchedule.tallyAnswer x.ref 0x0A02 0 0
  | none => s

def execTallyExchangePoint (s : State) : Host.Outcome State Fault Refusal := .next s.tExchange

/-- TALLY_EXCH_TIMEOUT: no exchange point within EXCH_WAIT_MS. -/
def State.exchTimeout (s : State) : State :=
  match s.tally.exch with
  | some x => if s.now < x.since + s.tally.cfg.exchWaitMs * msNs then s else s.refuseExchange
  | none => s

def execTallyExchTimeout (s : State) : Host.Outcome State Fault Refusal := .next s.exchTimeout

/-! ### Loads (R388, R389, R393) -/

/-- A load ends other than OK. -/
def State.rejectLoad (s : State) (ref : OrderRef) (st detail : Nat) : State :=
  (s.raise 0x83 [u16 st, u32 detail]).tallyAnswer ref 0x0A01 st detail

/-- TALLY_LOAD. -/
def State.tallyLoad (s : State) (ref : OrderRef) (img : List Byte) (length flags : Nat) : State :=
  if 3 < flags then s.rejectLoad ref 0x15 0
  else
    let r := tallyChecks img length s.houseId s.fuse
    if r.1 ≠ 0 then s.rejectLoad ref r.1 r.2
    else if s.tally.load.isSome || s.tally.exch.isSome then s.rejectLoad ref 0x0C 0
    else if flags % 2 = 1 then s.tallyAnswer ref 0x0A01 0 0
    else
      let force := 2 ≤ flags
      let s : State := if s.standbyThere then s.mirrorImage 1 img else s
      let stage : TLoadStage := if s.standbyThere && !force then .mirroring else .writing
      { s with tally := { s.tally with load := some ⟨ref, img, force, stage, false⟩ } }

def execTallyLoad (ref : OrderRef) (img : List Byte) (length flags : Nat) (s : State) : Host.Outcome State Fault Refusal :=
  .next (s.runOrder ref 0x0A01 (fun s => s.tallyLoad ref img length flags))

/-- The standby's verdict on a program image. -/
def State.tallyVerdict (s : State) (status : Nat) : State :=
  match s.tally.load with
  | some l =>
    if l.stage ≠ .mirroring then s
    else if status = 0 then { s with tally := { s.tally with load := some { l with stage := .writing } } }
    else ({ s with tally := { s.tally with load := none } }).rejectLoad l.ref 0x0D 0
  | none => s

/-- TALLY_BANK_WRITTEN: the bank that is not running is written with its flash copy; a read-back failure is retried once. A load
whose standby has gone waits for no verdict. -/
def State.bankWritten (s : State) (ok : Bool) : State :=
  match s.tally.load with
  | some l =>
    if l.stage = .mirroring && s.standbyThere then s
    else if ok then
      let s : State := s.setBank s.spareBank ⟨l.bytes, 0⟩
      ({ s with tally := { s.tally with load := none, loaded := true } }).tallyAnswer l.ref 0x0A01 0 0
    else if l.retried then
      let s : State := s.setBank s.spareBank ⟨[], 0⟩
      ({ s with tally := { s.tally with load := none, loaded := false } }).rejectLoad l.ref 0x0E 0
    else { s with tally := { s.tally with load := some { l with retried := true } } }
  | none => s

def execTallyBankWritten (ok : Bool) (s : State) : Host.Outcome State Fault Refusal := .next (s.bankWritten ok)

/-! ### Orders (R381, R390, R392, R394–R396) -/

/-- TALLY_EXCHANGE. -/
def State.tallyExchange (s : State) (ref : OrderRef) : State :=
  let refuse (st : Nat) : State := s.tallyAnswer ref 0x0A02 st 0
  if s.follows then refuse 0x16
  else if s.tally.exch.isSome || s.tally.load.isSome then refuse 0x0C
  else if !s.tally.loaded then refuse 0x13
  else if s.tally.run = .stopped then refuse 0x11
  else if s.tally.en = .quiescing then refuse 0x14
  else { s with tally := { s.tally with exch := some ⟨ref, s.now⟩, run := .exchanging } }

def execTallyExchange (ref : OrderRef) (s : State) : Host.Outcome State Fault Refusal :=
  .next (s.runOrder ref 0x0A02 (fun s => s.tallyExchange ref))

/-- TALLY_RUN: a restart; a loaded image becomes the running bank first. -/
def State.tallyRunOrder (s : State) (ref : OrderRef) (mode : Nat) : State :=
  let refuse (st : Nat) : State := s.tallyAnswer ref 0x0A03 st 0
  if 1 < mode then refuse 0x15
  else if s.tally.run ≠ .stopped then refuse 0x10
  else if s.follows then refuse 0x16
  else if s.tally.en = .quiescing then refuse 0x14
  else if s.tally.en = .disabled then
    s.answer ref 0x0A03 (stateReport stDisabled [u8 0, u8 0, u16 0, u32 s.tallyRev])
  else
    let s : State := if s.tally.loaded then
        (let s : State := s.activateBank
         (s.mirror 0x0C [u8 1, u8 0, u16 0, u32 s.tallyRev]).judgeFit)
      else s
    if s.tally.prog.isNone then s.tallyAnswer ref 0x0A03 0x13 0
    else (s.tStart (mode == 0) false).tallyAnswer ref 0x0A03 0 0

def execTallyRun (ref : OrderRef) (mode : Nat) (s : State) : Host.Outcome State Fault Refusal :=
  .next (s.runOrder ref 0x0A03 (fun s => s.tallyRunOrder ref mode))

/-- TALLY_STOP. -/
def State.tallyStopOrder (s : State) (ref : OrderRef) : State :=
  if s.tally.run = .stopped then s.tallyAnswer ref 0x0A04 0x11 0
  else (s.tStopPlain 4).tSettle.tallyAnswer ref 0x0A04 0 0

def execTallyStop (ref : OrderRef) (s : State) : Host.Outcome State Fault Refusal :=
  .next (s.runOrder ref 0x0A04 (fun s => s.tallyStopOrder ref))

/-- TALLY_CTL: releases that have not started retire at a disable (R43, R392). -/
def State.tallyCtl (s : State) (ref : OrderRef) (enable : Nat) : State :=
  let say (s : State) (st : Nat) : State := s.answer ref 0x0A05 (stateReport st [u8 (enCode s.tally.en)])
  if 1 < enable then say s stRange
  else if enable = 1 then
    if s.tally.en = .quiescing then say s stQuiescing else say { s with tally := { s.tally with en := .enabled } } stDone
  else if s.tally.en ≠ .enabled then say s stDone
  else
    let retire (t : TaskSt) : TaskSt := { t with rel := none }
    let s : State := { s with tally := { s.tally with en := .quiescing, quiesced := 0, tasks := s.tally.tasks.map retire } }
    say s.tSettle stDone

def execTallyCtl (ref : OrderRef) (enable : Nat) (s : State) : Host.Outcome State Fault Refusal :=
  .next (s.runOrder ref 0x0A05 (fun s => s.tallyCtl ref enable))

/-- TALLY_TRIG. -/
def State.tallyTrig (s : State) (ref : OrderRef) (task : Nat) : State :=
  let refuse (st : Nat) : State := s.tallyAnswer ref 0x0A06 st 0
  if 15 < task then refuse 0x15
  else if s.follows then refuse 0x16
  else if s.tally.run = .stopped then refuse 0x11
  else if s.tally.en = .quiescing then refuse 0x14
  else (s.tTrigger (8 + task)).tallyAnswer ref 0x0A06 0 0

def execTallyTrig (ref : OrderRef) (task : Nat) (s : State) : Host.Outcome State Fault Refusal :=
  .next (s.runOrder ref 0x0A06 (fun s => s.tallyTrig ref task))

/-- A byte of the copy that the host reads: the published one of areas 2 and 3. -/
def State.tPeekByte (s : State) (area a : Nat) : Byte :=
  if area = 2 then Mem.read s.tally.pubMarkers a else if area = 3 then Mem.read s.tally.pubWords a else s.tLive area a

/-- TALLY_PEEK. -/
def State.tallyPeek (s : State) (ref : OrderRef) (area start addr length : Nat) : State :=
  if !between 2 6 area || !between 1 65536 length || areaSize area < start + length then s.tallyAnswer ref 0x0A07 0x15 0
  else
    let bs := (List.range length).map (fun i => u8 (s.tPeekByte area (start + i)).toNat)
    (s.toHost (.hostData addr bs)).tallyAnswer ref 0x0A07 0 0

def execTallyPeek (ref : OrderRef) (area start addr length : Nat) (s : State) : Host.Outcome State Fault Refusal :=
  .next (s.runOrder ref 0x0A07 (fun s => s.tallyPeek ref area start addr length))

/-- TALLY_POKE: one atomic write, published at once. -/
def State.tallyPoke (s : State) (ref : OrderRef) (area start length : Nat) (data : List Byte) : State :=
  let bs := (padTo 32 data).take length
  if !between 2 3 area || !between 1 32 length || areaSize area < start + length then s.tallyAnswer ref 0x0A08 0x15 0
  else if s.follows then s.tallyAnswer ref 0x0A08 0x16 0
  else
    let t := s.tally
    let t : Tally := if area = 2 then
        { t with markers := Mem.writes t.markers start bs, pubMarkers := Mem.writes t.pubMarkers start bs }
      else { t with words := Mem.writes t.words start bs, pubWords := Mem.writes t.pubWords start bs }
    let s : State := ({ s with tally := t }).mirrorTally area 0xFF start bs
    (if area = 2 then s.checkPermits else s).tallyAnswer ref 0x0A08 0 0

def execTallyPoke (ref : OrderRef) (area start length : Nat) (data : List Byte) (s : State) : Host.Outcome State Fault Refusal :=
  .next (s.runOrder ref 0x0A08 (fun s => s.tallyPoke ref area start length data))

/-- TALLY_CFG. DIO_DIR stands after the seal. -/
def State.tallyCfgOrder (s : State) (ref : OrderRef) (c : TallyCfg) : State :=
  if 1 < c.restart || 1 < c.flags || !between 10 10000 c.exchWaitMs || (s.setup.sealed && c.dioDir ≠ s.tally.cfg.dioDir) then
    s.tallyAnswer ref 0x0A09 0x15 0
  else
    let out := if s.tally.run = .stopped then c.safeDio else s.tally.outImg
    ({ s with tally := { s.tally with cfg := c, outImg := out } }).driveDio.tallyAnswer ref 0x0A09 0 0

def execTallyCfg (ref : OrderRef) (c : TallyCfg) (s : State) : Host.Outcome State Fault Refusal :=
  .next (s.runOrder ref 0x0A09 (fun s => s.tallyCfgOrder ref c))

/-- TALLY_SAFE. -/
def State.tallySafe (s : State) (ref : OrderRef) (bus object flags : Nat) (data : List Byte) : State :=
  if 1 < bus || 31 < object || 1 < flags then s.tallyAnswer ref 0x0A0A 0x15 0
  else
    let x := (s.bus bus).txObj object
    (s.setTx bus object { x with safe := padTo 64 data, sendOnStop := flags == 1 }).tallyAnswer ref 0x0A0A 0 0

def execTallySafe (ref : OrderRef) (bus object flags : Nat) (data : List Byte) (s : State) : Host.Outcome State Fault Refusal :=
  .next (s.runOrder ref 0x0A0A (fun s => s.tallySafe ref bus object flags data))

def runCode : TallyRun → Nat
  | .stopped => 0
  | .running => 1
  | .exchanging => 2

/-- The head and the task entries of R396. -/
def State.tallyInfo (s : State) : List Fld :=
  let t := s.tally
  let other := if t.loaded then tRevision (t.banks.getD s.spareBank default).bytes else 0
  [u8 (runCode t.run), u8 (enCode t.en), u8 t.bank, u8 t.stopCause, u32 s.tallyRev, u32 other, u32 t.stopIndex,
    u32 t.stopStamp.toNat] ++ List.replicate 11 (u32 0)
    ++ t.tasks.flatMap (fun x => [u32 x.cycles.toNat, u32 (min x.execLast 0xFFFFFFFF), u32 (min x.execMax 0xFFFFFFFF),
        u16 (min x.merged 0xFFFF), u16 (min x.arith 0xFFFF)])

/-- TALLY_QUERY. -/
def State.tallyQuery (s : State) (ref : OrderRef) (addr : Nat) : State :=
  let s : State := s.toHost (.hostData addr s.tallyInfo)
  let s : State := { s with tally := { s.tally with tasks := s.tally.tasks.map (fun t => { t with execMax := 0 }) } }
  s.answer ref 0x0A0B (ownReport 0 [u8 0])

def execTallyQuery (ref : OrderRef) (addr : Nat) (s : State) : Host.Outcome State Fault Refusal :=
  .next (s.runOrder ref 0x0A0B (fun s => s.tallyQuery ref addr))

end Sys2Proof.Machine
end

