-- ==== Sys2Proof/Machine/Mirror.lean ====
section
/-! DEFINITION. What a tablet does with the mirror records of its twin (spec/14_twin_operation.md, R506–R509). A record comes with
the SEQs of its first and its last MIRROR frame; bodies are in network byte order. -/

namespace Sys2Proof.Machine

open Sys2Proof

/-! ### Frames (R505, R507) -/

/-- A record of a valid MIRROR frame is taken. On a STANDBY a gap in the frames' sequence asks for a resync. -/
def State.mirrorTake (s : State) (first seq : Word) : State :=
  let w := s.twin
  let gap := w.role == .standby && first ≠ w.mirrorRx && first ≠ w.mirrorRx + 1
  let s : State := if gap then
      (let s : State := s.goUnsynced
       { s with twin := { s.twin with resyncGap := true } })
    else s
  { s with twin := { s.twin with mirrorRx := seq, lastMirror := s.now } }

/-- A MIRROR frame arrives: checked as every twin frame, and heard for its epoch (R502, R504); the record is then taken, or not. -/
def State.mirrorFrame (s : State) (h : MirrorHdr) (takes : Bool) (f : State → State) : State :=
  if s.phyOff then s
  else s.twinFrame h.good h.house h.epoch (fun s =>
    let newer := epochRel s.twin.epoch h.epoch == .newer
    if newer && s.twin.role == .solo then s.soloAhead 0xFFFF h.epoch
    else
      let e0 := if s.twin.role = .negotiating then epochMax s.twin.e0 h.epoch else s.twin.e0
      let s : State := { s with twin := { s.twin with heard := epochMax s.twin.heard h.epoch, e0 := e0 } }
      if newer && s.twin.role == .active then s.stepDown h.epoch 0 cNewerEpoch
      else if takes then f (s.mirrorTake h.first h.seq) else s)

/-- A record that only a STANDBY applies. -/
def State.asStandby (s : State) (h : MirrorHdr) (f : State → State) : State :=
  s.mirrorFrame h (s.twin.role = .standby && s.twin.en = .enabled) f

/-- A record that either twin applies. -/
def State.asTwin (s : State) (h : MirrorHdr) (f : State → State) : State :=
  s.mirrorFrame h (s.twin.role != .solo && s.twin.en == .enabled) f

def State.emitting (s : State) : State := { s with twin := { s.twin with emitOk := true } }

/-! ### Copies (R508) -/

/-- What a copy tells of its context: the sequence it used, that a frame was handed over, and of a new set-point command what was
commanded and that it is outstanding (R189, R270, R289, R303). -/
def State.learnStn (s : State) (id : Nat) (frame : List Byte) : State :=
  let seq := BitVec.ofNat 32 (netAt frame 8 4)
  let rs := (parseRecs 140 ((frame.take (frame.length - 4)).drop 0x14)).getD []
  let known := s.roll.hist.any (fun h => h.recv == .station id && h.seq == seq)
  let at_ := s.extendAt (netAt frame 0xC 4) (netAt frame 0x10 4)
  let first := ((recBody 8 rs).map (fun b => netAt b 3 1 % 4 == 0)).getD false
  let s : State := s.setCtx id (fun c => { c with
    sentAt := s.now :: c.sentAt.filter (fun t => s.now < t + secNs)
    outstanding := if netAt frame 1 1 = 1 && first then c.outstanding.filter (fun a => s.tai < a) ++ [at_] else c.outstanding
    txSeq := some (match c.txSeq with
      | some q => if (seq - q).toNat < 2 ^ 31 then seq else q
      | none => seq) })
  let sets := (recBodies 1 rs).filter (fun b => netAt b 0 1 == 0)
  if netAt frame 1 1 = 1 && !known then
    let zone := ((recByKey s.model.run 7 id).map (fun r => u8At r 9)).getD 0xFF
    { s with roll := { s.roll with
      hist := s.roll.hist ++ sets.map (fun b => ⟨.station id, 10, zone, BitVec.ofNat 32 (netAt b 4 4), 0, seq, at_, true, false, false⟩) } }
  else if netAt frame 1 1 = 5 then
    let gone := (recBodies 2 rs).map (fun b => BitVec.ofNat 32 (netAt b 0 4))
    let dead (h : SentCmd) : SentCmd :=
      if h.recv == .station id && gone.contains h.seq then { h with alive := false, cancelled := true } else h
    { s with roll := { s.roll with hist := s.roll.hist.map dead } }
  else s

/-- EMIT_STN: the station frame leaves byte for byte, unless its EPOCH is not this tablet's or its context is DISABLED (R318). -/
def State.emitStn (s : State) (station : Nat) (frame : List Byte) : State :=
  match s.ctxOf station with
  | some c =>
    if netAt frame 6 2 ≠ s.twin.epoch.toNat || s.ring.en = .disabled || s.houseId = 0 || !s.familyOn c.cfg
        || c.en = .disabled then s.twinDiscard
    else (s.emitting.sendStn c.cfg frame).learnStn station frame
  | none => s.twinDiscard

def execMirrorEmitStn (h : MirrorHdr) (station : Nat) (frame : List Byte) (s : State) : Host.Outcome State Fault Refusal :=
  .next (s.asStandby h (fun s => s.emitStn station frame))

/-- EMIT_FBUS: the object's copy goes to this tablet's controller, its data and sequence byte unchanged. -/
def State.emitFbus (s : State) (epoch : Half) (b o : Nat) (data : List Byte) : State :=
  match ((s.bus b).txObj o).cfg with
  | some c =>
    if 2 ≤ b || 32 ≤ o || epoch ≠ s.twin.epoch then s.twinDiscard
    else
      let bs := padTo 64 data
      let q := if cfgBit c.flags 4 then bs.getD c.seqPos 0 else 0
      let x := (s.bus b).txObj o
      let s : State := s.setTx b o { x with data := bs, seqCount := if cfgBit c.flags 4 then q else x.seqCount + 1 }
      let id := (s.bus b).handed
      let s : State := s.setBus b (fun u => { u with handed := u.handed + 1 })
      s.emitting.queueBus b ⟨id, o, bs.take c.len, q, s.now, false, false, none⟩
  | none => s.twinDiscard

def execMirrorEmitFbus (h : MirrorHdr) (bus object _reserved : Nat) (data : List Byte) (s : State) :
    Host.Outcome State Fault Refusal :=
  .next (s.asStandby h (fun s => s.emitFbus h.epoch bus object data))

/-! ### Loops, snapshots, plans (R168, R238, R345) -/

/-- LOOP_OUT: the track value and the set-point in force. -/
def State.loopOutIn (s : State) (n : Nat) (out sp : F32) : State :=
  match s.loopOf n with
  | some l => s.setLoop n { l with track := out, sp := sp }
  | none => s

def execMirrorLoopOut (h : MirrorHdr) (loop : Nat) (out sp : F32) (s : State) :
    Host.Outcome State Fault Refusal :=
  .next (s.asStandby h (fun s => s.loopOutIn loop out sp))

/-- SNAPSHOT: entries of 16 bytes for the measurement indices from FIRST on. -/
def State.snapshotIn (s : State) (solve : Nat) (tick : Word) (first : Nat) (body : List Byte) : State :=
  let at_ := s.extendStamp tick
  let old : List (Nat × Sample) := match s.reck.mirrorSnap with
    | some m => if m.1 = solve then m.2.2 else []
    | none => []
  let entry (i : Nat) : Option (Nat × Sample) :=
    let o := 16 * i
    if (recByKey s.model.run 11 (first + i)).isNone then none
    else
      let q := netAt body (o + 8) 1
      some (first + i, ⟨BitVec.ofNat 32 (netAt body o 4), qOfCode q, s.extendStamp (BitVec.ofNat 32 (netAt body (o + 4) 4)), 2 ≤ q⟩)
  let new := (List.range (body.length / 16)).filterMap entry
  { s with reck := { s.reck with mirrorSnap := some (solve, at_, new.foldl (fun l p => alPut l p.1 p.2) old) } }

def execMirrorSnapshot (h : MirrorHdr) (solve : Nat) (tick : Word) (first : Nat) (entries : List Byte) (s : State) :
    Host.Outcome State Fault Refusal :=
  .next (s.asStandby h (fun s => s.snapshotIn solve tick first entries))

def netF32 (bs : List Byte) (o : Nat) : F32 := BitVec.ofNat 32 (netAt bs o 4)

/-- A plan item in network order (R242). -/
def itemIn (bs : List Byte) (o : Nat) : PlanItem :=
  { kind := netAt bs o 1, flags := netAt bs (o + 1) 1, object := netAt bs (o + 2) 2, step := netAt bs (o + 4) 2,
    value := netF32 bs (o + 8), dual := netF32 bs (o + 12) }

/-- A PLAN_SUMMARY and its items in network order (R243). -/
def planIn (bs : List Byte) : Plan :=
  { number := netAt bs 0 4, status := netAt bs 5 1, relax := netAt bs 7 1, boundary := netAt bs 8 4, solve := netAt bs 0xC 4,
    flags := netAt bs 0x12 2, items := (List.range ((bs.length - 48) / 16)).map (fun i => itemIn bs (48 + 16 * i)),
    iters := netAt bs 0x10 2, durationUs := netAt bs 0x14 4, objective := netF32 bs 0x18, cost := netF32 bs 0x1C,
    carbon := netF32 bs 0x20, unmet := netF32 bs 0x24, handed := netAt bs 0x28 2, withheld := netAt bs 0x2A 2,
    primal := netF32 bs 0x2C, duals := (List.range ((bs.length - 48) / 16)).map (fun i => itemIn bs (48 + 16 * i)) }

/-- LAYER, STATUS, REASON, RELAX and the items' KIND are codes of R242 and R243 (R15). -/
def planCodesOk (bs : List Byte) : Bool :=
  netAt bs 4 1 ≤ 1 && netAt bs 5 1 ≤ 7 && netAt bs 6 1 ≤ 4 && netAt bs 7 1 ≤ 2 && (planIn bs).items.all (fun i => i.kind ≤ 10)

/-- PLAN: a promoted standby warm-starts from it (R229, R238). -/
def State.planTake (s : State) (bs : List Byte) : State :=
  if !planCodesOk bs then s.twinDiscard else
  let y : Layer := if netAt bs 4 1 = 0 then .day else .pressure
  let p := planIn bs
  let x := s.layer y
  s.setLayer y { x with plan := some p, plans := max x.plans p.number, lastRelax := p.relax, coldNext := false, fails := 0 }

def execMirrorPlan (h : MirrorHdr) (body : List Byte) (s : State) : Host.Outcome State Fault Refusal :=
  .next (s.asStandby h (fun s => s.planTake body))

/-! ### Rollouts (R269) -/

def rollStOf (n : Nat) : Option RollSt :=
  match n with
  | 0 => some .queued
  | 1 => some .vetting
  | 2 => some .released
  | 3 => some .done
  | 4 => some .superseded
  | 5 => some .held
  | 6 => some .retired
  | _ => none

/-- The TAI instant nearest to now that is a whole millisecond and has a given stamp32 (R249, R463): 1 ms is 2⁶ × 15 625 ns, so a stamp
tells whole milliseconds apart for 2²⁶ of them. -/
def State.extendMs (s : State) (w : Word) : Nat :=
  let n := w.toNat / 64 * 12738873 % 2 ^ 26
  let base := s.tai / msNs
  let d := (n + 2 ^ 26 - base % 2 ^ 26) % 2 ^ 26
  (if d < 2 ^ 25 then base + d else base + d - 2 ^ 26) * msNs

/-- The commands of a rollout in the order of sending, by their places in its schedule. -/
def Rollout.order : Nat → Rollout → Nat → List Nat
  | 0, _, _ => []
  | n + 1, x, horizon => match firstDue x horizon with
    | some p => p.1 :: Rollout.order n (x.markCmd p.1 (fun c => { c with st := .sent })) horizon
    | none => []

/-- The copy of a command among the commands sent. -/
def State.copyOf (s : State) (c : RollCmd) : Option SentCmd :=
  s.roll.hist.reverse.find? (fun h => h.recv == c.recv && h.applyAt == c.applyAt)

/-- A command up to NEXT was sent: for a station a copy tells so, unless it is served in single-emitter mode; a loop takes it only
where it takes set-points at all (R350). -/
def State.wasSent (s : State) (c : RollCmd) : Bool :=
  match c.recv with
  | .station id => (s.copyOf c).isSome || s.seStation id
  | .loop n => ((s.loopOf n).map (fun l => l.srcKind oSp == 8)).getD false
  | .bus _ _ => true

/-- A command of a mirrored schedule up to NEXT: sent, with the sequence that its copy carried, or skipped. -/
def State.asSent (s : State) (c : RollCmd) : RollCmd :=
  if s.wasSent c then { c with st := .sent, seq := ((s.copyOf c).map (·.seq)).getD 0 } else { c with st := .skipped }

/-- The time between stages, ms, from the first and last apply-at, the stages and the stagger of a report. -/
def stageOf (spanMs stages stagger stations dflt : Nat) : Nat :=
  if stages ≤ 1 then dflt else (spanMs - (stations - 1) * stagger) / (stages - 1)

/-- The items of a ROLLOUT record with the value last commanded before the rollout. -/
def rollItems (bs : List Byte) : List (RollItem × F32) :=
  (List.range (netAt bs 0x34 2)).map (fun i =>
    let o := 0x38 + 16 * i
    (⟨netAt bs o 1, netAt bs (o + 2) 2, netF32 bs (o + 8)⟩, netF32 bs (o + 4)))

/-- What a receiver was last commanded before A1, as the mirror tells: the copies of earlier commands, else LAST of the record. -/
def State.lastBefore (s : State) (a1 : Nat) (lasts : List (RollItem × F32)) (i : RollItem) (r : Receiver) : F32 :=
  (s.latestCmd r (fun h => decide (h.applyAt < a1))).getD (((lasts.find? (fun p => p.1 == i)).map Prod.snd).getD 0)

/-- The schedule of a mirrored rollout: as an earlier record of the same schedule gave it, else from LAST, TARGET and STAGES. -/
def State.mirroredSchedule (s : State) (x : Rollout) (lasts : List (RollItem × F32)) (a1 m : Nat) : Rollout :=
  let same (y : Rollout) : Bool :=
    y.id == x.id && y.a1 == some a1 && y.stages == m && y.staggerMs == x.staggerMs && y.stageMs == x.stageMs && y.slow == x.slow
  let y : Rollout := match s.roll.mirror.find? same with
    | some y => { x with
      a1 := y.a1, stages := m, cmds := y.cmds.map (fun c => { c with st := .new }), stations := y.stations, offline := y.offline,
      stageMs := y.stageMs }
    | none => s.schedule x (s.lastBefore a1 lasts) a1 m
  { y with lasts := lasts.map Prod.snd }

/-- A command that a mirrored rollout has sent, among the commands sent: its copy's entry takes the rollout's id; a command without a
copy is added (R270). -/
def State.knowSent (s : State) (x : Rollout) (c : RollCmd) : State :=
  let isIt (h : SentCmd) : Bool := h.recv == c.recv && h.applyAt == c.applyAt
  let hist := if s.roll.hist.any isIt then
      s.roll.hist.map (fun h => if isIt h then { h with rollout := x.id, kind := c.kind, object := c.object } else h)
    else s.roll.hist ++ [⟨c.recv, c.kind, c.object, c.value, x.id, c.seq, c.applyAt, true, false, false⟩]
  { s with roll := { s.roll with hist := hist } }

/-- The rollout that a ROLLOUT record in a state describes: its schedule, and its first NEXT commands sent. -/
def State.rolloutIn (s : State) (bs : List Byte) (st : RollSt) : State × Rollout :=
  let kind := netAt bs 2 1
  let obj := netAt bs 3 1
  let unit : RollUnit := if kind = 0 then .zone obj else if kind = 1 then .plant obj else .store obj
  let its := rollItems bs
  let fl := netAt bs 7 1
  let a1 := s.extendMs (BitVec.ofNat 32 (netAt bs 0x10 4))
  let a2 := s.extendMs (BitVec.ofNat 32 (netAt bs 0x14 4))
  let stagger := netAt bs 0x24 2
  let m := max 1 (netAt bs 0x22 2)
  let x : Rollout := { s.newRoll ⟨unit, netAt bs 8 4, its.map (fun p => (p.1.kind, p.1.object, p.1.target)), 0⟩ with
      id := netAt bs 0 2, st := st, reason := netAt bs 5 1, submits := netAt bs 6 1,
      slow := fl % 2 == 1, shifted := fl / 2 % 2 == 1, reshaped := fl / 4 % 2 == 1, supersedes := fl / 8 % 2 == 1,
      twinContinued := fl / 16 % 2 == 1, withheld := fl / 32 % 2 == 1, run := netAt bs 0xC 4, staggerMs := stagger,
      handedAt := s.now - netAt bs 0x28 4 * msNs }
  let up := ((its.filter (fun p => p.1.kind == 10)).flatMap (fun p => zoneStations s.model.run p.1.object)).filter s.stnUp
  let x : Rollout := { x with stageMs := stageOf ((a2 - a1) / msNs) m stagger up.length s.roll.cfg.stageMs }
  let put (s : State) (q : Receiver × F32) : State := s.noteBase q.1 q.2
  let s : State := (its.flatMap (fun p => (s.itemRecvs unit p.1).map (fun r => (r, p.2)))).foldl put s
  let x : Rollout := if netAt bs 0x10 4 = 0 then x else s.mirroredSchedule x its a1 m
  let sentIdx := x.order (netAt bs 0x30 2) (a2 + 120 * secNs)
  let x : Rollout := sentIdx.foldl (fun x i => x.markCmd i s.asSent) x
  let s : State := (x.cmds.filter (fun c => c.st == .sent)).foldl (fun s c => s.knowSent x c) s
  (s, { x with sent := netAt bs 0x1A 2, withdrawn := netAt bs 0x1C 2, pending := netAt bs 0x1E 2, late := netAt bs 0x20 2 })

/-- The loop set-points of a rollout that was stopped are withdrawn where they lie more than 20 ms ahead (R261). -/
def State.loopCmdsGone (s : State) (id : Nat) : State :=
  let t := s.tai / msNs * msNs + msNs + 20 * msNs
  let loop : Receiver → Bool
    | .loop _ => true
    | _ => false
  let dead (h : SentCmd) : SentCmd := if h.rollout == id && loop h.recv && t < h.applyAt then { h with alive := false, cancelled := true } else h
  { s with roll := { s.roll with hist := s.roll.hist.map dead } }

/-- ROLLOUT: a record in place of the earlier one of the same rollout; a rollout that has ended leaves the mirror. One with a reserved
unit, reason or item kind is discarded (R15, R276). -/
def State.rolloutTake (s : State) (bs : List Byte) : State :=
  match rollStOf (netAt bs 4 1) with
  | none => s.twinDiscard
  | some st =>
  if 2 < netAt bs 2 1 || 11 < netAt bs 5 1 || (rollItems bs).any (fun p => 10 < p.1.kind) then s.twinDiscard else
  let r := s.rolloutIn bs st
  let s : State := r.1
  let x := r.2
  let old := s.roll.mirror
  let lives := x.st == .queued || x.st == .vetting || x.st == .released
  let mirror := if !lives then old.filter (fun y => y.id != x.id)
    else if old.any (fun y => y.id == x.id) then old.map (fun y => if y.id == x.id then x else y)
    else old ++ [x]
  let s : State := if x.st == .superseded || x.st == .held then s.loopCmdsGone x.id else s
  { s with roll := { s.roll with mirror := mirror, nextId := netAt bs 0x32 2 } }

def execMirrorRollout (h : MirrorHdr) (body : List Byte) (s : State) : Host.Outcome State Fault Refusal :=
  .next (s.asStandby h (fun s => s.rolloutTake body))

/-! ### Station contexts (R323, R506) -/

def ctxStOf (n : Nat) : Option CtxSt :=
  match n with
  | 0 => some .online
  | 1 => some .stale
  | 2 => some .offline
  | 3 => some .returning
  | 4 => some .disabled
  | _ => none

def enOfCode (n : Nat) : Option Enable :=
  match n with
  | 0 => some .disabled
  | 1 => some .enabled
  | 2 => some .quiescing
  | _ => none

/-- Timed commands outstanding as QUEUED tells them: of those that no copy has shown the apply-at is taken at R253's horizon of 60 s
(assumption). -/
def State.queuedIn (s : State) (c : Ctx) (n : Nat) : List Nat :=
  if n = 0 then [] else if c.outstanding.isEmpty then List.replicate n (s.tai + 60 * secNs) else c.outstanding

/-- CONTEXT: the context entry and the output image. A context that this tablet has not configured is discarded, and a record with a
reserved state or enable (R15). TX_SEQ 0 tells of a context not used yet (R289). -/
def State.contextTake (s : State) (bs : List Byte) : State :=
  let id := netAt bs 0 2
  match s.ctxOf id, ctxStOf (netAt bs 2 1), enOfCode (netAt bs 3 1) with
  | some c, some st, some en =>
    let fl := netAt bs 5 1
    let w32 (o : Nat) : Word := BitVec.ofNat 32 (netAt bs o 4)
    (s.setCtx id (fun c' => { c' with
      st := st, en := en, outstanding := s.queuedIn c' (netAt bs 7 1)
      quiSince := if en = .quiescing && c.en != .quiescing then s.now else c'.quiSince
      pending := fl % 2 == 1, safe := fl / 2 % 2 == 1, nosync := fl / 4 % 2 == 1, txSeq := if w32 8 = 0 && c.txSeq.isNone then none else some (w32 8), rxSeq := w32 0xC,
      lastRx := w32 0x10, offlineCount := netAt bs 0x14 2, noackCount := netAt bs 0x16 2, discards := w32 0x18,
      lateReplies := w32 0x1C, outImg := padTo 64 (bs.drop 32),
      offSince := if st = .offline && c.st != .offline then s.now else c'.offSince,
      retSince := if st = .returning && c.st != .returning then s.now else c'.retSince,
      retDone := if st = c.st then c'.retDone else [] })).checkpoint (stnRole id)
  | _, _, _ => s.twinDiscard

def execMirrorContext (h : MirrorHdr) (body : List Byte) (s : State) : Host.Outcome State Fault Refusal :=
  .next (s.asStandby h (fun s => s.contextTake body))

/-! ### The Tally (R393) -/

def timerIn (t : Timer) (bs : List Byte) : Timer :=
  let f := u8At bs 8
  { t with elapsed := u32At bs 0, preset := u32At bs 4, q := f % 2 == 1, running := f / 2 % 2 == 1, inPrev := f / 4 % 2 == 1 }

def counterIn (c : Counter) (bs : List Byte) : Counter :=
  let f := u8At bs 8
  { c with
    count := word (u32At bs 0), preset := word (u32At bs 4), q := f % 2 == 1, inPrev := f / 4 % 2 == 1,
    upPrev := f / 4 % 2 == 1, downPrev := f / 4 % 2 == 1 }

/-- Each instance of a size that a range covers, with its number and bytes. -/
def instsIn (size start : Nat) (bs : List Byte) : List (Nat × List Byte) :=
  (List.range (bs.length / size)).map (fun i => (start / size + i, (bs.drop (size * i)).take size))

/-- Timer records. One that changes ELAPSED or STATUS is an evaluation's, at this time; one that does not (a PRESET stored, a resync)
leaves the time of the last evaluation as it was known (R393). -/
def State.tallyTimersIn (s : State) (start : Nat) (bs : List Byte) : State :=
  let one (l : List (Nat × Timer)) (p : Nat × List Byte) : List (Nat × Timer) :=
    let old := s.timerOf p.1
    let new := timerIn old p.2
    let same := new.elapsed == old.elapsed && new.q == old.q && new.running == old.running && new.inPrev == old.inPrev
    alPut l p.1 (if same && old.last.isSome then new else { new with last := some s.tai, frac := 0 })
  { s with tally := { s.tally with timers := (instsIn 16 start bs).foldl one s.tally.timers } }

def State.tallyCountersIn (s : State) (start : Nat) (bs : List Byte) : State :=
  let one (l : List (Nat × Counter)) (p : Nat × List Byte) : List (Nat × Counter) := alPut l p.1 (counterIn (s.counterOf p.1) p.2)
  { s with tally := { s.tally with counters := (instsIn 16 start bs).foldl one s.tally.counters } }

def State.tallyEdgesIn (s : State) (start : Nat) (bs : List Byte) : State :=
  let one (l : List (Nat × Edge)) (p : Nat × List Byte) : List (Nat × Edge) :=
    alPut l p.1 ⟨u8At p.2 0 % 2 == 1, u8At p.2 0 / 2 % 2 == 1, true⟩
  { s with tally := { s.tally with edges := (instsIn 1 start bs).foldl one s.tally.edges } }

/-- TALLY: an exchange point, or a changed range of an area. -/
def State.tallyIn (s : State) (area start : Nat) (bs : List Byte) : State :=
  let s : State := { s with tally := { s.tally with lastMirror := s.now } }
  let t := s.tally
  let over_ (old : List Byte) (o : Nat) : List Byte := old.take o ++ bs ++ old.drop (o + bs.length)
  match area with
  | 0xFF => if t.loaded then s.exchangeNow else s
  | 1 => ({ s with tally := { t with outImg := word (u32At (over_ (leBytes 4 t.outImg.toNat) start) 0) } }).driveDio
  | 2 => { s with tally := { t with markers := Mem.writes t.markers start bs, pubMarkers := Mem.writes t.pubMarkers start bs } }
  | 3 => { s with tally := { t with words := Mem.writes t.words start bs, pubWords := Mem.writes t.pubWords start bs } }
  | 4 => s.tallyTimersIn start bs
  | 5 => s.tallyCountersIn start bs
  | 6 => s.tallyEdgesIn start bs
  | 8 => s.setCtx (start / 64) (fun c => { c with outImg := padTo 64 (over_ (padTo 64 c.outImg) (start % 64)) })
  | 9 =>
    let b := start / 0x4000
    let o := slotOf start - 128
    s.setTx b o { (s.bus b).txObj o with data := padTo 64 (over_ ((s.bus b).txObj o).bytes (start % 64)) }
  | _ => s.twinDiscard

def execMirrorTally (h : MirrorHdr) (area start : Nat) (data : List Byte) (s : State) : Host.Outcome State Fault Refusal :=
  .next (s.asStandby h (fun s => s.tallyIn area start data))

/-! ### Metering (R435) -/

def execMirrorMeter (h : MirrorHdr) (kind set : Nat) (block : List Byte) (s : State) : Host.Outcome State Fault Refusal :=
  .next (s.asTwin h (fun s => if 1 < kind || 2 < set then s.twinDiscard else s.mirrorMeterRx kind set block))

/-! ### Images, verdicts and marks (R136–R139, R393) -/

/-- The checks and the write of a whole model image: the verdict's status. `written`: the slot's read-back is right. -/
def State.modelImageIn (s : State) (img : List Byte) (written : Bool) : State :=
  let running := if s.model.runSlot.isNone then none else some s.modelRev
  let c := modelChecks (s.checkEnv (some img.length) running true) img
  let st := if c.status ≠ 0 then c.status else if written then 0 else 0x13
  let i := s.spareSlot
  let s : State := if c.status ≠ 0 then s else s.setSlot i ⟨if written then img else [], 0⟩
  let s : State := { s with model := { s.model with mirrorReady := if st = 0 then some i else none } }
  s.mirrorTwin 0x0B [u8 0, u8 st, u16 0, u32 (imgRevision img)]

/-- The same for a program image. -/
def State.tallyImageIn (s : State) (img : List Byte) (written : Bool) : State :=
  let r := tallyChecks img img.length s.houseId s.fuse
  let st := if r.1 ≠ 0 then r.1 else if written then 0 else 0x0E
  let s : State := if r.1 ≠ 0 then s else s.setBank s.spareBank ⟨if written then img else [], 0⟩
  let s : State := if r.1 ≠ 0 then s else { s with tally := { s.tally with loaded := written } }
  s.mirrorTwin 0x0B [u8 1, u8 st, u16 0, u32 (u32At img 0x0C)]

/-- IMAGE: parts in order from OFFSET 0; the last one starts the checks. -/
def State.imageIn (s : State) (image offset total : Nat) (data : List Byte) (written : Bool) : State :=
  if 1 < image then s.twinDiscard else
  let old := if image = 0 then s.model.mirrorIn else s.tally.mirrorIn
  let got := if offset = 0 then data else if offset = old.length then old ++ data else []
  let whole := offset + data.length = total && got.length = total
  let keep := if whole then [] else got
  if image = 0 then
    let s : State := { s with model := { s.model with mirrorIn := keep } }
    if whole then s.modelImageIn got written else s
  else
    let s : State := { s with tally := { s.tally with mirrorIn := keep } }
    if whole then s.tallyImageIn got written else s

def execMirrorImage (h : MirrorHdr) (image offset total : Nat) (data : List Byte) (written : Bool) (s : State) :
    Host.Outcome State Fault Refusal :=
  .next (s.asStandby h (fun s => s.imageIn image offset total data written))

/-- VERDICT. -/
def State.verdictIn (s : State) (image status : Nat) : State :=
  if image = 0 then s.modelVerdict status else if image = 1 then s.tallyVerdict status else s.twinDiscard

def execMirrorVerdict (h : MirrorHdr) (image status : Nat) (s : State) : Host.Outcome State Fault Refusal :=
  .next (s.asTwin h (fun s => s.verdictIn image status))

/-- MARK: the standby's mark lets the active commit; the active's mark of a program that it runs from a stop is followed. -/
def State.markIn (s : State) (image : Nat) (revision : Word) : State :=
  if 1 < image then s.twinDiscard
  else if image = 0 then s.modelMark revision
  else if s.twin.role = .standby && s.tally.loaded
      && word (u32At (s.tally.banks.getD s.spareBank default).bytes 0x0C) = revision then s.activateBank
  else s

def execMirrorMark (h : MirrorHdr) (image : Nat) (revision : Word) (s : State) : Host.Outcome State Fault Refusal :=
  .next (s.asTwin h (fun s => s.markIn image revision))

/-! ### Resync (R507) -/

/-- RESYNC: at the end record UNSYNCED clears if no gap has occurred since the start record. -/
def State.resyncIn (s : State) (phase records : Nat) : State :=
  if 1 < phase then s.twinDiscard
  else if phase = 0 then
    ({ s with twin := { s.twin with resyncGap := false, resyncSince := some s.now } }).raise 0xCD [u16 0, u32 0, u32 0]
  else
    let us := (s.now - s.twin.resyncSince.getD s.now) / usNs
    let s : State := { s with twin := { s.twin with resyncSince := none } }
    let s : State := if s.twin.resyncGap then s
      else { s with twin := { s.twin with unsynced := false, resyncReq := false } }
    (s.raise 0xCD [u16 1, u32 records, u32 us]).judgeFit

def execMirrorResync (h : MirrorHdr) (phase records : Nat) (s : State) : Host.Outcome State Fault Refusal :=
  .next (s.asStandby h (fun s => s.resyncIn phase records))

end Sys2Proof.Machine
end

