-- ==== Sys2Proof/Machine/Supply.lean ====
section
/-! DEFINITION. Supplies, hold-up, reset and the first start-up steps (spec/20_supplies_startup_ratings.md, R660–R676; R25, R459,
R652–R654). -/

namespace Sys2Proof.Machine

open Sys2Proof

/-! ### Step 1 (R661, R671) -/

/-- RSTO_N: low until the beam comes up in step 3, and during every reset (R671, R672). -/
def State.rstoLow (s : State) : Bool := s.sup.step < 4 && !s.fw.recovery

/-- VIN_ACCEPT: VIN has stayed at or above 5.5 V for 10 ms. Steps 1 and 2 have no event of their own: step 3 waits for the beam.
`svcEn`: the strap. -/
def State.vinAccept (s : State) (svcEn : Bool) : State :=
  if s.sup.step ≠ 0 || s.sup.holdUp then s
  else { s with sup := { s.sup with step := 3, startedAt := s.now }, svc := { s.svc with strap := svcEn } }

def execVinAccept (svcEn : Bool) (s : State) : Host.Outcome State Fault Refusal := .next (s.vinAccept svcEn)

/-! ### Step 3: the beam, the firmware bank, the battery domain -/

/-- Regions of the battery domain that fail their CRC are discarded (R674); bit k of `lost` in the order of its table. -/
def State.battCheck (s : State) (lost : Nat) : State :=
  let gone (k : Nat) : Bool := lost / 2 ^ k % 2 == 1
  if lost % 64 = 0 then s
  else
    let s : State := { s with sup := { s.sup with
      battClock := if gone 0 then none else s.sup.battClock, pfCnt := if gone 5 then 0 else s.sup.pfCnt, battLost := true } }
    let s : State := { s with
      twin := { s.twin with storedEpoch := if gone 1 then 0 else s.twin.storedEpoch }
      tag := if gone 2 then { s.tag with flag := false, shown := 0, wanted := 0 } else s.tag
      nlog := if gone 3 then { s.nlog with capture := [], captureLost := 0 } else s.nlog
      meter := if gone 4 then { s.meter with batt := BattMeter.init } else s.meter }
    s.raise 0x06 [u16 (lost % 64)]

/-- Whether a bank may be started, with FW_BANK_BAD where its check fails (R652). -/
def State.fwTry (s : State) (i : Nat) : State × Bool :=
  let b := s.fw.banks.getD i default
  if b.bad then (s, false)
  else
    let st := fwChecks s.fuses.vendor b.bytes b.bytes.length
    if st = 0 then (s, true) else (s.raise 0xF8 [u16 i, u16 st], false)

/-- The bank with the higher activation sequence runs, else the other, else none (R652, R654). -/
def State.fwPick (s : State) : State :=
  let q (i : Nat) : Nat := (s.fw.banks.getD i default).seq
  let first := if q 0 < q 1 then 1 else 0
  let a := s.fwTry first
  if a.2 then { a.1 with fw := { a.1.fw with running := some first } }
  else
    let b := a.1.fwTry (1 - first)
    let s : State := b.1
    if b.2 then { s with fw := { s.fw with running := some (1 - first) } }
    else { s with fw := { s.fw with running := none, recovery := true } }

/-- A TRIAL bank that a reset has marked bad: FW_FALLBACK (R653). -/
def State.fwFallback (s : State) : State :=
  let rev := match s.fw.running with
    | some i => fwRevision (s.fw.banks.getD i default).bytes
    | none => 0
  match s.fw.banks.findIdx? (fun b => b.bad && b.trial) with
  | some i =>
    ({ s with fw := { s.fw with
      fallback := true, banks := s.fw.banks.modify i (fun b => { b with trial := false }) } }).raise 0xF7 [u16 i, u32 rev]
  | none => s

/-- The metering registers of the newest copy that passes its CRC (R419). Circuits and points take theirs as they are configured. -/
def State.meterRestore (s : State) : State :=
  let copy := match s.meter.saves.findIdx? (·.good) with
    | some i => i
    | none => 0xFFFF
  let l : List (Nat × EReg × EReg) := (s.goodSave.map (·.aggs)).getD []
  let put (s : State) (p : Nat × EReg × EReg) : State := s.setAgg p.1 { s.agg p.1 with e := p.2.1, v := p.2.2 }
  (l.foldl put s).raise 0x96 [u16 copy]

/-- The last hold-up sequence ended before its step 7 (R669, R687). -/
def State.holdSpent (s : State) : State :=
  let n := s.sup.flushesLost
  if n = 0 then s else ({ s with sup := { s.sup with flushesLost := 0 } }).raise 0x07 [u16 n]

/-- BEAM_UP. `lost`: the battery-domain regions whose CRC fails. -/
def State.beamUp (s : State) (lost : Nat) : State :=
  if s.sup.step ≠ 3 || s.sup.holdUp || s.fw.recovery || s.fw.running.isSome then s
  else
    let s : State := (s.battCheck lost).fwPick
    let s : State := (s.fwFallback).loadPage
    let s : State := { s with svc := { s.svc with level := if s.svc.strap then .view else .off, lastCmd := s.now } }
    if s.fw.recovery then s
    else
      let s : State := ((s.battEnd.meterRestore).holdSpent).stressRestore
      let s : State := s.tagBoot
      { s with sup := { s.sup with step := 4 } }

def execBeamUp (lost : Nat) (s : State) : Host.Outcome State Fault Refusal := .next (s.beamUp lost)

/-! ### The Notch Log and the battery records (R434, R605) -/

/-- NLOG_READY: where the log is appended to, the battery store's records go with it. -/
def execNlogReady (bad : List Nat) (torn : Bool) (s : State) : Host.Outcome State Fault Refusal :=
  .next ((if s.logFound && !s.nlog.clearMark then s.battFlush else s).nlogReady bad torn)

/-- NLOG_ERASE_DONE: a clearing that a reset interrupted ends before the records of the start-up are appended. -/
def execNlogEraseDone (s : State) : Host.Outcome State Fault Refusal :=
  .next ((if s.erased && s.nlog.captureDue then s.battFlush else s).eraseDone)

/-! ### Step 6 (R459) -/

/-- RING_PORTS_READY: the legs open no sooner than 2 ms later (LEGS_OPEN). -/
def State.ringPortsReady (s : State) : State :=
  if s.sup.step = 6 && !s.sup.held6 && s.houseId ≠ 0 && !s.ring.ready && !s.sup.holdUp then
    s.portsReady
  else s

def execRingPortsReady (s : State) : Host.Outcome State Fault Refusal := .next s.ringPortsReady

/-! ### The power-fail warning (R663, R667–R670) -/

/-- The log's queue goes to the capture store, and every later record with it (R604). -/
def NLog.toCapture (n : NLog) : NLog :=
  let all := n.capture ++ n.queue
  let out := all.length - 64
  { n with capture := all.take 64, captureLost := n.captureLost + out, lost := satAdd n.lost out, queue := [], capturing := true }

/-- The tasks that were part-way through a cycle, a bit each (R382). -/
def State.partWay (s : State) : Nat := s.startedTasks.foldl (fun a k => a + 2 ^ k) 0

/-- Whether this warning makes a Tally flush (R670). -/
def State.tallyFlushDue (s : State) : Bool :=
  s.tally.prog.isSome && (9 ≤ s.sup.step || s.tally.tasks.any (fun t => t.cycles != 0))

/-- The Tally stops with cause 8, and its retentive ranges go to flash with the CRC over them (R382). -/
def State.tallyFlushNow (s : State) : State :=
  let due := s.tallyFlushDue
  let part := s.partWay
  let s : State := s.tStopPlain 8
  let cells := s.retBytes ((s.tally.prog.map (·.retains)).getD [])
  if due then
    { s with
      sup := { s.sup with tallyFlush := true }
      tally := { s.tally with flash := some ⟨cells, crc32c (cells.map (fun c => c.2.2)), part⟩ } }
  else s

/-- A register of this tablet differs from the copy in force. -/
def State.meterChanged (s : State) : Bool :=
  let zero : EReg := ⟨0, 0, 0, 0, 0, 0⟩
  let g : MeterSave := s.goodSave.getD ⟨[], [], [], true⟩
  s.meter.circs.any (fun p => !p.2.mirrored
      && (alGet g.circs p.1).getD ((zero, zero, zero), 0, 0) != ((p.2.a, p.2.qr, p.2.sr), p.2.fault, p.2.faultNs))
    || s.meter.points.any (fun p => !p.2.mirrored
      && (alGet g.points p.1).getD ((zero, zero), 0, 0) != ((p.2.e, p.2.v), p.2.fault, p.2.faultNs))
    || s.meter.aggs.any (fun p => (alGet g.aggs p.1).getD (zero, zero) != (p.2.e, p.2.v))

/-- Hold-up step 6: the time since each owner's last cycle or sample becomes FAULT time, and the registers are written (R419). -/
def State.meterFlushNow (s : State) : State :=
  if s.sup.step < 9 && !s.meterChanged then s
  else
    let circ (c : Circ) : Circ :=
      let since := ((s.vset c.cfg.vset).map (·.lastEnd)).getD 0
      if c.mirrored || c.en = .disabled || c.waitCycle || since = 0 then c
      else
        let f := faultAdd c.fault c.faultNs (s.tai - since)
        { c with fault := f.1, faultNs := f.2, lastAt := s.tai }
    let point (x : HeatPoint) : HeatPoint := match x.prev with
      | some t =>
        if x.mirrored || x.en = .disabled then x
        else
          let f := faultAdd x.fault x.faultNs (s.tai - t)
          { x with fault := f.1, faultNs := f.2, lastAt := some s.tai, prev := some s.tai }
      | none => x
    let s : State := { s with
      sup := { s.sup with meterFlush := true }
      meter := { s.meter with
        circs := s.meter.circs.map (fun p => (p.1, circ p.2)), points := s.meter.points.map (fun p => (p.1, point p.2)) } }
    s.meterSave true

/-- PWM and timed outputs go to their inactive levels (hold-up step 2). -/
def State.outputsOff (s : State) : State :=
  let s : State := s.loops.pwm.foldl (fun s p => s.cross [0x0A] (.pwm p.1 0)) s
  { s with
    loops := { s.loops with pwm := [], pwmNext := [] }
    time := { s.time with touts := s.time.touts.map (fun _ => default) } }

/-- A deck completes its open handshakes void and removes its rail (R667). -/
def State.railOff (s : State) (d : Nat) : State := (s.voidHeld (.deck d)).modDeck d (fun k => { k with rail := 0, held := [] })

/-- Decks without a metering-quantity role remove their rails (hold-up step 1). -/
def State.railsOff (s : State) : State :=
  let keeps (d : Nat) : Bool := s.place.roles.any (fun r => roleKind r.id == 7 && r.st != .retired && deckOf r.bead == d)
  ((List.range s.fab.decks.length).filter (fun d => !keeps d)).foldl State.railOff s

/-- A transfer of the page from the monitor ends (R648). -/
def State.xferFail (s : State) : State :=
  match s.svc.xfer with
  | some (.page, _) => ({ s with svc := { s.svc with xfer := none } }).cross [0x16] (.monDone 7)
  | _ => s

/-- The hold-up sequence from P on. `cause`: 0 the power-fail warning, 1 an RST_N request; the readings of VIN and VHOLD; the
frames not handed over. -/
def State.powerFail (s : State) (cause rawVin rawVhold waiting : Nat) : State :=
  if s.sup.step = 0 || s.sup.holdUp then s
  else
    let v := s.sensed 0 rawVin
    let h := v.1.sensed 1 rawVhold
    let s : State := h.1
    let s : State := { s with
      sup := { s.sup with pfCnt := min (s.sup.pfCnt + 1) 0xFFFFFFFF, pfwLow := true, rstLow := cause == 1 }
      nlog := s.nlog.toCapture }
    let s : State := s.raise 0x02 [u16 cause, u32 v.2, u32 (s.usableMj h.2)]
    let s : State := s.closeLegs legRing waiting
    let s : State := s.tallyFlushNow
    let s : State := s.outputsOff.linkDown
    let s : State := { s with ring := { s.ring with linkA := false, linkB := false } }
    let s : State := (s.panelPowerFail.tagPowerFail).xferFail
    let s : State := s.meterFlushNow.railsOff
    { s with sup := { s.sup with holdUp := true } }

def execPowerFailWarning (rawVin rawVhold waiting : Nat) (s : State) : Host.Outcome State Fault Refusal :=
  .next (s.powerFail 0 rawVin rawVhold waiting)

def execRstNRequest (rawVin rawVhold waiting : Nat) (s : State) : Host.Outcome State Fault Refusal :=
  .next (s.powerFail 1 rawVin rawVhold waiting)

/-- The flushes that the store did not carry to their end are invalid (R669). -/
def State.spent (s : State) (tallyDone meterDone : Bool) : State :=
  let noT := s.sup.tallyFlush && !tallyDone && !s.sup.rstLow
  let noM := s.sup.meterFlush && !meterDone && !s.sup.rstLow
  let flash : Option Retentive := if noT then s.tally.flash.map (fun f => { f with crc := ~~~f.crc }) else s.tally.flash
  let saves : List MeterSave := if noM then s.meter.saves.modify 0 (fun x => { x with good := false }) else s.meter.saves
  { s with
    sup := { s.sup with flushesLost := b01 noT + 2 * b01 noM }
    tally := { s.tally with flash := flash }
    meter := { s.meter with saves := saves } }

/-- HOLDUP_RESET: the sequence has ended. An RST_N request draws on VIN, so its flushes complete (R673); with VIN back the cause is
BROWNOUT (R663). -/
def State.holdupReset (s : State) (tallyDone meterDone vinBack : Bool) : State :=
  if !s.sup.holdUp then s
  else
    let cause : ResetCause := if s.sup.rstLow then .rstPin else if vinBack then .brownout else .powerOn
    (((List.range s.fab.decks.length).foldl State.railOff s).spent tallyDone meterDone).reboot cause

def execHoldupReset (tallyDone meterDone vinBack : Bool) (s : State) : Host.Outcome State Fault Refusal :=
  .next (s.holdupReset tallyDone meterDone vinBack)

/-! ### Supervision (R662, R666, R675, R685) -/

/-- HOLD_ENERGY_REFRESH, every 10 ms: the readings of VIN, VHOLD and VBAT, the store's energy, and HOLD_LOW from 5 s after step 2
on. -/
def State.holdRefresh (s : State) (rawVin rawVhold rawVbat : Nat) : State :=
  if s.sup.step = 0 || s.now < s.sup.energyAt + 10 * msNs then s
  else
    let a := s.sensed 0 rawVin
    let b := a.1.sensed 1 rawVhold
    let c := b.1.sensed 2 rawVbat
    let s : State := c.1
    let e := s.usableMj b.2
    let present := 5500 ≤ a.2 && !s.sup.holdUp
    let low := if present && s.sup.startedAt + 5 * secNs ≤ s.now then decide (e < reserveMj) else s.sup.holdLow
    let was := s.sup.holdLow
    let s : State := { s with sup := { s.sup with
      energyAt := s.now, vinMv := a.2, vholdMv := b.2, vbatMv := c.2, energyMj := e, holdLow := low,
      charging := present && b.2 + 500 < 1000 * s.fld rHoldCfg 7 0 } }
    if low = was then s else s.raise 0x03 [u32 e, u32 reserveMj, u32 b.2]

def execHoldEnergyRefresh (rawVin rawVhold rawVbat : Nat) (s : State) : Host.Outcome State Fault Refusal :=
  .next (s.holdRefresh rawVin rawVhold rawVbat)

/-- VIN_SURGE: VIN enters or leaves 40 to 60 V; `rawPeak`: the highest reading of the episode. The duration is in µs. -/
def State.vinSurge (s : State) (enter : Bool) (rawPeak : Nat) : State :=
  if s.sup.step = 0 || s.sup.surge = enter then s
  else
    let p := s.sensed 0 rawPeak
    let s : State := p.1
    let dur := if enter then 0 else (s.now - s.sup.surgeSince) / usNs
    let s : State := { s with sup := { s.sup with surge := enter, surgeSince := if enter then s.now else s.sup.surgeSince } }
    s.raise 0x04 [u32 p.2, u32 dur]

def execVinSurge (enter : Bool) (rawPeak : Nat) (s : State) : Host.Outcome State Fault Refusal := .next (s.vinSurge enter rawPeak)

/-- VBAT_LOW: VBAT is judged against 2.7 V while VIN is present. -/
def State.vbatJudge (s : State) (rawVbat : Nat) : State :=
  if s.sup.step = 0 || s.sup.holdUp then s
  else
    let v := s.sensed 2 rawVbat
    let s : State := v.1
    let low := decide (v.2 < 2700)
    if low = s.sup.vbatLow then s
    else ({ s with sup := { s.sup with vbatLow := low, vbatMv := v.2 } }).raise 0x05 [u32 v.2]

def execVbatLow (rawVbat : Nat) (s : State) : Host.Outcome State Fault Refusal := .next (s.vbatJudge rawVbat)

/-! ### Loss of the beam (R25, R457) -/

/-- BEAM_LOSS: the legs close and the tablet is lost to the house: its ports, its planning and its outputs end. -/
def State.beamLoss (s : State) (waiting : Nat) : State :=
  if s.fab.beamLost then s
  else
    let s : State := { s with fab := { s.fab with beamLost := true } }
    let s : State := (s.closeLegs legBeam waiting).linkDown
    let s : State := s.enginesStop.outputsOff
    { s with
      twin := { s.twin with en := .disabled }
      can := s.can.map (fun b => { b with en := .disabled }) }

def execBeamLoss (waiting : Nat) (s : State) : Host.Outcome State Fault Refusal := .next (s.beamLoss waiting)

end Sys2Proof.Machine
end

