-- ==== Sys2Proof/Machine/SetupEntries.lean ====
section
/-! DEFINITION. The entries of a set-up image: an order's fields at the offsets of its own table, run by the order's own meaning
(R528, R552, R557–R559). -/

namespace Sys2Proof.Machine

open Sys2Proof

/-! ### Entries (R528, R529) -/

/-- An entry with its parameter bytes: 48, and 64 more where LINK is set. -/
structure SetupEntry where
  index : Nat
  opcode : Nat
  link : Bool
  /-- The reserved fields of R528 are 0. -/
  clean : Bool
  par : List Byte
  deriving DecidableEq, Repr, Inhabited

/-- Entry `i` of an image. -/
def entryBytes (img : List Byte) (i : Nat) : List Byte := (img.drop (64 + 64 * i)).take 64

/-- The entries from number `i` on; a LINK entry takes the next one with it. -/
def entriesFrom (img : List Byte) (n : Nat) : Nat → Nat → List SetupEntry
  | 0, _ => []
  | k + 1, i =>
    if n ≤ i then []
    else
      let e := entryBytes img i
      let link := u8At e 2 / 2 % 2 == 1
      let clean := u8At e 2 < 4 && zerosAt e 3 1 && zerosAt e 7 1 && zerosAt e 0x0C 4
      let par := e.drop 0x10 ++ (if link then entryBytes img (i + 1) else [])
      ⟨i, u16At e 0, link, clean, par⟩ :: entriesFrom img n k (if link then i + 2 else i + 1)

def entriesOf (img : List Byte) (n : Nat) : List SetupEntry := entriesFrom img n n 0

def regWriteOp : Nat := 0x0001

/-- The opcodes an image may hold (R562). -/
def setupOpcode (op : Nat) : Bool := op == regWriteOp || catalogued op

/-- The reserved fields of the orders' tables that no function's own check covers. -/
def reservedClear (op : Nat) (p : List Byte) : Bool :=
  let z (o n : Nat) : Bool := zerosAt p o n
  match op with
  | 0x0110 => u32At p 0xC < 4
  | 0x0301 | 0x1104 => u32At p 0xC < 8
  | 0x0404 => z 3 1
  | 0x0601 => u8At p 0x39 < 4 && z 0x3A 2
  | 0x0803 | 0x0901 => z 2 6
  | 0x0805 | 0x0906 | 0x0907 => z 4 4
  | 0x0903 => z 3 1
  | 0x0904 => z 2 2
  | 0x0A0A => z 3 1
  | 0x0B07 => z 3 5
  | 0x0C02 => u8At p 1 < 2
  | 0x0C03 => u8At p 2 < 4
  | 0x0F01 => u8At p 1 < 4 && z 7 1
  | 0x1102 => u32At p 0xC < 2
  | _ => true

/-- Bytes of the image from an offset on (R558); none where they do not lie in the image. -/
def dataBlock (img : List Byte) (ofs n : Nat) : Option (List Byte) :=
  if ofs + n ≤ img.length then some ((img.drop ofs).take n) else none

/-! ### Running an entry -/

abbrev OrderRun := State → Host.Outcome State Fault Refusal

/-- The state after an order's meaning. -/
def State.after (s : State) (f : OrderRun) : State :=
  match f s with
  | .next t => t
  | _ => s

/-- The orders without a data block. -/
def plainOrder (r : OrderRef) (op : Nat) (p : List Byte) : Option OrderRun :=
  let b (o : Nat) : Nat := u8At p o
  let h (o : Nat) : Nat := u16At p o
  let w (o : Nat) : Nat := u32At p o
  let q (o : Nat) : Nat := leAt 8 p o
  let f (o : Nat) : F32 := f32At p o
  match op with
  | 0x0101 => some (execHqNop r)
  | 0x0102 => some (execHqAbort r (BitVec.ofNat 16 (h 0)) (BitVec.ofNat 8 (b 2)))
  | 0x0201 => some (execPlaceAlloc r (h 0) (h 2) (h 4))
  | 0x0202 => some (execPlaceShift r (b 0))
  | 0x0302 => some (execModelAbort r)
  | 0x0303 => some (execModelQuery r)
  | 0x0401 => some (execReckonCfg r ⟨w 0, f 4, h 8, h 0xA, f 0xC, f 0x10, f 0x14, h 0x18, h 0x1A⟩)
  | 0x0402 => some (execReckonCtl r (b 0))
  | 0x0403 => some (execStateQuery r (q 0) (w 8) (w 0xC))
  | 0x0404 => some (execMeasPut r (h 0) (b 2) (word (w 4)) (f 8))
  | 0x0501 => some (execLaCfg r ⟨h 0, h 2, h 4, h 6, f 8, f 0xC, f 0x10⟩)
  | 0x0502 => some (execLaCtl r (b 0))
  | 0x0503 => some (execLaDetail r (w 0) (q 8))
  | 0x0504 => some (execLaQuery r)
  | 0x0601 => some (execOptCfg r ⟨f 0, f 4, f 8, f 0xC, f 0x10, f 0x14, f 0x18, f 0x1C, f 0x20, f 0x24, f 0x28, f 0x2C, b 0x30, b 0x31,
      h 0x32, w 0x34, b 0x38, b 0x39 % 2 == 1, b 0x39 / 2 % 2 == 1⟩)
  | 0x0602 => some (execOptCtl r (b 0))
  | 0x0605 => some (execPlanQuery r (b 0) (q 8) (w 0x10))
  | 0x0701 => some (execRollCfg r ⟨h 0, h 2, h 4, h 6, f 8, f 0xC, f 0x10, b 0x14, b 0x15, b 0x16, b 0x17⟩)
  | 0x0702 => some (execRollDest r ⟨b 0, b 1, b 2, b 3, h 4, h 6, h 8⟩)
  | 0x0703 => some (execRollHold r (b 0) (b 1) (b 2))
  | 0x0704 => some (execRollCtl r (b 0))
  | 0x0801 => some (execStnCfg r ⟨h 0, h 2, h 4, h 6, h 8, b 0xA, b 0xB, b 0xC, leAt 3 p 0xD⟩)
  | 0x0802 => some (execStnCtx r ⟨h 0, h 2, h 4, b 6, b 7, beNat ((p.drop 8).take 16)⟩)
  | 0x0804 => some (execStnCtl r (h 0) (b 2))
  | 0x0805 => some (execStnQuery r (h 0) (h 2) (q 8))
  | 0x0902 => some (execLoopCoef r ⟨h 0, b 2, b 3, f 4, f 8, f 0xC, f 0x10, f 0x14⟩)
  | 0x0903 => some (execLoopMode r (h 0) (b 2) (f 4))
  | 0x0904 => some (execLoopSp r (h 0) (f 4) (w 8) (w 0xC))
  | 0x0905 => some (execLoopCtl r (h 0) (b 2))
  | 0x0906 => some (execLoopQuery r (h 0) (h 2) (q 8))
  | 0x0907 => some (execLoopTrace r (h 0) (h 2) (q 8))
  | 0x0A02 => some (execTallyExchange r)
  | 0x0A03 => some (execTallyRun r (b 0))
  | 0x0A04 => some (execTallyStop r)
  | 0x0A05 => some (execTallyCtl r (b 0))
  | 0x0A06 => some (execTallyTrig r (b 0))
  | 0x0A07 => some (execTallyPeek r (b 0) (w 4) (q 8) (w 0x10))
  | 0x0A08 => some (execTallyPoke r (b 0) (w 4) (w 8) ((p.drop 0xC).take 32))
  | 0x0A09 => some (execTallyCfg r ⟨b 0, b 1, h 2, word (w 4), word (w 8)⟩)
  | 0x0A0B => some (execTallyQuery r (q 0))
  | 0x0B01 => some (execMeterVset r ⟨b 0, b 1, [b 2, b 3, b 4], leAt 3 p 5, f 8, h 0xC, h 0xE, h 0x10, h 0x12⟩)
  | 0x0B02 => some (execMeterCirc r ⟨b 0, b 1, b 2, b 3, b 4, b 5, b 6, b 7, h 8, h 0xA⟩)
  | 0x0B04 => some (execBillCfg r (w 0) (h 4))
  | 0x0B05 => some (execMeterCtl r (b 0) (b 1))
  | 0x0B06 => some (execHeatCtl r (b 0) (b 1))
  | 0x0B07 => some (execMeterQuery r (b 0) (b 1) (b 2) (q 8))
  | 0x0B08 => some (execHeatQuery r (b 0) (b 1) (b 2) (b 3) (q 8))
  | 0x0C01 => some (execRingBypass r (b 0) (b 1) 0)
  | 0x0C03 => some (execToutSet r ⟨b 0, b 1, b 2 % 2 == 1, b 2 / 2 % 2 == 1, q 8, w 0x10, w 0x14, q 0x18⟩)
  | 0x0C04 => some (execTimeSelect r (b 0))
  | 0x0C05 => some (execTimeTod r (BitVec.ofNat 64 (q 0)))
  | 0x0C06 => some (execTimeCfg r (word (w 0)) (word (w 4)) (word (w 8)))
  | 0x0D01 => some (execTwinCtl r (b 0) 0)
  | 0x0D02 => some (execTwinSwitch r)
  | 0x0D03 => some (execTwinPromote r)
  | 0x0E01 => some (execFbusRxCfg r ⟨b 0, b 1, b 2, b 3, w 4, h 8, b 0xA⟩)
  | 0x0E02 => some (execFbusTxCfg r ⟨b 0, b 1, h 2, w 4, b 8, b 9, w 0xC, w 0x10⟩)
  | 0x0E04 => some (execFbusCtl r (b 0) (b 1))
  | 0x0E05 => some (execFbusRecover r (b 0))
  | 0x0F01 => some (execNlogSrc r ⟨b 0, b 1 % 2 == 1, b 1 / 2 % 2 == 1, h 2, h 4,
      (List.range (b 6)).map (fun k => (⟨h (8 + 4 * k), b (0xA + 4 * k), b (0xB + 4 * k)⟩ : SnapField))⟩)
  | 0x0F02 => some (execNlogFreeze r (b 0) (h 2))
  | 0x0F03 => some (execNlogRead r (w 0) (h 4) (q 8))
  | 0x0F04 => some (execNlogClear r (word (w 0)))
  | 0x1004 => some (execPanelSet r ⟨b 0, word (w 4), word (w 8), word (w 0xC), word (w 0x10)⟩)
  | 0x1005 => some (execPanelCtl r (b 0))
  | 0x1006 => some (execTagUpdate r (BitVec.ofNat 64 (q 0)) (b 8))
  | 0x1007 => some (execTagCtl r (b 0))
  | 0x1101 => some (execCalExport r (q 0))
  | 0x1105 => some (execFwQuery r)
  | _ => none

/-- The orders that name a data block: where it starts and how long it is. -/
def blockOf (op : Nat) (p : List Byte) : Option (Nat × Nat) :=
  let h (o : Nat) : Nat := u16At p o
  let at_ (o n : Nat) : Option (Nat × Nat) := some (leAt 8 p o, n)
  match op with
  | 0x0110 | 0x0301 | 0x0603 | 0x0604 | 0x0A01 | 0x1104 => at_ 0 (u32At p 8)
  | 0x0803 => at_ 8 48
  | 0x0C02 => at_ 8 (h 2)
  | 0x0901 => at_ 8 128
  | 0x0908 => at_ 0 1040
  | 0x0A0A | 0x0B03 | 0x0E03 => at_ 8 64
  | 0x1001 => at_ 8 (3 * h 4 * h 6)
  | 0x1002 => at_ 0x10 ((h 6 + 7) / 8 * h 8)
  | 0x1003 => at_ 8 128
  | 0x1102 => at_ 0 4096
  | _ => none

/-- Those orders, with the block's bytes; `mv`: VHOLD as an energy check measures it. SETUP_LOAD is in Setup.lean. -/
def blockOrder (r : OrderRef) (op : Nat) (p d : List Byte) (mv : Nat) : Option OrderRun :=
  let b (o : Nat) : Nat := u8At p o
  let h (o : Nat) : Nat := u16At p o
  let w (o : Nat) : Nat := u32At p o
  let flag (n : Nat) : Bool := w 0xC / 2 ^ n % 2 == 1
  match op with
  | 0x0301 => some (execModelLoad r d (w 8) (flag 0) (flag 1) (flag 2))
  | 0x0603 => some (execTariffPut r d (w 8))
  | 0x0604 => some (execForecastPut r d (w 8))
  | 0x0803 => some (execStnSafe r (h 0) d)
  | 0x0901 => some (execLoopCfg r (h 0) d)
  | 0x0908 => some (execLoopTable r d)
  | 0x0A01 => some (execTallyLoad r d (w 8) (w 0xC))
  | 0x0A0A => some (execTallySafe r (b 0) (b 1) (b 2) d)
  | 0x0B03 => some (execHeatCfg r (b 0) d)
  | 0x0C02 => some (execRingSend r (b 0) (b 1 % 2 == 1) ⟨h 2, leAt 8 p 8, d⟩)
  | 0x0E03 => some (execFbusSend r (b 0) (b 1) d)
  | 0x1001 => some (execPanelWrite r ⟨h 0, h 2, h 4, h 6⟩ d)
  | 0x1002 => some (execPanelMask r (b 0) ⟨h 2, h 4, h 6, h 8⟩ d)
  | 0x1003 => some (execPanelCurve r (b 0) ((List.range 64).map (fun k => u16At d (2 * k))))
  | 0x1102 => some (execCalImport r d (word (w 8)) (flag 0) mv)
  | 0x1104 => some (execFwLoad r d (w 8) (flag 0) (flag 1) (flag 2))
  | _ => none

end Sys2Proof.Machine
end

