-- ==== Sys2Proof/Machine/Setup.lean ====
section
/-! DEFINITION. The set-up image: its checks, its application at start-up step 5, and its load (spec/15_host_rings.md,
R557–R562). -/

namespace Sys2Proof.Machine

open Sys2Proof

/-! ### The image and its checks (R557, R559, R562) -/

def setupHouse (img : List Byte) : Nat := u16At img 8
def setupSeals (img : List Byte) : Bool := u16At img 0xA % 2 == 1
def setupRev (img : List Byte) : Nat := u32At img 0x0C
def setupCount (img : List Byte) : Nat := u32At img 0x14
def setupWait (img : List Byte) : Nat := u16At img 0x18

/-- The header's fields are right: each with its offset. -/
def setupHeader (img : List Byte) : List (Nat × Bool) :=
  [(0, 64 ≤ img.length && u32At img 0 == 0x535A504F), (4, u16At img 4 == 1), (6, u16At img 6 == 64),
   (8, between 1 0xFFFE (setupHouse img)), (0xA, u16At img 0xA < 2), (0xC, setupRev img != 0),
   (0x14, between 1 32768 (setupCount img)), (0x18, setupWait img ≤ 3600), (0x1A, zerosAt img 0x1A 2),
   (0x1C, u32At img 0x1C % 16 == 0), (0x34, zerosAt img 0x34 8),
   (0x3C, u32At img 0x3C == (crc32c (img.take 0x3C)).toNat)]

/-- LENGTH is the image's and the order's, and the entries, the data blocks and the trailer fit in it. -/
def setupLengthOk (img : List Byte) (length : Nat) : Bool :=
  u32At img 0x10 == length && img.length == length && length ≤ 4194304 && 64 + 64 * setupCount img + 128 ≤ length
    && between (64 + 64 * setupCount img) (length - 128) (u32At img 0x1C)

/-- The checks in the order of R559: header, length, CRCs, key, signature. -/
def setupChecks (key img : List Byte) (length : Nat) : CheckRes :=
  match firstBad (setupHeader img) with
  | some o => ⟨0x01, 0, 0xFFFFFFFF, o, 0⟩
  | none =>
    if !setupLengthOk img length then ⟨0x02, 0, 0xFFFFFFFF, 0x10, 0⟩
    else if (crc32c ((img.take (length - 128)).drop 0x40)).toNat ≠ u32At img 0x30 then ⟨0x04, 0, 0xFFFFFFFF, 0x30, 0⟩
    else if !keyTrusted key img then bareRes 0x05
    else if !signatureOk img then bareRes 0x06
    else checkOk

/-- The first entry whose opcode no image may hold. -/
def setupBadOpcode (img : List Byte) : Option Nat :=
  ((entriesOf img (setupCount img)).find? (fun e => !setupOpcode e.opcode)).map (·.index)

/-! ### SETUP_LOAD and SETUP_QUERY (R562) -/

/-- SETUP_RESULT, in the layout of MODEL_RESULT; RUNNING is the revision in force. -/
def State.setupResult (s : State) (c : CheckRes) (img : List Byte) : List Fld :=
  [u8 c.status, u8 0, u16 c.section_, u32 c.record, u16 c.field, u16 c.detail, u32 (if img.isEmpty then 0 else setupRev img),
   u32 s.setup.rev.toNat, recFld 8 (if img.isEmpty then 0 else imgDigest8 img)]

def State.endSetup (s : State) (ref : OrderRef) (c : CheckRes) (img : List Byte) : State :=
  s.answer ref 0x0110 (ownReport c.status (s.setupResult c img))

/-- The checks of R559, then house id, revision and opcodes. -/
def State.setupVerdict (s : State) (img : List Byte) (length : Nat) (newHouse : Bool) : CheckRes :=
  let c := setupChecks s.fuse img length
  if c.status ≠ 0 then c
  else if setupHouse img ≠ s.houseId && !newHouse then ⟨0x07, 0, 0xFFFFFFFF, 8, 0⟩
  else if s.setup.loaded && setupRev img ≤ s.setup.rev.toNat then ⟨0x08, 0, 0xFFFFFFFF, 0x0C, 0⟩
  else match setupBadOpcode img with
    | some i => ⟨0x03, 0, i, 0, 0⟩
    | none => checkOk

/-- SETUP_LOAD: checked, then written to the slot not in use. -/
def State.setupLoad (s : State) (ref : OrderRef) (img : List Byte) (length : Nat) (validateOnly newHouse : Bool) : State :=
  if s.setup.load.isSome then s.endSetup ref (bareRes 0x10) img
  else
    let c := s.setupVerdict img length newHouse
    if c.status ≠ 0 || validateOnly then s.endSetup ref c img
    else { s with setup := { s.setup with load := some ⟨ref, img, false⟩ } }

def execSetupLoad (ref : OrderRef) (img : List Byte) (length : Nat) (validateOnly newHouse : Bool) (s : State) :
    Host.Outcome State Fault Refusal :=
  .next (s.runOrder ref 0x0110 (fun s => s.setupLoad ref img length validateOnly newHouse))

/-- The slot not in use. -/
def State.setupSpare (s : State) : Nat := if s.setup.slot = 0 then 1 else 0

/-- SETUP_SLOT_WRITTEN: the slot is marked active; a write that fails its read-back twice leaves none. -/
def State.setupWritten (s : State) (ok : Bool) : State :=
  match s.setup.load with
  | none => s
  | some l =>
    let put (s : State) (x : SetupSlot) : State :=
      { s with setup := { s.setup with load := none, slots := s.setup.slots.set s.setupSpare x } }
    if ok then (put s ⟨l.bytes, (s.setup.slots.map (·.seq)).foldl max 0 + 1⟩).endSetup l.ref checkOk l.bytes
    else if l.retried then (put s default).endSetup l.ref (bareRes 0x13) l.bytes
    else { s with setup := { s.setup with load := some { l with retried := true } } }

def execSetupSlotWritten (ok : Bool) (s : State) : Host.Outcome State Fault Refusal := .next (s.setupWritten ok)

/-- SETUP_INFO. -/
def State.setupInfo (s : State) : List Fld :=
  let other := (s.setup.slots.getD s.setupSpare default).bytes
  [u8 s.setup.slot, u8 0, u8 0, u8 0, u32 s.setup.rev.toNat, u32 (if other.isEmpty then 0 else setupRev other), u16 s.setup.refused]

def execSetupQuery (ref : OrderRef) (s : State) : Host.Outcome State Fault Refusal :=
  .next (s.runOrder ref 0x0111 (fun s => s.answer ref 0x0111 (stateReport stDone s.setupInfo)))

/-! ### Step 5 (R559–R561) -/

/-- One entry, finished before the next. A refusal is reported through SETUP_ENTRY by the order's own answer. -/
def State.applyEntry (s : State) (img : List Byte) (e : SetupEntry) : State :=
  let r : OrderRef := .setup e.index
  let refuse (st : Nat) : State := s.answer r e.opcode (orderDone st)
  if !setupOpcode e.opcode then refuse 1
  else if !e.clean || e.link != needsLink e.opcode || !reservedClear e.opcode e.par then refuse 2
  else if e.opcode = regWriteOp && refusedWrite (u32At e.par 0) (word (u32At e.par 4)) then refuse stRange
  else if e.opcode = regWriteOp then s.barWrite (u32At e.par 0) (word (u32At e.par 4))
  else if e.opcode = 0x0111 then s.after (execSetupQuery r)
  else match blockOf e.opcode e.par with
    | some b =>
      (match dataBlock img b.1 b.2 with
        | none => refuse stHostMemory
        | some d =>
          if e.opcode = 0x0110 then
            s.after (execSetupLoad r d (u32At e.par 8) (u32At e.par 0xC % 2 == 1) (u32At e.par 0xC / 2 % 2 == 1))
          else match blockOrder r e.opcode e.par d s.sup.vholdMv with
            | some f => s.after f
            | none => refuse 1)
    | none => match plainOrder r e.opcode e.par with
      | some f => s.after f
      | none => refuse 1

/-- Apply the image of a slot: the house id, the entries in order. -/
def State.applyImage (s : State) (slot : Nat) (img : List Byte) : State :=
  let s : State := s.setReg rGlbHouse (word (setupHouse img))
  let s : State := { s with setup := { s.setup with loaded := true, slot := slot, rev := word (setupRev img) } }
  let s : State := (entriesOf img (setupCount img)).foldl (fun s e => s.applyEntry img e) s
  s.raise 0xD9 [u16 slot, u32 (setupRev img), u16 s.setup.refused]

/-- The check of a slot at start-up: 0, or its status. A slot without an activation mark holds no image. -/
def State.setupSlotStatus (s : State) (i : Nat) : Nat :=
  let b := (s.setup.slots.getD i default).bytes
  (setupChecks s.fuse b b.length).status

/-- The slot with the highest activation sequence that passes its checks, with SETUP_REJECTED for each that does not. -/
def State.setupPick (s : State) : State × Option Nat :=
  let q (i : Nat) : Nat := (s.setup.slots.getD i default).seq
  let first := if q 0 < q 1 then 1 else 0
  let other := 1 - first
  let st := s.setupSlotStatus first
  if q first ≠ 0 && st = 0 then (s, some first)
  else
    let s : State := s.raise 0xDA [u16 first, u16 st]
    let st2 := s.setupSlotStatus other
    if q other ≠ 0 && st2 = 0 then (s, some other) else (s.raise 0xDA [u16 other, u16 st2], none)

/-- The end of step 5: the seal, or the wait for it. Without an image the tablet waits for a host (R560). -/
def State.setupSeal (s : State) (img : Option (List Byte)) : State :=
  match img with
  | none => s
  | some b =>
    if setupSeals b then s.seal 1
    else if s.setup.sealed || setupWait b = 0 then s
    else { s with setup := { s.setup with sealDue := some (s.now + setupWait b * secNs) } }

/-- SETUP_APPLY: start-up step 5. The model slots are checked, the buses enabled, and step 6 begins: without a house id it holds. -/
def State.setupApply (s : State) : State :=
  if s.sup.step ≠ 5 || s.sup.holdUp then s
  else
    let p := s.setupPick
    let img : Option (List Byte) := p.2.map (fun i => (p.1.setup.slots.getD i default).bytes)
    let s : State := match p.2 with
      | some i => p.1.applyImage i ((p.1.setup.slots.getD i default).bytes)
      | none => p.1
    let s : State := ((s.modelStart).busBoot).setupSeal img
    { s with sup := { s.sup with step := 6, held6 := s.houseId == 0 } }

def execSetupApply (s : State) : Host.Outcome State Fault Refusal := .next s.setupApply

end Sys2Proof.Machine
end

