-- ==== Sys2Proof/Machine/Svc.lean ====
section
/-! DEFINITION. The Gheira monitor (spec/19_service_monitor_calibration.md, R637–R643). A command comes parsed: none, or `bad`,
stands for a line that breaks R640 or the command's own form. -/

namespace Sys2Proof.Machine

open Sys2Proof

/-! ### Lines and levels -/

def State.monLine (s : State) (l : List Fld) : State := s.cross [0x16] (.monLine l)
/-- The final line: 0 OK, else ER with the code (R641). -/
def State.monEnd (s : State) (code : Nat) : State := s.cross [0x16] (.monDone code)

/-- A monitor command at its level (R638): OFF sees nothing; ER 02 for a bad line, ER 03 for a level too low. -/
def State.monRun {α : Type} (s : State) (need : Nat) (args : Option α) (f : α → State → State) : State :=
  if s.svc.level = .off then s
  else
    let s : State := { s with svc := { s.svc with lastCmd := s.now } }
    match args with
    | none => s.monEnd 2
    | some a => if levelCode s.svc.level < need then s.monEnd 3 else f a s

/-- The arguments of a command without any. -/
def noArgs (bad : Bool) : Option Unit := if bad then none else some ()

/-- The level changes, with SVC_LEVEL; a session that leaves SERVICE keeps nothing (R639). Causes: 1 UNLOCK, 2 LOCK, 3 idle,
4 break. -/
def State.setLevel (s : State) (l : SvcLevel) (cause : Nat) : State :=
  if s.svc.level = l then s
  else
    let old := s.svc.level
    let s : State := { s with svc := { s.svc with
      level := l, xfer := if l = .service then s.svc.xfer else none, keyfuse := none } }
    s.raise 0xF0 [u16 (levelCode old), u16 (levelCode l), u16 cause]

/-! ### Reading (R642) -/

/-- HELLO. -/
def State.hello (s : State) : State :=
  (s.monLine [u32 0x48100000, u32 Config.rev, u64 ((s.reg 0x0008).toNat * 2 ^ 32 + (s.reg 0x0004).toNat), u32 s.fwRevNow,
    u8 (roleCode s.twin.role), u8 (levelCode s.svc.level)]).monEnd 0

def execHello (bad : Bool) (s : State) : Host.Outcome State Fault Refusal :=
  .next (s.monRun 1 (noArgs bad) (fun _ s => s.hello))

/-- STAT. -/
def State.monStat (s : State) : State :=
  (s.monLine [u8 s.sup.step, u8 (roleCode s.twin.role), u8 (timeStCode s.time.st), u32 s.setup.rev.toNat, u32 s.modelRev,
    u32 s.tallyRev, u32 s.fwRevNow, u8 s.fwRunning]).monEnd 0

def execStat (bad : Bool) (s : State) : Host.Outcome State Fault Refusal :=
  .next (s.monRun 1 (noArgs bad) (fun _ s => s.monStat))

/-- RD: words from an offset; a read of HOSTQ_STAT clears FLR_SEEN. -/
def State.monRead (s : State) (off n : Nat) : State :=
  if off % 4 ≠ 0 || 0x10000 ≤ off || n = 0 || 64 < n then s.monEnd 5
  else
    let offs := (List.range n).map (fun i => off + 4 * i)
    let t : State := offs.foldl (fun t o => t.monLine [u32 (s.readBar0 o).toNat]) s
    let t : State := if offs.contains 0x100C then { t with host := { t.host with flrSeen := false } } else t
    t.monEnd 0

def execRd (args : Option (Nat × Nat)) (s : State) : Host.Outcome State Fault Refusal :=
  .next (s.monRun 1 args (fun a s => s.monRead a.1 a.2))

/-- WR: a write by the host's rules. -/
def State.monWrite (s : State) (off : Nat) (v : Word) : State :=
  if 0x10000 ≤ off then s.monEnd 5 else (s.barWrite off v).monEnd 0

def execWr (args : Option (Nat × Word)) (s : State) : Host.Outcome State Fault Refusal :=
  .next (s.monRun 2 args (fun a s => s.monWrite a.1 a.2))

/-- LOG. -/
def State.monLog (s : State) (first count : Nat) : State :=
  if s.nlog.slots.length ≤ first || count = 0 || 4096 < count then s.monEnd 5
  else
    let one (t : State) (i : Nat) : State := match s.nlog.slots[i]? with
      | some p => t.monLine [recFld 64 (leAt 64 (slotBytes p) 0)]
      | none => t
    ((s.nlog.readRange first count).foldl one s).monEnd 0

def execLog (args : Option (Nat × Nat)) (s : State) : Host.Outcome State Fault Refusal :=
  .next (s.monRun 1 args (fun a s => s.monLog a.1 a.2))

/-- FRZ: as NLOG_FREEZE, whose TIMEOUT_S is 60 where none is given. -/
def State.monFreeze (s : State) (f : Nat) (t : Option Nat) : State :=
  let r := s.freezeLog f (t.getD 60)
  r.1.monEnd (if r.2 = 1 then 5 else if r.2 = 0 then 0 else 7)

def execFrz (args : Option (Nat × Option Nat)) (s : State) : Host.Outcome State Fault Refusal :=
  .next (s.monRun 1 args (fun a s => s.monFreeze a.1 a.2))

/-! ### The calibration page and firmware (R642, R643, R647) -/

/-- CALX: 64 data lines and the CRC. -/
def State.monCalExport (s : State) : State :=
  if s.calBusy then s.monEnd 4
  else
    let p := s.cal.stored
    let t : State := (List.range 64).foldl (fun t i => t.monLine [u32 (64 * i), recFld 64 (leAt 64 p (64 * i))]) s
    ((t.monLine [u32 (u32At p 0xFFC)]).calExported 1).monEnd (if s.cal.valid then 0 else 7)

def execCalx (bad : Bool) (s : State) : Host.Outcome State Fault Refusal :=
  .next (s.monRun 1 (noArgs bad) (fun _ s => s.monCalExport))

def State.setXfer (s : State) (x : Option (XferKind × List Byte)) : State := { s with svc := { s.svc with xfer := x } }

/-- CALI BEGIN and CALI END. -/
def State.monCali (s : State) (a : CaliArg) : State :=
  match a with
  | .start => if s.calBusy || s.svc.xfer.isSome then s.monEnd 4 else (s.setXfer (some (.page, []))).monEnd 0
  | .finish confirm rawMv =>
    match s.svc.xfer with
    | some (.page, data) => (s.setXfer none).calImport .monitor data confirm false rawMv
    | _ => s.monEnd 2

def execCali (args : Option CaliArg) (s : State) : Host.Outcome State Fault Refusal :=
  .next (s.monRun 2 args (fun a s => s.monCali a))

/-- CALC. -/
def execCalc (args : Option Word) (rawMv : Nat) (s : State) : Host.Outcome State Fault Refusal :=
  .next (s.monRun 2 args (fun confirm s => s.calCapture .monitor confirm rawMv))

def execFwq (bad : Bool) (s : State) : Host.Outcome State Fault Refusal :=
  .next (s.monRun 1 (noArgs bad) (fun _ s => (s.monLine s.fwInfo).monEnd 0))

/-- IMG BEGIN and IMG END. -/
def State.monImg (s : State) (a : ImgArg) : State :=
  match a with
  | .start n =>
    if n = 0 || 16777216 < n then s.monEnd 5
    else if s.fwBusy || s.svc.xfer.isSome then s.monEnd 4
    else (s.setXfer (some (.firmware n, []))).monEnd 0
  | .finish flags =>
    match s.svc.xfer with
    | some (.firmware n, data) =>
      if 8 ≤ flags then s.monEnd 5
      else (s.setXfer none).fwLoad .monitor (data.take n) n (flags % 2 == 1) (flags / 2 % 2 == 1) (flags / 4 % 2 == 1)
    | _ => s.monEnd 2

/-- In RECOVERY IMG and RST are allowed at VIEW (R638). -/
def State.recoveryLevel (s : State) : Nat := if s.fw.recovery then 1 else 2

def execImg (args : Option ImgArg) (s : State) : Host.Outcome State Fault Refusal :=
  .next (s.monRun s.recoveryLevel args (fun a s => s.monImg a))

/-- MONITOR_DATA_LINE (R640, R642): a gap, a repeat or a bad line ends the transfer with ER 02. -/
def State.dataLine (s : State) (offset : Nat) (data : List Byte) (crc : Word) : State :=
  if s.svc.level = .off then s
  else
    let s : State := { s with svc := { s.svc with lastCmd := s.now } }
    match s.svc.xfer with
    | some (k, got) =>
      if data.length = 64 && crc32c data = crc && offset = got.length then s.setXfer (some (k, got ++ data))
      else (s.setXfer none).monEnd 2
    | none => s.monEnd 2

def execMonitorDataLine (offset : Nat) (data : List Byte) (crc : Word) (s : State) : Host.Outcome State Fault Refusal :=
  .next (s.dataLine offset data crc)

/-! ### RST, KEYFUSE (R635, R642) -/

/-- RST: F is required on a SOLO tablet and on an ACTIVE one whose partner is not FIT. -/
def State.monReset (s : State) (f : Bool) : State :=
  let lone := s.twin.role == .solo || (s.twin.role == .active && !(s.twin.partner.map (·.fit)).getD false)
  if lone && !f then s.monEnd 7
  else ((s.raise 0xFA [u16 (b01 f)]).monEnd 0).reboot .monitor

def execRst (args : Option Bool) (s : State) : Host.Outcome State Fault Refusal :=
  .next (s.monRun s.recoveryLevel args (fun f s => s.monReset f))

/-- KEYFUSE: the first line answers a random confirmation number, the second fuses. -/
def State.monKeyfuse (s : State) (a : KeyfuseArg) : State :=
  if !s.fuses.house.isEmpty then s.monEnd 7
  else match a with
    | .hash bytes crc =>
      if bytes.length ≠ 32 || crc32c bytes ≠ crc then s.monEnd 2
      else
        let r := s.takeFree 9
        let n := r.1.toNat % 2 ^ 16
        let s : State := r.2
        (({ s with svc := { s.svc with keyfuse := some (bytes, n) } }).monLine [u16 n]).monEnd 0
    | .go n =>
      match s.svc.keyfuse with
      | some (bytes, m) =>
        if n = m then
          let s : State := { s with fuses := { s.fuses with house := bytes }, svc := { s.svc with keyfuse := none } }
          (s.raise 0xF9 [recFld 4 (leAt 4 bytes 0)]).monEnd 0
        else s.monEnd 7
      | none => s.monEnd 7

def execKeyfuse (args : Option KeyfuseArg) (s : State) : Host.Outcome State Fault Refusal :=
  .next (s.monRun 2 args (fun a s => s.monKeyfuse a))

/-! ### Access (R638, R639) -/

/-- A wrong code; the third in a row locks UNLOCK out for 10 min. -/
def State.badCode (s : State) : State :=
  let n := s.svc.badRun + 1
  let out := 3 ≤ n
  let s : State := { s with svc := { s.svc with
    badCodes := min (s.svc.badCodes + 1) 255, badRun := if out then 0 else n,
    lockout := if out then some (s.now + 600 * secNs) else s.svc.lockout } }
  (s.raise 0xF1 [u16 n, u16 (b01 out)]).monEnd 7

/-- UNLOCK: a code of 0 disables SERVICE. -/
def State.unlock (s : State) (code : Word) : State :=
  if s.svc.lockout.isSome then s.monEnd 8
  else if s.svc.code = 0 then s.monEnd 7
  else if code = s.svc.code then
    (({ s with svc := { s.svc with badRun := 0 } }).setLevel .service 1).monEnd 0
  else s.badCode

def execUnlock (args : Option Word) (s : State) : Host.Outcome State Fault Refusal :=
  .next (s.monRun 1 args (fun code s => s.unlock code))

def execLock (bad : Bool) (s : State) : Host.Outcome State Fault Refusal :=
  .next (s.monRun 1 (noArgs bad) (fun _ s => (s.setLevel .view 2).monEnd 0))

/-- MONITOR_IDLE_TIMEOUT: 10 min without a command. -/
def execMonitorIdleTimeout (s : State) : Host.Outcome State Fault Refusal :=
  .next (if s.svc.level = .service && s.svc.lastCmd + 600 * secNs ≤ s.now then s.setLevel .view 3 else s)

/-- MONITOR_BREAK: SVC_RXD low for at least 10 ms. -/
def execMonitorBreak (s : State) : Host.Outcome State Fault Refusal :=
  .next (if s.svc.level = .service then s.setLevel .view 4 else s)

/-- LOCKOUT_END. -/
def execLockoutEnd (s : State) : Host.Outcome State Fault Refusal :=
  .next (match s.svc.lockout with
    | some t => if t ≤ s.now then { s with svc := { s.svc with lockout := none } } else s
    | none => s)

end Sys2Proof.Machine
end

