-- ==== Sys2Proof/Machine/Swap.lean ====
section
/-! DEFINITION. The swap to a committed model, and what a re-placed role does to its engine's work (spec/04_network_model.md,
R141, R142; spec/06_surge_lookahead.md, R201). -/

namespace Sys2Proof.Machine

open Sys2Proof

/-! ### Process values (R142, R173) -/

/-- The model has the element of a process-value index (entries of 16 bytes, R173). -/
def pvElement (img : List Byte) (i : Nat) : Bool :=
  let has (t k : Nat) : Bool := (recByKey img t k).isSome
  if i < 0x2000 then has 2 i
  else if i < 0x4000 then has 2 (i - 0x2000)
  else if i < 0x7000 then (branchIds img).contains (i - 0x4000)
  else if i < 0x8000 then has 7 ((i - 0x7000) / 4)
  else if i < 0x8800 then has 11 (i - 0x8000)
  else if i < 0x8A00 then
    ((recByKey img 9 ((i - 0x8800) / 16)).map (fun r => decide ((i - 0x8800) % 16 < u8At r 2))).getD false
  else if i < 0x8B00 then has 10 ((i - 0x8A00) / 4)
  else if i < 0x8B40 then has 8 ((i - 0x8B00) / 4)
  else has 1 ((i - 0x8B40) / 8)

/-- The latest set less the values of elements that the new model lacks: they read INVALID. -/
def State.pvSwap (s : State) (img : List Byte) : State :=
  match s.reck.latest, s.latestSet with
  | some i, some x =>
    let y : StateSet := { x with entries := x.entries.filter (fun e => pvElement img e.1) }
    { s with reck := { s.reck with sets := s.reck.sets.set i (some y) } }
  | _, _ => s

/-! ### Rollouts (R142, R266) -/

/-- The record of an item's receivers' elements, by model. -/
def itemRecords (old img : List Byte) (i : RollItem) : List (Option (List Byte)) :=
  match i.kind with
  | 8 => [pumpRec img i.object]
  | 9 => [valveRec img i.object]
  | 10 => (zoneStations old i.object).map (recByKey img 7)
  | _ => []

def unitRecord (img : List Byte) : RollUnit → Option (List Byte)
  | .zone z => recByKey img 10 z
  | .plant p => recByKey img 8 p
  | .store k => recByKey img 9 k

/-- The records of a rollout's unit and of every receiver it commands are unchanged. -/
def rollUnchanged (old new : List Byte) (x : Rollout) : Bool :=
  unitRecord old x.unit == unitRecord new x.unit
    && x.items.all (fun i => itemRecords old old i == itemRecords old new i)

/-- Rollouts that the new model has not left unchanged stop, HELD with reason MODEL_CHANGED. -/
def State.rollSwap (s : State) (old new : List Byte) : State :=
  (s.roll.rolls.filter (fun x => !rollUnchanged old new x)).foldl (fun s x => match s.rollOf x.id with
    | some y => s.stopRoll y .held 7 0
    | none => s) s

/-! ### The swap (R141, R142) -/

/-- A model is committed, no solve runs and no Reckoner role is REPLACING; where the swap had to wait for one of these, the tick that
follows its end has come (R141). -/
def State.swapOk (s : State) : Bool :=
  s.model.swapDue && s.reck.running.isNone && decide (s.model.clearAt ≤ s.tickNow)
    && !s.place.roles.any (fun r => roleKind r.id == 1 && r.st == .replacing)

/-- The slot whose activation mark is the highest. -/
def State.markedSlot (s : State) : Nat :=
  if (s.model.slots.getD 0 default).seq < (s.model.slots.getD 1 default).seq then 1 else 0

/-- MODEL_SWAP: the new model replaces the old for every engine; values that the Reckoner has not yet reckoned start from design
values where there was no model before. -/
def State.modelSwap (s : State) : State :=
  if !s.swapOk then s
  else
    let i := s.markedSlot
    let old := s.model.run
    let new := (s.model.slots.getD i default).bytes
    let load : Option ModelLoad := s.model.load.map (fun l => if l.stage = .committed then { l with stage := .firstSolve } else l)
    let s : State := s.pvSwap new
    let s : State := { s with model := { s.model with
      swapDue := false, firstDue := true, load := load, coldNext := s.model.coldNext || s.model.runSlot.isNone } }
    let s : State := s.laSwap
    let s : State := { s with model := { s.model with runSlot := some i, run := new } }
    let s : State := { s with reck := { s.reck with num := s.reck.num.carry old new } }
    let s : State := s.optSwap new
    (s.rollSwap old new).judgeFit

def execModelSwap (s : State) : Host.Outcome State Fault Refusal := .next s.modelSwap

/-! ### ROLE_REPLACED (R100, R201) -/

/-- The loops of a role return to their initial state: sections and timed set-points empty, the outputs as they hold (R100, R325;
assumption). -/
def State.loopsInitial (s : State) (id : Half) : State :=
  s.eachLoop (fun s n l =>
    if loopRole n = id then s.setLoop n { l with
      sections := l.sections.map (fun c => { c with s1 := 0, s2 := 0 }), queue := [], badCount := 0, lastAt := none, posPrev := none, later := none }
    else s)

/-- A loop role restarts (R344, R352): its trace ends, and its loops miss what fell while it was REPLACING, for `downNs`. -/
def State.loopsRestart (s : State) (id : Half) (downNs : Nat) : State :=
  let s : State := match s.loops.trace with
    | some t => if loopRole t.loop = id then s.endTrace else s
    | none => s
  s.eachLoop (fun s n l => if loopRole n = id && l.en != .disabled then s.loopCatchUp n l downNs else s)

/-- A context in its initial state: OFFLINE, nothing on its way, its sequences unused; its images stand, and what it has sent
still counts toward its limits (R100, R279, R289, R303). -/
def State.ctxInitial (s : State) (id : Nat) : State :=
  match s.ctxOf id with
  | none => s
  | some c =>
    if c.en = .disabled then s
    else
      let s : State := s.dropFrames id false
      let s : State := s.setCtx id (fun c => { c with
        st := .offline, txSeq := none, rxWin := [], lastImage := none, offSince := s.now, retDone := [], noackRun := 0 })
      (((s.tStation id).rollStationLost id).mirrorCtx id).settleStn id

def State.stnInitial (s : State) (id : Half) : State :=
  (s.stnConfigured.filter (fun n => stnRole n == id)).foldl (fun s n => s.ctxInitial n) s

/-- The rollouts of a role whose checkpoint is lost end RETIRED, each with its report; their networks go on (R47, R100, R255;
assumption). -/
def State.rollInitial (s : State) (id : Half) : State :=
  let gone := s.roll.rolls.filter (fun x => rollRole x.id == id)
  let s : State := { s with roll := { s.roll with rolls := s.roll.rolls.filter (fun x => rollRole x.id != id) } }
  (gone.foldl (fun s x => (s.endRoll x .retired 0).freeNet x.net) s).settleRoll

/-- A transaction of a command that this role's rollouts sent (R271). -/
def State.rollOwns (s : State) (id : Half) (station : Nat) (t : Txn) : Bool :=
  t.frame.kind == 1 && s.roll.hist.any (fun h => h.recv == .station station && h.seq == t.seq && rollRole h.rollout == id)

/-- Commands whose delivery is uncertain, being sent and not yet acknowledged, go out again with the same sequence (R271). -/
def State.rollResume (s : State) (id : Half) : State :=
  s.stnConfigured.foldl (fun s n => match s.ctxOf n with
    | some c =>
      let again := c.txns.filter (fun t => s.rollOwns id n t && t.sentAt.isSome)
      let order := again.foldl (fun o t => insRetry ⟨t.seq, t.frame, some (t.tag, t.gen)⟩ o) c.order
      if again.isEmpty then s else (s.setCtx n (fun c => { c with order := order })).pump n
    | none => s) s

/-- An optimiser role whose checkpoint is lost: the layer solves under way start again, cold, from the Reckoner's last published state
(R100, R229); their time bounds run on. -/
def State.optRestart (s : State) : State :=
  let again (s : State) (y : Layer) : State := match (s.layer y).run with
    | some r =>
      let r : LayerRun := { r with
        solve := s.latestSolve, inp := s.optInputs y false, flags := if r.flags / 32 % 2 = 1 then r.flags else r.flags + 32 }
      ((s.setLayer y { s.layer y with run := some r }).unpin (pinLayer y)).pinLatest (pinLayer y)
    | none => s
  again (again s .day) .pressure

/-- A metering-quantity role without a checkpoint starts its circuits' windows and its points' intervals anew; their registers are
kept (R91, R100). -/
def State.meterRestart (s : State) (id : Half) : State :=
  let circ (p : Nat × Circ) : Nat × Circ :=
    if meterRole p.1 = id && !p.2.mirrored then (p.1, { p.2 with win := freshWindow, waitCycle := true }) else p
  let point (p : Nat × HeatPoint) : Nat × HeatPoint := if meterRole p.1 = id then (p.1, { p.2 with prev := none }) else p
  { s with meter := { s.meter with circs := s.meter.circs.map circ, points := s.meter.points.map point } }

/-- ROLE_REPLACED: the role restarts, and its engine's work with it: from the checkpoint, or where that was lost from the kind's
initial state (R100). A Reckoner role goes on from the last published state either way: a solve's numbers become the Reckoner's at
its publication only (R167). A swap that waited for it takes the next tick (R141). `run`: the run whose share a look-ahead role holds. -/
def State.roleRestarts (s : State) (id : Half) (bead run : Nat) : State :=
  let was := s.role id
  let s : State := s.roleReplaced id bead
  if (was.map (·.st)) = some .replacing && (s.role id).map (·.st) = some .running then
    let lost := (was.bind (·.ckpt)).isNone
    let down := (was.map (fun r => s.now - r.since)).getD 0
    match roleKind id with
    | 1 => s.noteClear
    | 2 => s.laRestart run lost
    | 3 => if lost then s.optRestart else s
    | 4 =>
      let s : State := s.loopsRestart id down
      if lost then s.loopsInitial id else s
    | 5 => if lost then s.stnInitial id else s
    | 6 => if lost && s.activeOrSolo then s.rollInitial id else s.rollResume id
    | 7 => if lost then s.meterRestart id else s
    -- housekeeping holds nothing of its own
    | _ => s
  else s

def execRoleReplaced (kind index bead run : Nat) (s : State) : Host.Outcome State Fault Refusal :=
  .next (s.roleRestarts (roleIdOf kind index) bead run)

end Sys2Proof.Machine
end

