-- ==== Sys2Proof/Machine/Dispatch.lean ====
section
/-! DEFINITION. The meaning of every command, one arm each. -/

namespace Sys2Proof.Machine

open Sys2Proof

def exec (i : Instr) (s : State) : Host.Outcome State Fault Refusal :=
  match i with
  | .tokenArrival t via place => Sys2Proof.Machine.execTokenArrival t via place s
  | .memoryAccess m idx addr what reader ckptOf => Sys2Proof.Machine.execMemoryAccess m idx addr what reader ckptOf s
  | .scrubStep err w => Sys2Proof.Machine.execScrubStep err w s
  | .paceStep deck rate raw floor backlog hot => Sys2Proof.Machine.execPaceStep deck rate raw floor backlog hot s
  | .retentionEntry d q => Sys2Proof.Machine.execRetentionEntry d q s
  | .deckWake deck a => Sys2Proof.Machine.execDeckWake deck a s
  | .retentionExitDone deck restored railReached => Sys2Proof.Machine.execRetentionExitDone deck restored railReached s
  | .thermShed deck raw => Sys2Proof.Machine.execThermShed deck raw s
  | .thermShedEnd deck raw => Sys2Proof.Machine.execThermShedEnd deck raw s
  | .thermTrip deck raw => Sys2Proof.Machine.execThermTrip deck raw s
  | .xingTimeout req => Sys2Proof.Machine.execXingTimeout req s
  | .xingRestart x => Sys2Proof.Machine.execXingRestart x s
  | .islandCompletion x what n => Sys2Proof.Machine.execIslandCompletion x what n s
  | .handshakeStall requester unresponsive t => Sys2Proof.Machine.execHandshakeStall requester unresponsive t s
  | .beadFault bead check => Sys2Proof.Machine.execBeadFault bead check s
  | .rodFault rod check => Sys2Proof.Machine.execRodFault rod check s
  | .deckFault deck check => Sys2Proof.Machine.execDeckFault deck check s
  | .frameLoss frame cause => Sys2Proof.Machine.execFrameLoss frame cause s
  | .roleReplaced kind index bead run => Sys2Proof.Machine.execRoleReplaced kind index bead run s
  | .shifterEvaluation plans => Sys2Proof.Machine.execShifterEvaluation plans s
  | .moveCommit role => Sys2Proof.Machine.execMoveCommit role s
  | .sweepToken role router => Sys2Proof.Machine.execSweepToken role router s
  | .fenceClose role => Sys2Proof.Machine.execFenceClose role s
  | .placeAlloc ref c1 c2 c3 => Sys2Proof.Machine.execPlaceAlloc ref c1 c2 c3 s
  | .placeShift ref bits4 => Sys2Proof.Machine.execPlaceShift ref bits4 s
  | .modelLoad ref img length validateOnly allowOlder forceTwin => Sys2Proof.Machine.execModelLoad ref img length validateOnly allowOlder forceTwin s
  | .modelChecksDone => Sys2Proof.Machine.execModelChecksDone s
  | .modelSlotWritten ok => Sys2Proof.Machine.execModelSlotWritten ok s
  | .modelCommit => Sys2Proof.Machine.execModelCommit s
  | .modelSwap => Sys2Proof.Machine.execModelSwap s
  | .modelAbort ref => Sys2Proof.Machine.execModelAbort ref s
  | .modelQuery ref => Sys2Proof.Machine.execModelQuery ref s
  | .reckonTick => Sys2Proof.Machine.execReckonTick s
  | .solveEnd given => Sys2Proof.Machine.execSolveEnd given s
  | .solveLate work worstNode passes => Sys2Proof.Machine.execSolveLate work worstNode passes s
  | .measPut ref index quality stamp raw => Sys2Proof.Machine.execMeasPut ref index quality stamp raw s
  | .reckonCfg ref c => Sys2Proof.Machine.execReckonCfg ref c s
  | .reckonCtl ref enable => Sys2Proof.Machine.execReckonCtl ref enable s
  | .stateQuery ref addr offset count => Sys2Proof.Machine.execStateQuery ref addr offset count s
  | .laSubmit rollout => Sys2Proof.Machine.execLaSubmit rollout s
  | .laRunDequeue => Sys2Proof.Machine.execLaRunDequeue s
  | .laVerdict run given => Sys2Proof.Machine.execLaVerdict run given s
  | .laOverrun run => Sys2Proof.Machine.execLaOverrun run s
  | .laWithdraw run => Sys2Proof.Machine.execLaWithdraw run s
  | .laGridRebuild => Sys2Proof.Machine.execLaGridRebuild s
  | .laCfg ref c => Sys2Proof.Machine.execLaCfg ref c s
  | .laCtl ref enable => Sys2Proof.Machine.execLaCtl ref enable s
  | .laDetail ref run addr => Sys2Proof.Machine.execLaDetail ref run addr s
  | .laQuery ref => Sys2Proof.Machine.execLaQuery ref s
  | .layerBoundary layer => Sys2Proof.Machine.execLayerBoundary layer s
  | .layerSolveStart layer => Sys2Proof.Machine.execLayerSolveStart layer s
  | .layerSolveEnd layer given => Sys2Proof.Machine.execLayerSolveEnd layer given s
  | .optBudgetExpiry layer iters given => Sys2Proof.Machine.execOptBudgetExpiry layer iters given s
  | .optCfg ref c => Sys2Proof.Machine.execOptCfg ref c s
  | .optCtl ref enable => Sys2Proof.Machine.execOptCtl ref enable s
  | .tariffPut ref table length => Sys2Proof.Machine.execTariffPut ref table length s
  | .forecastPut ref profile length => Sys2Proof.Machine.execForecastPut ref profile length s
  | .planQuery ref layer addr maxItems => Sys2Proof.Machine.execPlanQuery ref layer addr maxItems s
  | .rolloutHandover => Sys2Proof.Machine.execRolloutHandover s
  | .rolloutVerdict => Sys2Proof.Machine.execRolloutVerdict s
  | .commandSend rollout => Sys2Proof.Machine.execCommandSend rollout s
  | .rolloutDone rollout => Sys2Proof.Machine.execRolloutDone rollout s
  | .rollCfg ref c => Sys2Proof.Machine.execRollCfg ref c s
  | .rollDest ref d => Sys2Proof.Machine.execRollDest ref d s
  | .rollHold ref kind object hold => Sys2Proof.Machine.execRollHold ref kind object hold s
  | .rollCtl ref enable => Sys2Proof.Machine.execRollCtl ref enable s
  | .inputFrameRx src payload => Sys2Proof.Machine.execInputFrameRx src payload s
  | .replyFrameRx src payload => Sys2Proof.Machine.execReplyFrameRx src payload s
  | .stnStaleTimeout station => Sys2Proof.Machine.execStnStaleTimeout station s
  | .stnOfflineTimeout station => Sys2Proof.Machine.execStnOfflineTimeout station s
  | .txnTimeout station tag gen => Sys2Proof.Machine.execTxnTimeout station tag gen s
  | .sendOrderRelease station => Sys2Proof.Machine.execSendOrderRelease station s
  | .outputRefresh station => Sys2Proof.Machine.execOutputRefresh station s
  | .resyncSend station => Sys2Proof.Machine.execResyncSend station s
  | .stnCfg ref c => Sys2Proof.Machine.execStnCfg ref c s
  | .stnCtx ref c => Sys2Proof.Machine.execStnCtx ref c s
  | .stnSafe ref station image => Sys2Proof.Machine.execStnSafe ref station image s
  | .stnCtl ref station enable => Sys2Proof.Machine.execStnCtl ref station enable s
  | .stnQuery ref first count addr => Sys2Proof.Machine.execStnQuery ref first count addr s
  | .loopSample loop x => Sys2Proof.Machine.execLoopSample loop x s
  | .loopTriggerTimeout loop x => Sys2Proof.Machine.execLoopTriggerTimeout loop x s
  | .loopCfg ref loop desc => Sys2Proof.Machine.execLoopCfg ref loop desc s
  | .loopCoef ref c => Sys2Proof.Machine.execLoopCoef ref c s
  | .loopMode ref loop mode outMan => Sys2Proof.Machine.execLoopMode ref loop mode outMan s
  | .loopSp ref loop value atS atNs => Sys2Proof.Machine.execLoopSp ref loop value atS atNs s
  | .loopCtl ref loop enable => Sys2Proof.Machine.execLoopCtl ref loop enable s
  | .loopQuery ref first count addr => Sys2Proof.Machine.execLoopQuery ref first count addr s
  | .loopTrace ref loop count addr => Sys2Proof.Machine.execLoopTrace ref loop count addr s
  | .loopTable ref image => Sys2Proof.Machine.execLoopTable ref image s
  | .pwmPeriodStart output => Sys2Proof.Machine.execPwmPeriodStart output s
  | .tallyCyclicRelease task => Sys2Proof.Machine.execTallyCyclicRelease task s
  | .tallyCycleStart task => Sys2Proof.Machine.execTallyCycleStart task s
  | .tallyBudgetOverrun task => Sys2Proof.Machine.execTallyBudgetOverrun task s
  | .tallyBgOverrun => Sys2Proof.Machine.execTallyBgOverrun s
  | .tPsh area addr => Sys2Proof.Machine.execTPsh area addr s
  | .tPshn area addr => Sys2Proof.Machine.execTPshn area addr s
  | .tAndb area addr => Sys2Proof.Machine.execTAndb area addr s
  | .tAndnb area addr => Sys2Proof.Machine.execTAndnb area addr s
  | .tOrb area addr => Sys2Proof.Machine.execTOrb area addr s
  | .tOrnb area addr => Sys2Proof.Machine.execTOrnb area addr s
  | .tXorb area addr => Sys2Proof.Machine.execTXorb area addr s
  | .tPsh0 => Sys2Proof.Machine.execTPsh0 s
  | .tPsh1 => Sys2Proof.Machine.execTPsh1 s
  | .tAnd => Sys2Proof.Machine.execTAnd s
  | .tOr => Sys2Proof.Machine.execTOr s
  | .tXor => Sys2Proof.Machine.execTXor s
  | .tNot => Sys2Proof.Machine.execTNot s
  | .tDup => Sys2Proof.Machine.execTDup s
  | .tDrop => Sys2Proof.Machine.execTDrop s
  | .tOutb area addr => Sys2Proof.Machine.execTOutb area addr s
  | .tSetb area addr => Sys2Proof.Machine.execTSetb area addr s
  | .tClrb area addr => Sys2Proof.Machine.execTClrb area addr s
  | .tEdgr area addr => Sys2Proof.Machine.execTEdgr area addr s
  | .tEdgf area addr => Sys2Proof.Machine.execTEdgf area addr s
  | .tTon area addr => Sys2Proof.Machine.execTTon area addr s
  | .tTof area addr => Sys2Proof.Machine.execTTof area addr s
  | .tTp area addr => Sys2Proof.Machine.execTTp area addr s
  | .tTrst area addr => Sys2Proof.Machine.execTTrst area addr s
  | .tCtu area addr => Sys2Proof.Machine.execTCtu area addr s
  | .tCtd area addr => Sys2Proof.Machine.execTCtd area addr s
  | .tCrst area addr => Sys2Proof.Machine.execTCrst area addr s
  | .tCadd area addr => Sys2Proof.Machine.execTCadd area addr s
  | .tLdw area addr => Sys2Proof.Machine.execTLdw area addr s
  | .tLdbu area addr => Sys2Proof.Machine.execTLdbu area addr s
  | .tLdhs area addr => Sys2Proof.Machine.execTLdhs area addr s
  | .tLdhu area addr => Sys2Proof.Machine.execTLdhu area addr s
  | .tLdq area addr => Sys2Proof.Machine.execTLdq area addr s
  | .tLds area addr => Sys2Proof.Machine.execTLds area addr s
  | .tStw area addr => Sys2Proof.Machine.execTStw area addr s
  | .tStb area addr => Sys2Proof.Machine.execTStb area addr s
  | .tSth area addr => Sys2Proof.Machine.execTSth area addr s
  | .tAdd area addr => Sys2Proof.Machine.execTAdd area addr s
  | .tSub area addr => Sys2Proof.Machine.execTSub area addr s
  | .tMul area addr => Sys2Proof.Machine.execTMul area addr s
  | .tDiv area addr => Sys2Proof.Machine.execTDiv area addr s
  | .tMod area addr => Sys2Proof.Machine.execTMod area addr s
  | .tAndw area addr => Sys2Proof.Machine.execTAndw area addr s
  | .tOrw area addr => Sys2Proof.Machine.execTOrw area addr s
  | .tXorw area addr => Sys2Proof.Machine.execTXorw area addr s
  | .tShl area addr => Sys2Proof.Machine.execTShl area addr s
  | .tShr area addr => Sys2Proof.Machine.execTShr area addr s
  | .tAsr area addr => Sys2Proof.Machine.execTAsr area addr s
  | .tFadd area addr => Sys2Proof.Machine.execTFadd area addr s
  | .tFsub area addr => Sys2Proof.Machine.execTFsub area addr s
  | .tFmul area addr => Sys2Proof.Machine.execTFmul area addr s
  | .tFdiv area addr => Sys2Proof.Machine.execTFdiv area addr s
  | .tFmin area addr => Sys2Proof.Machine.execTFmin area addr s
  | .tFmax area addr => Sys2Proof.Machine.execTFmax area addr s
  | .tItf => Sys2Proof.Machine.execTItf s
  | .tFti => Sys2Proof.Machine.execTFti s
  | .tFabs => Sys2Proof.Machine.execTFabs s
  | .tFneg => Sys2Proof.Machine.execTFneg s
  | .tCeq area addr => Sys2Proof.Machine.execTCeq area addr s
  | .tCne area addr => Sys2Proof.Machine.execTCne area addr s
  | .tCgt area addr => Sys2Proof.Machine.execTCgt area addr s
  | .tCge area addr => Sys2Proof.Machine.execTCge area addr s
  | .tClt area addr => Sys2Proof.Machine.execTClt area addr s
  | .tCle area addr => Sys2Proof.Machine.execTCle area addr s
  | .tFceq area addr => Sys2Proof.Machine.execTFceq area addr s
  | .tFcne area addr => Sys2Proof.Machine.execTFcne area addr s
  | .tFcgt area addr => Sys2Proof.Machine.execTFcgt area addr s
  | .tFcge area addr => Sys2Proof.Machine.execTFcge area addr s
  | .tFclt area addr => Sys2Proof.Machine.execTFclt area addr s
  | .tFcle area addr => Sys2Proof.Machine.execTFcle area addr s
  | .tJmp addr => Sys2Proof.Machine.execTJmp addr s
  | .tJt addr => Sys2Proof.Machine.execTJt addr s
  | .tJf addr => Sys2Proof.Machine.execTJf addr s
  | .tTrig addr => Sys2Proof.Machine.execTTrig addr s
  | .tEnd => Sys2Proof.Machine.execTEnd s
  | .tNop => Sys2Proof.Machine.execTNop s
  | .tallyExchangePoint => Sys2Proof.Machine.execTallyExchangePoint s
  | .tallyExchTimeout => Sys2Proof.Machine.execTallyExchTimeout s
  | .dioEdge line level => Sys2Proof.Machine.execDioEdge line level s
  | .tallyLoad ref img length flags => Sys2Proof.Machine.execTallyLoad ref img length flags s
  | .tallyExchange ref => Sys2Proof.Machine.execTallyExchange ref s
  | .tallyRun ref mode => Sys2Proof.Machine.execTallyRun ref mode s
  | .tallyStop ref => Sys2Proof.Machine.execTallyStop ref s
  | .tallyCtl ref enable => Sys2Proof.Machine.execTallyCtl ref enable s
  | .tallyTrig ref task => Sys2Proof.Machine.execTallyTrig ref task s
  | .tallyPeek ref area start addr length => Sys2Proof.Machine.execTallyPeek ref area start addr length s
  | .tallyPoke ref area start length data => Sys2Proof.Machine.execTallyPoke ref area start length data s
  | .tallyCfg ref c => Sys2Proof.Machine.execTallyCfg ref c s
  | .tallySafe ref bus object flags data => Sys2Proof.Machine.execTallySafe ref bus object flags data s
  | .tallyQuery ref addr => Sys2Proof.Machine.execTallyQuery ref addr s
  | .meterSample xs => Sys2Proof.Machine.execMeterSample xs s
  | .chInactive ch => Sys2Proof.Machine.execChInactive ch s
  | .chAcquireDone ch taps => Sys2Proof.Machine.execChAcquireDone ch taps s
  | .chTrackWindow ch w => Sys2Proof.Machine.execChTrackWindow ch w s
  | .chAcquireRetry ch => Sys2Proof.Machine.execChAcquireRetry ch s
  | .lineCycleEnd vset end_ crossing inRange given => Sys2Proof.Machine.execLineCycleEnd vset end_ crossing inRange given s
  | .freeRunEnter vset => Sys2Proof.Machine.execFreeRunEnter vset s
  | .halfCycleBoundary vset at_ given => Sys2Proof.Machine.execHalfCycleBoundary vset at_ given s
  | .billSnapshot => Sys2Proof.Machine.execBillSnapshot s
  | .billAggregate => Sys2Proof.Machine.execBillAggregate s
  | .heatSample point given => Sys2Proof.Machine.execHeatSample point given s
  | .battBurst qs => Sys2Proof.Machine.execBattBurst qs s
  | .meterVset ref x => Sys2Proof.Machine.execMeterVset ref x s
  | .meterCirc ref x => Sys2Proof.Machine.execMeterCirc ref x s
  | .heatCfg ref point desc => Sys2Proof.Machine.execHeatCfg ref point desc s
  | .billCfg ref billS waitS => Sys2Proof.Machine.execBillCfg ref billS waitS s
  | .meterCtl ref circuit enable => Sys2Proof.Machine.execMeterCtl ref circuit enable s
  | .heatCtl ref point enable => Sys2Proof.Machine.execHeatCtl ref point enable s
  | .meterQuery ref set first count addr => Sys2Proof.Machine.execMeterQuery ref set first count addr s
  | .heatQuery ref set kind first count addr => Sys2Proof.Machine.execHeatQuery ref set kind first count addr s
  | .ringFrameRx port f => Sys2Proof.Machine.execRingFrameRx port f s
  | .hsrSupervision => Sys2Proof.Machine.execHsrSupervision s
  | .ringOpenDetect => Sys2Proof.Machine.execRingOpenDetect s
  | .linkChange port up speed100 => Sys2Proof.Machine.execLinkChange port up speed100 s
  | .legsOpen => Sys2Proof.Machine.execLegsOpen s
  | .legsSenseCheck measuredClosed => Sys2Proof.Machine.execLegsSenseCheck measuredClosed s
  | .ringBypass ref bypass force waiting => Sys2Proof.Machine.execRingBypass ref bypass force waiting s
  | .ringSend ref port stamp length => Sys2Proof.Machine.execRingSend ref port stamp length s
  | .txStampCapture q id gen => Sys2Proof.Machine.execTxStampCapture q id gen s
  | .txStampExpiry q id gen => Sys2Proof.Machine.execTxStampExpiry q id gen s
  | .txqHeadWrite q head => Sys2Proof.Machine.execTxqHeadWrite q head s
  | .timeLatch => Sys2Proof.Machine.execTimeLatch s
  | .ptpSyncRx domB offset => Sys2Proof.Machine.execPtpSyncRx domB offset s
  | .ptpAnnounceRx domB m => Sys2Proof.Machine.execPtpAnnounceRx domB m s
  | .announceTimeout domB => Sys2Proof.Machine.execAnnounceTimeout domB s
  | .domainRevert => Sys2Proof.Machine.execDomainRevert s
  | .holdoverLong => Sys2Proof.Machine.execHoldoverLong s
  | .acqTimeout => Sys2Proof.Machine.execAcqTimeout s
  | .pdelayMeasure port delayNs => Sys2Proof.Machine.execPdelayMeasure port delayNs s
  | .ppsEdge => Sys2Proof.Machine.execPpsEdge s
  | .slewDone => Sys2Proof.Machine.execSlewDone s
  | .rtcWrite => Sys2Proof.Machine.execRtcWrite s
  | .toutFire output => Sys2Proof.Machine.execToutFire output s
  | .toutSet ref o => Sys2Proof.Machine.execToutSet ref o s
  | .timeSelect ref domain => Sys2Proof.Machine.execTimeSelect ref domain s
  | .timeTod ref sec => Sys2Proof.Machine.execTimeTod ref sec s
  | .timeCfg ref cfg slew acq => Sys2Proof.Machine.execTimeCfg ref cfg slew acq s
  | .heartbeatSend => Sys2Proof.Machine.execHeartbeatSend s
  | .heartbeatRx p h => Sys2Proof.Machine.execHeartbeatRx p h s
  | .pathSilent p => Sys2Proof.Machine.execPathSilent p s
  | .negotiationTimeout => Sys2Proof.Machine.execNegotiationTimeout s
  | .ringLossHandover => Sys2Proof.Machine.execRingLossHandover s
  | .mirrorEmitStn h station frame => Sys2Proof.Machine.execMirrorEmitStn h station frame s
  | .mirrorEmitFbus h bus object reserved data => Sys2Proof.Machine.execMirrorEmitFbus h bus object reserved data s
  | .mirrorLoopOut h loop out sp => Sys2Proof.Machine.execMirrorLoopOut h loop out sp s
  | .mirrorSnapshot h solve tick first entries => Sys2Proof.Machine.execMirrorSnapshot h solve tick first entries s
  | .mirrorTally h area start data => Sys2Proof.Machine.execMirrorTally h area start data s
  | .mirrorPlan h body => Sys2Proof.Machine.execMirrorPlan h body s
  | .mirrorRollout h body => Sys2Proof.Machine.execMirrorRollout h body s
  | .mirrorContext h body => Sys2Proof.Machine.execMirrorContext h body s
  | .mirrorMeter h kind set block => Sys2Proof.Machine.execMirrorMeter h kind set block s
  | .mirrorImage h image offset total data written => Sys2Proof.Machine.execMirrorImage h image offset total data written s
  | .mirrorVerdict h image status => Sys2Proof.Machine.execMirrorVerdict h image status s
  | .mirrorMark h image revision => Sys2Proof.Machine.execMirrorMark h image revision s
  | .mirrorResync h phase records => Sys2Proof.Machine.execMirrorResync h phase records s
  | .twinCtl ref enable retired => Sys2Proof.Machine.execTwinCtl ref enable retired s
  | .twinSwitch ref => Sys2Proof.Machine.execTwinSwitch ref s
  | .twinPromote ref => Sys2Proof.Machine.execTwinPromote ref s
  | .doorbell ring width value => Sys2Proof.Machine.execDoorbell ring width value s
  | .orderFetch ring entry => Sys2Proof.Machine.execOrderFetch ring entry s
  | .hostMemoryTimeout a => Sys2Proof.Machine.execHostMemoryTimeout a s
  | .coalesceTimer report => Sys2Proof.Machine.execCoalesceTimer report s
  | .hostRingEnable ring value => Sys2Proof.Machine.execHostRingEnable ring value s
  | .hostRingDisable ring value => Sys2Proof.Machine.execHostRingDisable ring value s
  | .setupSeal value => Sys2Proof.Machine.execSetupSeal value s
  | .sealWaitExpiry => Sys2Proof.Machine.execSealWaitExpiry s
  | .w1cWrite offset value => Sys2Proof.Machine.execW1cWrite offset value s
  | .registerWrite offset value => Sys2Proof.Machine.execRegisterWrite offset value s
  | .barBadAccess => Sys2Proof.Machine.execBarBadAccess s
  | .pcieLinkUp width speed => Sys2Proof.Machine.execPcieLinkUp width speed s
  | .pcieLinkDown => Sys2Proof.Machine.execPcieLinkDown s
  | .pcieFlr => Sys2Proof.Machine.execPcieFlr s
  | .hqNop ref => Sys2Proof.Machine.execHqNop ref s
  | .hqAbort ref tag gen => Sys2Proof.Machine.execHqAbort ref tag gen s
  | .setupLoad ref img length validateOnly newHouse => Sys2Proof.Machine.execSetupLoad ref img length validateOnly newHouse s
  | .setupQuery ref => Sys2Proof.Machine.execSetupQuery ref s
  | .canFrameRx bus f => Sys2Proof.Machine.execCanFrameRx bus f s
  | .fbusAttemptEnd bus e => Sys2Proof.Machine.execFbusAttemptEnd bus e s
  | .fbusDeadline bus object => Sys2Proof.Machine.execFbusDeadline bus object s
  | .fbusPeriod bus object => Sys2Proof.Machine.execFbusPeriod bus object s
  | .fbusRecoveryDone bus => Sys2Proof.Machine.execFbusRecoveryDone bus s
  | .fbusLockRead bus slot => Sys2Proof.Machine.execFbusLockRead bus slot s
  | .fbusUnlockRead bus slot => Sys2Proof.Machine.execFbusUnlockRead bus slot s
  | .fbusRxCfg ref c => Sys2Proof.Machine.execFbusRxCfg ref c s
  | .fbusTxCfg ref c => Sys2Proof.Machine.execFbusTxCfg ref c s
  | .fbusSend ref bus object data => Sys2Proof.Machine.execFbusSend ref bus object data s
  | .fbusCtl ref bus enable => Sys2Proof.Machine.execFbusCtl ref bus enable s
  | .fbusRecover ref bus => Sys2Proof.Machine.execFbusRecover ref bus s
  | .reportTimerExpiry src key => Sys2Proof.Machine.execReportTimerExpiry src key s
  | .nlogRecordWrite => Sys2Proof.Machine.execNlogRecordWrite s
  | .nlogFreezeTimeout => Sys2Proof.Machine.execNlogFreezeTimeout s
  | .nlogDrainDone => Sys2Proof.Machine.execNlogDrainDone s
  | .nlogEraseDone => Sys2Proof.Machine.execNlogEraseDone s
  | .nlogReady bad torn => Sys2Proof.Machine.execNlogReady bad torn s
  | .nlogSrc ref x => Sys2Proof.Machine.execNlogSrc ref x s
  | .nlogFreeze ref freeze timeoutS => Sys2Proof.Machine.execNlogFreeze ref freeze timeoutS s
  | .nlogRead ref first count addr => Sys2Proof.Machine.execNlogRead ref first count addr s
  | .nlogClear ref confirm => Sys2Proof.Machine.execNlogClear ref confirm s
  | .panelLineProgram => Sys2Proof.Machine.execPanelLineProgram s
  | .panelWriteCommit => Sys2Proof.Machine.execPanelWriteCommit s
  | .panelRefreshTick => Sys2Proof.Machine.execPanelRefreshTick s
  | .blinkHalfPeriod plane => Sys2Proof.Machine.execBlinkHalfPeriod plane s
  | .panelAgeUpdate given => Sys2Proof.Machine.execPanelAgeUpdate given s
  | .panelStressSave good => Sys2Proof.Machine.execPanelStressSave good s
  | .crackCheck isOpen => Sys2Proof.Machine.execCrackCheck isOpen s
  | .panelWrite ref rect data => Sys2Proof.Machine.execPanelWrite ref rect data s
  | .panelMask ref plane rect data => Sys2Proof.Machine.execPanelMask ref plane rect data s
  | .panelCurve ref primary values => Sys2Proof.Machine.execPanelCurve ref primary values s
  | .panelSet ref x => Sys2Proof.Machine.execPanelSet ref x s
  | .panelCtl ref enable => Sys2Proof.Machine.execPanelCtl ref enable s
  | .tagPhaseEnd rawMv => Sys2Proof.Machine.execTagPhaseEnd rawMv s
  | .tagUpdate ref image flags => Sys2Proof.Machine.execTagUpdate ref image flags s
  | .tagCtl ref enable => Sys2Proof.Machine.execTagCtl ref enable s
  | .hello bad => Sys2Proof.Machine.execHello bad s
  | .stat bad => Sys2Proof.Machine.execStat bad s
  | .rd args => Sys2Proof.Machine.execRd args s
  | .wr args => Sys2Proof.Machine.execWr args s
  | .log args => Sys2Proof.Machine.execLog args s
  | .frz args => Sys2Proof.Machine.execFrz args s
  | .calx bad => Sys2Proof.Machine.execCalx bad s
  | .cali args => Sys2Proof.Machine.execCali args s
  | .calc args rawMv => Sys2Proof.Machine.execCalc args rawMv s
  | .fwq bad => Sys2Proof.Machine.execFwq bad s
  | .img args => Sys2Proof.Machine.execImg args s
  | .monitorDataLine offset data crc => Sys2Proof.Machine.execMonitorDataLine offset data crc s
  | .rst args => Sys2Proof.Machine.execRst args s
  | .keyfuse args => Sys2Proof.Machine.execKeyfuse args s
  | .unlock args => Sys2Proof.Machine.execUnlock args s
  | .lock bad => Sys2Proof.Machine.execLock bad s
  | .monitorIdleTimeout => Sys2Proof.Machine.execMonitorIdleTimeout s
  | .monitorBreak => Sys2Proof.Machine.execMonitorBreak s
  | .lockoutEnd => Sys2Proof.Machine.execLockoutEnd s
  | .calExport ref addr => Sys2Proof.Machine.execCalExport ref addr s
  | .calImport ref page confirm validateOnly rawMv => Sys2Proof.Machine.execCalImport ref page confirm validateOnly rawMv s
  | .calCapture ref confirm rawMv => Sys2Proof.Machine.execCalCapture ref confirm rawMv s
  | .calWriteDone ok => Sys2Proof.Machine.execCalWriteDone ok s
  | .fwLoad ref img length validateOnly allowOlder activate => Sys2Proof.Machine.execFwLoad ref img length validateOnly allowOlder activate s
  | .fwLoadDone ok => Sys2Proof.Machine.execFwLoadDone ok s
  | .fwQuery ref => Sys2Proof.Machine.execFwQuery ref s
  | .vinAccept svcEn => Sys2Proof.Machine.execVinAccept svcEn s
  | .beamUp lost => Sys2Proof.Machine.execBeamUp lost s
  | .scanDone parts linkFailed ps => Sys2Proof.Machine.execScanDone parts linkFailed ps s
  | .setupApply => Sys2Proof.Machine.execSetupApply s
  | .ringPortsReady => Sys2Proof.Machine.execRingPortsReady s
  | .powerFailWarning rawVin rawVhold waiting => Sys2Proof.Machine.execPowerFailWarning rawVin rawVhold waiting s
  | .holdupReset tallyDone meterDone vinBack => Sys2Proof.Machine.execHoldupReset tallyDone meterDone vinBack s
  | .rstNRequest rawVin rawVhold waiting => Sys2Proof.Machine.execRstNRequest rawVin rawVhold waiting s
  | .vinSurge enter rawPeak => Sys2Proof.Machine.execVinSurge enter rawPeak s
  | .holdEnergyRefresh rawVin rawVhold rawVbat => Sys2Proof.Machine.execHoldEnergyRefresh rawVin rawVhold rawVbat s
  | .vbatLow rawVbat => Sys2Proof.Machine.execVbatLow rawVbat s
  | .ppsInLoss => Sys2Proof.Machine.execPpsInLoss s
  | .msixUnmask m => Sys2Proof.Machine.execMsixUnmask m s
  | .nodeForgetTime mac => Sys2Proof.Machine.execNodeForgetTime mac s
  | .tallyBankWritten ok => Sys2Proof.Machine.execTallyBankWritten ok s
  | .setupSlotWritten ok => Sys2Proof.Machine.execSetupSlotWritten ok s
  | .arbitrationWon bus => Sys2Proof.Machine.execArbitrationWon bus s
  | .busErrorRx bus rise => Sys2Proof.Machine.execBusErrorRx bus rise s
  | .beamLoss waiting => Sys2Proof.Machine.execBeamLoss waiting s

end Sys2Proof.Machine
end

