-- ==== Sys2Proof/Machine/Bar.lean ====
section
/-! DEFINITION. What a host reads beside the set-up registers: the PCIe configuration header and the live windows of BAR4
(spec/15_host_rings.md, R519, R520, R563; spec/13_ring_bypass_time.md, R465, R478). -/

namespace Sys2Proof.Machine

open Sys2Proof

/-! ### The configuration header (R519) -/

/-- The identity fields of the configuration header. -/
structure ConfigHeader where
  vendor : Half
  device : Half
  classCode : Nat
  revision : Byte
  subsystem : Half
  deriving DecidableEq, Repr

/-- The Revision ID is GLB_INFO.REV, the Subsystem ID the low 16 bits of the tablet serial. -/
def State.configHeader (s : State) : ConfigHeader :=
  ⟨0x1CB5, 0x4810, 0x118000, BitVec.ofNat 8 (bits (s.readBar0 0x0000).toNat 15 8), BitVec.ofNat 16 (s.readBar0 0x0004).toNat⟩

/-! ### BAR4 (R563) -/

/-- The time latch (R465), by 32-bit word. -/
def State.latchWord (s : State) (i : Nat) : Word :=
  let t := s.time
  let sec := t.latchTai / secNs
  match i with
  | 1 => t.latchCount
  | 2 => word sec
  | 3 => word (sec / 2 ^ 32 % 65536 + 65536 * timeStCode t.latchState)
  | 4 => word (t.latchTai % secNs)
  | 5 => word t.latchTai
  | _ => 0

/-- The entry that stands in a slot of a TX stamp queue: entry number n lies in slot n mod 32. A slot whose entry has been released, or
never written, reads zero, VALID included (DESIGN CHOICE: the spec does not say what a released slot holds). -/
def TxQueue.slot (x : TxQueue) (i : Nat) : Option StampEntry := x.entries[(i + 32 - x.head % 32) % 32]?

/-- A TX stamp queue's window (R478): 32 entries of 16 bytes, HEAD at 0x200 and TAIL at 0x204. -/
def State.txqWord (s : State) (q i : Nat) : Word :=
  let x := s.txQ q
  if i < 128 then
    match x.slot (i / 4) with
    | none => 0
    | some e =>
      let sec := e.tai / secNs
      match i % 4 with
      | 0 => word (e.gen * 4096 + e.id + 2 ^ 16 * q + 2 ^ 24)
      | 1 => word sec
      | 2 => word (sec / 2 ^ 32 % 65536)
      | _ => word (e.tai % secNs)
  else if i = 128 then word x.head
  else if i = 129 then word (x.head + x.entries.length)
  else 0

/-- A word of a field-bus object: the snapshot of the locked slot, else live data (R572). What the read of word 0 and of word 15 does to
the lock is FBUS_LOCK_READ's and FBUS_UNLOCK_READ's. -/
def State.slotRead (s : State) (b slot i : Nat) : Word :=
  match (s.bus b).lock with
  | some l => if l.slot = slot then slotWord l.data i else slotWord (s.slotData b slot) i
  | none => slotWord (s.slotData b slot) i

/-- The word that an aligned 32-bit read of BAR4 returns; an offset that no window assigns reads 0 (R521). -/
def State.readBar4 (s : State) (o : Nat) : Word :=
  if o < 0x1000 then s.latchWord (o / 4)
  else if o < 0x4000 then s.txqWord (o / 0x1000 - 1) (o % 0x1000 / 4)
  else if o < 0x8000 then 0
  else if o < 0x10000 then
    let a := o - 0x8000
    if a % 0x4000 / 64 < 160 then s.slotRead (a / 0x4000) (a % 0x4000 / 64) (a % 64 / 4) else 0
  else 0

end Sys2Proof.Machine
end

