-- ==== Sys2Proof/Safety.lean ====
section
/-! DEFINITION. The terms claims use: what an operation leaves alone, how an order is answered, and what holds of the Notch Log in
every state. -/

namespace Sys2Proof.Machine

open Sys2Proof

/-! ### Frames -/

/-- The void requests of crossing 0x01, by which everything leaves for the host (R67, R69). -/
def State.hostVoid (s : State) : Word := (s.xing 0x01).void
def State.withHostVoid (s : State) (v : Word) : State := s.modXing 0x01 (fun c => { c with void := v })

/-- `t` is `s` but for the host interface, the log and the outputs: what raising events and reporting may change. Where crossing 0x01
is stopped, the void requests it counts as well (R67). -/
def OnlyReports (s t : State) : Prop :=
  t = { s.withHostVoid t.hostVoid with host := t.host, nlog := t.nlog, out := t.out }
    ∧ (s.xingStopped 0x01 = false → t.fab = s.fab)

/-- `t` is `s` but for those and the set-up's count of refused entries: what answering an order may change. -/
def OnlyAnswers (s t : State) : Prop := OnlyReports { s with setup := t.setup } t

/-! ### Completions (R540) -/

/-- Report ring `l.rpt` has been written the one completion of the live order `l`. -/
def Reported (l : LiveOrder) (op st : Nat) (body : List Fld) (t : State) : Prop :=
  ∃ i r, Output.report l.rpt i r ∈ t.out ∧ r.kind = 0x8000 + op ∧ r.tag = l.tag ∧ r.gen = l.gen ∧ r.status = st ∧ r.ring = l.ring
    ∧ r.user = l.user ∧ r.body = body

/-- In `t` the order that `ref` names in `s` has its completion: with STATUS `st` and a body. An order whose completion is to be
discarded (R539) and an entry of the set-up image have none, and over a stopped crossing 0x01 none leaves (R67). -/
def Answered (s : State) (ref : OrderRef) (op st : Nat) (body : List Fld) (t : State) : Prop :=
  match ref with
  | .host tag gen => ∀ l, s.findLive tag gen = some l → l.dead = false → t.xingStopped 0x01 = false → Reported l op st body t
  | .setup _ => True

/-! ### How a command completes -/

/-- The command runs: the next state is `base` but for reports. -/
def Runs (c : Instr) (s base : State) : Prop := ∃ t, exec c s = .next t ∧ OnlyReports base t

/-- The command runs, the next state is `base` but for reports and the answer, and the order has its completion: STATUS `st` and
a body. -/
def Completes (c : Instr) (s base : State) (ref : OrderRef) (op st : Nat) (body : List Fld) : Prop :=
  ∃ t, exec c s = .next t ∧ OnlyAnswers base t ∧ Answered s ref op st body t

/-- `t` is `s` but for the fabric, the directory, the optimiser's runs and their pins (R237), HANDOVER, FIT and reports: what the loss
of a part may change. -/
def OnlyPlaces (s t : State) : Prop :=
  t = { s with
    fab := t.fab, place := t.place, opt := t.opt, reck := { s.reck with pins := t.reck.pins },
    twin := { s.twin with handover := t.twin.handover, fit := t.twin.fit }, host := t.host, nlog := t.nlog, out := t.out }

/-- The directory of `t` is that of `s` but for where the roles' checkpoints stand (R83, R90). -/
def SameRoles (s t : State) : Prop :=
  t.place = { s.place with roles := t.place.roles }
    ∧ t.place.roles.map (fun r => { r with ckpt := none }) = s.place.roles.map (fun r => { r with ckpt := none })

/-! ### The Notch Log (R592, R593, R600) -/

/-- Each slot's CRC is the chain CRC over its record and the CRC of the slot before it. -/
def LogChain : List (LogRec × Word) → Prop
  | p :: q :: l => q.2 = chainCrc q.1 p.2 ∧ LogChain (q :: l)
  | _ => True

/-- The log is a chain from NLOG_CLEARS on, of at most 65 536 slots. While a clear is under way the slots are those of the log
before it. -/
def LogOk (s : State) : Prop :=
  LogChain s.nlog.slots ∧ s.nlog.slots.length ≤ 65536
    ∧ (s.nlog.clearMark = false → ∀ p l, s.nlog.slots = p :: l → p.2 = chainCrc p.1 s.nlog.clears)

end Sys2Proof.Machine
end

