-- ==== Sys2Proof/Certificates/Slice0/Obligations.lean ====
section
/-! DEFINITION. The statements for the provers. -/

open Sys2Proof Sys2Proof.Machine

/-- For every command and state: a step of a state whose queue has the command at its front is the command's effect on the state with
the queue's rest. -/
def Obligations.StepTakesTheFrontCommand : Prop :=
  ∀ (s : State) (c : Instr) (l : List Instr), s.pending = c :: l → step s = exec c { s with pending := l }

/-- With an empty queue a step answers the same state one nanosecond later (the model's choice, log entry 2). At a multiple of 10 ms
(the model's choice, log entry 110) the running metering and housekeeping roles write their checkpoints: of the directory only their
checkpoint places change, of the decks only which are awake and since when, and nothing else of the tablet does. Where no slew
is in progress and the clock is not negative, the local clock is one nanosecond further on. -/
def Obligations.IdleStepOnlyPassesTime : Prop :=
  (∀ s : State, s.pending = [] → (s.now + 1) % (10 * msNs) ≠ 0 → step s = .next { s with now := s.now + 1 })
  ∧ (∀ s : State, s.pending = [] → (s.now + 1) % (10 * msNs) = 0 → ∃ t, step s = .next t
      ∧ t = { s with
          now := s.now + 1
          place := { s.place with roles := t.place.roles }
          fab := { s.fab with decks := t.fab.decks } }
      ∧ SameRoles s t
      ∧ ∀ id : Half, roleKind id ≠ 7 → roleKind id ≠ 8 → t.role id = s.role id)
  ∧ ∀ s t : State, s.pending = [] → s.time.slew = none → 0 ≤ (s.now : Int) + s.clockOfs → step s = .next t → t.tai = s.tai + 1

/-- A token goes to the bead that the cache of the router it enters holds: the old one until that router's sweep. One that meets its
running role on its bead in an awake deck is acknowledged normally, once, and nothing else happens but that the deck is no longer idle;
a token for a retired role or with a stale incarnation is acknowledged void, dropped and counted, for the tablet and the role id; a
token for a sleeping deck is held at its boundary, which wakes; a token for a role that waits for a new bead is held at the router
while fewer than 32 are, and a further one is answered void and kept to be sent again; a token at the old bead of a frozen role is
queued; at the stub of a committed move it is forwarded once, and acknowledged when it reaches the new bead; a direct token is held
there, or in its sender behind 32 of them. -/
def Obligations.TokensHaveOneAcknowledge : Prop :=
  ∀ (s : State) (t : Token) (bead : Nat) (r : Role), s.role t.role = some r →
    let u : State := s.stir (deckOf bead)
    let awake : Prop := s.deckAsleep (deckOf bead) = false ∧ s.beadWorks bead = true
    let mine : Prop := r.st ≠ .retired ∧ incarnation t.epoch = incarnation r.epoch
    (∀ n, exec (.tokenArrival t .router n) s = exec (.tokenArrival t .port (r.cachedBead n)) s)
    ∧ (mine → awake → r.st = .running → r.move = none → bead = r.bead →
      exec (.tokenArrival t .port bead) s = .next { u with out := s.out ++ [.ack t .normal] })
    ∧ (¬ mine → ∃ v, exec (.tokenArrival t .port bead) s = .next v ∧ Output.ack t .void ∈ v.out ∧
        OnlyReports { s with
          place := { s.place with
            retiredDrop := satInc s.place.retiredDrop
            drops := alPut s.place.drops t.role.toNat ((alGet s.place.drops t.role.toNat).getD 0 + 1) } } v)
    ∧ (mine → r.st ≠ .replacing → (s.deck (deckOf bead)).st = .retention →
        exec (.tokenArrival t .port bead) s = .next (s.holdAtDeck (deckOf bead) (.token t bead false)))
    ∧ (mine → r.st = .replacing → r.move = none → r.waiting.length < 32 →
        exec (.tokenArrival t .port bead) s = .next (s.modRole r.id (fun x => { x with waiting := x.waiting ++ [t] })))
    ∧ (mine → r.st = .replacing → r.move = none → 32 ≤ r.waiting.length →
        exec (.tokenArrival t .port bead) s =
          .next ((s.modRole r.id (fun x => { x with resend := x.resend ++ [t] })).emit (.ack t .void)))
    ∧ (∀ m, mine → awake → r.st = .moving → r.move = some m → m.committed = false → bead = r.bead →
        exec (.tokenArrival t .port bead) s =
          .next (u.modRole r.id (fun x => { x with move := some { m with queued := m.queued ++ [t] } })))
    ∧ (∀ m, mine → awake → r.st = .running → r.move = some m → m.committed = true → bead = m.from_ →
        exec (.tokenArrival t .port bead) s =
          .next ((u.modRole r.id (fun x => { x with move := some { m with forwarding := m.forwarding ++ [t] } })).emit (.forward t r.bead)))
    ∧ (∀ m, mine → awake → r.st = .running → r.move = some m → m.committed = true → bead = r.bead → r.bead ≠ m.from_ →
        exec (.tokenArrival t .port bead) s = .next (u.modRole r.id (fun x => { x with move := some (m.hold [t]) }))
        ∧ (m.hold [t]).held ++ (m.hold [t]).withheld = m.held ++ m.withheld ++ [t] ∧ (m.hold [t]).held.length ≤ 32)
    ∧ (∀ m n, mine → awake → r.st = .running → r.move = some m → m.committed = true → bead = r.bead → t ∈ m.forwarding →
        exec (.tokenArrival t .stub n) s =
          .next ((u.modRole r.id (fun x => { x with move := some { m with forwarding := m.forwarding.erase t } })).emit (.ack t .normal)))

/-- An access of an unpoisoned line completes normally; a single-bit error is corrected and counted in FAB_ECC_CE; a
double-bit error in deck or LPDDR4X memory is counted in FAB_ECC_UE and poisons its 64-byte line, so that this and
every later access of the line is answered with poison until a write replaces the whole line, and a running role that reads it restarts;
one in a bead's store or a rod's scratch isolates the bead or the rod. Access to a memory of a deck in retention waits and wakes the deck;
access to an isolated part, or over a stopped crossing, is void. A double-bit error in the running bank of the Tally's code stops the
Tally with cause 6. A scrub step reads the word at the scrubber's place and moves on to the next word; a sleeping deck stays asleep, and
the words of its memories stay owed until it wakes, when they come first. -/
def Obligations.MemoryErrorsAreCorrectedOrPoison : Prop :=
  ∀ (s : State) (m : MemKind) (idx addr : Nat),
    let line := (m, idx, addr / 64)
    let req (w : MemAccess) : MemReq := ⟨m, idx, addr, w, none, none⟩
    let access (w : MemAccess) : Instr := .memoryAccess m idx addr w none none
    let up : Prop := s.memDown m idx = false
    let ready : Prop := up ∧ m ≠ .tallyCode ∧ s.memAsleep m idx = false ∧ (m = .lpddr → s.xingStopped 0x14 = false)
    let u : State := if m = .deckMemory then s.stir idx else s
    (ready → line ∉ s.fab.poisoned →
      exec (access .clean) s = .next { u with out := s.out ++ [.memAck .normal] })
    ∧ (ready → line ∉ s.fab.poisoned → ∃ t, exec (access .single) s = .next t
        ∧ OnlyReports { u with fab := { u.fab with eccCe := satInc s.fab.eccCe } } t ∧ t.out.getLast? = some (.memAck .normal))
    ∧ (ready → (m = .deckMemory ∨ m = .lpddr) → ∃ t, exec (access .double) s = .next t
        ∧ OnlyReports { u with fab := { u.fab with eccUe := satInc s.fab.eccUe, poisoned := addLine s.fab.poisoned line } } t
        ∧ t.out.getLast? = some (.memAck .poison))
    ∧ (ready → m = .beadStore → ∃ t, exec (access .double) s = .next t ∧ t.beadWorks idx = false
        ∧ t.fab.eccUe = satInc s.fab.eccUe ∧ OnlyPlaces s t)
    ∧ (ready → m = .rodScratch → ∃ t, exec (access .double) s = .next t ∧ idx ∈ t.fab.rodFail
        ∧ t.fab.eccUe = satInc s.fab.eccUe ∧ OnlyPlaces s t)
    ∧ (ready → line ∈ s.fab.poisoned →
        exec (access .clean) s = .next { u with out := s.out ++ [.memAck .poison] })
    ∧ (∀ r : Role, ready → line ∈ s.fab.poisoned → s.role r.id = some r → r.st = .running →
        exec (.memoryAccess m idx addr .clean (some r.id) none) s = .next ((u.emit (.memAck .poison)).modRole r.id
          (fun x => { x with st := .replacing, failedBead := x.bead, since := s.now })))
    ∧ (ready → exec (access .writeLine) s = .next { u with
        fab := { u.fab with poisoned := s.fab.poisoned.filter (fun x => x != line) }
        out := s.out ++ [.memAck .normal] })
    ∧ (∀ w d, up → memDeck m idx = some d → (s.deck d).st = .retention →
        exec (access w) s = .next (s.holdAtDeck d (.access (req w))))
    ∧ (∀ w, s.memDown m idx = true → exec (access w) s = .next { s with out := s.out ++ [.memAck .void] })
    ∧ (∀ w, m = .lpddr → s.xingStopped 0x14 = true →
        exec (access w) s = .next ((s.xingCount 0x14).emit (.memAck .void)))
    ∧ (m = .tallyCode → exec (access .clean) s = .next { s with out := s.out ++ [.memAck .normal] }
        ∧ (idx = s.tally.bank → s.tally.prog.isSome = true → s.tally.run ≠ .stopped → ∃ t, exec (access .double) s = .next t
          ∧ t.tally.run = .stopped ∧ t.tally.stopCause = 6 ∧ t.out.getLast? = some (.memAck .void)))
    ∧ (∀ w, ready → s.scrubOwes = some (m, idx, w) → exec (.scrubStep .clean ⟨false, none⟩) s = .next { s with
        fab := { s.fab with scrubOwed := s.scrubRest m idx ++ if w + 1 < scrubWords m then [(m, idx, w + 1)] else [] } })
    ∧ (∀ w, s.scrubOwes = none → s.fab.scrubIdle = false → s.fab.scrubMem = m → s.fab.scrubIdx = idx → s.fab.scrubWord = w →
        w + 1 < scrubWords m →
        (ready → exec (.scrubStep .clean ⟨false, none⟩) s = .next { s with fab := { s.fab with scrubWord := w + 1 } }
          ∧ Runs (.scrubStep .single ⟨false, none⟩) s
              { s with fab := { s.fab with scrubWord := w + 1, eccCe := satInc s.fab.eccCe } })
        ∧ (s.memAsleep m idx = true → ∃ t, exec (.scrubStep .clean ⟨false, none⟩) s = .next t
            ∧ t.fab.decks = s.fab.decks ∧ (t.scrubFrom m idx).isSome = true))

/-- At a pace step a deck below its pace floor steps its rail up by 5 mV, whatever else holds; one above it with POLICY 0, no backlog
and none within the last millisecond steps down, but not below the level at which the floor still holds; and a backlog steps it up
(an active deck that is not hot; a rail above the cap of a hot OPZ4810-IE steps down first, the model's reading of R681).
An idle deck with retention enabled, no open handshake or move and no wake-pinned role enters retention: rail off, its level remembered.
What arrives is held and wakes it; where the deck is awake it is taken as any token or access. When its rail is back the deck is active
(or shedding) at its remembered level; when it is not, RETENTION_EXIT_FAIL is raised and the deck stays as it is. -/
def Obligations.DecksPaceAndSleep : Prop :=
  ∀ (s : State) (d rate raw floor : Nat) (backlog hot : Bool), d < s.fab.decks.length → d < 8 →
    ((s.deck d).st = .active → (s.deck d).hot = false → (s.deck d).lastStep + 50 * usNs ≤ s.now → (s.deck d).rail ≤ railMax hot →
      ∃ t, exec (.paceStep d rate raw floor backlog hot) s = .next t
      ∧ (t.deck d).pace = rate ∧ (t.deck d).lastStep = s.now ∧ (t.deck d).st = .active
      ∧ (rate < paceFloor hot → (t.deck d).rail = stepUp hot (s.deck d).rail)
      ∧ (¬ rate < paceFloor hot → s.fld rPaceCtl 1 0 ≠ 1 → backlog = true → (t.deck d).rail = stepUp hot (s.deck d).rail)
      ∧ (¬ rate < paceFloor hot → s.fld rPaceCtl 1 0 ≠ 1 → backlog = false → (s.deck d).lastBacklog + msNs ≤ s.now →
          (t.deck d).rail = stepDown floor (s.deck d).rail)
      ∧ OnlyReports { s with fab := { s.fab with decks := t.fab.decks, hot := hot }, freeCnt := t.freeCnt } t
      ∧ ∀ e, e ≠ d → t.deck e = s.deck e)
    ∧ (∀ q, s.deckAwake d = true → 2 * msNs ≤ q → (s.deck d).idleSince + 2 * msNs ≤ s.now → s.fld rPaceCtl 2 2 = 1 →
        s.deckHoldsPinned d = false → s.deckMoves d = false → exec (.retentionEntry d q) s =
          .next (s.modDeck d (fun k => { k with st := .retention, lastRail := k.rail, rail := 0 })))
    ∧ (∀ (tok : Token) (b : Nat), deckOf b = d → exec (.deckWake d (.token tok b false)) s = exec (.tokenArrival tok .port b) s)
    ∧ (∀ (tok : Token) (b : Nat) (fwd : Bool) (r : Role), s.role tok.role = some r → r.st ≠ .retired → r.st ≠ .replacing →
        incarnation tok.epoch = incarnation r.epoch → deckOf b = d → (s.deck d).st = .retention → ∃ t,
        exec (.deckWake d (.token tok b fwd)) s = .next t ∧ (t.deck d).st = .waking
        ∧ (t.deck d).held = (s.deck d).held ++ [.token tok b fwd])
    ∧ (∀ a : MemReq, memDeck a.mem a.idx = some d → s.memDown a.mem a.idx = false → (s.deck d).st = .retention → ∃ t,
        exec (.deckWake d (.access a)) s = .next t ∧ (t.deck d).st = .waking ∧ (t.deck d).held = (s.deck d).held ++ [.access a])
    ∧ ((s.deck d).st = .waking → (s.deck d).held = [] → exec (.retentionExitDone d true raw) s =
        .next (s.modDeck d (fun k => { k with
          st := if k.hot then .shedding else .active, rail := k.lastRail, idleSince := s.now, held := [] })))
    ∧ ((s.deck d).st = .waking → exec (.retentionExitDone d false raw) s = .next (s.raise 0x1D [u16 d, u16 raw]))

/-- With DECK_TOFS at 0.0 for the deck, a deck whose junction reads above SHED_C begins to shed, with THERM_SHED: an active one goes to
SHEDDING, a sleeping one keeps its status word; one that sheds and reads at least 3 °C below SHED_C stops, with THERM_SHED_END, which
carries how long it shed; and one that reads above 125 °C trips and its beads are lost. Nothing of the tablet changes but the deck, the
directory, what follows from the loss of roles, and reports. -/
def Obligations.HeatShedsAndTrips : Prop :=
  ∀ (s : State) (d raw : Nat), d < 8 → s.fab.decks.length = 8 → s.cal.tofs.getD d 0 = 0#32 → raw ≤ 1023 → d ∉ s.fab.deckFail →
    ((s.deck d).hot = false → tempOf s.shedC < raw → exec (.thermShed d raw) s =
      .next ((s.modDeck d (fun k => { k with
        st := if k.st = .active then .shedding else k.st, hot := true, temp := if k.st.awake then raw else k.temp,
        shedSince := s.now })).raise 0x16 [u16 d, u16 raw]))
    ∧ ((s.deck d).hot = true → raw ≤ tempOf (s.shedC - 3) → exec (.thermShedEnd d raw) s =
        .next ((s.modDeck d (fun k => { k with
          st := if k.st = .shedding then .active else k.st, hot := false, temp := if k.st.awake then raw else k.temp })).raise 0x17
          [u16 d, u16 raw, u32 ((s.now - (s.deck d).shedSince) / usNs)]))
    ∧ (tempOf 125 < raw → ∃ t, exec (.thermTrip d raw) s = .next t ∧ (t.deck d).st = .tripped
        ∧ d ∈ t.fab.deckFail ∧ (∀ i, i < 64 → t.beadWorks (d * 64 + i) = false) ∧ OnlyPlaces s t)

/-- The first unanswered request is completed void and stops its crossing, sets the crossing's bit in FAB_XING_TO and raises
XING_TIMEOUT (whose report is itself counted void where crossing 0x01 is stopped); a timeout that comes after its completion does nothing; a request while the crossing is stopped is void and counted; 16
island cycles restart it, and XING_RESTART tells what was void and late meanwhile. A
completion that comes after its timeout is discarded and counted late; any other is delivered. An event of a merging crossing that
meets an earlier one still inside is merged, counted, and marked in FAB_XING_MRG; any other crosses. The items of a counting crossing
cross as far as the receiving side has room, the rest wait, and none is lost. -/
def Obligations.CrossingsStopAndRestart : Prop :=
  ∀ (s : State) (x req : Nat), x < 23 → x < s.fab.crossings.length →
    ((s.xing x).stopped = false → (s.xing x).done ≤ req → ∃ t, exec (.xingTimeout ⟨x, req⟩) s = .next t
      ∧ t.xing x = { s.xing x with
          stopped := true, voidAtStop := (s.xing x).void, lateAtStop := (s.xing x).late, done := max (s.xing x).done (req + 1)
          void := (t.xing x).void }
      ∧ t.fab = { s.fab with crossings := t.fab.crossings, xingTo := setBit s.fab.xingTo x }
      ∧ Output.xingAck x .void ∈ t.out ∧ OnlyReports { s with fab := t.fab } t
      ∧ (∀ y, y ≠ x → t.xing y = { s.xing y with void := (t.xing y).void }) ∧ ∀ y, y ≠ 0x01 → (t.xing y).void = (s.xing y).void)
    ∧ ((s.xing x).stopped = false → req < (s.xing x).done → exec (.xingTimeout ⟨x, req⟩) s = .next s)
    ∧ ((s.xing x).stopped = true → exec (.xingTimeout ⟨x, req⟩) s =
        .next ((s.modXing x (fun c => { c with done := max c.done (req + 1) })).xingVoid x))
    ∧ ((s.xing x).stopped = true → exec (.xingRestart x) s = .next ((s.modXing x (fun c => { c with stopped := false })).raise 0x1A
        [u16 x, u32 ((s.xing x).void - (s.xing x).voidAtStop).toNat, u32 ((s.xing x).late - (s.xing x).lateAtStop).toNat]))
    ∧ (req < (s.xing x).done →
        exec (.islandCompletion x .answer req) s = .next (s.modXing x (fun c => { c with late := satInc c.late })))
    ∧ ((s.xing x).done ≤ req → exec (.islandCompletion x .answer req) s =
        .next ((s.modXing x (fun c => { c with done := req + 1 })).emit (.crossed x)))
    ∧ (∀ n, xingMerging x = true → (s.xing x).carries x s.now (n != 0) = true → exec (.islandCompletion x .event n) s =
        .next { s with
          fab := { s.fab with
            crossings := s.fab.crossings.modify x (fun c => { c with merges := satInc c.merges })
            xingMrg := setBit s.fab.xingMrg x } })
    ∧ (∀ n, xingMerging x = true → (s.xing x).carries x s.now (n != 0) = false → exec (.islandCompletion x .event n) s =
        .next ((s.modXing x (fun c => { c with tookAt := some s.now })).emit (.crossed x)))
    ∧ (∀ room, xingMerging x = false → ∃ t, exec (.islandCompletion x .item room) s = .next t
        ∧ t.out = s.out ++ List.replicate (min ((s.xing x).waiting + 1) room) (.crossed x)
        ∧ (t.xing x).waiting + min ((s.xing x).waiting + 1) room = (s.xing x).waiting + 1)
    ∧ (∀ n, ∃ t, exec (.islandCompletion x .room n) s = .next t
        ∧ t.out = s.out ++ List.replicate (min (s.xing x).waiting n) (.crossed x)
        ∧ (t.xing x).waiting + min (s.xing x).waiting n = (s.xing x).waiting)

/-- A bead, rod or deck that reports a fault and has not failed before is isolated: it and everything in it no longer work, its bits
of the FAB fail registers are set, no part that had failed works again, and nothing changes but the fabric, the directory, the
optimiser's runs where shedding takes its last beads, HANDOVER, FIT and reports. An unanswered handshake isolates the unresponsive part
and acknowledges the token void. What was held at an isolated deck's boundary is completed void. The loss of a frame takes its
256 beads. The bead scan of start-up step 4, with a placement that the rules allow, leaves FAB_SCAN valid with the counts of failed
parts, raises no part to working, makes the directory, and start-up goes on with step 5. -/
def Obligations.FaultsIsolateTheirParts : Prop :=
  ∀ (s : State) (n check : Nat),
    (s.beadWorks n = true → ∃ t, exec (.beadFault n check) s = .next t ∧ t.beadWorks n = false ∧ n ∈ t.fab.beadFail
      ∧ (∀ b, t.beadWorks b = true → s.beadWorks b = true) ∧ OnlyPlaces s t)
    ∧ (n < 64 → n ∉ s.fab.rodFail → n / 8 ∉ s.fab.deckFail → ∃ t, exec (.rodFault n check) s = .next t ∧ n ∈ t.fab.rodFail
      ∧ (∀ i, i < 8 → t.beadWorks (n * 8 + i) = false) ∧ (∀ b, t.beadWorks b = true → s.beadWorks b = true) ∧ OnlyPlaces s t)
    ∧ (n < 8 → n ∉ s.fab.deckFail → ∃ t, exec (.deckFault n check) s = .next t ∧ n ∈ t.fab.deckFail
      ∧ (∀ i, i < 64 → t.beadWorks (n * 64 + i) = false) ∧ (∀ b, t.beadWorks b = true → s.beadWorks b = true)
      ∧ (∀ a ∈ (s.deck n).held, Arrival.void a ∈ t.out) ∧ OnlyPlaces s t)
    ∧ (∀ (req : Part) (tok : Token), s.beadWorks n = true → ∃ t, exec (.handshakeStall req (.bead n) tok) s = .next t
      ∧ Output.ack tok .void ∈ t.out ∧ t.beadWorks n = false ∧ OnlyPlaces s t)
    ∧ (n < 2 → n ∉ s.fab.frameLost → ∃ t, exec (.frameLoss n check) s = .next t ∧ n ∈ t.fab.frameLost
      ∧ (∀ i, i < 256 → t.beadWorks (n * 256 + i) = false) ∧ OnlyPlaces s t)
    ∧ (∀ (parts : List Part) (lf : List Nat) (ps : List Placed), s.sup.step = 4 → s.sup.holdUp = false →
        (s.scanned parts lf).placementOk ps = true →
        ∃ t, exec (.scanDone parts lf ps) s = .next t ∧ t.sup = { s.sup with step := 5 }
      ∧ t.fab.scan = scanWord (s.scanned parts lf).fab.beadFail.length (s.scanned parts lf).fab.rodFail.length
          (s.scanned parts lf).fab.deckFail.length
      ∧ (∀ b, t.beadWorks b = true → s.beadWorks b = true)
      ∧ t.place.roles.map (fun r => (r.id, r.bead, r.ckpt)) = ps.map (fun p => (p.role, p.bead, some p.ckptDeck))
      ∧ OnlyPlaces { s with sup := { s.sup with step := 5 } } t)

/-- An evaluation of an enabled Shifter starts a move the rules allow: the role is MOVING, its directory entry still on the old bead,
and the deck of the new one wakes where it sleeps; RESERVE_LOW is raised where the reserve falls below 8. A target whose deck is no
longer eligible ends the move (the model's choice, log entry 111). The commit gives the role its new bead and the epoch with the move count
incremented, leaves its checkpoint where it stands, and forwards what was queued, in order. Each sweep token removes its router from
those that have not swept; the last one has the stub send its fence-close token. The fence ends the move and acknowledges what was
forwarded and held. PLACE_SHIFT writes bits 3:0 of FAB_PLACE_CTL, PLACE_ALLOC
keeps the counts it orders for its engines' boundaries, and both complete. -/
def Obligations.MovesFreezeCommitAndFence : Prop :=
  ∀ (s : State) (r : Role), s.role r.id = some r →
    (∀ p : MovePlan, p.role = r.id → s.place.shiftEn = .enabled → s.place.lastEval + 10 * msNs ≤ s.now → s.moveOk p = true →
      exec (.shifterEvaluation [p]) s = .next (((({ s with place := { s.place with lastEval := s.now } }).modRole r.id (fun x => { x with
        st := .moving, move := some ⟨r.bead, p.target, p.cause, s.now, false, [], [], [], [], []⟩ })).wakeDeck (deckOf p.target)).noteReserve
          s.reserve))
    ∧ (∀ m : Move, r.move = some m → r.st = .moving → m.committed = false → s.beadWorks m.target = true →
        s.deckAwake (deckOf m.target) = true → s.deckEligible (deckOf m.target) = true → ∃ t, exec (.moveCommit r.id) s = .next t
        ∧ t.role r.id = some { r with
            bead := m.target, epoch := epochMoved r.epoch, st := .running
            move := some { m with committed := true, sweeps := allRouters, queued := [], forwarding := m.queued } }
        ∧ t = { s with place := { s.place with roles := t.place.roles }, out := s.out ++ m.queued.map (fun x => .forward x m.target) })
    ∧ (∀ m : Move, r.move = some m → r.st = .moving → m.committed = false → s.deckEligible (deckOf m.target) = false →
        (∀ q ∈ s.place.roles, q.retireAfter = true → q.move ≠ none ∧ q.id ≠ r.id) → ∃ t, exec (.moveCommit r.id) s = .next t
        ∧ t.role r.id = some { r with
            st := .running
            move := none } ∧ ∀ tok ∈ m.queued, Output.ack tok .normal ∈ t.out)
    ∧ (∀ (m : Move) (k : Nat), r.move = some m → m.committed = true → k ∈ m.sweeps → ∃ t, exec (.sweepToken r.id k) s = .next t
        ∧ t.role r.id = some { r with move := some { m with sweeps := m.sweeps.filter (fun x => x != k) } }
        ∧ (Output.fenceClose r.id ∈ t.out.drop s.out.length ↔ ∀ x ∈ m.sweeps, x = k))
    ∧ (∀ m : Move, r.move = some m → m.committed = true → m.sweeps = [] → s.roleDown r.id = false → r.resend = [] →
        (∀ q ∈ s.place.roles, q.retireAfter = true → q.move ≠ none ∧ q.id ≠ r.id) →
        s.place.shiftEn = .enabled → ∃ t, exec (.fenceClose r.id) s = .next t ∧ t.role r.id = some { r with move := none }
        ∧ OnlyReports { s with
            place := { s.place with roles := t.place.roles }
            fab := { s.fab with decks := t.fab.decks } } t
        ∧ ∀ tok ∈ m.tokens, Output.ack tok .normal ∈ t.out)
    ∧ (∀ (ref : OrderRef) (v : Nat), s.orderReady ref 0x0202 = true → v < 16 → s.place.shiftEn = .disabled → v % 2 = 0 →
        Completes (.placeShift ref v) s (s.setReg rPlaceCtl (word ((s.reg rPlaceCtl).toNat / 16 * 16 + v))) ref 0x0202 0 [])
    ∧ (∀ (ref : OrderRef) (c1 c2 c3 : Nat), s.orderReady ref 0x0201 = true → 48 ≤ c1 → 64 ≤ c2 → 16 ≤ c3 →
        c1 + c2 + c3 + 112 ≤ s.workingBeads → Completes (.placeAlloc ref c1 c2 c3) s
          { s with place := { s.place with
            pendingAlloc := [(1, c1), (2, c2), (3, c3)].filter (fun p => s.kindCount p.1 != p.2) } } ref 0x0201 0 [])

/-- MODEL_LOAD begins a load where none runs, and answers LOAD_BUSY where one does. When the checks are done, a good image goes on to
the slot not in use and a bad one (or any under VALIDATE_ONLY) ends the load with MODEL_RESULT. A written slot of a tablet without a
standby makes the load ready; a second failed read-back ends it with status 0x13. From the first Reckoner tick after that on,
MODEL_COMMIT gives its slot the next activation sequence and makes the swap due. MODEL_ABORT ends a load before that tick, is taken
after the commit from it on and answers 0x14, and answers 0x15 where there is no load; MODEL_QUERY answers with revision, digest, slot and counts of the running model. -/
def Obligations.ModelLoadsStageByStage : Prop :=
  ∀ (s : State) (ref : OrderRef) (img : List Byte) (len : Nat) (vo ao ft : Bool),
    (s.orderReady ref 0x0301 = true → s.model.load = none →
      Runs (.modelLoad ref img len vo ao ft) s { s with
        model := { s.model with load := some ⟨ref, img, len, vo, ao, ft, 
          .checking, s.spareSlot, false, false, false, 0⟩ } })
    ∧ (s.orderReady ref 0x0301 = true → s.model.load ≠ none →
        Completes (.modelLoad ref img len vo ao ft) s s ref 0x0301 0 (s.modelResult (bareRes 0x10) img))
    ∧ (∀ l, s.model.load = some l → l.stage = .checking →
        let c := modelChecks (s.checkEnv (some l.length) (s.model.runSlot.map (fun _ => s.modelRev)) l.allowOlder) l.bytes
        (c.status = 0 → l.validateOnly = false →
          exec .modelChecksDone s = .next { s with model := { s.model with load := some { l with stage := .writing } } })
        ∧ (c.status ≠ 0 ∨ l.validateOnly = true →
          Completes .modelChecksDone s { s with model := { s.model with load := none } } l.ref 0x0301 0 (s.modelResult c l.bytes)))
    ∧ (∀ l, s.model.load = some l → l.stage = .writing →
        (s.standbyThere = false → exec (.modelSlotWritten true) s = .next { s with
          model := { s.model with
            slots := s.model.slots.set l.slot ⟨l.bytes, 0⟩
            load := some { l with stage := .ready, readyAt := s.tai } } })
        ∧ (l.retried = false →
            exec (.modelSlotWritten false) s = .next { s with model := { s.model with load := some { l with retried := true } } })
        ∧ (l.retried = true → Completes (.modelSlotWritten false) s { s with
            model := { s.model with
              slots := s.model.slots.set l.slot ⟨[], 0⟩
              load := none } } l.ref 0x0301 0 (s.modelResult (bareRes 0x13) l.bytes)))
    ∧ (∀ l, s.model.load = some l → l.stage = .ready → l.readyAt ≤ s.tickNow → l.twinOk = false → s.twin.en = .disabled →
        exec .modelCommit s = .next { s with
          model := { s.model with
            load := some { l with stage := .committed }
            slots := s.model.slots.set l.slot ⟨l.bytes, s.nextSlotSeq⟩
            swapDue := true } })
    ∧ (∀ l, s.orderReady ref 0x0302 = true → s.model.load = some l → l.stage = .ready → l.readyAt ≤ s.tickNow → l.twinOk = false →
        s.twin.en = .disabled → Completes (.modelAbort ref) s { s with
          model := { s.model with
            load := some { l with stage := .committed }
            slots := s.model.slots.set l.slot ⟨l.bytes, s.nextSlotSeq⟩
            swapDue := true } } ref 0x0302 0 (s.modelResult (bareRes 0x14) l.bytes))
    ∧ (∀ l, s.model.load = some l → l.stage = .ready → s.tickNow < l.readyAt → exec .modelCommit s = .next s)
    ∧ (s.orderReady ref 0x0302 = true → s.model.load = none →
        Completes (.modelAbort ref) s s ref 0x0302 0 (s.modelResult (bareRes 0x15) []))
    ∧ (∀ l, s.orderReady ref 0x0302 = true → s.model.load = some l → l.stage ≠ .committed → l.stage ≠ .firstSolve →
        (l.stage = .ready → s.tickNow < l.readyAt) → Completes (.modelAbort ref) s { s with model := { s.model with load := none } } l.ref 0x0301 0
          (s.modelResult (bareRes 0x12) l.bytes))
    ∧ (s.orderReady ref 0x0303 = true → Completes (.modelQuery ref) s s ref 0x0303 0
        ([u32 s.modelRev, recFld 8 (if s.model.run.isEmpty then 0 else imgDigest8 s.model.run), u8 (s.model.runSlot.getD 3), u8 0]
          ++ (List.range 11).map (fun i => u16 (recsOf s.model.run (i + 1)).length) ++ [u16 s.unmodelled]))

/-- A model swap that is due, with no solve running and no Reckoner role being re-placed, at the tick after one that it waited for,
makes the slot with the highest activation
sequence the running model, for every engine at once; otherwise it changes nothing. A role whose bead failed restarts on a free bead
that its checkpoint allows, or on its own where that works: it is running there, with the move count of its epoch incremented where
the bead is another, its checkpoint where it was, and the tokens that were held or answered void for it are taken; a look-ahead run
whose share it holds starts again. Of a loop role's restart the loops of other roles are left as they are; only an optimiser role
touches the layer solves, only a metering role the windows. (Of the sequencer's roles, and of station roles without a checkpoint, the
engine's own restart is not stated here.) -/
def Obligations.SwapAndReplacementRestart : Prop :=
  ∀ s : State,
    (s.swapOk = true → ∃ t, exec .modelSwap s = .next t ∧ t.model.run = (s.model.slots.getD s.markedSlot default).bytes
      ∧ t.model.runSlot = some s.markedSlot ∧ t.model.swapDue = false ∧ t.model.firstDue = true ∧ t.model.slots = s.model.slots
      ∧ SameRoles s t ∧ t.regs = s.regs ∧ t.pending = s.pending)
    ∧ (s.swapOk = false → exec .modelSwap s = .next s)
    ∧ ∀ (r : Role) (kind index bead run : Nat), r.id = roleIdOf kind index → s.role r.id = some r → s.mayRestart r bead = true → roleKind r.id ≠ 6 →
        (roleKind r.id = 5 → r.ckpt ≠ none) →
        ∃ t, exec (.roleReplaced kind index bead run) s = .next t
        ∧ t.role r.id = some { r with
            bead := bead, epoch := if bead = r.bead then r.epoch else epochMoved r.epoch, st := .running, waiting := [], resend := [] }
        ∧ OnlyAnswers { s with
            place := { s.place with roles := t.place.roles }
            fab := { s.fab with decks := t.fab.decks }
            model := { s.model with clearAt := t.model.clearAt }
            la := { s.la with runs := t.la.runs }
            reck := { s.reck with pins := t.reck.pins }
            opt := t.opt
            loops := t.loops
            meter := t.meter } t
        ∧ (roleKind r.id ≠ 3 → t.opt = s.opt) ∧ (roleKind r.id ≠ 4 → t.loops = s.loops ∧ t.setup = s.setup)
        ∧ (roleKind r.id ≠ 7 → t.meter = s.meter) ∧ (∀ n, loopRole n ≠ r.id → t.loopOf n = s.loopOf n)
        ∧ (∀ tok ∈ r.waiting ++ r.resend, Output.ack tok .normal ∈ t.out)
        ∧ (roleKind r.id = 2 → ∀ x ∈ t.la.runs, x.number = run → x.restarted = true ∧ x.startedAt = s.now)
        ∧ (roleKind r.id ≠ 2 → t.la = s.la)

/-- At a new tick with a model, an enabled Reckoner starts the next solve on it with the settings then in force, cold after three
failures; where a solve still runs, in QUIESCING too, the tick is skipped and counted, and the solve goes on. A solve's numbers are those of its laws, or those that
the command names. A solve that converges publishes: its set becomes the latest, no other set changes, its working numbers are kept
for the next one, and the run of failures ends. One that does not converge publishes nothing: every set stays, the latest
with them, and the run of failures grows. One that is still running two cadences after its tick ends LATE in the same way, and so
does one whose end comes then. A solve
that ends while QUIESCING leaves the Reckoner DISABLED. -/
def Obligations.ReckonerSolvesTickByTick : Prop :=
  ∀ s : State, s.sup.step ≠ 10 →
    (s.reck.en = .enabled → s.model.runSlot ≠ none → s.reck.running = none →
      let c := s.reck.pendingCfg.getD s.reck.cfg
      s.reck.lastTick < tickOf c s.tai → ∃ t r, exec .reckonTick s = .next t ∧ t.reck.running = some r
        ∧ t.reck = { s.reck with
            lastTick := tickOf c s.tai, cfg := c, pendingCfg := none, solves := s.reck.solves + 1, running := some r }
        ∧ r.number = s.reck.solves + 1 ∧ r.tickTai = tickOf c s.tai ∧ r.tickAt = s.now ∧ r.cfg = c
        ∧ r.cold = (s.model.coldNext || decide (3 ≤ s.reck.failRun)))
    ∧ (∀ r, s.reck.en ≠ .disabled → s.model.runSlot ≠ none → s.reck.running = some r →
        s.reck.lastTick < tickOf (s.reck.pendingCfg.getD s.reck.cfg) s.tai → ∃ t, exec .reckonTick s = .next t
        ∧ t.reck.running = some r ∧ t.reck.skippedSince = true ∧ t.reck.solves = s.reck.solves ∧ t.reck.skips = s.reck.skips + 1)
    ∧ (∀ (r : Solve) (given : Option SolveResult), s.reck.running = some r → s.reck.en ≠ .quiescing →
        s.pastDue r = false → (s.solveNumbers r given).1.converged = true →
        ∃ t x, exec (.solveEnd given) s = .next t ∧ t.reck.running = none ∧ t.reck.failRun = 0
        ∧ t.reck.num = (s.solveNumbers r given).2
        ∧ t.reck.latest = some (s.freeSet.getD 0) ∧ t.reck.sets = s.reck.sets.set (s.freeSet.getD 0) (some x)
        ∧ x.number = r.number ∧ x.tickTai = r.tickTai ∧ x.revision = s.modelRev ∧ t.reck.en = s.reck.en)
    ∧ (∀ (r : Solve) (given : Option SolveResult), s.reck.running = some r → s.reck.en ≠ .quiescing →
        s.pastDue r = false → (s.solveNumbers r given).1.converged = false →
        ∃ t, exec (.solveEnd given) s = .next t ∧ t.reck.running = none ∧ t.reck.failRun = s.reck.failRun + 1
        ∧ t.reck.lastStatus = some 2 ∧ t.reck.sets = s.reck.sets ∧ t.reck.latest = s.reck.latest
        ∧ OnlyReports { s with
            reck := t.reck
            model := { s.model with clearAt := t.model.clearAt } } t)
    ∧ (∀ (r : Solve) (given : Option SolveResult), s.reck.running = some r → s.reck.en = .quiescing →
        ∃ t, exec (.solveEnd given) s = .next t ∧ t.reck.running = none ∧ t.reck.en = .disabled ∧ t.reck.lastStatus = some 4
        ∧ t.reck.sets = s.reck.sets ∧ t.reck.latest = s.reck.latest ∧ OnlyReports { s with
            reck := t.reck
            model := { s.model with clearAt := t.model.clearAt } } t)
    ∧ (∀ (r : Solve) (given : Option SolveResult), s.reck.running = some r → s.reck.en ≠ .quiescing → s.pastDue r = true →
        ∃ t, exec (.solveEnd given) s = .next t ∧ t.reck.running = none ∧ t.reck.failRun = s.reck.failRun + 1
        ∧ t.reck.lastStatus = some 3 ∧ t.reck.sets = s.reck.sets ∧ t.reck.latest = s.reck.latest)
    ∧ (∀ (r : Solve) (work : SolveWork) (n : Nat) (ps : List ResidualPass), s.reck.running = some r →
        r.tickAt + 2 * (r.cfg.cadenceMs * msNs) ≤ s.now → ∃ t, exec (.solveLate work n ps) s = .next t ∧ t.reck.running = none ∧ t.reck.failRun = s.reck.failRun + 1
        ∧ t.reck.lastStatus = some 3 ∧ t.reck.sets = s.reck.sets ∧ t.reck.latest = s.reck.latest)

/-- RECKON_CFG with every field in its range waits for the next tick; MEAS_PUT holds the value of a host measurement with its quality
and the time of its stamp, or of its acceptance for stamp 0; RECKON_CTL enables, disables at once, quiesces while a solve runs, and is
refused with QUIESCING while it does; STATE_QUERY delivers entries of the latest set and answers with its solve and count,
pins the set, and is refused with BUSY while another runs, in the same instant (the model's reading of R177, log entry 19). A
RECKON_CFG or a STATE_QUERY out of range, and a MEAS_PUT for a measurement the model lacks, are refused and change nothing. -/
def Obligations.ReckonerOrdersComplete : Prop :=
  ∀ (s : State) (ref : OrderRef),
    (∀ c, s.orderReady ref 0x0401 = true → reckonCfgOk c = true → Completes (.reckonCfg ref c) s
      { s with reck := { s.reck with pendingCfg := some c, lastTick := tickOf c s.tai } } ref 0x0401 0 [])
    ∧ (∀ c, s.orderReady ref 0x0401 = true → reckonCfgOk c = false → Completes (.reckonCfg ref c) s s ref 0x0401 3 [])
    ∧ (∀ (i q : Nat) (st : Word) (v : F32) (r : List Byte), s.orderReady ref 0x0404 = true → recByKey s.model.run 11 i = some r →
        u8At r 3 = 3 → Completes (.measPut ref i q st v) s { s with
          reck := { s.reck with
            hostMeas := alPut s.reck.hostMeas i (v, qOfCode q, if st = 0 then s.tai else s.extendStamp st) } } ref 0x0404 0 [])
    ∧ (∀ (i q : Nat) (st : Word) (v : F32), s.orderReady ref 0x0404 = true → recByKey s.model.run 11 i = none →
        Completes (.measPut ref i q st v) s s ref 0x0404 3 [])
    ∧ (s.orderReady ref 0x0402 = true → s.reck.en ≠ .quiescing →
        Completes (.reckonCtl ref 1) s { s with reck := { s.reck with en := .enabled } } ref 0x0402 0 [u8 (enCode .enabled)])
    ∧ (s.orderReady ref 0x0402 = true → s.reck.en = .enabled → s.reck.running = none →
        Completes (.reckonCtl ref 0) s { s with reck := { s.reck with en := .disabled } } ref 0x0402 0 [u8 (enCode .disabled)])
    ∧ (s.orderReady ref 0x0402 = true → s.reck.en = .enabled → s.reck.running ≠ none →
        Completes (.reckonCtl ref 0) s { s with reck := { s.reck with en := .quiescing } } ref 0x0402 0 [u8 (enCode .quiescing)])
    ∧ (s.orderReady ref 0x0402 = true → s.reck.en = .quiescing →
        Completes (.reckonCtl ref 1) s s ref 0x0402 6 [u8 (enCode .quiescing)])
    ∧ (∀ a o n, s.orderReady ref 0x0403 = true → a % 16 = 0 → o % 16 = 0 → o ≤ 0x8B6F0 → 0 < n → n ≤ 65536 →
        o + 16 * n ≤ 0x8B700 → s.reck.queryAt ≠ some s.now → Completes (.stateQuery ref a o n) s { s with
          reck := { s.reck with
            queryAt := some s.now
            pins := (s.reck.latest.map (fun i => (queryPin, i))).toList ++ s.reck.pins.filter (fun p => p.1 != queryPin) } } ref 0x0403 0
          [u8 0, u8 0, u8 0, u8 0, u32 s.latestSolve, u32 n])
    ∧ (∀ a o n, s.orderReady ref 0x0403 = true → a % 16 = 0 → o % 16 = 0 → o ≤ 0x8B6F0 → 0 < n → n ≤ 65536 →
        o + 16 * n ≤ 0x8B700 → s.reck.queryAt ≠ some s.now → s.xingStopped 0x01 = false → ∃ t, exec (.stateQuery ref a o n) s = .next t ∧
          Output.hostData a ((List.range n).map (fun i => pvFlds (s.reckEntry (o / 16 + i)))).flatten ∈ t.out)
    ∧ (∀ a o n, s.orderReady ref 0x0403 = true → a % 16 = 0 → o % 16 = 0 → o ≤ 0x8B6F0 → 0 < n → n ≤ 65536 →
        o + 16 * n ≤ 0x8B700 → s.reck.queryAt = some s.now → Completes (.stateQuery ref a o n) s s ref 0x0403 0
          [u8 1, u8 0, u8 0, u8 0, u32 0, u32 0])
    ∧ (∀ a o n, s.orderReady ref 0x0403 = true → 0x8B700 < o + 16 * n → Completes (.stateQuery ref a o n) s s ref 0x0403 0
          [u8 2, u8 0, u8 0, u8 0, u32 0, u32 0])

/-- A submission to an enabled look-ahead with a free slot, no queue and nothing to refuse it starts a run on the latest reckoned
state, which it pins; with four runs going it waits in the queue, and the front of the queue starts when a slot is free,
or ends SUPERSEDED where the sequencer has withdrawn it. A run's
numbers are those of its laws, or those that the command names. A run that does not diverge ends with a verdict that counts the breaches of the checked points: SLOW where the state cannot be trusted for the
zone, else PASS where there is none and FAIL where there is one; a diverged run is refused with 0x19. A run past its bound is reported
once; a run that the sequencer withdraws ends SUPERSEDED; a rebuilt grid is in force. -/
def Obligations.LookAheadRunsAndVerdicts : Prop :=
  ∀ s : State,
    (∀ (n : Nat) (x : Rollout), s.rollOf n = some x → x.submitted = true → s.activeOrSolo = true → s.la.en = .enabled →
      (s.la.runs.length < 4 → s.la.rebuilding = none → s.la.queue = [] → alGet s.place.pendingAlloc 2 = none →
        s.la.count + 1 ∉ s.la.withdrawals →
        s.startRefusal x (horizonMs s.la.cfg ((s.latestSet.map (·.tickTai)).getD 0) x.lastApply) = 0 →
        ∃ t r, exec (.laSubmit n) s = .next t ∧ t.la = { s.la with count := s.la.count + 1, runs := s.la.runs ++ [r] }
          ∧ r.number = s.la.count + 1 ∧ r.rollout = n ∧ r.solve = s.latestSolve ∧ r.startedAt = s.now
          ∧ (∀ i, s.reck.latest = some i → (0x100 + (s.la.count + 1), i) ∈ t.reck.pins))
      ∧ (4 ≤ s.la.runs.length → s.la.queue.length < 8 → ∃ t, exec (.laSubmit n) s = .next t ∧ t.la = { s.la with
          count := s.la.count + 1, queue := s.la.queue ++ [⟨s.la.count + 1, n, x.zone, x.net, s.now, true⟩] }))
    ∧ (∀ (w : LaWaiting) (ws : List LaWaiting) (x : Rollout), s.la.queue = w :: ws → s.la.runs.length < 4 →
        s.la.rebuilding = none → s.la.en = .enabled → s.rollOf w.rollout = some x → alGet s.place.pendingAlloc 2 = none →
        w.run ∉ s.la.withdrawals →
        s.startRefusal x (horizonMs s.la.cfg ((s.latestSet.map (·.tickTai)).getD 0) x.lastApply) = 0 →
        ∃ t r, exec .laRunDequeue s = .next t ∧ r.number = w.run ∧ t.la = { s.la with
          queue := if 3 ≤ s.la.runs.length then ws.map (fun q => { q with queued := true }) else ws
          runs := s.la.runs ++ [r] })
    ∧ (∀ (w : LaWaiting) (ws : List LaWaiting), s.la.queue = w :: ws → s.la.runs.length < 4 → s.la.rebuilding = none →
        s.la.en = .enabled → s.rollOf w.rollout = none ∨ w.run ∈ s.la.withdrawals → ∃ t v, exec .laRunDequeue s = .next t
        ∧ t.la.queue = ws ∧ t.la.runs = s.la.runs ∧ t.la.recent.head? = some v ∧ v.run = w.run ∧ v.verdict = 3 ∧ v.reason = 0x17)
    ∧ (∀ (r : LaRun) (given : Option RunTrace), s.la.runs.find? (fun x => x.number == r.number) = some r → s.la.en = .enabled →
        let tr := runOutcome s.model.run r given
        (tr.diverged = false → ∃ t v, exec (.laVerdict r.number given) s = .next t ∧ t.la.recent.head? = some v
          ∧ t.la.delivered = s.la.delivered ++ [v] ∧ t.la.runs = s.la.runs.filter (fun x => x.number != r.number)
          ∧ v.run = r.number ∧ v.rollout = r.rollout
          ∧ (r.stopFirst = false → v.breaches =
              (tr.points.filterMap (fun p => (checkPoint s.model.run r.cfg p p.steps).entry)).length)
          ∧ (v.verdict = 2 ↔ r.degraded = true ∨ r.resid = none ∨
              ∃ x, r.resid = some x ∧ fLt (fieldAt ((recByKey s.model.run 10 r.zone).getD []) 8) x = true)
          ∧ (v.verdict ≠ 2 → v.verdict = if v.breaches = 0 then 0 else 1))
        ∧ (tr.diverged = true → ∃ t v, exec (.laVerdict r.number given) s = .next t ∧ t.la.recent.head? = some v
          ∧ v.run = r.number ∧ v.verdict = 3 ∧ v.reason = 0x19)
        ∧ (let bound := s.derateTime (runBoundUs (s.kindCount 2) r.cfg.stepMs (reachOfNet r.cfg.stepMs r.network s.model.run) r.horizonMs)
           r.overrun = false → r.startedAt + bound * usNs < s.now → exec (.laOverrun r.number) s = .next
            (({ s with la := { s.la with
                runs := s.la.runs.map (fun (x : LaRun) => if x.number = r.number then { x with overrun := true } else x) } }).raise 0x39
              [u32 r.number, u32 ((s.now - r.startedAt) / usNs), u32 bound, u16 (b01 r.restarted)]))
        ∧ (r.number ∈ s.la.withdrawals → ∃ t v, exec (.laWithdraw r.number) s = .next t ∧ t.la.recent.head? = some v
          ∧ v.run = r.number ∧ v.verdict = 3 ∧ v.reason = 0x17 ∧ t.la.runs = s.la.runs.filter (fun x => x.number != r.number)))
    ∧ (∀ c, s.la.rebuilding = some c → Runs .laGridRebuild s { s with la := { s.la with rebuilding := none } })

/-- LA_CFG with every field in range and a grid that fits takes effect, and a new step has the grid rebuilt; out of range it is refused
and changes nothing. LA_CTL enables, disables an idle look-ahead at once, and quiesces one with runs. LA_DETAIL delivers the breach
entries of a recent run, and answers 1 for a run it does not know. LA_QUERY answers with the grid of the four networks. -/
def Obligations.LookAheadOrdersComplete : Prop :=
  ∀ (s : State) (ref : OrderRef),
    (∀ c, s.orderReady ref 0x0501 = true → laCfgOk c = true → reachTotal c.stepMs s.model.run ≤ 131072 →
      Completes (.laCfg ref c) s { s with la := { s.la with
        cfg := c, rebuilding := if c.stepMs = s.la.cfg.stepMs then s.la.rebuilding else some 1 } } ref 0x0501 0 [])
    ∧ (∀ c, s.orderReady ref 0x0501 = true → laCfgOk c = false → Completes (.laCfg ref c) s s ref 0x0501 3 [])
    ∧ (s.orderReady ref 0x0502 = true → s.la.en ≠ .quiescing →
        Completes (.laCtl ref 1) s { s with la := { s.la with en := .enabled } } ref 0x0502 0 [u8 1])
    ∧ (s.orderReady ref 0x0502 = true → s.la.en = .enabled → s.la.runs = [] → s.la.queue = [] → Completes (.laCtl ref 0) s
        { s with la := { s.la with en := .disabled, retired := 0, refused := 0 } } ref 0x0502 0 [u8 (enCode .disabled)])
    ∧ (s.orderReady ref 0x0502 = true → s.la.en = .enabled → s.la.runs ≠ [] → s.la.queue = [] → Completes (.laCtl ref 0) s
        { s with la := { s.la with en := .quiescing, retired := 0, refused := 0 } } ref 0x0502 0 [u8 (enCode .quiescing)])
    ∧ (∀ run a v, s.orderReady ref 0x0503 = true → a % 16 = 0 → s.la.recent.find? (fun x => x.run == run) = some v →
        Completes (.laDetail ref run a) s s ref 0x0503 0 [u8 0, u8 0, u8 0, u8 0, u32 v.entries.length]
        ∧ (s.xingStopped 0x01 = false → ∃ t, exec (.laDetail ref run a) s = .next t
          ∧ Output.hostData a (v.entries.map breachFlds).flatten ∈ t.out))
    ∧ (∀ run a, s.orderReady ref 0x0503 = true → a % 16 = 0 → s.la.recent.find? (fun x => x.run == run) = none →
        Completes (.laDetail ref run a) s s ref 0x0503 0 [u8 1, u8 0, u8 0, u8 0, u32 0])
    ∧ (s.orderReady ref 0x0504 = true →
        Completes (.laQuery ref) s s ref 0x0504 0 ((List.range 4).map s.netInfo).flatten)

/-- At a new boundary a layer without a solve waits for the tick's state; one whose solve still runs skips it, and the solve goes on. A
layer whose state is there starts its next plan and pins the state, or is refused with the reason where an input is missing. A
solve's plan is that of its programs, or the one that the command names. A solve that converges publishes its plan and hands the changes to the sequencer, in publication order, a day plan's before those that
the pressure layer hands over in the same tick; an infeasible one leaves the plan in force. At the
end of the time bound a plan whose primal residual is at most ten times eps_p is published INEXACT, any other, and a day layer's whose
first pass was still going, leaves the plan in force. -/
def Obligations.LayersSolveAndHandOver : Prop :=
  ∀ (s : State) (y : Layer), s.opt.en = .enabled →
    let b := s.tai / secNs / layerPeriod y * layerPeriod y
    (s.activeOrSolo = true → (s.layer y).run = none → (s.layer y).lastBoundary < b → exec (.layerBoundary y) s =
      .next (s.setLayer y { s.layer y with lastBoundary := b, due := some ⟨b, s.tickTaken b⟩ }))
    ∧ (∀ r, s.activeOrSolo = true → (s.layer y).run = some r → (s.layer y).lastBoundary < b → Runs (.layerBoundary y) s
        (s.setLayer y { s.layer y with lastBoundary := b, skips := (s.layer y).skips + 1, skippedSince := true }))
    ∧ (b ≤ (s.layer y).lastBoundary → exec (.layerBoundary y) s = .next s)
    ∧ (∀ d, (s.layer y).due = some d → s.activeOrSolo = true → s.layerReady d = true → (s.layer y).run = none →
        alGet s.place.pendingAlloc 3 = none → s.kindCount 3 ≠ 0 →
        (s.layerRefusal y d.boundary = 0 → ∃ t r, exec (.layerSolveStart y) s = .next t ∧ (t.layer y).run = some r
          ∧ (t.layer y).plans = (s.layer y).plans + 1 ∧ (t.layer y).due = none ∧ (t.layer y).plan = (s.layer y).plan
          ∧ r.number = (s.layer y).plans + 1 ∧ r.boundary = d.boundary ∧ r.solve = s.latestSolve ∧ r.cfg = s.opt.cfg
          ∧ ∀ i, s.reck.latest = some i → (pinLayer y, i) ∈ t.reck.pins)
        ∧ (s.layerRefusal y d.boundary ≠ 0 → ∃ t, exec (.layerSolveStart y) s = .next t ∧ (t.layer y).run = none
          ∧ (t.layer y).plans = (s.layer y).plans + 1 ∧ (t.layer y).due = none ∧ (t.layer y).plan = (s.layer y).plan
          ∧ OnlyReports { s with opt := t.opt } t))
    ∧ (∀ (r : LayerRun) (given : Option LayerResult), (s.layer y).run = some r →
        let res := s.layerNumbers y r noBudget given
        (res.ended = .converged → ∃ t p cs, exec (.layerSolveEnd y given) s = .next t ∧ (t.layer y).plan = some p
          ∧ (t.layer y).run = none ∧ (t.layer y).fails = 0 ∧ p.number = r.number ∧ p.boundary = r.boundary
          ∧ p.status = (if res.relax = 0 then 0 else 2) ∧ p.handed = cs.length ∧ t.roll = (s.handOver y cs).roll
          ∧ (y = .pressure ∨ s.opt.lastHand.1 ≠ s.tickNow → t.roll.incoming = s.roll.incoming ++ cs))
        ∧ (∀ c, res.ended = .infeasible c → ∃ t, exec (.layerSolveEnd y given) s = .next t ∧ (t.layer y).run = none
          ∧ (t.layer y).fails = (s.layer y).fails + 1 ∧ (t.layer y).plan = (s.layer y).plan ∧ t.roll = s.roll)
        ∧ (∀ iters, r.startedAt + s.layerBoundUs y * usNs ≤ s.now →
            let best := s.layerNumbers y r iters given
            (best.ended ≠ .uncommitted → fLe best.primal (fMul (fc 10 1) best.epsP) = true → ∃ t p, exec (.optBudgetExpiry y iters given) s = .next t
              ∧ (t.layer y).plan = some p ∧ p.number = r.number ∧ p.status = 1 ∧ (t.layer y).run = none)
            ∧ (best.ended = .uncommitted ∨ fLe best.primal (fMul (fc 10 1) best.epsP) = false → ∃ t, exec (.optBudgetExpiry y iters given) s = .next t
              ∧ (t.layer y).run = none ∧ (t.layer y).plan = (s.layer y).plan ∧ (t.layer y).fails = (s.layer y).fails + 1
              ∧ t.roll = s.roll)))

/-- OPT_CFG in range takes effect; out of range it is refused and changes nothing. OPT_CTL enables, disables an idle optimiser at once
and quiesces a busy one. TARIFF_PUT and FORECAST_PUT of data that pass their checks store them under their index, and of data that do
not answer with the check's status and store nothing. PLAN_QUERY delivers the plan in force with its items in order of step, kind and
object, answers 1 where there is none, and 2 while another runs, in the same instant (the model's reading, log entry 19). -/
def Obligations.OptimiserOrdersComplete : Prop :=
  ∀ (s : State) (ref : OrderRef),
    (∀ c, s.orderReady ref 0x0601 = true → s.optCfgOk c = true →
      Completes (.optCfg ref c) s { s with opt := { s.opt with cfg := c } } ref 0x0601 0 [])
    ∧ (∀ c, s.orderReady ref 0x0601 = true → s.optCfgOk c = false → Completes (.optCfg ref c) s s ref 0x0601 3 [])
    ∧ (s.orderReady ref 0x0602 = true → s.opt.en = .disabled →
        Completes (.optCtl ref 1) s { s with opt := { s.opt with en := .enabled } } ref 0x0602 0 [u8 1])
    ∧ (s.orderReady ref 0x0602 = true → s.opt.en = .enabled → s.opt.day.run = none → s.opt.pressure.run = none →
        Completes (.optCtl ref 0) s { s with opt := { s.opt with en := .disabled, retired := 0 } } ref 0x0602 0 [u8 0])
    ∧ (s.orderReady ref 0x0602 = true → s.opt.en = .enabled → s.opt.day.run ≠ none ∨ s.opt.pressure.run ≠ none →
        Completes (.optCtl ref 0) s { s with opt := { s.opt with en := .quiescing, retired := 0 } } ref 0x0602 0
          [u8 (enCode .quiescing)])
    ∧ (∀ b n, s.orderReady ref 0x0603 = true → tariffStatus b n = 0 → s.tariffFits (u8At b 0) (tabKind b) = true →
        Completes (.tariffPut ref b n) s { s with opt := { s.opt with tariffs := alPut s.opt.tariffs (u8At b 0) b } }
          ref 0x0603 0 [u8 0])
    ∧ (∀ b n, s.orderReady ref 0x0603 = true → tariffStatus b n ≠ 0 →
        Completes (.tariffPut ref b n) s s ref 0x0603 0 [u8 (tariffStatus b n)])
    ∧ (∀ b n, s.orderReady ref 0x0604 = true → profileStatus b n = 0 →
        Completes (.forecastPut ref b n) s { s with opt := { s.opt with profiles := alPut s.opt.profiles (u16At b 0) b } }
          ref 0x0604 0 [u8 0])
    ∧ (∀ b n, s.orderReady ref 0x0604 = true → profileStatus b n ≠ 0 →
        Completes (.forecastPut ref b n) s s ref 0x0604 0 [u8 (profileStatus b n)])
    ∧ (∀ a k p, s.orderReady ref 0x0605 = true → s.opt.day.plan = some p → s.opt.queryAt ≠ some s.now →
        Completes (.planQuery ref 0 a k) s { s with opt := { s.opt with queryAt := some s.now } } ref 0x0605 0
          [u8 0, u8 0, u8 0, u8 0, u32 (min k p.items.length)]
        ∧ (s.xingStopped 0x01 = false → ∃ t, exec (.planQuery ref 0 a k) s = .next t
          ∧ Output.hostData a (planBody .day p 0 ++ (((sortItems p.items).take k).map planItemFlds).flatten) ∈ t.out))
    ∧ (∀ a k p, s.orderReady ref 0x0605 = true → s.opt.day.plan = some p → s.opt.queryAt = some s.now →
        Completes (.planQuery ref 0 a k) s s ref 0x0605 0 [u8 2, u8 0, u8 0, u8 0, u32 0])
    ∧ (∀ a k, s.orderReady ref 0x0605 = true → s.opt.pressure.plan = none →
        Completes (.planQuery ref 1 a k) s s ref 0x0605 0 [u8 1, u8 0, u8 0, u8 0, u32 0])

/-- A change handed over to an enabled sequencer of a tablet that commands becomes a rollout with the next number; one for a free unit
and network, with a hydraulic item and a schedule within the limit, goes to look-ahead at once. A PASS that is not late releases it
where its permits allow, and ends it on a SOLO tablet that is unfit; a FAIL without a reshape left ends it; a verdict for another run is discarded. The first due command of a
released rollout is sent to its receiver and recorded as the last commanded value, LATE or not; none is sent while its role is being
re-placed, or while a SOLO tablet is unfit. A released rollout with every command sent and its
last apply-at behind it is done and leaves the list. -/
def Obligations.RolloutsVetReleaseAndEnd : Prop :=
  ∀ s : State,
    (∀ (c : Change) (cs : List Change), s.roll.incoming = c :: cs → s.activeOrSolo = true →
      let x := s.newRoll c
      let y := s.buildSchedule x (s.firstApply x)
      s.handoverRefusal x = 0 → s.unitRoll c.unit = none → (∀ r ∈ s.roll.rolls, r.id ≠ s.roll.nextId) → x.hydraulic = true →
      x.zone ≠ 0xFF → s.netBusy x.net = false → ¬ s.tai + s.vetLimit < y.lastApply →
      ∃ t, exec .rolloutHandover s = .next t ∧ t.roll = { s.roll with
          incoming := cs, nextId := if s.roll.nextId = 0xFFFF then 1 else s.roll.nextId + 1
          rolls := s.roll.rolls ++ [{ y with
            st := .vetting, submits := 1, submitted := true, pend := none, pending := y.pending + y.offline.length }] }
        ∧ x.id = s.roll.nextId ∧ x.unit = c.unit)
    ∧ (∀ (v : Verdict) (vs : List Verdict) (x : Rollout), s.la.delivered = v :: vs → s.rollOf v.rollout = some x →
        x.pend = some v.run → x.st = .vetting →
        (v.verdict = 0 → s.unfitSolo = true → ∃ t, exec .rolloutVerdict s = .next t ∧ t.rollOf v.rollout = none ∧ t.la.delivered = vs)
        ∧ (v.verdict = 0 → s.unfitSolo = false → s.lateFor x = false → s.permitDrop x true = none →
          ∃ t, exec .rolloutVerdict s = .next t ∧ (t.rollOf v.rollout).map (·.st) = some .released ∧ t.la.delivered = vs)
        ∧ (v.verdict = 1 → x.cfg.reshapeMax ≤ x.reshapes →
          ∃ t, exec .rolloutVerdict s = .next t ∧ t.rollOf v.rollout = none ∧ t.la.delivered = vs))
    ∧ (∀ (v : Verdict) (vs : List Verdict) (x : Rollout), s.la.delivered = v :: vs → s.rollOf v.rollout = some x →
        x.pend ≠ some v.run → exec .rolloutVerdict s = .next { s with la := { s.la with delivered := vs } })
    ∧ (∀ (x : Rollout) (i : Nat) (c : RollCmd), s.rollOf x.id = some x → x.st = .released → s.activeOrSolo = true →
        s.roleDown (rollRole x.id) = false → s.unfitSolo = false → firstDue x s.tai = some (i, c) →
        let sent (seq : Word) : SentCmd := ⟨c.recv, c.kind, c.object, c.value, x.id, seq, c.applyAt, true, false, c.isLate s.tai⟩
        (∀ b o, c.recv = .bus b o → ∃ t, exec (.commandSend x.id) s = .next t ∧ t.roll.hist = s.roll.hist ++ [sent (s.busNextId b)]
          ∧ (c.isLate s.tai = false → t.rollOf x.id =
              some ({ x with sent := x.sent + 1 }.markCmd i (fun k => { k with st := .sent, seq := s.busNextId b }))))
        ∧ (∀ n, c.recv = .loop n → (s.loopSpIn n c.value c.applyAt x.id).2 = 0 → ∃ t, exec (.commandSend x.id) s = .next t
            ∧ t.roll.hist = s.roll.hist ++ [sent 0])
        ∧ (∀ id seq, c.recv = .station id → s.stnUp id = true → id ∉ x.dropped →
            (s.stnCommand id 0 c.value c.applyAt).2 = some seq → ∃ t, exec (.commandSend x.id) s = .next t
            ∧ t.roll.hist = s.roll.hist ++ [sent seq]))
    ∧ (∀ x : Rollout, s.rollOf x.id = some x → x.st = .released → s.roleDown (rollRole x.id) = true ∨ s.unfitSolo = true →
        exec (.commandSend x.id) s = .next s)
    ∧ (∀ x : Rollout, s.rollOf x.id = some x → x.st = .released → (∀ c ∈ x.cmds, c.st ≠ .new) → x.lastApply ≤ s.tai →
        s.roll.en = .enabled → ∃ t, exec (.rolloutDone x.id) s = .next t ∧ OnlyReports { s with
          roll := { s.roll with rolls := s.roll.rolls.filter (fun y => y.id != x.id) }
          twin := { s.twin with mirrorSeq := t.twin.mirrorSeq, mirrorRecs := t.twin.mirrorRecs }
          fab := { s.fab with crossings := t.fab.crossings } } t)

/-- ROLL_CFG in range takes effect; out of range it is refused and changes nothing. ROLL_DEST replaces the destination of its plant or
store; ROLL_HOLD holds a unit or lets it go; ROLL_CTL enables, disables a sequencer without rollouts at once, and is refused with
QUIESCING while it quiesces. -/
def Obligations.RolloutOrdersComplete : Prop :=
  ∀ (s : State) (ref : OrderRef),
    (∀ c, s.orderReady ref 0x0701 = true → rollCfgOk c = true →
      Completes (.rollCfg ref c) s { s with roll := { s.roll with cfg := c } } ref 0x0701 0 [])
    ∧ (∀ c, s.orderReady ref 0x0701 = true → rollCfgOk c = false → Completes (.rollCfg ref c) s s ref 0x0701 3 [])
    ∧ (∀ d, s.orderReady ref 0x0702 = true → d.kind = 0 → d.index < 16 → d.anchor < 64 → d.reserved = 0 →
        s.destOk d.out = true → s.destOk d.temp = true → s.destOk d.run = true →
        Completes (.rollDest ref d) s { s with roll := { s.roll with
          dests := s.roll.dests.filter (fun e => !(e.kind == d.kind && e.index == d.index)) ++ [d] } } ref 0x0702 0 [])
    ∧ (∀ z, s.orderReady ref 0x0703 = true → z < 64 → RollUnit.zone z ∉ s.roll.holds → s.unitRoll (.zone z) = none →
        Completes (.rollHold ref 0 z 1) s { s with roll := { s.roll with holds := s.roll.holds ++ [.zone z] } } ref 0x0703 0 [])
    ∧ (∀ z, s.orderReady ref 0x0703 = true → z < 64 → Completes (.rollHold ref 0 z 0) s
        { s with roll := { s.roll with holds := s.roll.holds.filter (fun v => v != .zone z) } } ref 0x0703 0 [])
    ∧ (s.orderReady ref 0x0704 = true → s.roll.en ≠ .quiescing →
        Completes (.rollCtl ref 1) s { s with roll := { s.roll with en := .enabled } } ref 0x0704 0 [u8 1])
    ∧ (s.orderReady ref 0x0704 = true → s.roll.en = .quiescing → Completes (.rollCtl ref 1) s s ref 0x0704 6 [u8 (enCode .quiescing)])
    ∧ (s.orderReady ref 0x0704 = true → s.roll.en = .enabled → s.roll.rolls = [] →
        Completes (.rollCtl ref 0) s { s with roll := { s.roll with en := .disabled, retired := 0 } } ref 0x0704 0 [u8 0])

/-- An enabled loop whose trigger is due takes exactly one sample, after the lower loops of its role that are due at the same instant. Forced, it is OPEN at its SAFE_OUT. OPEN with a usable PV and no rate
limit it issues its manual output within its output limits. With an unusable PV it issues its last output again and counts the bad
sample, unless it is CLOSED and this is the PV_BAD_N-th. A SOLO tablet that is unfit holds the loop's last output. A mode order that was accepted after the instant
takes effect once the sample is taken; a QUIESCING loop is DISABLED then. A loop whose role is being re-placed takes no sample and counts the triggers that it missed. A FIELDBUS trigger that stays out for
the period is a sample with an unusable PV. A PWM period starts with an event of crossing 0x0C, and the latest duty value takes effect on
a tablet that drives its outputs (void where crossing 0x0A is stopped), on no other. -/
def Obligations.LoopsSampleAtTheirTriggers : Prop :=
  ∀ (s : State) (n : Nat) (x : LoopIn),
    (∀ (l : Loop) (at_ : Nat), s.loopOf n = some l → l.en = .enabled → l.later = none → s.loopDue l = some at_ →
      s.loopTurn n at_ = true →
      let m : Loop := { (l.takeSp at_).1 with lastTrig := at_, trig := false, due := none }
      let u : State := s.setLoop n m
      let usable := m.pvUsable (u.loopSrc m oPv at_) at_
      (∀ c, s.loopRoleDown n = false → s.unfitSolo = false → s.loopForce l = some c → ∃ t k, exec (.loopSample n x) s = .next t
        ∧ t.loopOf n = some k ∧ k.out = l.safeOut ∧ k.mode = .opened ∧ k.samples = l.samples + 1 ∧ k.lastAt = some at_)
      ∧ (s.loopRoleDown n = false → s.unfitSolo = false → s.loopForce l = none → l.promote = false → l.startClose = false →
          l.mode = .opened → usable = true → fLt 0 l.rate = false → ∃ t k, exec (.loopSample n x) s = .next t ∧ t.loopOf n = some k
          ∧ k.out = fClamp l.outMin l.outMax l.outMan ∧ k.mode = .opened ∧ k.samples = l.samples + 1 ∧ k.lastAt = some at_)
      ∧ (s.loopRoleDown n = false → s.loopForce l = none → l.promote = false → usable = false →
          (l.mode ≠ .closed ∨ l.badCount + 1 < l.pvBadN) → ∃ t k, exec (.loopSample n x) s = .next t ∧ t.loopOf n = some k
          ∧ k.out = l.out ∧ k.mode = l.mode ∧ k.badCount = l.badCount + 1 ∧ k.samples = l.samples + 1)
      ∧ (s.loopRoleDown n = false → s.unfitSolo = true → s.loopForce l = none → l.promote = false → l.startClose = false →
          l.mode = .opened → ∃ t k, exec (.loopSample n x) s = .next t ∧ t.loopOf n = some k ∧ k.out = l.out
          ∧ k.samples = l.samples + 1))
    ∧ (∀ (l : Loop) (at_ : Nat), s.loopOf n = some l → l.en ≠ .disabled → s.loopDue l = some at_ →
      (s.loopRoleDown n = false → s.loopTurn n at_ = false → exec (.loopSample n x) s = .next s)
      ∧ (∀ o, s.loopRoleDown n = false → s.loopTurn n at_ = true → l.en = .enabled → l.later = some o → at_ < o.since →
          o.since ≤ s.tai → ∃ t k, exec (.loopSample n x) s = .next t ∧ t.loopOf n = some k ∧ k.mode = o.mode ∧ k.later = none
          ∧ k.samples = l.samples + 1)
      ∧ (s.loopRoleDown n = false → s.loopTurn n at_ = true → l.en = .quiescing → ∃ t k, exec (.loopSample n x) s = .next t
          ∧ t.loopOf n = some k ∧ k.en = .disabled ∧ k.samples = l.samples + 1)
      ∧ (s.loopRoleDown n = true → l.en = .enabled →
          let p := l.periodUs * usNs
          let since := max l.lastTrig ((s.tai - s.downFor (loopRole n)) / p * p - 1)
          Runs (.loopSample n x) s (s.setLoop n { l.settleLater s.tai with
            missed := Machine.satAdd l.missed (if l.trigger = 0 then at_ / p - since / p else 1)
            lastTrig := at_
            trig := false
            due := none })))
    ∧ (∀ l : Loop, s.loopOf n = some l → l.en = .enabled → l.later = none → l.trigger = 2 → l.trig = false →
        l.lastTrig + l.periodUs * usNs ≤ s.tai → s.loopRoleDown n = false → s.loopForce l = none → l.promote = false →
        (l.mode ≠ .closed ∨ l.badCount + 1 < l.pvBadN) → ∃ t k, exec (.loopTriggerTimeout n x) s = .next t ∧ t.loopOf n = some k
          ∧ k.out = l.out ∧ k.badCount = l.badCount + 1 ∧ k.lastAt = some s.tai)
    ∧ (∀ v, n < 16 → s.driven = true → s.activeOrSolo = true → alGet s.loops.pwmNext n = some v → s.xingStopped 0x0A = true →
        exec (.pwmPeriodStart n) s = .next
          (({ s.alarm 0x0C with loops := { s.loops with pwm := alPut s.loops.pwm n v } } : State).xingVoid 0x0A))
    ∧ (∀ v, n < 16 → s.driven = true → s.activeOrSolo = true → alGet s.loops.pwmNext n = some v → s.xingStopped 0x0A = false →
        exec (.pwmPeriodStart n) s = .next { s.alarm 0x0C with
          loops := { s.loops with pwm := alPut s.loops.pwm n v }
          out := (s.alarm 0x0C).out ++ [.pwm n v] })
    ∧ (n < 16 → s.driven = false ∨ s.activeOrSolo = false → exec (.pwmPeriodStart n) s = .next (s.alarm 0x0C))

/-- LOOP_CFG of a descriptor that passes its checks makes the loop, OPEN (TRACKING on a tablet that follows) at SAFE_OUT with its
coefficients missing; one that fails answers with the first failed check and changes nothing. LOOP_COEF of an OPEN loop writes its
section. LOOP_MODE opens at the clamped manual output, closes a loop that may close, answers 8 where coefficients are missing, and waits for a
sample whose instant has passed; a tablet that follows refuses it and LOOP_SP.
LOOP_SP queues a timed set-point. LOOP_CTL enables a loop, disables it at once, or quiesces one whose sample is due. LOOP_QUERY delivers the entries and clears their greatest
latencies; LOOP_TRACE starts a trace; LOOP_TABLE stores its table. -/
def Obligations.LoopOrdersComplete : Prop :=
  ∀ (s : State) (ref : OrderRef) (n : Nat),
    (∀ d, s.orderReady ref 0x0901 = true → s.loopCfgStatus n d = 0 → s.loopOf n = none →
      Completes (.loopCfg ref n d) s (s.setLoop n (newLoop d s.follows s.tai)) ref 0x0901 0 [u16 n, u8 0, u8 0])
    ∧ (∀ d, s.orderReady ref 0x0901 = true → s.loopCfgStatus n d ≠ 0 →
        Completes (.loopCfg ref n d) s s ref 0x0901 0 [u16 n, u8 (s.loopCfgStatus n d), u8 0])
    ∧ (∀ (l : Loop) (c : LoopCoef), s.orderReady ref 0x0902 = true → s.loopOf n = some l → c.loop = n → l.mode = .opened →
        c.section_ < l.nSec → c.sflags ≤ 1 → ([c.b0, c.b1, c.b2, c.a1, c.a2].all fFinite) = true → secStable c = true →
        let secs := l.sections.set c.section_ ⟨true, c.sflags == 1, c.b0, c.b1, c.b2, c.a1, c.a2, 0, 0⟩
        Completes (.loopCoef ref c) s (s.setLoop n { l with sections := secs, coefMissing := secs.any (fun k => !k.written) })
          ref 0x0902 0 [u16 n, u8 0, u8 0])
    ∧ (∀ (l : Loop) (v : F32), s.orderReady ref 0x0903 = true → s.loopOf n = some l → fFinite v = true → s.follows = false →
        s.loopUnderWay l = true →
        Completes (.loopMode ref n 1 v) s (s.setLoop n { l with later := some ⟨.opened, v, s.tai⟩ }) ref 0x0903 0 [u16 n, u8 0, u8 0])
    ∧ (∀ v : F32, s.orderReady ref 0x0903 = true → s.follows = true →
        Completes (.loopMode ref n 0 v) s s ref 0x0903 0 [u16 n, u8 8, u8 0]
        ∧ Completes (.loopMode ref n 1 v) s s ref 0x0903 0 [u16 n, u8 14, u8 0]
        ∧ Completes (.loopMode ref n 2 v) s s ref 0x0903 0 [u16 n, u8 14, u8 0])
    ∧ (∀ (v : F32) (a b : Nat), s.orderReady ref 0x0904 = true → s.follows = true →
        Completes (.loopSp ref n v a b) s s ref 0x0904 0 [u16 n, u8 14, u8 0])
    ∧ (∀ (l : Loop) (v : F32), s.orderReady ref 0x0903 = true → s.loopOf n = some l → fFinite v = true → s.follows = false →
        s.loopUnderWay l = false →
        Completes (.loopMode ref n 1 v) s (s.setLoop n { l with
          mode := .opened, outMan := fClamp l.outMin l.outMax v, closing := false, promote := false, startClose := false
          later := none })
          ref 0x0903 0 [u16 n, u8 0, u8 0])
    ∧ (∀ (l : Loop) (v : F32), s.orderReady ref 0x0903 = true → s.loopOf n = some l → l.coefMissing = false →
        l.pvUsable (s.loopSrc l oPv s.tai) s.tai = true → l.forceBit = 0xFFFFFFFF → s.activeOrSolo = true →
        s.loopUnderWay l = false → Completes (.loopMode ref n 0 v) s (s.setLoop n { l with
          mode := .closed, closing := l.closing || l.mode != .closed, promote := false, startClose := false, forcedOpen := false
          later := none })
          ref 0x0903 0 [u16 n, u8 0, u8 0])
    ∧ (∀ (l : Loop) (v : F32), s.orderReady ref 0x0903 = true → s.loopOf n = some l → l.coefMissing = true →
        Completes (.loopMode ref n 0 v) s s ref 0x0903 0 [u16 n, u8 8, u8 0])
    ∧ (∀ (l : Loop) (v : F32), s.orderReady ref 0x0904 = true → s.loopOf n = some l → fFinite v = true → s.follows = false →
        l.srcKind oSp = 8 → l.queue.length < 8 →
        Completes (.loopSp ref n v 0 0) s (s.setLoop n { l with queue := l.queue ++ [⟨v, s.tai, 0, false, s.tai⟩] })
          ref 0x0904 0 [u16 n, u8 0, u8 0])
    ∧ (∀ l : Loop, s.orderReady ref 0x0905 = true → s.loopOf n = some l → n ≠ 0xFFFF → l.en = .disabled →
        let u : State := s.setLoop n { l with
          en := .enabled, mode := if s.follows then .tracking else .opened, outMan := l.out, closing := false, lastTrig := s.tai - 1 }
        Completes (.loopCtl ref n 1) s u ref 0x0905 0 [u16 n, u8 (u.loopEnables n)])
    ∧ (∀ l : Loop, s.orderReady ref 0x0905 = true → s.loopOf n = some l → n ≠ 0xFFFF → l.en = .enabled → s.loopDue l = none →
        s.loops.trace = none → s.loops.taking = false → Completes (.loopCtl ref n 0) s
          (s.setLoop n { l with
            en := .disabled
            promote := false
            first := false
            startClose := false
            trig := false
            due := none
            later := none }) ref 0x0905 0 [u16 n, u8 0])
    ∧ (∀ (l : Loop) (d : Nat), s.orderReady ref 0x0905 = true → s.loopOf n = some l → n ≠ 0xFFFF → l.en = .enabled →
        s.loopDue l = some d → s.loopRoleDown n = false →
        let u : State := s.setLoop n { l with
          en := .quiescing
          due := some d }
        Completes (.loopCtl ref n 0) s u ref 0x0905 0 [u16 n, u8 (u.loopEnables n)])
    ∧ (∀ first count a, s.orderReady ref 0x0906 = true → first ≤ 511 → 1 ≤ count → count ≤ 512 → a % 16 = 0 →
        let ls := s.loops.loops.filter (fun p => between first (first + count - 1) p.1)
        Completes (.loopQuery ref first count a) s (ls.foldl (fun s p => s.setLoop p.1 { p.2 with latMax := 0 }) s)
          ref 0x0906 0 [u8 0, u8 0, u8 0, u8 0, u32 ls.length]
        ∧ (ls ≠ [] → s.xingStopped 0x01 = false → ∃ t, exec (.loopQuery ref first count a) s = .next t
            ∧ Output.hostData a (ls.map (fun p => s.loopQueryEntry p.1 p.2)).flatten ∈ t.out))
    ∧ (∀ count a, s.orderReady ref 0x0907 = true → s.loopOf n ≠ none → 0 < count → count ≤ 0xFFFF → a % 16 = 0 →
        s.loops.trace = none →
        Runs (.loopTrace ref n count a) s { s with loops := { s.loops with trace := some ⟨ref, n, count, a, 0⟩ } })
    ∧ (∀ d, s.orderReady ref 0x0908 = true → s.loopTableStatus d = 0 →
        Completes (.loopTable ref d) s { s with loops := { s.loops with
          tables := alPut s.loops.tables (u16At d 0) ⟨u16At d 2, (List.range 256).map (fun k => f32At d (0x10 + 4 * k))⟩ } }
          ref 0x0908 0 [u16 (u16At d 0), u8 0, u8 0])

/-- A payload with a bad CRC, another house, a house id that is not set, or no configured context is discarded and counted for the house, and no context changes.
A frame that passes every check advances the receive window of its context; the image of an INPUT frame becomes the context's input image with
its declared quality, and the acknowledge of a transaction by a REPLY frame ends it and its run of silences. Each holds of the
commands for both kinds of frame. While the ring is DISABLED, or the frame's address family is off, nothing arrives. -/
def Obligations.StationFramesAreChecked : Prop :=
  ∀ (s : State) (src : IpAddr) (bs : List Byte),
    let n := bs.length
    let id := netAt bs 4 2
    let up : Prop := s.ring.en ≠ .disabled ∧ s.familyUp src.v6 = true
    let sized : Prop := up ∧ 24 ≤ n ∧ n ≤ 544 ∧ n % 4 = 0
    let crcOk : Prop := netAt bs (n - 4) 4 = (crc32c (bs.take (n - 4))).toNat
    let dropped : State := { s with stn := { s.stn with houseDiscards := satInc s.stn.houseDiscards } }
    (∀ c : Instr, c = .inputFrameRx src bs ∨ c = .replyFrameRx src bs →
      (¬ up → exec c s = .next s)
      ∧ (sized → ¬ crcOk → Runs c s dropped)
      ∧ (sized → crcOk → netAt bs 0 1 = 1 → netAt bs 2 2 ≠ s.houseId → Runs c s dropped)
      ∧ (sized → crcOk → netAt bs 0 1 = 1 → s.houseId = 0 → Runs c s dropped)
      ∧ (sized → crcOk → netAt bs 0 1 = 1 → netAt bs 2 2 = s.houseId → s.ctxOf id = none → Runs c s dropped))
    ∧ ∀ (x : Ctx) (w : Word × List Word) (rs : List (Nat × List Byte)), sized → crcOk → netAt bs 0 1 = 1 →
        netAt bs 2 2 = s.houseId → s.houseId ≠ 0 → s.houseId ≠ 0xFFFF → s.ctxOf id = some x → ctxAddrIs x.cfg src = true → x.en = .enabled → netAt bs 6 2 = 0 →
        parseRecs 140 ((bs.take (n - 4)).drop 0x14) = some rs →
        windowStep x.rxSeq (if joinIn rs || x.st == .offline || x.st == .returning then [] else x.rxWin) (BitVec.ofNat 32 (netAt bs 8 4)) = some w →
        (∀ st img, netAt bs 1 1 = 0x81 → netAt bs 0x10 4 ≤ 999999999 → rs = [(5, st), (4, img)] → netAt st 0 2 % 2 = 0 →
          netAt st 4 2 = x.boot → x.st = .online → ∃ t k, exec (.inputFrameRx src bs) s = .next t ∧ t.ctxOf id = some k
          ∧ k.inImg = img ∧ k.declared = qOfCode (netAt st 2 1 % 8) ∧ k.rxSeq = w.1 ∧ k.rxWin = w.2 ∧ k.st = .online)
        ∧ (∀ b tx, netAt bs 1 1 = 0x82 → netAt bs 0x10 4 ≤ 999999999 → rs = [(9, b)] → netAt b 3 1 = 0 → s.activeOrSolo = true →
            x.txns.find? (fun u => u.tag == netAt b 0 2 && u.gen == netAt b 2 1) = some tx → tx.frame ≠ .resync → x.order = [] →
            ∃ t k, exec (.replyFrameRx src bs) s = .next t ∧ t.ctxOf id = some k
            ∧ k.txns = x.txns.filter (fun u => !(u.tag == netAt b 0 2 && u.gen == netAt b 2 1)) ∧ k.noackRun = 0
            ∧ k.rxSeq = w.1 ∧ k.rxWin = w.2)

/-- An ONLINE context whose input is older than the stale time is STALE; one whose input is older than the offline time is OFFLINE, with
nothing in flight and nothing waiting. A transaction without acknowledge in its time is tried again while retries are left; after the
last one it ends as silence, counted. What a limit held back is sent when it may be; an image is refreshed when it is due; a
RETURNING context whose writers have completed gets its RESYNC. Frames leave, from the tablet's own address and port to the context's,
over the ring ports whose crossings run, while the context's address family is on and its role runs. -/
def Obligations.StationContextsAgeRetryAndSend : Prop :=
  ∀ (s : State) (id : Nat) (c : Ctx), s.ctxOf id = some c → c.cfg.station = id → c.en = .enabled →
    let clear : Prop := (s.xingStopped 0x04 = false ∨ s.xingStopped 0x06 = false) ∧ s.familyOn c.cfg = true
      ∧ s.roleDown (stnRole id) = false
    (∀ a, c.st = .online → s.inputAge c = some a → s.stn.cfg.staleMs * msNs < a →
      ∃ t k, exec (.stnStaleTimeout id) s = .next t ∧ t.ctxOf id = some k ∧ k = { c with st := .stale })
    ∧ (∀ a, c.st ≠ .offline → c.st ≠ .disabled → s.inputAge c = some a → s.stn.cfg.offlineMs * msNs < a →
        ∃ t k, exec (.stnOfflineTimeout id) s = .next t ∧ t.ctxOf id = some k ∧ k.st = .offline ∧ k.txns = [] ∧ k.order = [])
    ∧ (∀ (tx : Txn) (at_ : Nat), c.txns.find? (fun u => u.tag == tx.tag && u.gen == tx.gen) = some tx → tx.sentAt = some at_ →
        at_ + s.stn.cfg.timeoutMs * msNs ≤ s.now → tx.frame = .request 1 →
        (tx.attempt < s.stn.cfg.retries → ∃ t k, exec (.txnTimeout id tx.tag tx.gen) s = .next t ∧ t.ctxOf id = some k
          ∧ ∃ u ∈ k.txns, u.tag = tx.tag ∧ u.gen = tx.gen ∧ u.attempt = tx.attempt + 1)
        ∧ (s.stn.cfg.retries ≤ tx.attempt → c.noackRun + 1 < s.stn.cfg.noackN → c.order = [] →
            ∃ t k, exec (.txnTimeout id tx.tag tx.gen) s = .next t ∧ t.ctxOf id = some k
            ∧ k.txns = c.txns.filter (fun u => !(u.tag == tx.tag && u.gen == tx.gen))
            ∧ k.noackCount = min (c.noackCount + 1) 0xFFFF ∧ k.noackRun = c.noackRun + 1))
    ∧ (∀ w : Waiting, c.order = [w] → w.frame = .output → w.retry = none → s.sendable c w = true → clear →
        ∃ t k, exec (.sendOrderRelease id) s = .next t ∧ t.ctxOf id = some k ∧ k.order = []
        ∧ Output.stnFrame id (s.stnHdr c.cfg) (s.frameBytes c w.seq .output none) ∈ t.out)
    ∧ (c.st = .online → c.order = [] → s.stnMay = true → (c.sentAt.filter (fun x => s.now < x + secNs)).length < 250 →
        (∀ x, c.lastImage = some x → x + s.stn.cfg.refreshMs * msNs ≤ s.now) → clear →
        ∃ t k, exec (.outputRefresh id) s = .next t ∧ t.ctxOf id = some k ∧ k.txSeq = some (s.nextSeq c) ∧ k.lastImage = some s.now
        ∧ Output.stnFrame id (s.stnHdr c.cfg) (s.frameBytes c (s.nextSeq c) .output none) ∈ t.out)
    ∧ (c.st = .returning → c.order = [] → c.txns = [] → s.writersDone c = true → s.stnMay = true →
        (c.sentAt.filter (fun x => s.now < x + secNs)).length < 250 → s.inFlight < 2048 → s.stn.pool.next < 65536 →
        clear →
        ∃ t k, exec (.resyncSend id) s = .next t ∧ t.ctxOf id = some k
        ∧ k.txns = [⟨s.stn.pool.next, 0, s.nextSeq c, .resync, 0, some s.now, c.outImg⟩]
        ∧ Output.stnFrame id (s.stnHdr c.cfg) (s.frameBytes c (s.nextSeq c) .resync (some (s.stn.pool.next, 0, 0))) ∈ t.out)

/-- Before the seal STN_CFG in range takes effect, and STN_CTX in range: a set-up image's makes its context, a host's changes the one
there is and is refused where there is none; out of range both are refused and change nothing. STN_SAFE stores
the safe image of a configured context. STN_CTL enables a disabled context, which is OFFLINE then, and disables one without
transactions at once. STN_QUERY delivers the entries of the contexts from a station on. -/
def Obligations.StationOrdersComplete : Prop :=
  ∀ (s : State) (ref : OrderRef),
    (∀ c, s.orderReady ref 0x0801 = true → stnCfgOk c = true → s.setup.sealed = false →
      Completes (.stnCfg ref c) s { s with stn := { s.stn with cfg := c } } ref 0x0801 0 [])
    ∧ (∀ c, s.orderReady ref 0x0801 = true → stnCfgOk c = false → Completes (.stnCfg ref c) s s ref 0x0801 3 [])
    ∧ (∀ c i, ref = .setup i → s.orderReady ref 0x0802 = true → stnCtxOk c = true →
        Completes (.stnCtx ref c) s { s with stn := { s.stn with
          ctxs := insCtx (freshCtx c (c.flags / 2 % 2 == 1) s.now) s.stn.ctxs } } ref 0x0802 0 [])
    ∧ (∀ c x tag gen, ref = .host tag gen → s.orderReady ref 0x0802 = true → stnCtxOk c = true → s.ctxOf c.station = some x →
        s.setup.sealed = false → Completes (.stnCtx ref c) s
          (s.setCtx c.station (fun k => { k with cfg := { c with flags := x.cfg.flags / 2 * 2 + c.flags % 2 } })) ref 0x0802 0 [])
    ∧ (∀ c tag gen, ref = .host tag gen → s.orderReady ref 0x0802 = true → stnCtxOk c = true → s.ctxOf c.station = none →
        Completes (.stnCtx ref c) s s ref 0x0802 3 [])
    ∧ (∀ c, s.orderReady ref 0x0802 = true → stnCtxOk c = false → Completes (.stnCtx ref c) s s ref 0x0802 3 [])
    ∧ (∀ id img, s.orderReady ref 0x0803 = true → s.ctxOf id ≠ none → Completes (.stnSafe ref id img) s
        (s.setCtx id (fun c => { c with safeImg := padTo 48 img })) ref 0x0803 0 [])
    ∧ (∀ id c, s.orderReady ref 0x0804 = true → s.ctxOf id = some c → id ≠ 0xFFFF → c.en = .disabled →
        ∃ t k, exec (.stnCtl ref id 1) s = .next t ∧ Answered s ref 0x0804 0 [u16 id, u8 1] t ∧ t.ctxOf id = some k
        ∧ k.en = .enabled ∧ k.st = .offline)
    ∧ (∀ id c, s.orderReady ref 0x0804 = true → s.ctxOf id = some c → id ≠ 0xFFFF → c.en = .enabled → c.txns = [] →
        ∃ t k, exec (.stnCtl ref id 0) s = .next t ∧ Answered s ref 0x0804 0 [u16 id, u8 0] t ∧ t.ctxOf id = some k
        ∧ k.en = .disabled ∧ k.st = .disabled ∧ k.order = [])
    ∧ (∀ first count a, s.orderReady ref 0x0805 = true → first ≤ 0x3FF → 1 ≤ count → count ≤ 1024 → a % 16 = 0 →
        let cs := (s.stn.ctxs.filter (fun c => first ≤ c.cfg.station)).take count
        Completes (.stnQuery ref first count a) s s ref 0x0805 0 [u8 0, u8 0, u8 0, u8 0, u32 cs.length]
        ∧ (s.xingStopped 0x01 = false → ∃ t, exec (.stnQuery ref first count a) s = .next t ∧ Output.hostData a (cs.map s.ctxEntry).flatten ∈ t.out))

/-- Where the running task's next instruction is PSH, PSHN, ANDB, ANDNB, ORB, ORNB, XORB, PSH0, PSH1, AND, OR, XOR, NOT, DUP or DROP, the
command executes it: the task's place moves one word on, its bit stack is as the instruction says (an empty place of the stack counts
as 0), and nothing else of the tablet changes. -/
def Obligations.TallyBitInstructions : Prop :=
  ∀ (s : State) (k : Nat) (t : TaskSt) (a n : Nat),
    let b := s.tBit t a n
    let x := t.stack.headD false
    let y := (t.stack.drop 1).headD false
    let rest := t.stack.drop 1
    let goes (c : Instr) (op : Nat) (st : List Bool) : Prop :=
      s.tallyAt op a n = some (k, t) → exec c s = .next (s.setTask k { t with pc := t.pc + 1, stack := st })
    let goes0 (c : Instr) (op : Nat) (st : List Bool) : Prop :=
      s.tallyAt op 0 0 = some (k, t) → exec c s = .next (s.setTask k { t with pc := t.pc + 1, stack := st })
    goes (.tPsh a n) 0x01 (b :: t.stack) ∧ goes (.tPshn a n) 0x02 ((!b) :: t.stack) ∧ goes (.tAndb a n) 0x03 ((x && b) :: rest)
    ∧ goes (.tAndnb a n) 0x04 ((x && !b) :: rest) ∧ goes (.tOrb a n) 0x05 ((x || b) :: rest)
    ∧ goes (.tOrnb a n) 0x06 ((x || !b) :: rest) ∧ goes (.tXorb a n) 0x07 ((x != b) :: rest)
    ∧ goes0 .tPsh0 0x08 (false :: t.stack) ∧ goes0 .tPsh1 0x09 (true :: t.stack)
    ∧ goes0 .tAnd 0x0A ((y && x) :: t.stack.drop 2) ∧ goes0 .tOr 0x0B ((y || x) :: t.stack.drop 2)
    ∧ goes0 .tXor 0x0C ((y != x) :: t.stack.drop 2) ∧ goes0 .tNot 0x0D ((!x) :: rest) ∧ goes0 .tDup 0x0E (x :: t.stack)
    ∧ goes0 .tDrop 0x0F rest

/-- OUTB, SETB and CLRB of a marker set that bit as T0, 1 or 0 (SETB and CLRB only where T0 is 1) and leave every other bit as it was; STW,
STH and STB of the data words write their bytes, little-endian, and leave every other byte as it was; the bit or word is marked for
publication at the end of the cycle. A store to the local outputs, a station's bytes 0 to 47 or a transmit object goes to the task's
change set, and neither the committed output nor any other area changes. -/
def Obligations.TallyStoresReachTheirBytes : Prop :=
  ∀ (s : State) (k : Nat) (t : TaskSt) (n : Nat),
    let x := t.stack.headD false
    let marks (c : Instr) (v : Bool) : Prop := ∃ u, exec c s = .next u
      ∧ (∀ m, Mem.bit u.tally.markers m = if m = n then v else Mem.bit s.tally.markers m)
      ∧ u = { (s.setTask k { t with pc := t.pc + 1, pubBits := t.pubBits ++ [n] }) with
          tally := { (s.setTask k { t with pc := t.pc + 1, pubBits := t.pubBits ++ [n] }).tally with markers := u.tally.markers } }
    let words (c : Instr) (size : Nat) : Prop := ∃ u, exec c s = .next u
      ∧ (∀ m, Mem.read u.tally.words m =
          if n ≤ m ∧ m < n + size then BitVec.ofNat 8 (t.w.toNat / 2 ^ (8 * (m - n))) else Mem.read s.tally.words m)
      ∧ u.tally.markers = s.tally.markers ∧ u.tally.outImg = s.tally.outImg ∧ u.can = s.can ∧ u.stn = s.stn
      ∧ (u.task k).pc = t.pc + 1 ∧ (u.task k).writes = t.writes
    (s.tallyAt 0x10 2 n = some (k, t) → marks (.tOutb 2 n) x)
    ∧ (s.tallyAt 0x11 2 n = some (k, t) → x = true → marks (.tSetb 2 n) true)
    ∧ (s.tallyAt 0x12 2 n = some (k, t) → x = true → marks (.tClrb 2 n) false)
    ∧ (∀ a, s.tallyAt 0x11 a n = some (k, t) → x = false → exec (.tSetb a n) s = .next (s.setTask k { t with pc := t.pc + 1 }))
    ∧ (∀ a, s.tallyAt 0x12 a n = some (k, t) → x = false → exec (.tClrb a n) s = .next (s.setTask k { t with pc := t.pc + 1 }))
    ∧ (s.tallyAt 0x38 3 n = some (k, t) → words (.tStw 3 n) 4)
    ∧ (s.tallyAt 0x39 3 n = some (k, t) → words (.tStb 3 n) 1)
    ∧ (s.tallyAt 0x3A 3 n = some (k, t) → words (.tSth 3 n) 2)
    ∧ (∀ a, a = 1 ∨ a = 9 ∨ (a = 8 ∧ n % 64 < 48) →
        (s.tallyAt 0x38 a n = some (k, t) → exec (.tStw a n) s = .next (s.setTask k { t with
          pc := t.pc + 1
          writes := t.writes ++ ((ordBytes (s.tBig a n) 4 t.w.toNat).zipIdx.map (fun p => (a, n + p.2, 0xFF#8, p.1))) }))
        ∧ (s.tallyAt 0x39 a n = some (k, t) → exec (.tStb a n) s = .next (s.setTask k { t with
          pc := t.pc + 1, writes := t.writes ++ [(a, n, 0xFF#8, BitVec.ofNat 8 t.w.toNat)] })))

/-- TON, TOF and TP evaluate their timer with T0 at the task's time base and leave Q as T0; TRST clears ELAPSED, Q and RUNNING where T0 is
1. CTU and CTD count on a T0 that rises since the same instruction's last evaluation, saturating, and leave Q as T0; CADD adds W and CRST resets, where T0 is 1. EDGR and EDGF give 1 on
the edge of T0 they look for. Each changes that one instance, marks it, and moves the task's place one word on. An on-delay without
input has Q 0, and its Q comes only when ELAPSED has reached PRESET. -/
def Obligations.TallyTimersCountersEdges : Prop :=
  (∀ (s : State) (k : Nat) (t : TaskSt) (a n : Nat),
    let x := t.stack.headD false
    let rest := t.stack.drop 1
    let base := evalBase k t
    let tm := s.timerOf n
    let ct := s.counterOf n
    let kind := s.instKind 5 n
    let prev := if (s.edgeOf n).known then (s.edgeOf n).prev else x
    let timer (c : Instr) (op : Nat) (y : Timer) : Prop := s.tallyAt op a n = some (k, t) → exec c s =
      .next (({ s with tally := { s.tally with timers := alPut s.tally.timers n { y with inPrev := x, last := some base } } }).setTask k
        { t with pc := t.pc + 1, stack := y.q :: rest, touched := t.touched ++ [(4, n)] })
    let counter (c : Instr) (op : Nat) (y : Counter) (st : List Bool) : Prop := s.tallyAt op a n = some (k, t) → exec c s =
      .next (({ s with tally := { s.tally with counters := alPut s.tally.counters n (counterQ kind y) } }).setTask k
        { t with pc := t.pc + 1, stack := st, touched := t.touched ++ [(5, n)] })
    let edge (c : Instr) (op : Nat) (out : Bool) : Prop := s.tallyAt op a n = some (k, t) → exec c s =
      .next (({ s with tally := { s.tally with edges := alPut s.tally.edges n ⟨x, out, true⟩ } }).setTask k
        { t with pc := t.pc + 1, stack := out :: rest, touched := t.touched ++ [(6, n)] })
    let up : Counter := { ct with
      count := if x && !ct.upPrev then satInt32 (ct.count.toInt + 1) else ct.count
      inPrev := x
      upPrev := x }
    let down : Counter := { ct with
      count := if x && !ct.downPrev then satInt32 (ct.count.toInt + -1) else ct.count
      inPrev := x
      downPrev := x }
    timer (.tTon a n) 0x20 (timerOn tm x base) ∧ timer (.tTof a n) 0x21 (timerOff tm x base)
    ∧ timer (.tTp a n) 0x22 (timerPulse tm x base)
    ∧ (s.tallyAt 0x23 a n = some (k, t) → x = true → exec (.tTrst a n) s = .next (({ s with tally := { s.tally with
        timers := alPut s.tally.timers n { tm with elapsed := 0, q := false, running := false, frac := 0 } } }).setTask k
          { t with pc := t.pc + 1, touched := t.touched ++ [(4, n)] }))
    ∧ counter (.tCtu a n) 0x28 up ((counterQ kind up).q :: rest)
    ∧ counter (.tCtd a n) 0x29 down ((counterQ kind down).q :: rest)
    ∧ (x = true → counter (.tCrst a n) 0x2A { ct with count := if kind = 1 then ct.preset else 0 } t.stack)
    ∧ (x = true → counter (.tCadd a n) 0x2B { ct with count := satInt32 (ct.count.toInt + t.w.toInt) } t.stack)
    ∧ edge (.tEdgr a n) 0x18 (x && !prev) ∧ edge (.tEdgf a n) 0x19 (prev && !x))
  ∧ ∀ (y : Timer) (base : Nat), (timerOn y false base).q = false
    ∧ ((timerOn y true base).q = true → y.q = true ∨ y.preset = 0 ∨ y.preset ≤ (timerOn y true base).elapsed)

/-- LDW, LDBU, LDHS, LDHU, ADD, SUB, MUL, DIV, MOD, ANDW, ORW, XORW, SHL, SHR and ASR put their result into W: the operand is the immediate
word after the instruction in area 11, else a load; shifts use its five low bits. The task's place moves past the instruction's words and
nothing else changes. A division by zero gives 0 and raises the task's arithmetic count. LDQ and LDS of the local inputs give
the quality and the stamp of the task's copy; of a transmit object, which has neither, a free value. -/
def Obligations.TallyWordInstructions : Prop :=
  ∀ (s : State) (k : Nat) (t : TaskSt) (a n : Nat),
    let v := if a = 11 then ((s.tally.prog.map (·.code)).getD []).getD (t.pc + 1) 0 else word (s.tLoad t a n 4)
    let size := if a = 11 then 2 else 1
    let goes (c : Instr) (op : Nat) (w : Word) : Prop :=
      s.tallyAt op a n = some (k, t) → exec c s = .next (s.setTask k { t with pc := t.pc + size, w := w })
    let loads (c : Instr) (op : Nat) (w : Word) : Prop :=
      s.tallyAt op a n = some (k, t) → exec c s = .next (s.setTask k { t with pc := t.pc + 1, w := w })
    let zero (c : Instr) (op : Nat) : Prop := s.tallyAt op a n = some (k, t) → v = 0 → exec c s =
      .next ((s.setTask k { t with pc := t.pc + size, w := 0, arith := t.arith + 1 }).raiseTimed2 0x86 k [u16 k] true 1 t.pc)
    goes (.tLdw a n) 0x30 v ∧ loads (.tLdbu a n) 0x31 (word (s.tLoad t a n 1))
    ∧ loads (.tLdhs a n) 0x32 ((BitVec.ofNat 16 (s.tLoad t a n 2)).signExtend 32)
    ∧ loads (.tLdhu a n) 0x33 (word (s.tLoad t a n 2))
    ∧ goes (.tAdd a n) 0x40 (t.w + v) ∧ goes (.tSub a n) 0x41 (t.w - v) ∧ goes (.tMul a n) 0x42 (t.w * v)
    ∧ (v ≠ 0 → ¬ (t.w = 0x80000000#32 ∧ v = 0xFFFFFFFF#32) → goes (.tDiv a n) 0x43 (BitVec.sdiv t.w v))
    ∧ (v ≠ 0 → goes (.tMod a n) 0x44 (BitVec.srem t.w v)) ∧ zero (.tDiv a n) 0x43 ∧ zero (.tMod a n) 0x44
    ∧ goes (.tAndw a n) 0x45 (t.w &&& v) ∧ goes (.tOrw a n) 0x46 (t.w ||| v) ∧ goes (.tXorw a n) 0x47 (t.w ^^^ v)
    ∧ goes (.tShl a n) 0x48 (t.w <<< (v.toNat % 32)) ∧ goes (.tShr a n) 0x49 (t.w >>> (v.toNat % 32))
    ∧ goes (.tAsr a n) 0x4A (t.w.sshiftRight (v.toNat % 32))
    ∧ (a = 0 → loads (.tLdq a n) 0x34 (word (qCode (staleAtLeast (t.copyOf .dio).quality (t.copyOf .dio).aged)))
        ∧ loads (.tLds a n) 0x35 (word (t.copyOf .dio).at_))
    ∧ (a = 9 → slotTx n = true → (s.tallyAt 0x34 9 n = some (k, t) → exec (.tLdq 9 n) s = .next
          (({ s with freeCnt := s.freeCnt + 1 }).setTask k { t with pc := t.pc + 1, w := Config.freeWord 1 s.freeCnt }))
        ∧ (s.tallyAt 0x35 9 n = some (k, t) → exec (.tLds 9 n) s = .next
          (({ s with freeCnt := s.freeCnt + 1 }).setTask k { t with pc := t.pc + 1, w := Config.freeWord 2 s.freeCnt })))

/-- FADD, FSUB, FMUL and FDIV put the correctly rounded result into W, and a NaN where the result is one, whose payload nothing
constrains. FMIN and FMAX of two different numbers that are neither NaN nor zero give the lesser and the greater. ITF converts W; FTI
converts back saturating, and gives 0 and counts for a NaN; FABS and FNEG change the sign bit. -/
def Obligations.TallyFloatInstructions : Prop :=
  ∀ (s : State) (k : Nat) (t : TaskSt) (a n : Nat),
    let v := if a = 11 then ((s.tally.prog.map (·.code)).getD []).getD (t.pc + 1) 0 else word (s.tLoad t a n 4)
    let size := if a = 11 then 2 else 1
    let goes (c : Instr) (op : Nat) (r : F32) : Prop := s.tallyAt op a n = some (k, t) →
      ∃ w, exec c s = .next (s.setTask k { t with pc := t.pc + size, w := w }) ∧ (fIsNaN r = false → w = r) ∧ fIsNaN w = fIsNaN r
    let goes0 (c : Instr) (op : Nat) (w : F32) : Prop := s.tallyAt op 0 0 = some (k, t) →
      exec c s = .next (s.setTask k { t with pc := t.pc + 1, w := w })
    let plain : Prop := fIsNaN t.w = false ∧ fIsNaN v = false ∧ fIsZero t.w = false
    goes (.tFadd a n) 0x50 (fAdd t.w v) ∧ goes (.tFsub a n) 0x51 (fSub t.w v) ∧ goes (.tFmul a n) 0x52 (fMul t.w v)
    ∧ goes (.tFdiv a n) 0x53 (fDiv t.w v) ∧ (plain → goes (.tFmin a n) 0x54 (if fLt v t.w then v else t.w))
    ∧ (plain → goes (.tFmax a n) 0x55 (if fLt t.w v then v else t.w))
    ∧ goes0 .tItf 0x58 (fOfInt t.w.toInt 1) ∧ (fIsNaN t.w = false → goes0 .tFti 0x59 (satInt32 (fToInt t.w)))
    ∧ (s.tallyAt 0x59 0 0 = some (k, t) → fIsNaN t.w = true → exec .tFti s =
        .next ((s.setTask k { t with pc := t.pc + 1, w := 0, arith := t.arith + 1 }).raiseTimed2 0x86 k [u16 k] true 1 t.pc))
    ∧ goes0 .tFabs 0x5A (fAbs t.w) ∧ goes0 .tFneg 0x5B (fNeg t.w)

/-- The six signed and the six float32 comparisons push the relation of W to the operand. JMP goes to its address; JT and JF remove T0 and
go where it was 1 and 0. TRIG with T0 1 releases its event task; NOP only moves on. END ends the cycle of its task, counts it, and
publishes the marker bits the cycle wrote. -/
def Obligations.TallyComparesAndJumps : Prop :=
  ∀ (s : State) (k : Nat) (t : TaskSt) (a n : Nat),
    let v := if a = 11 then ((s.tally.prog.map (·.code)).getD []).getD (t.pc + 1) 0 else word (s.tLoad t a n 4)
    let x := t.stack.headD false
    let rest := t.stack.drop 1
    let push (c : Instr) (op : Nat) (b : Bool) : Prop := s.tallyAt op a n = some (k, t) →
      exec c s = .next (s.setTask k { t with pc := t.pc + (if a = 11 then 2 else 1), stack := b :: t.stack })
    let jump (c : Instr) (op : Nat) (st : List Bool) (go : Bool) : Prop := s.tallyAt op 0 n = some (k, t) →
      exec c s = .next (s.setTask k { t with pc := if go then n else t.pc + 1, stack := st })
    push (.tCeq a n) 0x60 (t.w == v) ∧ push (.tCne a n) 0x61 (t.w != v) ∧ push (.tCgt a n) 0x62 (decide (v.toInt < t.w.toInt))
    ∧ push (.tCge a n) 0x63 (decide (v.toInt ≤ t.w.toInt)) ∧ push (.tClt a n) 0x64 (decide (t.w.toInt < v.toInt))
    ∧ push (.tCle a n) 0x65 (decide (t.w.toInt ≤ v.toInt)) ∧ push (.tFceq a n) 0x68 (fEq t.w v)
    ∧ push (.tFcne a n) 0x69 (!fEq t.w v) ∧ push (.tFcgt a n) 0x6A (fLt v t.w) ∧ push (.tFcge a n) 0x6B (fLe v t.w)
    ∧ push (.tFclt a n) 0x6C (fLt t.w v) ∧ push (.tFcle a n) 0x6D (fLe t.w v)
    ∧ jump (.tJmp n) 0x70 t.stack true ∧ jump (.tJt n) 0x71 rest x ∧ jump (.tJf n) 0x72 rest (!x)
    ∧ (s.tallyAt 0x74 0 n = some (k, t) → x = false → exec (.tTrig n) s = .next (s.setTask k { t with pc := t.pc + 1 }))
    ∧ (s.tallyAt 0x74 0 n = some (k, t) → x = true → s.taskUsed (8 + n) = true → s.tally.en = .enabled → 8 + n ≠ k →
        (s.task (8 + n)).rel = none → exec (.tTrig n) s = .next ((s.setTask k { t with pc := t.pc + 1 }).setTask (8 + n)
          { s.task (8 + n) with rel := some (s.tai, s.now) }))
    ∧ (s.tallyAt 0x79 0 0 = some (k, t) → exec .tNop s = .next (s.setTask k { t with pc := t.pc + 1 }))
    ∧ (s.tallyAt 0x78 0 0 = some (k, t) → s.tally.en = .enabled → ∃ u, exec .tEnd s = .next u ∧ (u.task k).started = false
        ∧ (u.task k).cycles = t.cycles + 1 ∧ (u.task k).w = t.w
        ∧ ∀ m ∈ t.pubBits, Mem.bit u.tally.pubMarkers m = Mem.bit s.tally.markers m)

/-- A cyclic task is released at its TAI instant with that instant as its release time; one whose last cycle is not done stops the Tally
with cause 1, a task over its budget with cause 2, a background cycle over its limit with cause 3: the tablet's outputs are then the safe image,
no task is in a cycle and none is released. A cycle starts at the task's entry with an empty stack, W 0, no writes and copies of the
modules the task reads; a pre-empted task keeps the time it has spent. An edge of a local input line changes its bit, only a rising
one is counted, and the quadrature count of its pair moves by its step, whatever that is. An exchange that meets its point switches the bank and is answered 0; one that waited too long is answered 0x12. -/
def Obligations.TallyReleasesAndOverruns : Prop :=
  ∀ (s : State) (k : Nat),
    let t := s.task k
    let d := s.taskDef k
    let inst := s.tai / (d.param * msNs) * (d.param * msNs)
    let spent := t.spent + (match t.runFrom with
      | some a => s.now - a
      | none => 0)
    let stops (c : Instr) (cause index : Nat) : Prop := ∃ u, exec c s = .next u ∧ u.tally.run = .stopped ∧ u.tally.stopCause = cause
      ∧ u.tally.stopIndex = index ∧ u.tally.outImg = s.tally.cfg.safeDio
      ∧ ∀ j, (u.task j).started = false ∧ (u.task j).rel = none
    (k < 8 → s.taskUsed k = true → s.tallyRuns = true → t.lastPer < inst → s.tally.en = .enabled →
      (t.rel = none → t.started = false →
        exec (.tallyCyclicRelease k) s = .next (s.setTask k { t with
          lastPer := inst, rel := some (inst, s.now) }))
      ∧ (t.started = true → k < s.tally.tasks.length → stops (.tallyCyclicRelease k) 1 t.pc))
    ∧ (k < s.tally.tasks.length → s.tallyRuns = true → s.mayStart k = true →
        ∃ u, exec (.tallyCycleStart k) s = .next u ∧ (u.task k).started = true ∧ (u.task k).pc = d.entry ∧ (u.task k).stack = []
        ∧ (u.task k).w = 0 ∧ (u.task k).rel = none ∧ (u.task k).writes = [] ∧ (u.task k).startAt = s.now
        ∧ (u.task k).copies.map Prod.fst = ((s.tally.prog.map (·.reads)).getD []).getD k []
        ∧ ∀ j, s.topTask = some j → u.task j = { s.task j with
            spent := (s.task j).spent + (s.now - (s.task j).runFrom.getD s.now), runFrom := none })
    ∧ (k < 24 → t.started = true → s.tallyRuns = true → d.budgetUs * usNs < spent → stops (.tallyBudgetOverrun k) 2 t.pc)
    ∧ ((s.task 24).started = true → s.tallyRuns = true → (s.taskDef 24).param * msNs < s.now - (s.task 24).startAt →
        stops .tallyBgOverrun 3 (s.task 24).pc)
    ∧ (∀ line level, line < 32 → getBit s.tally.dioIn line ≠ level → s.xingStopped 0x0B = false →
        ∃ u, exec (.dioEdge line level) s = .next u
        ∧ u.tally.dioIn = (if level then setBit s.tally.dioIn line else clrBit s.tally.dioIn line)
        ∧ (alGet u.tally.dioCount line).getD 0 = (alGet s.tally.dioCount line).getD 0 + (if level then 1 else 0)
        ∧ let a := line / 2 * 2
          u.quadAt a s.tai = ((((alGet s.tally.quad a).getD []).head?).map Prod.snd).getD 0
            + Config.quadStep (getBit s.tally.dioIn a) (getBit s.tally.dioIn (a + 1)) (getBit u.tally.dioIn a) (getBit u.tally.dioIn (a + 1)))
    ∧ (∀ x, s.tally.exch = some x → s.tally.run = .exchanging → s.exchangePoint = true →
        ∃ u, exec .tallyExchangePoint s = .next u ∧ u.tally.run = .running ∧ u.tally.exch = none ∧ u.tally.bank = s.spareBank
        ∧ u.tally.loaded = false ∧ Answered s x.ref 0x0A02 0 [u8 0, u8 0, u16 0, u32 u.tallyRev] u)
    ∧ (∀ x, s.tally.exch = some x → s.tally.run = .exchanging → x.since + s.tally.cfg.exchWaitMs * msNs ≤ s.now →
        ∃ u, exec .tallyExchTimeout s = .next u ∧ u.tally.run = .running ∧ u.tally.exch = none ∧ u.tally.bank = s.tally.bank
        ∧ Answered s x.ref 0x0A02 0 [u8 0x12, u8 0, u16 0, u32 s.tallyRev] u)

/-- TALLY_LOAD checks its image: a failed check is answered with its status and changes nothing, validate-only answers 0, and else the
spare bank is to be written; a bank written gives 0, and a bank that fails its read-back twice is empty and gives 0x0E.
TALLY_EXCHANGE waits for the point. TALLY_RUN restarts a stopped Tally, cold with no marker set; TALLY_STOP stops it with cause 4.
TALLY_CTL enables, retires releases while a cycle goes on, and disables at once otherwise. TALLY_TRIG releases an event task. TALLY_PEEK delivers bytes,
TALLY_POKE writes data words live and published, TALLY_CFG sets the configuration, TALLY_SAFE an object's safe data, and TALLY_QUERY
delivers the state and clears the greatest execution times. -/
def Obligations.TallyOrdersComplete : Prop :=
  ∀ (s : State) (ref : OrderRef),
    let ty := s.tally
    let res (st detail : Nat) : List Fld := [u8 st, u8 0, u16 detail, u32 s.tallyRev]
    let cmd (op : Nat) : Prop := s.orderReady ref op = true
    (∀ img len, cmd 0x0A01 →
        ((tallyChecks img len s.houseId s.fuse).1 ≠ 0 → Completes (.tallyLoad ref img len 0) s s ref 0x0A01 0
          (res (tallyChecks img len s.houseId s.fuse).1 (tallyChecks img len s.houseId s.fuse).2))
        ∧ ((tallyChecks img len s.houseId s.fuse).1 = 0 → ty.load = none → ty.exch = none →
          Completes (.tallyLoad ref img len 1) s s ref 0x0A01 0 (res 0 0)
          ∧ (s.standbyThere = false → Runs (.tallyLoad ref img len 0) s { s with
              tally := { ty with load := some ⟨ref, img, false, .writing, false⟩ } })))
    ∧ (∀ l, ty.load = some l → l.stage = .writing →
        Completes (.tallyBankWritten true) s { s with
          tally := { ty with
            banks := ty.banks.set s.spareBank ⟨l.bytes, 0⟩
            load := none
            loaded := true } } l.ref 0x0A01 0 (res 0 0)
        ∧ (l.retried = false → exec (.tallyBankWritten false) s = .next { s with
            tally := { ty with load := some { l with retried := true } } })
        ∧ (l.retried = true → Completes (.tallyBankWritten false) s { s with
            tally := { ty with
              banks := ty.banks.set s.spareBank ⟨[], 0⟩
              load := none
              loaded := false } } l.ref 0x0A01 0 (res 0x0E 0)))
    ∧ (cmd 0x0A02 → s.follows = false → ty.exch = none → ty.load = none → ty.loaded = true → ty.run ≠ .stopped →
        ty.en ≠ .quiescing → Runs (.tallyExchange ref) s { s with
          tally := { ty with
            exch := some ⟨ref, s.now⟩
            run := .exchanging } })
    ∧ (∀ p, cmd 0x0A03 → ty.run = .stopped → s.follows = false → ty.en = .enabled → ty.loaded = false → ty.prog = some p →
        ∃ u, exec (.tallyRun ref 1) s = .next u ∧ u.tally.run = .running ∧ u.tally.mode = 1 ∧ u.tally.outImg = ty.cfg.safeDio
        ∧ u.tally.markers = [] ∧ u.tally.pubMarkers = [] ∧ u.tally.prog = some p)
    ∧ (cmd 0x0A04 → ty.run ≠ .stopped → ty.en = .enabled → ∃ u, exec (.tallyStop ref) s = .next u ∧ u.tally.run = .stopped
        ∧ u.tally.stopCause = 4 ∧ u.tally.outImg = ty.cfg.safeDio)
    ∧ (cmd 0x0A05 → (ty.en ≠ .quiescing → Completes (.tallyCtl ref 1) s { s with
          tally := { ty with en := .enabled } } ref 0x0A05 0 [u8 1])
        ∧ (ty.en = .enabled → s.startedTasks ≠ [] → Completes (.tallyCtl ref 0) s { s with
          tally := { ty with
            en := .quiescing
            quiesced := 0
            tasks := ty.tasks.map (fun (t : TaskSt) => { t with rel := none }) } } ref 0x0A05 0 [u8 2])
        ∧ (ty.en = .enabled → s.startedTasks = [] → ty.run = .stopped → Completes (.tallyCtl ref 0) s { s with
          tally := { ty with
            en := .disabled
            quiesced := 0
            tasks := ty.tasks.map (fun (t : TaskSt) => { t with rel := none }) } } ref 0x0A05 0 [u8 0]))
    ∧ (∀ i, cmd 0x0A06 → i ≤ 15 → s.tallyRuns = true → ty.en = .enabled → s.taskUsed (8 + i) = true →
        (s.task (8 + i)).rel = none → Completes (.tallyTrig ref i) s
          (s.setTask (8 + i) { s.task (8 + i) with rel := some (s.tai, s.now) }) ref 0x0A06 0 (res 0 0))
    ∧ (∀ area start addr n, cmd 0x0A07 → 2 ≤ area → area ≤ 6 → 1 ≤ n → n ≤ 65536 → start + n ≤ areaSize area →
        Completes (.tallyPeek ref area start addr n) s s ref 0x0A07 0 (res 0 0)
        ∧ (s.xingStopped 0x01 = false → ∃ t, exec (.tallyPeek ref area start addr n) s = .next t ∧ Output.hostData addr
            ((List.range n).map (fun i => u8 (s.tPeekByte area (start + i)).toNat)) ∈ t.out))
    ∧ (∀ start n data, cmd 0x0A08 → 1 ≤ n → n ≤ 32 → start + n ≤ areaSize 3 → s.follows = false →
        ∃ t, exec (.tallyPoke ref 3 start n data) s = .next t
        ∧ t.tally.words = Mem.writes ty.words start ((padTo 32 data).take n)
        ∧ t.tally.pubWords = Mem.writes ty.pubWords start ((padTo 32 data).take n) ∧ t.tally.markers = ty.markers
        ∧ Answered s ref 0x0A08 0 (res 0 0) t)
    ∧ (∀ c, cmd 0x0A09 → c.restart ≤ 1 → c.flags ≤ 1 → 10 ≤ c.exchWaitMs → c.exchWaitMs ≤ 10000 → s.setup.sealed = false →
        Completes (.tallyCfg ref c) s { s with
          tally := { ty with
            cfg := c
            outImg := if ty.run = .stopped then c.safeDio else ty.outImg } } ref 0x0A09 0 (res 0 0))
    ∧ (∀ b o data, cmd 0x0A0A → b ≤ 1 → o ≤ 31 → Completes (.tallySafe ref b o 1 data) s
        (s.setTx b o { (s.bus b).txObj o with
          safe := padTo 64 data
          sendOnStop := true }) ref 0x0A0A 0 (res 0 0))
    ∧ (∀ addr, cmd 0x0A0B → Completes (.tallyQuery ref addr) s { s with
          tally := { ty with tasks := ty.tasks.map (fun (t : TaskSt) => { t with execMax := 0 }) } } ref 0x0A0B 0 [u8 0]
        ∧ (s.xingStopped 0x01 = false → ∃ t, exec (.tallyQuery ref addr) s = .next t ∧ Output.hostData addr s.tallyInfo ∈ t.out))

/-- A received frame fills the object that takes its identifier, marked new and stamped; one that no object takes is counted, and one that
is too short is counted apart. The lowest identifier queued in time goes onto the wire, and none
with the house id 0. An attempt that is sent ends its object SENT and lowers TEC; a failed
one ends it FAILED with its cause and raises TEC by 8, or not at all for a missing acknowledge while error-passive; above 127 the bus is
passive, above 255 it is off. A frame past its deadline fails with cause 6, a period hands its object over, a recovery sets both
counters to 0 and queues only frames still in time. A read of word 0 locks a slot and delivers it; a read of word 15 unlocks it. -/
def Obligations.FieldBusFramesAndErrors : Prop :=
  ∀ (s : State) (b : Nat),
    let u := s.bus b
    let up : Prop := b < 2 ∧ u.en = .enabled ∧ u.estate = .active
    (∀ f : CanFrame, up → s.xingStopped (busXing b) = false → u.rxe ≤ 127 → f.remote = false →
      (u.rxFor f.ide f.id = none → ∃ t, exec (.canFrameRx b f) s = .next t ∧ (t.bus b).unmatched = satInc u.unmatched
        ∧ (t.bus b).rxe = u.rxe - 1 ∧ (t.bus b).rx = u.rx)
      ∧ ∀ k x c, u.rxFor f.ide f.id = some (k, x, c) →
        (f.data.length < c.minLen → ∃ t, exec (.canFrameRx b f) s = .next t ∧ (t.bus b).short = satInc u.short
          ∧ (t.bus b).rx = u.rx)
        ∧ (c.minLen ≤ f.data.length → cfgBit c.flags 2 = false → ∃ t, exec (.canFrameRx b f) s = .next t
          ∧ (t.bus b).rxCnt = satInc u.rxCnt
          ∧ (t.bus b).rxObj k = { x with
              data := padTo 64 f.data, len := f.data.length, fd := f.fd, esi := f.esi, isNew := true, lost := x.lost || x.isNew
              overwrites := x.overwrites + b01 x.isNew, at_ := some s.tai
              seq := some ((padTo 64 f.data).getD c.seqPos 0, s.now) }))
    ∧ (∀ f ∈ u.frames, up → s.houseId ≠ 0 → (∀ g ∈ u.frames, g.onWire = false) → s.frameLate b f = false →
        (∀ g ∈ u.frames, g = f ∨ s.frameLate b g = true ∨ s.frameKey b f < s.frameKey b g) →
        ∃ t, exec (.arbitrationWon b) s = .next t ∧ ((t.bus b).txObj f.object).st = .onWire
        ∧ (∃ g ∈ (t.bus b).frames, g.id = f.id ∧ g.onWire = true) ∧ Output.canFrame b f.object f.data ∈ t.out)
    ∧ (∀ (f : BusFrame) (e : TxEnd), u.frames = [f] → f.onWire = true → f.ref = none →
        u.estate = .active ∨ u.estate = .passive →
        let tec := u.tec + (if e = .ack ∧ u.estate = .passive then 0 else 8)
        (e = .sent → ∃ t, exec (.fbusAttemptEnd b e) s = .next t ∧ ((t.bus b).txObj f.object).st = .sent
          ∧ (t.bus b).tec = u.tec - 1 ∧ (t.bus b).txCnt = satInc u.txCnt ∧ (t.bus b).frames = [])
        ∧ (e ≠ .sent → ∃ t, exec (.fbusAttemptEnd b e) s = .next t ∧ ((t.bus b).txObj f.object).st = .failed
          ∧ ((t.bus b).txObj f.object).cause = txEndCause e ∧ (t.bus b).frames = [] ∧ (t.bus b).tec = tec
          ∧ (tec ≤ 255 → (t.bus b).estate = if 127 < tec ∨ 127 < u.rxe then .passive else .active)
          ∧ (255 < tec → (t.bus b).busoffCnt = satInc u.busoffCnt
              ∧ (t.bus b).estate = if s.fld (rFbusCtl b) 2 2 = 1 then .recovering else .busOff)))
    ∧ (s.houseId = 0 → exec (.arbitrationWon b) s = .next s)
    ∧ (∀ (o : Nat) (f : BusFrame), u.frames.find? (fun g => g.object == o && !g.onWire && s.frameLate b g) = some f → f.ref = none →
        ∃ t, exec (.fbusDeadline b o) s = .next t ∧ ((t.bus b).txObj o).st = .failed ∧ ((t.bus b).txObj o).cause = 6
        ∧ (t.bus b).frames = u.frames.filter (fun g => g.id != f.id))
    ∧ (∀ (o : Nat) (c : TxCfg), up → (u.txObj o).cfg = some c → 0 < c.periodUs →
        (u.txObj o).lastPer < s.tai / (c.periodUs * usNs) * (c.periodUs * usNs) → s.activeOrSolo = true → s.driven = true → s.houseId ≠ 0 →
        s.xingStopped (busXing b) = false → (∀ g ∈ u.frames, g.object ≠ o) →
        ∃ t g, exec (.fbusPeriod b o) s = .next t ∧ (t.bus b).frames = u.frames ++ [g] ∧ g.object = o ∧ g.handedAt = s.now
        ∧ g.data = (seqData c (u.txObj o).bytes ((u.txObj o).seqCount + 1)).take c.len ∧ ((t.bus b).txObj o).st = .queued
        ∧ ((t.bus b).txObj o).lastPer = s.tai / (c.periodUs * usNs) * (c.periodUs * usNs))
    ∧ (b < 2 → u.estate = .recovering → u.en ≠ .disabled → ∃ t, exec (.fbusRecoveryDone b) s = .next t
        ∧ (t.bus b).estate = .active ∧ (t.bus b).tec = 0 ∧ (t.bus b).rxe = 0
        ∧ ∀ g ∈ (t.bus b).frames, g.requeued = true ∧ ∃ f ∈ u.stranded, f.id = g.id ∧ s.frameLate b f = false)
    ∧ (∀ rise, b < 2 → u.en ≠ .disabled → u.estate = .active ∨ u.estate = .passive → rise = 1 ∨ rise = 8 →
        ∃ t, exec (.busErrorRx b rise) s = .next t ∧ (t.bus b).rxe = min (u.rxe + rise) 255 ∧ (t.bus b).errCnt = satInc u.errCnt
        ∧ (t.bus b).estate = if 127 < u.tec ∨ 127 < min (u.rxe + rise) 255 then .passive else .active)
    ∧ (∀ slot, b < 2 → b < s.can.length → slot < 160 →
        (∃ t l, exec (.fbusLockRead b slot) s = .next t ∧ (t.bus b).lock = some l ∧ l.slot = slot ∧ l.data = s.slotData b slot
          ∧ Output.barRead (0x8000 + b * 0x4000 + slot * 64) (slotWord (s.slotData b slot) 0) ∈ t.out
          ∧ (slot < 128 → ((t.bus b).rxObj slot).isNew = false ∧ ((t.bus b).rxObj slot).lost = false))
        ∧ ∀ l, u.lock = some l → l.slot = slot → ∃ t, exec (.fbusUnlockRead b slot) s = .next t ∧ (t.bus b).lock = none
          ∧ Output.barRead (0x8000 + b * 0x4000 + slot * 64 + 0x3C) (slotWord l.data 15) ∈ t.out)

/-- FBUS_RX_CFG gives an object its identifier, or refuses with 3 where another object of the bus has it, or removes it; FBUS_TX_CFG configures a
transmit object that passes its checks. After the seal both refuse with 2 while the controller is not disabled. FBUS_SEND queues a frame
of a host-owned object and is answered when it is sent; 4, 8 and 9 refuse it for the owner, the role and a quiescing controller.
FBUS_CTL enables a controller whose bit timing is within its limits, error-active with both counters at 0, sets the bit-timing error of
one that is not, and disables at once one with no frame on the wire. FBUS_RECOVER starts the recovery of a bus that is off. A change of the bus state is an event of crossing 0x11. -/
def Obligations.FieldBusOrdersComplete : Prop :=
  ∀ (s : State) (ref : OrderRef) (b : Nat),
    let u := s.bus b
    let cmd (op : Nat) : Prop := s.orderReady ref op = true
    (∀ c : RxCfg, cmd 0x0E01 → c.bus = b → b ≤ 1 → c.object ≤ 127 → c.flags ≤ 15 →
      (cfgBit c.flags 3 = false → c.minLen ≤ 64 → idOk (cfgBit c.flags 0) c.id = true → 1 ≤ c.freshMs → c.freshMs ≤ 60000 →
        c.seqPos ≤ 63 →
        (s.busFixed b = true → Completes (.fbusRxCfg ref c) s s ref 0x0E01 0 (busResult b c.object 2 0 0 0))
        ∧ (s.busFixed b = false → u.rxFor (cfgBit c.flags 0) c.id = none → Completes (.fbusRxCfg ref c) s
            (s.setRx b c.object { (default : RxObj) with cfg := some c }) ref 0x0E01 0 (busResult b c.object 0 0 0 0))
        ∧ (∀ k x y, s.busFixed b = false → u.rxFor (cfgBit c.flags 0) c.id = some (k, x, y) → k ≠ c.object →
            Completes (.fbusRxCfg ref c) s s ref 0x0E01 0 (busResult b c.object 3 0 0 0)))
      ∧ (cfgBit c.flags 3 = true → s.busFixed b = false → Completes (.fbusRxCfg ref c) s
          (s.setBus b (fun (v : Bus) => { v with rx := alDel v.rx c.object })) ref 0x0E01 0 (busResult b c.object 0 0 0 0)))
    ∧ (∀ c : TxCfg, cmd 0x0E02 → c.bus = b → b ≤ 1 → c.object ≤ 31 → c.flags < 2 ^ 9 → cfgBit c.flags 8 = false →
        txCfgOk c = true →
        (s.busFixed b = true → Completes (.fbusTxCfg ref c) s s ref 0x0E02 0 (busResult b c.object 2 0 0 0))
        ∧ (s.busFixed b = false → Completes (.fbusTxCfg ref c) s (s.setTx b c.object { (default : TxObj) with
            safe := (u.txObj c.object).safe, sendOnStop := (u.txObj c.object).sendOnStop, seqCount := (u.txObj c.object).seqCount
            lastPer := s.tai, cfg := some c }) ref 0x0E02 0 (busResult b c.object 0 0 0 0)))
    ∧ (∀ o data, cmd 0x0E03 → b ≤ 1 → o ≤ 31 →
        (s.busOwner b o ≠ some 3 → Completes (.fbusSend ref b o data) s s ref 0x0E03 0 (busResult b o 4 0 0 0))
        ∧ (s.busOwner b o = some 3 → s.activeOrSolo = false →
            Completes (.fbusSend ref b o data) s s ref 0x0E03 0 (busResult b o 8 0 0 0))
        ∧ (s.busOwner b o = some 3 → s.activeOrSolo = true → u.en = .quiescing →
            Completes (.fbusSend ref b o data) s s ref 0x0E03 0 (busResult b o 9 0 0 0))
        ∧ (s.busOwner b o = some 3 → s.activeOrSolo = true → u.en = .enabled → u.estate = .active → s.driven = true →
            s.houseId ≠ 0 → s.xingStopped (busXing b) = false → (∀ g ∈ u.frames, g.object ≠ o) →
            ∃ t g, exec (.fbusSend ref b o data) s = .next t ∧ (t.bus b).frames = u.frames ++ [g] ∧ g.object = o
            ∧ g.ref = some ref ∧ g.handedAt = s.now ∧ ((t.bus b).txObj o).data = padTo 64 data))
    ∧ (∀ f : BusFrame, u.frames = [f] → f.onWire = true → f.ref = some ref → ∃ t, exec (.fbusAttemptEnd b .sent) s = .next t
        ∧ Answered s ref 0x0E03 0 (busResult b f.object 0 0 s.stamp32.toNat f.seq.toNat) t)
    ∧ (cmd 0x0E04 → b ≤ 1 → b < s.can.length →
        (u.en = .disabled → s.busTimingOk b = true →
          let v : State := s.setBus b (fun (v : Bus) => { v with
            en := .enabled, estate := .active, btErr := false, tec := 0, rxe := 0, stranded := [] })
          Completes (.fbusCtl ref b 1) s (if u.estate = .active then v else v.alarm 0x11) ref 0x0E04 0 [u8 b, u8 1])
        ∧ (u.en = .disabled → s.busTimingOk b = false → Completes (.fbusCtl ref b 1) s
            (s.setBus b (fun (v : Bus) => { v with btErr := true })) ref 0x0E04 0 [u8 b, u8 0])
        ∧ (u.en = .enabled → u.frames = [] → Completes (.fbusCtl ref b 0) s (s.setBus b (fun (v : Bus) => { v with
            en := .disabled, retired := 0, stranded := [], frames := [] })) ref 0x0E04 0 [u8 b, u8 0])
        ∧ (∀ f : BusFrame, u.en = .enabled → u.frames = [f] → f.onWire = true → Completes (.fbusCtl ref b 0) s
            (s.setBus b (fun (v : Bus) => { v with en := .quiescing, retired := 0, stranded := [] })) ref 0x0E04 0 [u8 b, u8 2]))
    ∧ (cmd 0x0E05 → b ≤ 1 →
        (u.estate = .busOff → Completes (.fbusRecover ref b) s ((s.setBus b (fun (v : Bus) => { v with
            ordered := true, estate := .recovering })).alarm 0x11) ref 0x0E05 0 [])
        ∧ (u.estate ≠ .busOff → Completes (.fbusRecover ref b) s s ref 0x0E05 3 []))

/-- The sample of a period is the filter's output over its bits, once, and enters the channel's history, marked when clipped; over a stopped crossing 0x0D none
is new. 64 equal bits make a channel INACTIVE. An acquisition locks to the middle of the longest open run of at least 4 taps, is
repeated, and ends with a closed eye; tracking steps the tap, with a shift of the bit frame across the period, and crowded windows or
100 ms acquire again. A line cycle adds its corrected energy to the active register when all its channels were good throughout, else (or
while its role is being re-placed) its length to the FAULT time, and closes the window at the set's cycles that are multiples of WINDOW_N; a QUIESCING circuit is then
DISABLED. Quantities are those of the samples, water that of the table, or what the command names. A set without a crossing runs free, with nominal cycles. A sag starts below its threshold and ends above threshold and
hysteresis. A billing instant counts a snapshot and copies the registers; the aggregates follow without changing a register. A heat sample is valid
only with good sources in range below saturation, and adds energy only then. A battery burst counts, and charges each channel that
locked; with VIN present, or before its period has passed, it does nothing. -/
def Obligations.MeteringMeasures : Prop :=
  ∀ (s : State) (n : Nat),
    let c := s.chan n
    let here : Prop := s.chanRuns n = true ∧ n < s.meter.chans.length
    (∀ ws, here →
      let d := s.fld rClkCtl 10 0
      let k := c.decimate d (s.periods n d ws)
      let clip := fLt (fc 95 100) (fAbs k.x)
      (c.at_ ≠ some s.chanStamp → s.xingStopped 0x0D = false → ∃ t, exec (.meterSample [⟨n, ws⟩]) s = .next t ∧ (t.chan n).x = k.x
        ∧ (t.chan n).sinc = k.sinc ∧ (t.chan n).at_ = some s.chanStamp ∧ (t.chan n).clipped = clip ∧ (t.chan n).count = c.count + 1
        ∧ (t.chan n).hist.head? = some ⟨s.chanStamp, k.x, (c.st == .locked) && !clip, clip⟩)
      ∧ (c.at_ ≠ some s.chanStamp → s.xingStopped 0x0D = true → ∃ t, exec (.meterSample [⟨n, ws⟩]) s = .next t
        ∧ (t.chan n).x = c.x ∧ (t.chan n).sinc = c.sinc ∧ (t.chan n).hist.head? = some ⟨s.chanStamp, c.x, false, false⟩)
      ∧ (c.at_ = some s.chanStamp → exec (.meterSample [⟨n, ws⟩]) s = .next s))
    ∧ (here → 64 ≤ c.same → ∃ t, exec (.chInactive n) s = .next t ∧ (t.chan n).st = .inactive)
    ∧ (c.same < 64 → exec (.chInactive n) s = .next s)
    ∧ (∀ taps, here → c.st = .acquire →
        let r := longestRun (openTaps (s.periods n 1024 taps))
        (4 ≤ r.2 → ∃ t, exec (.chAcquireDone n taps) s = .next t ∧ (t.chan n).st = .locked
          ∧ (t.chan n).tap = (r.1 + (r.2 - 1) / 2) % 16)
        ∧ (r.2 < 4 → c.repeats < 3 → ∃ t, exec (.chAcquireDone n taps) s = .next t ∧ (t.chan n).st = .acquire
          ∧ (t.chan n).repeats = c.repeats + 1)
        ∧ (r.2 < 4 → 3 ≤ c.repeats → ∃ t, exec (.chAcquireDone n taps) s = .next t ∧ (t.chan n).st = .eyeClosed
          ∧ (t.chan n).retryAt = s.now + 100 * msNs))
    ∧ (∀ w : TrackWindow, here → c.st = .locked →
        let ws := s.periods n 4096 w
        let early := disagree ws c.tap (c.tap + 14)
        let late := disagree ws c.tap (c.tap + 2)
        (0 < early → late = 0 → ∃ t, exec (.chTrackWindow n w) s = .next t ∧ (t.chan n).tap = (c.tap + 1) % 16
          ∧ (t.chan n).steps = (c.steps + 1) % 2 ^ 16 ∧ (t.chan n).frame = if c.tap = 15 then .skip else c.frame)
        ∧ (0 < late → early = 0 → ∃ t, exec (.chTrackWindow n w) s = .next t ∧ (t.chan n).tap = (c.tap + 15) % 16
          ∧ (t.chan n).frame = if c.tap = 0 then .again else c.frame)
        ∧ (0 < early → 0 < late → 3 ≤ c.crowded → ∃ t, exec (.chTrackWindow n w) s = .next t ∧ (t.chan n).st = .acquire))
    ∧ (here → c.st = .eyeClosed → c.retryAt ≤ s.now → ∃ t, exec (.chAcquireRetry n) s = .next t ∧ (t.chan n).st = .acquire)
    ∧ (∀ (v id end_ l : Nat) (low : Option (List F32)) (given : Option (List CycleQty)) (vs : Vset) (k : Circ),
        s.vset v = some vs → s.circsOf v = [(id, k)] → s.circ id = some k → k.waitCycle = false → vs.freeRun = false →
        vs.lastCross = some l → l < end_ → s.periodOk (end_ - l) = true →
        let goes : Instr := .lineCycleEnd v (some end_) true low given
        let dur := end_ - vs.lastEnd
        let qs := given.getD (s.cycleQtys v vs.lastEnd end_)
        let p := (s.correct vs.cfg k.cfg ((qs.find? (fun q => q.circuit == id)).getD default)).p
        let used := vsetChans vs.cfg ++ circChans k.cfg
        let good : Prop := s.xingStopped 0x0D = false
          ∧ ∀ j ∈ used, (s.chan j).goodOver (end_ - dur) end_ = true ∧ (s.chan j).uncal = false
        (k.en = .enabled → s.roleDown (meterRole id) = false → ∃ t y, exec goes s = .next t ∧ t.circ id = some y
          ∧ (t.vset v).map (fun (z : Vset) => (z.lastEnd, z.lastCross, z.cycles)) = some (end_, some end_, vs.cycles + 1)
          ∧ y.en = .enabled
          ∧ (good → y.a = k.a.add (energyOf p dur) lsbEnergy ∧ y.fault = k.fault)
          ∧ (¬ good → y.a = k.a ∧ y.fault = (faultAdd k.fault k.faultNs dur).1)
          ∧ ((vs.cycles + 1) % k.cfg.windowN ≠ 0 → y.win.cycles = k.win.cycles + 1 ∧ y.windows = k.windows)
          ∧ ((vs.cycles + 1) % k.cfg.windowN = 0 → y.win = freshWindow ∧ y.windows = k.windows + 1))
        ∧ (k.en = .enabled → s.roleDown (meterRole id) = true → ∃ t y, exec goes s = .next t ∧ t.circ id = some y ∧ y.a = k.a
          ∧ y.fault = (faultAdd k.fault k.faultNs dur).1 ∧ y.windows = k.windows)
        ∧ (k.en = .quiescing → s.roleDown (meterRole id) = false → ∃ t y, exec goes s = .next t ∧ t.circ id = some y
          ∧ y.en = .disabled ∧ y.windows = k.windows + 1))
    ∧ (∀ (v : Nat) (end_ : Option Nat) (low : Option (List F32)) (given : Option (List CycleQty)) (vs : Vset), s.vset v = some vs →
        vs.freeRun = true → vs.lastEnd + s.nominalNs ≤ s.tai → ∃ t, exec (.lineCycleEnd v end_ false low given) s = .next t
        ∧ (t.vset v).map (fun (z : Vset) => z.lastEnd) = some (vs.lastEnd + s.nominalNs))
    ∧ (∀ v vs, s.vset v = some vs → vs.lastCross.getD vs.since + s.nominalNs * 3 / 2 ≤ s.tai → vs.freeRun = false →
        let base := if vs.lastEnd = 0 then s.tai else vs.lastEnd
        Runs (.freeRunEnter v) s (s.setVset v { vs with
          freeRun := true, ending := false, goodRun := 0, lastEnd := base, half1 := if vs.half1 = 0 then base else vs.half1 }))
    ∧ (∀ (v at_ : Nat) (given : Option (List F32)) (vs : Vset), s.vset v = some vs → vs.freeRun = false → vs.half1 < at_ →
        (s.circsOf v).any (fun p => p.2.en == .enabled) = true →
        let vals := ((vsetChans vs.cfg).zip (given.getD (s.halfRmsOf vs at_))).map Prod.snd
        (∀ x ∈ vals, rmsBelow vs.cfg.udin x vs.cfg.sag = true → vs.sag = none →
          ∃ t y e, exec (.halfCycleBoundary v (some at_) given) s = .next t ∧ t.vset v = some y ∧ y.halfRms = vals ∧ y.sag = some e
          ∧ e.start = at_)
        ∧ (∀ e, vs.sag = some e → (∀ x ∈ vals, rmsBelow vs.cfg.udin x (vs.cfg.sag + vs.cfg.hyst) = false) →
          ∃ t y, exec (.halfCycleBoundary v (some at_) given) s = .next t ∧ t.vset v = some y ∧ y.sag = none
          ∧ s.meter.pqSeq < t.meter.pqSeq))
    ∧ (∀ inst, inst = s.tai / secNs / s.meter.billS * s.meter.billS → 0 < inst → s.meter.lastBill < inst → ∃ t, exec .billSnapshot s = .next t ∧ t.meter.bill = s.meter.bill + 1
        ∧ t.meter.lastBill = inst ∧ t.meter.billDue = some inst
        ∧ ∀ id (k : Circ), s.meter.circs = [(id, k)] → k.mirrored = false →
          (t.circ id).bind (fun (y : Circ) => y.billCopy) = some k.block)
    ∧ (∀ at_, s.meter.billDue = some at_ → (at_ + s.meter.waitS) * secNs ≤ s.tai → ∃ t, exec .billAggregate s = .next t
        ∧ t.meter.billDue = none ∧ ∀ a, (t.agg a).e = (s.agg a).e ∧ (t.agg a).v = (s.agg a).v)
    ∧ (∀ (p : Nat) (given : Option WaterIn) (x : HeatPoint) (last from_ : Nat), s.point p = some x → x.en = .enabled →
        x.mirrored = false → x.lastAt = some last → x.prev = some from_ → s.roleDown (meterRole p) = false →
        let period := s.fld rHeatCtl 9 0 * msNs
        let inst := s.tai / period * period
        x.onAt ≤ inst →
        let src (o : Nat) : F32 × Quality := s.heatSrc x.desc o inst
        let inRange (v : F32) : Bool := fBetween (fc 27315 100) (fc 42315 100) v
        let w := given.getD (waterOf (f32At x.desc 4) (src 0x20).1 (src 0x30).1
          (if x.flag 2 then (src 0x30).1 else (src 0x20).1))
        (inst ≤ last → exec (.heatSample p given) s = .next s)
        ∧ (last < inst → ∃ t y, exec (.heatSample p given) s = .next t ∧ t.point p = some y ∧ y.lastAt = some inst ∧ y.tsup = (src 0x20).1
        ∧ y.tret = (src 0x30).1
        ∧ (y.valid = true ↔ (src 0x10).2 = .good ∧ (src 0x20).2 = .good ∧ (src 0x30).2 = .good ∧ inRange (src 0x20).1 = true
            ∧ inRange (src 0x30).1 = true ∧ w.belowSat = true)
        ∧ y.e = x.e.add (if y.valid then energyOf y.power (inst - from_) else 0) lsbEnergy
        ∧ (y.valid = false → y.fault = (faultAdd x.fault x.faultNs (inst - from_)).1)))
    ∧ (∀ q : BurstQty, let b := s.meter.batt
        let period := 2 ^ bits b.ctl.toNat 4 1 * 10 * (if b.f60 then 16666667 else 20000000)
        (s.sup.step ≠ 0 ∨ b.ctl.toNat % 2 = 0 ∨ s.now < b.nextAt → exec (.battBurst [q]) s = .next s)
        ∧ ∀ cal : F32 × F32, s.sup.step = 0 → s.sup.holdUp = false → s.sup.cause = .powerOn → b.ctl.toNat % 2 = 1 →
          b.nextAt ≤ s.now → alGet b.cals q.channel = some cal →
          q.locked = true → ∃ t, exec (.battBurst [q]) s = .next t ∧ t.meter.batt.bursts = b.bursts + 1
          ∧ t.meter.batt.nextAt = s.now + period
          ∧ alGet t.meter.batt.charge q.channel = some ((alGet b.charge q.channel).getD 0
              + (fInt (burstRms cal.1 cal.2 q.mean q.meanSq)).natAbs * period))

/-- METER_VSET, METER_CIRC and HEAT_CFG that pass their checks configure a set, a circuit or a point, which starts from its flash copy,
DISABLED; a failed check is answered with its status and changes nothing, and a set whose circuit is not disabled is never changed.
BILL_CFG takes a period of whole minutes. METER_CTL and HEAT_CTL enable a circuit from the next whole cycle on, a point with no
last sample, and let a disabled one quiesce. METER_QUERY and HEAT_QUERY deliver the copies of a set that has been taken, with their number (a mirrored one OFFLINE while the twin
port is down), or answer 1 where the range is wrong and 5 where the set has not been taken. A voltage set whose last circuit is disabled
ends its events with it. -/
def Obligations.MeteringOrdersComplete : Prop :=
  ∀ (s : State) (ref : OrderRef),
    let cmd (op : Nat) : Prop := s.orderReady ref op = true
    let res (st obj : Nat) : List Fld := [u8 st, u8 0, u16 obj]
    let data (st n set : Nat) : List Fld := [u8 st, u8 0, u8 0, u8 0, u32 n, u32 (s.setNumber set)]
    (∀ x : VsetCfg, cmd 0x0B01 →
      (s.vsetStatus x = 0 → Completes (.meterVset ref x) s
        (s.setVset x.vset (s.freshVset x))
        ref 0x0B01 0 (res 0 x.vset))
      ∧ (s.vsetStatus x ≠ 0 → Completes (.meterVset ref x) s s ref 0x0B01 0 (res (s.vsetStatus x) x.vset))
      ∧ ((∃ p ∈ s.circsOf x.vset, p.2.en ≠ .disabled) → s.vsetStatus x ≠ 0))
    ∧ (∀ x : CircCfg, cmd 0x0B02 →
        (s.circStatus x = 0 → s.circ x.circuit = none → Completes (.meterCirc ref x) s (s.setCirc x.circuit (s.freshCirc x))
          ref 0x0B02 0 (res 0 x.circuit))
        ∧ (s.circStatus x ≠ 0 → Completes (.meterCirc ref x) s s ref 0x0B02 0 (res (s.circStatus x) x.circuit))
        ∧ (s.vset x.vset = none → s.circStatus x = 1 ∨ s.circStatus x = 5))
    ∧ (∀ p d, cmd 0x0B03 → s.point p = none →
        (heatCfgOk p d = true → Completes (.heatCfg ref p d) s (s.setPoint p (s.freshPoint p d)) ref 0x0B03 0 (res 0 p))
        ∧ (heatCfgOk p d = false → Completes (.heatCfg ref p d) s s ref 0x0B03 0 (res 1 p)))
    ∧ (∀ a b, cmd 0x0B04 →
        (60 ≤ a → a ≤ 86400 → a % 60 = 0 → 1 ≤ b → b ≤ 60 → Completes (.billCfg ref a b) s { s with
          meter := { s.meter with
            billS := a
            waitS := b } } ref 0x0B04 0 (res 0 0))
        ∧ (a % 60 ≠ 0 → Completes (.billCfg ref a b) s s ref 0x0B04 0 (res 1 0)))
    ∧ (∀ (n : Nat) (c : Circ), cmd 0x0B05 → s.circ n = some c → n ≠ 0xFF → c.mirrored = false →
        (c.en = .disabled → Completes (.meterCtl ref n 1) s (s.setCirc n { c with
          en := .enabled, waitCycle := true, win := freshWindow }).stopMonitors ref 0x0B05 0 [u8 n, u8 1])
        ∧ (c.en = .enabled → Completes (.meterCtl ref n 0) s (s.setCirc n { c with en := .quiescing }).stopMonitors ref 0x0B05 0 [u8 n, u8 2])
        ∧ (c.en = .quiescing → Completes (.meterCtl ref n 1) s (s.setCirc n c).stopMonitors ref 0x0B05 6 [u8 n, u8 2]))
    ∧ (∀ v vs e, alGet s.meter.vsets v = some vs → s.meter.vsets = [(v, vs)] → vs.sag = some e →
        (s.circsOf v).any (fun p => p.2.en == .enabled) = false → (s.stopMonitors.vset v).map (fun (z : Vset) => z.sag) = some none
          ∧ s.meter.pqSeq < s.stopMonitors.meter.pqSeq)
    ∧ (∀ (n : Nat) (p : HeatPoint), cmd 0x0B06 → s.point n = some p → n ≠ 0xFF → p.mirrored = false →
        (p.en = .disabled → Completes (.heatCtl ref n 1) s (s.setPoint n { p with
          en := .enabled, prev := none, onAt := s.tai, pulses := (alGet s.tally.dioCount (u16At p.desc 0x12)).getD 0 }) ref 0x0B06 0 [u8 n, u8 1])
        ∧ (p.en = .enabled → Completes (.heatCtl ref n 0) s (s.setPoint n { p with en := .quiescing }) ref 0x0B06 0 [u8 n, u8 2]))
    ∧ (∀ set first count a, cmd 0x0B07 → set ≤ 2 → 1 ≤ count → first + count ≤ 12 → a % 16 = 0 →
        let bs := (List.range count).filterMap (fun k =>
          (s.circ (first + k)).map (fun (c : Circ) => s.readCopy c.mirrored (c.copyOf set) c.block))
        let taken := s.setTaken set (s.meter.circs.any (fun p => p.2.winCopy.isSome))
        (taken = true → Completes (.meterQuery ref set first count a) s s ref 0x0B07 0 (data 0 bs.length set)
          ∧ (bs ≠ [] → s.xingStopped 0x01 = false → ∃ t, exec (.meterQuery ref set first count a) s = .next t
            ∧ Output.hostData a (bs.flatten.map (fun b => u8 b.toNat)) ∈ t.out))
        ∧ (taken = false → Completes (.meterQuery ref set first count a) s s ref 0x0B07 0 (data 5 0 set)))
    ∧ (∀ set first count a, cmd 0x0B07 → a % 16 ≠ 0 →
        Completes (.meterQuery ref set first count a) s s ref 0x0B07 0 (data 1 0 set))
    ∧ (∀ set first count a, cmd 0x0B08 → set ≤ 2 → 1 ≤ count → first + count ≤ 64 → a % 16 = 0 →
        let bs := (List.range count).filterMap (fun k =>
          (s.point (first + k)).map (fun (p : HeatPoint) => s.readCopy p.mirrored (p.copyIn set) p.block))
        let taken := s.setTaken set (s.meter.points.any (fun p => p.2.winCopy.isSome))
        (taken = true → Completes (.heatQuery ref set 0 first count a) s s ref 0x0B08 0 (data 0 bs.length set)
          ∧ (bs ≠ [] → s.xingStopped 0x01 = false → ∃ t, exec (.heatQuery ref set 0 first count a) s = .next t
            ∧ Output.hostData a (bs.flatten.map (fun b => u8 b.toNat)) ∈ t.out))
        ∧ (taken = false → Completes (.heatQuery ref set 0 first count a) s s ref 0x0B08 0 (data 5 0 set)))
    ∧ (∀ set first count a, cmd 0x0B08 → set ≤ 2 → 1 ≤ count → first + count ≤ 68 → a % 16 = 0 →
        (set ≠ 0 → s.setNumber set ≠ 0 → Completes (.heatQuery ref set 1 first count a) s s ref 0x0B08 0
          (data 0 (s.aggBlocks set first count).length set))
        ∧ (set = 0 → Completes (.heatQuery ref set 1 first count a) s s ref 0x0B08 0 (data 5 0 set)))

/-- A good doorbell moves an order ring's tail or a report ring's head, and then one report tells what was dropped; a bad one moves
nothing and leaves error 5. A fetched entry consumes its slot and becomes a live order, or is answered at once: quiescing 5, tag in use
4, bad opcode 1, bad entry 2. A coalesced ring is signalled. Enabling a ring that may be enabled starts it empty; disabling waits for
its live orders. Loss of the link and a function reset leave every ring disabled and no order alive. A report timer raises what it held or
stops. A host access without answer ends its order or its slot with 8. While crossing 0x01 is stopped nothing leaves for the host. -/
def Obligations.HostRingsFetchAndReport : Prop :=
  ∀ (s : State) (r : Nat),
    let o := s.ordRing r
    let k := s.ringRpt r
    let up : Prop := s.xingStopped 0x01 = false
    let off (t : State) : Prop := (∀ i, t.ringEnOf i = .disabled) ∧ ∀ l ∈ t.host.live, l.dead = true
    let slot (c : Instr) (st : Nat) (ps : Report → Prop) : Prop := ∃ t i p, exec c s = .next t ∧ (t.ordRing r).head = o.head + 1
      ∧ Output.report k i p ∈ t.out ∧ p.status = st ∧ p.ring = r ∧ ps p
    (∀ (w : Nat) (v : DWord), r < 64 →
      (w = 8 → v.toNat / 2 ^ 32 = r → s.ringEnOf r = .enabled → s.doorbellOk r (word v.toNat) = true →
        (r < 32 → exec (.doorbell r w v) s = .next (s.setOrd r (fun (x : OrdRing) => { x with tail := word v.toNat })))
        ∧ (32 ≤ r → (s.rptRing (r - 32)).drops = 0 → exec (.doorbell r w v) s =
            .next (s.setRpt (r - 32) (fun (x : RptRing) => { x with head := word v.toNat })))
        ∧ (up → 32 ≤ r → (s.rptRing (r - 32)).drops ≠ 0 →
            1 ≤ (s.setRpt (r - 32) (fun (x : RptRing) => { x with head := word v.toNat })).freeCount (r - 32) →
            ∃ t i p, exec (.doorbell r w v) s = .next t ∧ Output.report (r - 32) i p ∈ t.out ∧ p.kind = 2
            ∧ p.body = [u32 (s.rptRing (r - 32)).drops.toNat, u32 (s.rptRing (r - 32)).dropStamp.toNat]
            ∧ (t.rptRing (r - 32)).drops = 0))
      ∧ (w ≠ 8 ∨ v.toNat / 2 ^ 32 ≠ r ∨ s.ringEnOf r ≠ .enabled ∨ s.doorbellOk r (word v.toNat) = false →
          ∃ t, exec (.doorbell r w v) s = .next t ∧ t.host.ord = s.host.ord ∧ t.host.lastErr = word (r * 256 + 5)
          ∧ ∀ i, (t.rptRing i).head = (s.rptRing i).head))
    ∧ (∀ e : OrderEntry, s.fetchable r = true → o.orphan = false → s.secondDue r = none →
        let st := if o.en = .quiescing then 5 else if s.tagLive e.tag = true then 4 else entryStatus e
        (up → st ≠ 0 → slot (.orderFetch r e) st (fun p => p.kind = 0x8000 + e.opcode ∧ p.tag = e.tag ∧ p.gen = e.gen ∧ p.user = e.user))
        ∧ (st = 0 → ∃ t l, exec (.orderFetch r e) s = .next t ∧ (t.ordRing r).head = o.head + 1 ∧ l ∈ t.host.live ∧ l.tag = e.tag
          ∧ l.gen = e.gen ∧ l.ring = r ∧ l.rpt = k ∧ l.opcode = e.opcode ∧ l.user = e.user ∧ l.fence = e.fence
          ∧ ((∀ x ∈ s.host.live, x.ring ≠ r) → l.handed = !e.link)
          ∧ (k < s.host.rpt.length → (t.rptRing k).reserved = (s.rptRing k).reserved + 1)))
    ∧ (∀ (e : OrderEntry) (l : LiveOrder), s.fetchable r = true → o.orphan = false → s.secondDue r = some l →
        ∃ t, exec (.orderFetch r e) s = .next t ∧ (t.ordRing r).head = o.head + 1
        ∧ ∀ x ∈ t.host.live, x.is l.tag l.gen = true → x.dead = false → x.waitSecond = false)
    ∧ (up → s.fetchable r = true → o.orphan = false → s.secondDue r = none →
        slot (.hostMemoryTimeout (.entry r)) 8 (fun p => p.body = [u32 o.head.toNat]))
    ∧ (∀ tag gen l, up → s.findLive tag gen = some l → l.handed = true → l.started = false → l.dead = false →
        ∃ t, exec (.hostMemoryTimeout (.order tag gen)) s = .next t ∧ Reported l l.opcode 8 [] t)
    ∧ exec (.hostMemoryTimeout .shadow) s = .next { s with host := { s.host with err := setBit s.host.err 2 } }
    ∧ (∀ i, up → i < 32 → (s.rptRing i).unsignalled ≠ 0 → s.coalT i ≠ 0 →
        (s.rptRing i).coalSince + s.coalT i * (4 * usNs) ≤ s.now → s.host.funcMask = false → getBit s.host.vecMask i = false →
        ∃ t, exec (.coalesceTimer i) s = .next t ∧ (t.rptRing i).unsignalled = 0 ∧ Output.msix i ∈ t.out)
    ∧ (∀ v : Word, r < 64 → s.host.ord.length = 32 → s.host.rpt.length = 32 → s.ringEnOf r = .disabled →
        let u := s.writeRingFields r (v ||| 0x80000000#32)
        (u.enableRefusal r = 0 → ∃ t, exec (.hostRingEnable r v) s = .next t ∧ t.ringEnOf r = .enabled
          ∧ (r < 32 → (t.ordRing r).head = 0 ∧ (t.ordRing r).tail = 0))
        ∧ (u.enableRefusal r ≠ 0 → exec (.hostRingEnable r v) s = .next (u.ringErr r (u.enableRefusal r))))
    ∧ (∀ v : Word, r < 32 → o.en = .enabled →
        (∀ l ∈ s.host.live, l.ring = r → l.handed = true) → ∃ t, exec (.hostRingDisable r v) s = .next t
        ∧ (t.ordRing r).en = (if o.head = o.tail ∧ (∀ l ∈ s.host.live, l.ring = r → l.dead = true) then .disabled else .quiescing))
    ∧ (∀ v : Word, r < 32 → (s.rptRing r).en = .enabled →
        ((s.writeRingFields (32 + r) (v &&& 0x7FFFFFFF#32)).rptInUse r = false →
          ∃ t, exec (.hostRingDisable (32 + r) v) s = .next t ∧ (t.rptRing r).en = .disabled)
        ∧ ((s.writeRingFields (32 + r) (v &&& 0x7FFFFFFF#32)).rptInUse r = true →
          ∃ t, exec (.hostRingDisable (32 + r) v) s = .next t ∧ (t.rptRing r).en = .enabled
          ∧ t.host.lastErr = word ((32 + r) * 256 + 4)))
    ∧ (s.host.linkUp = false → ∀ a b, ∃ t, exec (.pcieLinkUp a b) s = .next t ∧ t.host.linkUp = true)
    ∧ (s.host.linkUp = true → ∃ t, exec .pcieLinkDown s = .next t ∧ t.host.linkUp = false ∧ off t
        ∧ ∀ x, x < 3 → x < s.fab.crossings.length → t.xingStopped x = true
          ∧ (s.xingStopped x = false → getBit t.fab.xingTo x = true))
    ∧ (∃ t, exec .pcieFlr s = .next t ∧ t.host.flrSeen = true ∧ off t)
    ∧ (∀ i, up → i < 32 → s.host.funcMask = false → getBit s.host.vecPend i = true → ∃ t, exec (.msixUnmask (.vector i)) s = .next t
        ∧ Output.msix i ∈ t.out ∧ getBit t.host.vecPend i = false)
    ∧ (∀ (src key : Nat) (x : ReportTimer), s.host.timers.find? (fun y => y.is src key) = some x → x.due ≤ s.now →
        (x.held = 0 → x.held2 = 0 → exec (.reportTimerExpiry src key) s = .next { s with
          host := { s.host with timers := s.host.timers.filter (fun y => !y.is src key) } })
        ∧ (x.held ≠ 0 → exec (.reportTimerExpiry src key) s = .next (({ s with
            host := { s.host with timers := s.host.timers.map (fun (y : ReportTimer) =>
              if y.is src key then { y with held := 0, held2 := 0, due := s.now + secNs } else y) } }).raise src
                (timedParams x.pre x.two x.held x.held2))))

/-- A write to a read-only or unassigned offset does nothing; a misaligned one and a bad access set bit 0 of HOSTQ_ERR. A sealed register ignores the
write and counts it; before the seal a register without further effect stores the word as its table says, a TIME_CFG with two domains of one
number is refused, SLEW_PPM takes the running slew with it, and BYPASS_AT_START closes the legs. A write of ones to a
write-one-to-clear register clears those bits and no others. The configuration header shows its identity. A write that sets RET_EN starts
the 2 ms of each deck again. HQ_NOP is answered 0. HQ_ABORT ends a waiting order with 11, and answers 10
for one already handed over and 9 where there is none. -/
def Obligations.RegisterWritesKeepTheirAccess : Prop :=
  ∀ (s : State) (o : Nat) (v : Word) (ref : OrderRef),
    (o % 4 = 0 → accOf o = .ro ∨ accOf o = .unassigned → exec (.registerWrite o v) s = .next s)
    ∧ (o % 4 ≠ 0 → exec (.registerWrite o v) s = .next { s with host := { s.host with err := setBit s.host.err 0 } })
    ∧ exec .barBadAccess s = .next { s with host := { s.host with err := setBit s.host.err 0 } }
    ∧ (o % 4 = 0 → accOf o = .rws → s.setup.sealed = true →
        exec (.registerWrite o v) s = .next { s with host := { s.host with sealedWr := satInc s.host.sealedWr } })
    ∧ (o % 4 = 0 → accOf o = .rws → s.setup.sealed = false → (0x3000 ≤ o ∧ o < 0x7000) ∨ o = rHoldCfg →
        o ≠ rRingCfgReg → o ≠ rTimeSlew → refusedWrite o v = false →
        exec (.registerWrite o v) s = .next (s.setReg o (normReg o v)) ∧ (s.setReg o (normReg o v)).reg o = normReg o v)
    ∧ (o % 4 = 0 → s.setup.sealed = false → refusedWrite o v = true → exec (.registerWrite o v) s = .next s)
    ∧ (s.setup.sealed = false → ∃ t, exec (.registerWrite rTimeSlew v) s = .next t ∧ t.reg rTimeSlew = normReg rTimeSlew v
        ∧ ∀ x ∈ t.time.slew, x.ppm = t.slewPpm)
    ∧ (s.setup.sealed = false → ∃ t, exec (.registerWrite rRingCfgReg v) s = .next t ∧ t.reg rRingCfgReg = normReg rRingCfgReg v
        ∧ (getBit v 3 = true → s.ring.bypassReleased = false → t.ring.legsClosed = true)
        ∧ (getBit v 3 = false → t.ring = s.ring))
    ∧ (∀ c : Instr, (c = .registerWrite 0x1010 v ∨ c = .w1cWrite 0x1010 v) → exec c s = .next { s with
          host := { s.host with err := s.host.err &&& ~~~v } })
    ∧ (∀ c : Instr, (c = .registerWrite 0x1014 v ∨ c = .w1cWrite 0x1014 v) → exec c s = .next { s with
          host := { s.host with rerr0 := s.host.rerr0 &&& ~~~v } })
    ∧ (∀ c : Instr, (c = .registerWrite 0x2088 v ∨ c = .w1cWrite 0x2088 v) → exec c s = .next { s with
          fab := { s.fab with xingTo := s.fab.xingTo &&& ~~~v } })
    ∧ (∀ c : Instr, (c = .registerWrite 0x301C v ∨ c = .w1cWrite 0x301C v) → exec c s = .next { s with
          time := { s.time with txqOvf := s.time.txqOvf &&& ~~~v } })
    ∧ s.configHeader = ⟨0x1CB5, 0x4810, 0x118000, BitVec.ofNat 8 (bits (s.readBar0 0x0000).toNat 15 8), BitVec.ofNat 16 (s.readBar0 0x0004).toNat⟩
    ∧ (s.setup.sealed = false → s.fld rPaceCtl 2 2 = 0 → v.toNat / 4 % 2 = 1 → ∃ t, exec (.registerWrite rPaceCtl v) s = .next t
        ∧ t.fld rPaceCtl 2 2 = 1 ∧ ∀ d, d < 8 → d < s.fab.decks.length → t.deck d = { s.deck d with idleSince := s.now })
    ∧ (s.orderReady ref 0x0101 = true → Completes (.hqNop ref) s s ref 0x0101 0 [])
    ∧ (∀ tag gen, s.orderReady ref 0x0102 = true →
        (s.host.live.find? (fun l => l.is tag gen && !l.dead) = none → Completes (.hqAbort ref tag gen) s s ref 0x0102 9 [])
        ∧ ∀ l, s.host.live.find? (fun l => l.is tag gen && !l.dead) = some l →
          (l.handed = true → Completes (.hqAbort ref tag gen) s s ref 0x0102 10 [])
          ∧ (∀ g h, s.xingStopped 0x01 = false → l.handed = false → ref = .host g h → g ≠ tag → ∃ t, exec (.hqAbort ref tag gen) s = .next t
            ∧ Reported l l.opcode 11 [] t ∧ Answered s ref 0x0102 0 [] t))

/-- The record at the head of the queue goes to the next slot with the chain CRC; the slot before the last is followed by the log's own full
record, and the log is FULL. A freeze, before which the waiting records are written, its timeout, and the end of the drain change the state, and the drain's end is recorded. A clear whose code is the last
CRC begins; its end leaves a log that begins with NLOG_CLEARED, chained to the number of clears. At start-up the log records once its write index is found, and takes the
records of the battery store.
NLOG_SRC configures a source, NLOG_READ delivers the slots from FIRST on, and a refused order leaves the slots alone. -/
def Obligations.NotchLogCommands : Prop :=
  ∀ (s : State) (ref : OrderRef),
    let n := s.nlog
    let cmd (op : Nat) : Prop := s.orderReady ref op = true
    let keeps (c : Instr) : Prop := ∃ t, exec c s = .next t ∧ t.nlog.slots = n.slots ∧ t.nlog.clearMark = n.clearMark
      ∧ t.nlog.clears = n.clears
    (∀ x xs, (n.state = .recording ∨ n.state = .draining) → n.capturing = false → n.queue = x :: xs →
      (n.slots.length < 65534 → exec .nlogRecordWrite s = .next { s with
          nlog := { n with
            queue := xs
            drained := if n.state = .draining then n.drained + 1 else n.drained
            slots := n.slots ++ [(x, chainCrc x n.prevCrc)]
            lastCrc := chainCrc x n.prevCrc } })
      ∧ (n.slots.length = 65534 → ∃ t y, exec .nlogRecordWrite s = .next t ∧ t.nlog.state = .full ∧ y.event.source = 0xE8
          ∧ t.nlog.slots = n.slots ++ [(x, chainCrc x n.prevCrc), (y, chainCrc y (chainCrc x n.prevCrc))]))
    ∧ (∀ d, n.freezeDue = some d → n.state = .frozen → d ≤ s.now → exec .nlogFreezeTimeout s = .next { s with
          nlog := { n with
            state := .draining
            drainCode := 2
            drained := 0
            freezeDue := none } })
    ∧ (n.state = .draining → n.queue = [] → n.capturing = false → n.slots.length < 65534 → ∃ t y, exec .nlogDrainDone s = .next t
        ∧ t.nlog.state = .recording ∧ y.event.source = 0xE9 ∧ t.nlog.slots = n.slots ++ [(y, chainCrc y n.prevCrc)])
    ∧ (n.state = .clearing → n.capturing = false → n.captureDue = false → n.queue = [] → ∃ t y l, exec .nlogEraseDone s = .next t
        ∧ t.nlog.slots = (y, chainCrc y n.clears) :: l ∧ y.event.source = 0xEA ∧ t.nlog.clearMark = false
        ∧ t.nlog.state ≠ .clearing)
    ∧ (n.state = .starting → 3 < s.sup.step → n.clearMark = false → n.capture = [] → n.battRecs = [] → n.queue = [] →
        s.meter.batt.bursts ≠ 0 → n.slots.length + s.meter.batt.episodes.length + s.meter.batt.faults.length + 2 < 65534 →
        ∃ t, exec (.nlogReady [] false) s = .next t ∧ t.meter.batt.bursts = 0 ∧ t.meter.batt.episodes = []
        ∧ (∃ p ∈ t.nlog.slots, p.1.event.source = 0xA9)
        ∧ t.nlog.slots.length = n.slots.length + s.meter.batt.episodes.length + s.meter.batt.faults.length + 2)
    ∧ (n.state = .starting → 3 < s.sup.step → n.clearMark = false → n.capture = [] → n.battRecs = [] → n.queue = [] →
        s.meter.batt.bursts = 0 → n.slots.length < 65534 → ∃ t y, exec (.nlogReady [] false) s = .next t ∧ t.nlog.state = .recording
        ∧ y.event.source = 0xEB ∧ t.nlog.slots = n.slots ++ [(y, chainCrc y n.prevCrc)])
    ∧ (∀ x : NlogSrc, cmd 0x0F01 →
        (srcOk x = true → x.read = false → ∃ t, exec (.nlogSrc ref x) s = .next t
          ∧ (t.srcOf x.source).cfg = (if x.defaultRate then none else some (x.rate, x.burst))
          ∧ (t.srcOf x.source).slots = x.slots.map (fun f => (⟨f.offset, f.lsb, f.width⟩ : SnapSlot))
          ∧ Answered s ref 0x0F01 0 (s.nlogResult 0) t)
        ∧ (srcOk x = true → x.read = true → Completes (.nlogSrc ref x) s s ref 0x0F01 0 (s.nlogResult 0 ++ s.srcConfig x.source))
        ∧ (srcOk x = false → Completes (.nlogSrc ref x) s s ref 0x0F01 0 (s.nlogResult 1) ∧ keeps (.nlogSrc ref x)))
    ∧ (∀ tmo, cmd 0x0F02 → tmo ≤ 3600 →
        (n.state = .recording → s.writeWaiting.nlog.state ≠ .full → ∃ t, exec (.nlogFreeze ref 1 tmo) s = .next t ∧ t.nlog.state = .frozen
          ∧ t.nlog.slots = s.writeWaiting.nlog.slots
          ∧ t.nlog.freezeDue = if tmo = 0 then none else some (s.now + tmo * secNs))
        ∧ (n.state = .frozen → ∃ t, exec (.nlogFreeze ref 0 tmo) s = .next t ∧ t.nlog.state = .draining ∧ t.nlog.drainCode = 1
          ∧ t.nlog.slots = n.slots))
    ∧ (∀ x tmo, cmd 0x0F02 → 1 < x ∨ 3600 < tmo → Completes (.nlogFreeze ref x tmo) s s ref 0x0F02 0 (s.nlogResult 1))
    ∧ (∀ w, cmd 0x0F04 → (n.state = .recording ∨ n.state = .full →
          (w = n.lastCrc → ∃ t, exec (.nlogClear ref w) s = .next t ∧ t.nlog.state = .clearing ∧ t.nlog.clearMark = true
            ∧ t.nlog.clears = n.clears + 1 ∧ t.nlog.slots = n.slots)
          ∧ (w ≠ n.lastCrc → Completes (.nlogClear ref w) s s ref 0x0F04 0 (s.nlogResult 3) ∧ keeps (.nlogClear ref w)))
        ∧ (n.state ≠ .recording → n.state ≠ .full → Completes (.nlogClear ref w) s s ref 0x0F04 0 (s.nlogResult 2)
          ∧ keeps (.nlogClear ref w)))
    ∧ (∀ first count a, cmd 0x0F03 → first < n.slots.length → 1 ≤ count → count ≤ 4096 → a % 64 = 0 →
        let is := n.readRange first count
        is.length = min count (n.slots.length - first) ∧ (∀ i, i < is.length → is.getD i 0 = first + i)
        ∧ Completes (.nlogRead ref first count a) s s ref 0x0F03 0 [u8 0, u8 0, u16 is.length, u32 (first + is.length),
            u32 (is.filter (fun i => !n.slotOk i)).length, u32 n.slots.length]
        ∧ keeps (.nlogRead ref first count a)
        ∧ (s.xingStopped 0x01 = false → ∃ t, exec (.nlogRead ref first count a) s = .next t ∧ Output.hostData a (n.slotData is) ∈ t.out))

/-- A frame without a good tag is counted as foreign, one above 1 528 bytes is not taken. A frame of another node enters the tables; a
duplicate is dropped and counted, any other is handed on to the other port and up, as its destination says, and a request for the tablet's
address is answered. Every 2 s a supervision frame leaves with the next number; three intervals without the own frames open the ring, and
their return closes it. A node unheard for 60 s is forgotten. A link shows its state. The legs
open 2 ms after the ports are ready unless a cause holds them; a sense that differs three times, 1 ms apart, is shown. RING_BYPASS closes the legs,
empties the tables and disables the ring, but not on an ACTIVE tablet without force; without BYPASS it brings back ports that were ready.
RING_SEND sends the frame, or refuses with 1 and 2. A TX stamp enters its queue or finds it full, expires, is read in its slot of the queue's window, and is released when the host moves the head. -/
def Obligations.RingPortsAndLegs : Prop :=
  ∀ (s : State) (ref : OrderRef) (port : Nat),
    let r := s.ring
    let running : Prop := r.legsClosed = false ∧ r.en ≠ .disabled ∧ port ≤ 1
    let cmd (op : Nat) : Prop := s.orderReady ref op = true
    (∀ f : RingFrame, ringFrameMax < f.length → exec (.ringFrameRx port f) s = .next s)
    ∧ (∀ f : RingFrame, running → f.length ≤ ringFrameMax →
      (f.tagOk = false → Runs (.ringFrameRx port f) s { s with ring := { r with foreign := satInc r.foreign } })
      ∧ (f.tagOk = true → f.mac ≠ s.ringMac → r.nodes.length < nodeMax →
          let dup : Prop := ∃ e ∈ r.dups, s.now < e.heard + 400 * msNs ∧ e.mac = f.mac ∧ e.seq = f.seq
          (dup → ∃ t, exec (.ringFrameRx port f) s = .next t ∧ t.out = s.out ∧ t.ring.dupDrop = satInc r.dupDrop
            ∧ alGet t.ring.nodes f.mac = some s.now)
          ∧ (¬ dup → r.dups.length < dupMax → f.dest ≠ .others → (∀ a, f.asks = some a → s.familyUp a.v6 = true → a = s.ownIp a.v6 →
            s.xingStopped 0x04 = false → ∃ t, exec (.ringFrameRx port f) s = .next t
            ∧ Output.neighbour r.hsrSeq s.ringVlan f.mac a ∈ t.out))
          ∧ (¬ dup → r.dups.length < dupMax → f.asks = none → ∃ t, exec (.ringFrameRx port f) s = .next t ∧ alGet t.ring.nodes f.mac = some s.now
            ∧ (⟨f.mac, f.seq, s.now⟩ : DupEntry) ∈ t.ring.dups
            ∧ t.out = s.out ++ (if f.dest = .me ∨ s.fld rRingCfgReg 2 2 = 1 then [] else [.ringForward (1 - port)])
                ++ (if f.dest = .others then [] else [.ringUp port])))
      ∧ (f.tagOk = true → f.mac = s.ringMac → f.ownSupervision = true → r.ringOpen = true → r.owedA = none ∨ port = 0 →
          r.owedB = none ∨ port = 1 → Runs (.ringFrameRx port f) s { s with
            ring := { r with
              owedA := none
              owedB := none
              ringOpen := false } })
      ∧ (f.tagOk = true → f.mac = s.ringMac → f.ownSupervision = true → r.ringOpen = false → exec (.ringFrameRx port f) s = .next { s with
            ring := { r with
              owedA := if port = 0 then none else r.owedA
              owedB := if port = 0 then r.owedB else none } }))
    ∧ (∀ at_, r.supAt = some at_ → s.now < at_ + lifeCheck → exec .hsrSupervision s = .next s)
    ∧ (r.en ≠ .disabled → r.legsClosed = false → (∀ at_, r.supAt = some at_ → at_ + lifeCheck ≤ s.now) → s.xingStopped 0x04 = false → s.xingStopped 0x06 = false → exec .hsrSupervision s = .next { s with
          ring := { r with
            hsrSeq := r.hsrSeq + 1
            supAt := some s.now
            owedA := some (r.owedA.getD s.now)
            owedB := some (r.owedB.getD s.now) }
          out := s.out ++ [.supervision r.hsrSeq s.ringVlan] })
    ∧ (r.ringOpen = false → (∃ at_, (r.owedA = some at_ ∨ r.owedB = some at_) ∧ at_ + 3 * lifeCheck ≤ s.now) → Runs .ringOpenDetect s { s with
          ring := { r with
            ringOpen := true
            openCnt := satInc r.openCnt } })
    ∧ (∀ mac at_, alGet r.nodes mac = some at_ → at_ + 60 * secNs ≤ s.now → exec (.nodeForgetTime mac) s = .next { s with
          ring := { r with nodes := alDel r.nodes mac } })
    ∧ (∀ up fast, let runs := up && fast == (s.fld rRingCfgReg 0 0 == 1)
        ∃ t, exec (.linkChange 0 up fast) s = .next t ∧ t.ring.linkA = runs ∧ t.ring.spdA = (runs && fast) ∧ t.ring.linkB = r.linkB
        ∧ (runs = false → r.linkB = false → t.ring.bothDownSince = some (r.bothDownSince.getD s.now))
        ∧ (runs = true → t.ring.bothDownSince = none) ∧ t.twin.fit = t.twinFit)
    ∧ (r.ready = true → r.readyAt + 2 * msNs ≤ s.now → r.legsClosed = true → s.sup.step ≠ 6 →
        (s.legsMustClose = false → Runs .legsOpen s ({ s with
          ring := { r with
            en := .enabled
            legsClosed := false
            senseDiff := 0 } } : State).fitNow)
        ∧ (s.legsMustClose = true → exec .legsOpen s = .next s))
    ∧ (∀ b, s.now < r.senseAt + msNs → exec (.legsSenseCheck b) s = .next s)
    ∧ (r.senseAt + msNs ≤ s.now → exec (.legsSenseCheck r.legsClosed) s = .next { s with
          ring := { r with
            senseDiff := 0
            senseAt := s.now
            legsSense := r.legsClosed } })
    ∧ (r.senseDiff = 2 → r.senseAt + msNs ≤ s.now → Runs (.legsSenseCheck (!r.legsClosed)) s { s with
          ring := { r with
            senseDiff := 3
            senseAt := s.now
            legsSense := !r.legsClosed } })
    ∧ (∀ force waiting, cmd 0x0C01 → force ≤ 1 →
        (s.twin.role ≠ .active ∨ force = 1 →
          let closed : State := { s with
            ring := { r with
              bypassed := true
              en := .disabled
              legsClosed := true
              ready := false
              dups := []
              nodes := []
              owedA := none
              owedB := none
              framesRetired := if r.en = .disabled then r.framesRetired else s.framesWaiting + waiting } }
          Completes (.ringBypass ref 1 force waiting) s
            (if r.en = .disabled then closed else closed.retireAllFrames).fitNow ref 0x0C01 0 [])
        ∧ (s.twin.role = .active → Completes (.ringBypass ref 1 0 waiting) s s ref 0x0C01 3 [])
        ∧ (r.legsClosed = true → r.portsUp = true → Completes (.ringBypass ref 0 force waiting) s { s with
          ring := { r with
            bypassed := false
            bypassReleased := true
            ready := true
            readyAt := s.now } } ref 0x0C01 0 [])
        ∧ (r.legsClosed = false ∨ r.portsUp = false → Completes (.ringBypass ref 0 force waiting) s { s with
          ring := { r with
            bypassed := false
            bypassReleased := true } } ref 0x0C01 0 []))
    ∧ (∀ f : SendFrame, cmd 0x0C02 →
        let n := f.length
        (60 ≤ n → n ≤ 1514 → r.en = .enabled → s.xingStopped 0x04 = false → Completes (.ringSend ref 0 false f) s { s with
          ring := { r with hsrSeq := r.hsrSeq + 1 } } ref 0x0C02 0 [u8 0, u8 0, u16 0xFFFF, u16 0xFFFF])
        ∧ (60 ≤ n → n ≤ 1514 → r.en = .enabled → s.xingStopped 0x04 = false → ∃ t, exec (.ringSend ref 0 false f) s = .next t
          ∧ Output.frameTx 0 (some (r.hsrSeq, s.ringVlan)) (f.data.take n) ∈ t.out)
        ∧ (60 ≤ n → n ≤ 1514 → s.xingStopped 0x08 = false → ∃ t, exec (.ringSend ref 2 false f) s = .next t
          ∧ Output.frameTx 2 none (f.data.take n) ∈ t.out)
        ∧ (60 ≤ n → n ≤ 1514 → r.en ≠ .enabled → Completes (.ringSend ref 0 false f) s s ref 0x0C02 0
            [u8 2, u8 0, u16 0xFFFF, u16 0xFFFF])
        ∧ (n < 60 ∨ 1514 < n → Completes (.ringSend ref 0 false f) s s ref 0x0C02 0 [u8 1, u8 0, u16 0xFFFF, u16 0xFFFF])
        ∧ (∀ g q, 60 ≤ n → n ≤ 1514 → s.xingStopped 0x08 = false → (s.txQ 2).take s.now = some (g, q) → Completes (.ringSend ref 2 true f) s (s.setTxQ 2 q)
            ref 0x0C02 0 [u8 0, u8 0, u16 g, u16 0xFFFF]))
    ∧ (∀ q id gen, q < 3 →
        let x := s.txQ q
        let gone (l : Nat × Nat × Nat) : Bool := l.1 == id && l.2.1 == gen
        (x.live.any (fun l => gone l && decide (s.now < l.2.2)) = true → x.entries.length < 32 →
          exec (.txStampCapture q id gen) s = .next (s.setTxQ q { x with
            live := x.live.filter (fun l => !gone l), pool := x.pool.free id gen, entries := x.entries ++ [⟨id, gen, s.tai⟩] }))
        ∧ (x.live.any (fun l => gone l && decide (s.now < l.2.2)) = true → 32 ≤ x.entries.length →
          let full := s.setTxQ q { x with drop := satInc x.drop }
          Runs (.txStampCapture q id gen) s { full with time := { full.time with txqOvf := setBit s.time.txqOvf q } })
        ∧ (x.live.any gone = false → Runs (.txStampCapture q id gen) s (s.setTxQ q { x with late := satInc x.late }))
        ∧ (x.live.any (fun l => gone l && decide (l.2.2 ≤ s.now)) = true → exec (.txStampExpiry q id gen) s = .next (s.setTxQ q { x with
            live := x.live.filter (fun l => !gone l), pool := x.pool.free id gen }))
        ∧ (∀ k e, x.entries[k]? = some e → k < 32 → s.readBar4 (0x1000 * (q + 1) + 16 * ((x.head + k) % 32))
            = word (e.gen * 4096 + e.id + 2 ^ 16 * q + 2 ^ 24))
        ∧ s.readBar4 (0x1000 * (q + 1) + 0x200) = word x.head
        ∧ s.readBar4 (0x1000 * (q + 1) + 0x204) = word (x.head + x.entries.length)
        ∧ ∀ h : Word, (h - word x.head).toNat ≤ x.entries.length → exec (.txqHeadWrite q h) s = .next (s.setTxQ q { x with
            entries := x.entries.drop (h - word x.head).toNat, head := h.toNat }))

/-- A Sync of the domain that the unit follows locks it after 16 offsets below 100 ns and is slewed out; the first lock, in start-up step 7,
is the one step of the clock. An announce of the PTP timescale qualifies a domain, another one and three intervals without one unqualify it, and with no domain left a unit that has locked
enters HOLDOVER, marked long after HOLDOVER_S. The unit goes back to domain A after 60 s. Without a lock in time start-up holds, or takes
the battery clock. A slew that is done is the clock's offset. A PPS edge is checked in the slave-only role and ignored while disabled. The battery clock is written once
an hour while LOCKED; TIME_LATCH keeps the time and the state; a path delay is kept for its port, and a grandmaster announces its class. A timed output gives its pulse at its instant. -/
def Obligations.TimeUnitFollowsItsSources : Prop :=
  ∀ (s : State) (b : Bool),
    let u := s.time
    (∀ (n : Nat) (m : SyncRx), s.ptpHeard m.port = true → s.domainOf n = some b → s.gmRole = false → s.domQual b = true →
      let o := s.syncOffset m
      (u.firstLock = true → b = u.onB → ∃ t, exec (.ptpSyncRx n m) s = .next t ∧ (t.dom b).ofs = o
        ∧ t.time.goodSyncs = (if o.natAbs < 100 then u.goodSyncs + 1 else 0)
        ∧ (15 ≤ u.goodSyncs → o.natAbs < 100 → t.time.st = .locked)
        ∧ t.time.slew.map (fun (w : Slew) => (w.offset, w.ppm)) = if o = 0 then none else some (o, s.slewPpm))
      ∧ (u.firstLock = false → b = u.onB → s.sup.step = 7 → s.twinEn = true → s.sup.holdUp = false → ∃ t, exec (.ptpSyncRx n m) s = .next t
        ∧ t.time.firstLock = true ∧ t.clockOfs = s.clockOfs + o ∧ t.time.st = .acquiring
        ∧ (u.forced = none → s.domQual (!b) = false → t.time.src = domSrc b) ∧ t.sup.step = 8 ∧ t.twin.role = .negotiating)
      ∧ (u.firstLock = true → b ≠ u.onB → ∃ t, exec (.ptpSyncRx n m) s = .next t ∧ (t.dom b).ofs = o ∧ t.clockOfs = s.clockOfs
        ∧ t.time.slew = u.slew))
    ∧ (∀ (n : Nat) (m : Announce), s.ptpHeard m.port = true → s.domainOf n = some b → s.gmRole = false →
        ∃ t, exec (.ptpAnnounceRx n m) s = .next t ∧ (t.dom b).qual = m.ptpScale ∧ (m.ptpScale = true → (t.dom b).rank = m.rank
        ∧ (t.dom b).gmId = m.gmId ∧ (t.dom b).announced = s.now))
    ∧ (s.now < (s.dom b).announced + s.receiptTimeout b → exec (.announceTimeout b) s = .next s)
    ∧ ((s.dom b).announced + s.receiptTimeout b ≤ s.now → ∃ t, exec (.announceTimeout b) s = .next t ∧ (t.dom b).qual = false
        ∧ (s.gmRole = false → s.domQual (!b) = false → u.firstLock = true → t.time.st = .holdover
            ∧ (u.st ≠ .holdover → t.time.holdSince = some s.now)))
    ∧ (∀ at_, u.domA.goodSince = some at_ → u.onB = true → u.forced = none → s.fld rTimeCfg 7 7 = 1 → at_ + 60 * secNs ≤ s.now →
        s.domQual false = true → ∃ t, exec .domainRevert s = .next t ∧ t.time.onB = false ∧ t.time.src = .domA)
    ∧ (∀ at_, u.st = .holdover → u.holdSince = some at_ → u.holdLong = false → at_ + s.fld rTimeAcq 31 16 * secNs ≤ s.now →
        Runs .holdoverLong s { s with time := { u with holdLong := true } })
    ∧ (u.firstLock = false → s.sup.step = 7 → u.acqHeld = false → s.sourceQual = false → u.acqStart + s.fld rTimeAcq 15 0 * secNs ≤ s.now →
        (s.sup.battClock = none ∨ s.fld rTimeCfg 2 2 ≠ 1 → Runs .acqTimeout s { s with time := { u with acqHeld := true } })
        ∧ (∀ c, s.sup.battClock = some c → s.fld rTimeCfg 2 2 = 1 → s.twinEn = true → s.sup.holdUp = false →
          ∃ t, exec .acqTimeout s = .next t ∧ t.clockOfs = c ∧ t.time.src = .rtc ∧ t.time.st = .holdover ∧ t.time.firstLock = true))
    ∧ (∀ w, u.slew = some w → slewDone s.now w = w.offset → Runs .slewDone s { s with
          clockOfs := s.clockOfs + w.offset
          time := { u with slew := none } })
    ∧ (s.fld rPpsCtl 0 0 ≠ 1 → exec .ppsEdge s = .next s)
    ∧ (s.fld rPpsCtl 0 0 = 1 → s.xingStopped 0x0A = true → exec .ppsEdge s = .next (s.alarm 0x0C))
    ∧ (∀ e, s.fld rPpsCtl 0 0 = 1 → s.xingStopped 0x0A = false → s.gmRole = true → u.firstLock = true → u.tod = none → u.edgeSec = none →
        u.ppsLast = some e → e + secNs = s.now → ∃ t, exec .ppsEdge s = .next t ∧ t.time.src = .pps ∧ t.time.ppsQual = true
        ∧ t.time.slew.map (fun (w : Slew) => w.offset) = (let o := fromSecond (s.tai - s.fld rPpsCtl 31 16)
            if o = 0 then none else some (-o)))
    ∧ (s.fld rPpsCtl 0 0 = 1 → s.xingStopped 0x0A = false → s.gmRole = false → ∃ t, exec .ppsEdge s = .next t
        ∧ Output.crossed 0x0A ∈ t.out ∧ t.time.ppsLast = some s.now
        ∧ t.time.ppsCheck = fromSecond (s.tai - s.fld rPpsCtl 31 16)
        ∧ (∀ e, u.ppsLast = some e → e + secNs = s.now → t.time.ppsQual = true))
    ∧ (u.ppsQual = true → (∀ e, u.ppsLast = some e → e + secNs + 10 * usNs < s.now) → ∃ t, exec .ppsInLoss s = .next t ∧ t.time.ppsQual = false
        ∧ (s.gmRole = true → u.firstLock = true → t.time.st = .holdover))
    ∧ (u.ppsQual = false → exec .ppsInLoss s = .next s)
    ∧ (u.st = .locked → s.sup.battClock = none ∨ u.rtcWritten + 3600 * secNs ≤ s.now → exec .rtcWrite s = .next { s with
          sup := { s.sup with battClock := some ((s.tai : Int) - s.now) }
          time := { u with rtcWritten := s.now } })
    ∧ exec .timeLatch s = .next { s with
          time := { u with
            latchCount := u.latchCount + 1
            latchTai := s.tai
            latchState := u.st } }
    ∧ (∀ w,
        let due (p : Nat) : Prop := u.pdelayAt.getD p 0 + secNs ≤ s.now
        let asked (p : Nat) : State := s.cross (txXings p) (.ptp p none .pdelayReq)
        (s.ptpHeard 0 = true → s.gmRole = false →
          due 0 → exec (.pdelayMeasure 0 w) s = .next { asked 0 with time := { u with pdelayA := w, pdelayAt := u.pdelayAt.set 0 s.now } })
        ∧ (s.ptpHeard 1 = true → due 1 → exec (.pdelayMeasure 1 w) s = .next { asked 1 with
            time := { u with pdelayB := w, pdelayAt := u.pdelayAt.set 1 s.now } })
        ∧ (due 2 → exec (.pdelayMeasure 2 w) s = .next { asked 2 with
            time := { u with pdelayT := w, pdelayAt := u.pdelayAt.set 2 s.now } })
        ∧ (s.ptpHeard 0 = true → due 0 → s.gmRole = true → s.xingStopped 0x04 = false → ∃ t, exec (.pdelayMeasure 0 w) s = .next t
          ∧ t.time.pdelayA = w ∧ Output.ptp 3 (some s.ring.hsrSeq) (.announce (s.fld rTimeCfg 15 8) s.clockClass) ∈ t.out)
        ∧ ∀ p, 2 < p ∨ s.ptpHeard p = false ∨ ¬ due p → exec (.pdelayMeasure p w) s = .next s)
    ∧ (∀ n at_, n < 8 → (s.tout n).stands = none → (s.tout n).next = some at_ → (s.tout n).en = .enabled → at_ ≤ s.tai →
        (s.tout n).activeOnly = false → (s.tout n).late = false → exec (.toutFire n) s = .next ((({ s with
          out := s.out ++ [Output.toutPulse n at_ (s.tout n).widthNs (s.tout n).activeLow] } : State).alarm 0x0C).setTout n
            (if (s.tout n).periodic then { s.tout n with next := some (at_ + (s.tout n).periodNs), late := false }
              else { s.tout n with next := none, late := false, en := .disabled })))

/-- TOUT_SET starts a single or a periodic output, the periodic one at its first edge at least 2 µs ahead, and stops one at once; a
refused one is answered with its status and keeps the output: 3 before the first lock, 2 past the horizon. TIME_SELECT forces a domain
or frees the choice. TIME_TOD waits for the next PPS edge, and is answered 5 outside the grandmaster role. TIME_CFG writes its three
registers before the seal, and a running slew goes on at the new rate; after it only SLEW_PPM, REVERT and HOLDOVER_S change. -/
def Obligations.TimeOrdersComplete : Prop :=
  ∀ (s : State) (ref : OrderRef),
    let cmd (op : Nat) : Prop := s.orderReady ref op = true
    (∀ o : ToutSet, cmd 0x0C03 →
      let x := s.tout o.output
      let start := o.startS * secNs + o.startNs
      (s.toutStatus o = 0 → o.mode = 1 → s.tai + 2 * usNs ≤ start → x.stands = none → x.next = none →
        Completes (.toutSet ref o) s (s.setTout o.output (⟨.enabled, false, o.activeLow, o.activeOnly, some start, o.widthNs, o.periodNs, false, none⟩ : TOut)) ref 0x0C03 0 [u8 0, u8 1])
      ∧ (s.toutStatus o = 0 → o.mode = 2 → o.output < s.time.touts.length → ∃ t, exec (.toutSet ref o) s = .next t
        ∧ (t.tout o.output).next = some (firstEdge start o.periodNs (s.tai + 2 * usNs)) ∧ (t.tout o.output).periodic = true
        ∧ (t.tout o.output).en = .enabled ∧ Answered s ref 0x0C03 0 [u8 0, u8 1] t)
      ∧ (o.output ≤ 7 → o.mode = 0 → x.stands = none → x.next = none → Completes (.toutSet ref o) s
          (s.setTout o.output { x with en := .disabled }) ref 0x0C03 0 [u8 0, u8 0])
      ∧ (s.toutStatus o ≠ 0 → Completes (.toutSet ref o) s s ref 0x0C03 0 [u8 (s.toutStatus o), u8 (enCode x.en)])
      ∧ (o.output ≤ 7 → o.mode = 1 → x.en ≠ .quiescing → o.startS < 2 ^ 48 → o.startNs < secNs → 20 ≤ o.widthNs →
          (s.time.firstLock = false → s.toutStatus o = 3)
          ∧ (s.time.firstLock = true → s.tai + 1000 * secNs < start → s.toutStatus o = 2)
          ∧ (s.time.firstLock = true → start ≤ s.tai + 1000 * secNs → s.toutStatus o = 0)))
    ∧ (cmd 0x0C04 →
        (s.time.onB = false → s.domQual true = true → s.time.firstLock = false → Completes (.timeSelect ref 1) s { s with
          time := { s.time with
            forced := some true
            onB := true
            src := .domB
            goodSyncs := 0 } } ref 0x0C04 0 [u8 0, u8 0])
        ∧ (s.bEnabled = false → s.time.firstLock = false → Completes (.timeSelect ref 1) s { s with
          time := { s.time with forced := some true } } ref 0x0C04 0 [u8 0, u8 0])
        ∧ (s.bEnabled = true → ∃ t, exec (.timeSelect ref 1) s = .next t ∧ t.time.forced = some true ∧ t.time.onB = true
          ∧ Answered s ref 0x0C04 0 [u8 0, u8 0] t)
        ∧ (∃ t, exec (.timeSelect ref 0) s = .next t ∧ t.time.forced = some false ∧ t.time.onB = false
          ∧ Answered s ref 0x0C04 0 [u8 0, u8 0] t)
        ∧ (∃ t, exec (.timeSelect ref 2) s = .next t ∧ t.time.forced = none ∧ Answered s ref 0x0C04 0 [u8 0, u8 0] t)
        ∧ (∀ d, 2 < d → Completes (.timeSelect ref d) s s ref 0x0C04 0 [u8 1, u8 0]))
    ∧ (∀ v : DWord, cmd 0x0C05 →
        (s.gmRole = false → Completes (.timeTod ref v) s s ref 0x0C05 0 [u8 5, u8 0])
        ∧ (s.gmRole = true → v.toNat < 2 ^ 48 → Completes (.timeTod ref v) s { s with
          time := { s.time with tod := some v.toNat } } ref 0x0C05 0 [u8 0, u8 0]))
    ∧ (∀ a b c : Word, cmd 0x0C06 →
        let ok : Prop := timeCfgOk (timeCfgStored a.toNat) = true ∧ 1 ≤ b.toNat ∧ b.toNat ≤ 500 ∧ 10 ≤ bits c.toNat 31 16
          ∧ 5 ≤ bits c.toNat 15 0 ∧ bits c.toNat 15 0 ≤ 3600
        (ok → s.setup.sealed = false → ∃ t, exec (.timeCfg ref a b c) s = .next t ∧ t.reg rTimeCfg = word (timeCfgStored a.toNat)
          ∧ t.reg rTimeSlew = b ∧ t.reg rTimeAcq = c ∧ (∀ x ∈ t.time.slew, x.ppm = t.slewPpm) ∧ Answered s ref 0x0C06 0 [u8 0, u8 0] t)
        ∧ (ok → s.setup.sealed = true → ∃ t, exec (.timeCfg ref a b c) s = .next t ∧ t.reg rTimeSlew = b
          ∧ t.fld rTimeAcq 31 16 = bits c.toNat 31 16 ∧ t.fld rTimeAcq 15 0 = s.fld rTimeAcq 15 0
          ∧ t.fld rTimeCfg 6 0 = s.fld rTimeCfg 6 0 ∧ t.fld rTimeCfg 31 8 = s.fld rTimeCfg 31 8
          ∧ Answered s ref 0x0C06 0 [u8 0, u8 0] t)
        ∧ (¬ ok → Completes (.timeCfg ref a b c) s s ref 0x0C06 0 [u8 1, u8 0]))

/-- A tablet's heartbeat leaves as a frame with its house, epoch, role and checksum, one every 100 µs, and none in hold-up, without a beam or a house. One that is not
good, of another house, of a reserved house or epoch or of an epoch older than the highest accepted is discarded and counted, and the ring path is silent while the ring is DISABLED. A SOLO tablet takes no part, but steps past a newer epoch that it hears. A NEGOTIATING tablet joins an ACTIVE one, or wins or loses
by the ranking, the winner with a new epoch. A STANDBY follows its ACTIVE, drops its
verdict on an image when that one leaves the role, becomes ISOLATED when that one leaves and ACTIVE when it hands
over to a FIT one. An ACTIVE that hears a newer epoch steps down and takes it; of two with one epoch the higher ranked takes a new one.
An ISOLATED tablet joins an ACTIVE. Silence on both paths makes a FIT STANDBY ACTIVE and another one ISOLATED; no partner in time makes a
negotiating tablet ACTIVE. TWIN_CTL makes an ACTIVE SOLO and a STANDBY ISOLATED, and lets a SOLO one negotiate; TWIN_SWITCH asks for
a handover; TWIN_PROMOTE makes an ISOLATED tablet ACTIVE, and any other is answered 2. -/
def Obligations.TwinRolesFollowTheHeartbeats : Prop :=
  ∀ (s : State) (p : TwinPath) (h : Heartbeat) (ref : OrderRef),
    let w := s.twin
    let c : Instr := .heartbeatRx p h
    let valid : Prop := h.good = true ∧ h.house.toNat = s.houseId ∧ h.house ≠ 0 ∧ h.house ≠ 0xFFFF ∧ h.epoch ≠ 0
      ∧ epochRel w.accepted h.epoch ≠ .older
    let listens : Prop := s.phyOff = false ∧ (p = .ring → s.ring.en ≠ .disabled)
    let took : Twin := { w with accepted := epochMax w.accepted h.epoch }
    let heard : Prop := valid ∧ listens ∧ 8 ≤ s.sup.step
    let discarded (t : State) : Prop := t = { s with twin := { w with discards := satInc w.discards } }
    let becomes (c : Instr) (r : TwinRole) (e : Half) : Prop := ∃ t, exec c s = .next t ∧ t.twin.role = r ∧ t.twin.epoch = e
    let cmd (op : Nat) : Prop := s.orderReady ref op = true
    (w.role ≠ .solo → s.houseId ≠ 0 → 8 ≤ s.sup.step → w.en ≠ .disabled → s.phyOff = false → w.hbAt + 100 * usNs ≤ s.now →
        ∃ t, exec .heartbeatSend s = .next t
      ∧ t.twin = { w with
          hbAt := s.now
          hbSeqT := w.hbSeqT + 1
          hbSeqR := if s.ring.en = .disabled then w.hbSeqR else w.hbSeqR + 1 }
      ∧ (s.xingStopped 0x08 = false → ∃ body, Output.heartbeat 0 body ∈ t.out
        ∧ body.take 3 = [u16 s.houseId, u16 w.epoch.toNat, u8 (roleCode w.role)]
        ∧ Output.twinFrame s.peerMac none (s.twinPayload 1 w.hbSeqT (layNet (body.drop 6))) ∈ t.out))
    ∧ (s.phyOff = true → exec .heartbeatSend s = .next s ∧ exec c s = .next s)
    ∧ (s.now < w.hbAt + 100 * usNs → exec .heartbeatSend s = .next s)
    ∧ (s.houseId = 0 → exec .heartbeatSend s = .next s)
    ∧ (p = .ring → s.ring.en = .disabled → exec c s = .next s)
    ∧ (listens → h.good = false → ∃ t, exec c s = .next t ∧ discarded t)
    ∧ (listens → h.good = true → h.house.toNat = s.houseId → h.house = 0 ∨ h.house = 0xFFFF ∨ h.epoch = 0 ∨ epochRel w.accepted h.epoch = .older →
        ∃ t, exec c s = .next t ∧ discarded t)
    ∧ (listens → h.good = true → h.house.toNat ≠ s.houseId → Runs c s { s with twin := { w with discards := satInc w.discards } })
    ∧ (valid → listens → s.sup.step < 8 → exec c s = .next { s with twin := took })
    ∧ (heard → w.role = .solo → (epochRel w.epoch h.epoch ≠ .newer → exec c s = .next { s with twin := took })
        ∧ (epochRel w.epoch h.epoch = .newer → w.contestedUntil = none → w.adoptions = [] → becomes c .solo (epochStep h.epoch)))
    ∧ (heard → w.role = .standby → h.role ≠ .active → ∃ t, exec c s = .next t ∧ t.twin.role = .standby ∧ t.model.mirrorReady = none)
    ∧ (heard → w.role = .negotiating →
        (h.role = .active → becomes c .standby h.epoch)
        ∧ (h.role = .negotiating → s.outranks s.negFit h = true → becomes c .active (epochStep (epochMax w.e0 h.epoch)))
        ∧ (h.role = .negotiating → s.outranks s.negFit h = false → becomes c .standby w.epoch))
    ∧ (heard → w.role = .standby → h.role = .active →
        (h.leaving = true → ∃ t, exec c s = .next t ∧ t.twin.role = .isolated)
        ∧ (h.leaving = false → h.handover = true → s.negFit = true → w.unsynced = false → h.modelRev = word s.modelRev →
            h.tallyRev = word s.tallyRev → ∃ t, exec c s = .next t ∧ t.twin.role = .active
            ∧ t.twin.promotions = satInc w.promotions)
        ∧ (h.leaving = false → h.handover = false → epochRel w.epoch h.epoch = .newer → becomes c .standby h.epoch))
    ∧ (heard → w.role = .active → w.epoch ≠ 0 →
        (epochRel w.epoch h.epoch = .newer → becomes c .standby h.epoch)
        ∧ (h.role = .active → h.epoch = w.epoch → s.outranks s.negFit h = true → becomes c .active (epochStep w.epoch))
        ∧ (h.role = .active → h.epoch = w.epoch → s.outranks s.negFit h = false → becomes c .standby w.epoch))
    ∧ (heard → w.role = .isolated → h.role = .active → h.leaving = false → w.en = .enabled → becomes c .standby h.epoch)
    ∧ (∀ (y : Partner) (at_ : Nat), w.partner = some y → y.lastT = some at_ → at_ + 300 * usNs ≤ s.now → w.pathT = true →
        (w.pathR = true → Runs (.pathSilent .twin) s { s with
          twin := { w with
            pathT := false
            lostT := true
            emitOk := false
            pathLostT := satInc w.pathLostT } })
        ∧ (w.pathR = false → w.role = .standby → s.twinFit = true → ∃ t, exec (.pathSilent .twin) s = .next t
          ∧ t.twin.role = .active ∧ t.twin.epoch = epochStep (epochMax w.epoch w.heard))
        ∧ (w.pathR = false → w.role = .standby → s.twinFit = false → becomes (.pathSilent .twin) .isolated w.epoch)
        ∧ (w.pathR = false → w.role = .active → becomes (.pathSilent .twin) .active w.epoch))
    ∧ (∀ at_, w.negSince = some at_ → w.role = .negotiating → w.partner = none → at_ + s.fld rTwinCfg 31 16 * msNs ≤ s.now →
        becomes .negotiationTimeout .active (epochStep w.e0))
    ∧ (∀ at_, s.ring.bothDownSince = some at_ → w.role = .active → s.fld rTwinCfg 2 2 = 1 → s.partnerFit = true →
        at_ + s.fld rTwinCfg 15 8 * msNs ≤ s.now → exec .ringLossHandover s = .next { s with twin := { w with handover := true } })
    ∧ (∀ retired, cmd 0x0D01 →
        (w.en = .enabled → w.role = .active → ∃ t, exec (.twinCtl ref 0 retired) s = .next t ∧ t.twin.role = .solo
          ∧ t.twin.en = .disabled ∧ Answered s ref 0x0D01 0 [u8 0, u8 (roleCode .solo), u8 0] t)
        ∧ (w.en = .enabled → w.role = .standby → ∃ t, exec (.twinCtl ref 0 retired) s = .next t ∧ t.twin.role = .isolated
          ∧ t.twin.en = .disabled)
        ∧ (w.en = .disabled → w.role = .solo → 8 ≤ s.sup.step → ∃ t, exec (.twinCtl ref 1 retired) s = .next t
          ∧ t.twin.role = .negotiating ∧ t.twin.en = .enabled)
        ∧ (w.en = .enabled → Completes (.twinCtl ref 1 retired) s s ref 0x0D01 0 [u8 0, u8 (roleCode w.role), u8 1]))
    ∧ (cmd 0x0D02 → w.role = .active →
        (s.partnerFit = true → Completes (.twinSwitch ref) s { s with twin := { w with handover := true } } ref 0x0D02 0
          [u8 0, u8 (roleCode .active), u8 (enCode w.en)])
        ∧ (s.partnerFit = false → Completes (.twinSwitch ref) s s ref 0x0D02 0 [u8 1, u8 (roleCode .active), u8 (enCode w.en)]))
    ∧ (cmd 0x0D03 → (w.role = .isolated → becomes (.twinPromote ref) .active (epochStep (epochMax w.epoch w.heard)))
        ∧ (w.role ≠ .isolated → Completes (.twinPromote ref) s s ref 0x0D03 0 [u8 2, u8 (roleCode w.role), u8 (enCode w.en)]))

/-- A MIRROR frame is not heard while the PHYs are off, and checked as a heartbeat is: not good, of another house, of a reserved house or epoch or of an older epoch it is discarded
and counted. One of a newer epoch makes an ACTIVE step down. The records of an ACTIVE change nothing but the epochs heard and accepted on a
tablet that is not STANDBY with the twin function enabled, and the epoch it negotiates from on one that negotiates;
METER, VERDICT and MARK change nothing else on a SOLO one. On a STANDBY each record
notes its last frame's sequence number, and one that skips numbers before its first frame asks for a resync. A station frame of this tablet's epoch leaves byte for byte, one
of another epoch is discarded; an object's copy goes to the controller. Loop values, the snapshot, a plan, a rollout, a context, Tally
ranges, a twin's meter block and a part of an image are held, and a record with a reserved code is discarded; the standby's verdict lets a load go on;
the mark of a loaded program makes its bank the running one; the end of a resync without a gap clears UNSYNCED. -/
def Obligations.MirrorRecordsAreApplied : Prop :=
  ∀ (s : State) (r : MirrorHdr),
    let w := s.twin
    let seq := r.seq
    let first := r.first
    let valid : Prop := s.phyOff = false ∧ r.good = true ∧ r.house.toNat = s.houseId ∧ r.house ≠ 0 ∧ r.house ≠ 0xFFFF ∧ r.epoch ≠ 0
      ∧ epochRel w.accepted r.epoch ≠ .older
    let follows : Prop := valid ∧ w.role = .standby ∧ w.en = .enabled
    let paired : Prop := valid ∧ w.role ≠ .solo ∧ w.en = .enabled ∧ (w.role = .active → epochRel w.epoch r.epoch ≠ .newer)
    let standbyRecord (c : Instr) : Prop :=
      ∃ (st n o a k q : Nat) (tick : Word) (f g : F32) (bs : List Byte) (ok : Bool),
        c = .mirrorEmitStn r st bs ∨ c = .mirrorEmitFbus r n o a bs ∨ c = .mirrorLoopOut r n f g ∨ c = .mirrorSnapshot r k tick q bs
        ∨ c = .mirrorTally r a o bs ∨ c = .mirrorPlan r bs ∨ c = .mirrorRollout r bs ∨ c = .mirrorContext r bs
        ∨ c = .mirrorImage r a o n bs ok ∨ c = .mirrorResync r a n
    let twinRecord (c : Instr) : Prop :=
      ∃ (a b : Nat) (v : Word) (bs : List Byte), c = .mirrorMeter r a b bs ∨ c = .mirrorVerdict r a b ∨ c = .mirrorMark r a v
    let discards (c : Instr) : Prop := ∃ t, exec c s = .next t ∧ t.twin.discards = satInc w.discards
    (∀ c, standbyRecord c ∨ twinRecord c →
        (s.phyOff = true → exec c s = .next s)
        ∧ (s.phyOff = false → r.good = false → exec c s = .next { s with twin := { w with discards := satInc w.discards } })
        ∧ (s.phyOff = false → r.good = true → r.house.toNat = s.houseId →
            r.house = 0 ∨ r.house = 0xFFFF ∨ r.epoch = 0 ∨ epochRel w.accepted r.epoch = .older →
            exec c s = .next { s with twin := { w with discards := satInc w.discards } })
        ∧ (s.phyOff = false → r.good = true → r.house.toNat ≠ s.houseId → Runs c s { s with twin := { w with discards := satInc w.discards } })
        ∧ (valid → w.role = .active → epochRel w.epoch r.epoch = .newer →
            ∃ t, exec c s = .next t ∧ t.twin.role = .standby ∧ t.twin.epoch = r.epoch)
        ∧ (valid → epochRel w.epoch r.epoch ≠ .newer →
            (standbyRecord c ∧ ¬ (w.role = .standby ∧ w.en = .enabled)) ∨ w.role = .solo →
            exec c s = .next { s with twin := { w with
              accepted := epochMax w.accepted r.epoch
              heard := epochMax w.heard r.epoch
              e0 := if w.role = .negotiating then epochMax w.e0 r.epoch else w.e0 } }))
    ∧ (∀ (n : Nat) (l : Loop) (f g : F32), follows → s.loopOf n = some l → ∃ t k, exec (.mirrorLoopOut r n f g) s = .next t
        ∧ t.loopOf n = some k ∧ k.track = f ∧ k.sp = g ∧ k.out = l.out ∧ t.twin.mirrorRx = seq ∧ t.twin.lastMirror = s.now
        ∧ t.twin.heard = epochMax w.heard r.epoch
        ∧ (first ≠ w.mirrorRx → first ≠ w.mirrorRx + 1 → t.twin.unsynced = true ∧ t.twin.resyncReq = true)
        ∧ (first = w.mirrorRx + 1 → t.twin.unsynced = w.unsynced ∧ t.twin.resyncReq = w.resyncReq))
    ∧ (∀ (id : Nat) (c : Ctx) (bs : List Byte), follows → s.ctxOf id = some c → c.cfg.station = id → s.ring.en ≠ .disabled →
        s.familyOn c.cfg = true → (c.en = .disabled → discards (.mirrorEmitStn r id bs)) ∧ (c.en ≠ .disabled →
        (netAt bs 6 2 = w.epoch.toNat → s.xingStopped 0x04 = false → s.xingStopped 0x06 = false →
          ∃ t, exec (.mirrorEmitStn r id bs) s = .next t ∧ t.out = s.out ++ [.stnFrame id (s.stnHdr c.cfg) bs]
          ∧ t.twin.emitOk = true ∧ t.ring.hsrSeq = s.ring.hsrSeq + 1)
        ∧ (netAt bs 6 2 ≠ w.epoch.toNat → ∃ t, exec (.mirrorEmitStn r id bs) s = .next t ∧ t.out = s.out
          ∧ t.twin.discards = satInc w.discards)))
    ∧ (∀ (b o z : Nat) (x : TxCfg) (bs : List Byte), follows → ((s.bus b).txObj o).cfg = some x → b < 2 → o < 32 → r.epoch = w.epoch →
        s.driven = true → (s.bus b).en = .enabled → (s.bus b).estate = .active → s.xingStopped (busXing b) = false →
        (∀ g ∈ (s.bus b).frames, g.object ≠ o) → ∃ t g, exec (.mirrorEmitFbus r b o z bs) s = .next t
          ∧ (t.bus b).frames = (s.bus b).frames ++ [g] ∧ g.object = o ∧ g.data = (padTo 64 bs).take x.len)
    ∧ (∀ b o z bs, follows → r.epoch ≠ w.epoch → discards (.mirrorEmitFbus r b o z bs))
    ∧ (∀ solve tick first bs, follows → ∃ t m, exec (.mirrorSnapshot r solve tick first bs) s = .next t
        ∧ t.reck.mirrorSnap = some m ∧ m.1 = solve)
    ∧ (∀ start bs, follows → ∃ t, exec (.mirrorTally r 3 start bs) s = .next t
        ∧ t.tally.words = Mem.writes s.tally.words start bs ∧ t.tally.pubWords = Mem.writes s.tally.pubWords start bs
        ∧ t.tally.markers = s.tally.markers)
    ∧ (∀ start bs, follows → ∃ t, exec (.mirrorTally r 2 start bs) s = .next t
        ∧ t.tally.markers = Mem.writes s.tally.markers start bs ∧ t.tally.words = s.tally.words)
    ∧ (∀ area start bs, follows → area = 0 ∨ area = 7 ∨ (9 < area ∧ area ≠ 0xFF) → discards (.mirrorTally r area start bs))
    ∧ (∀ bs, follows → (planCodesOk bs = true → ∃ t, exec (.mirrorPlan r bs) s = .next t
          ∧ (t.layer (if netAt bs 4 1 = 0 then .day else .pressure)).plan = some (planIn bs)
          ∧ (t.layer (if netAt bs 4 1 = 0 then .day else .pressure)).coldNext = false)
        ∧ (planCodesOk bs = false → discards (.mirrorPlan r bs)))
    ∧ (∀ bs, follows → let known : Prop := netAt bs 2 1 ≤ 2 ∧ netAt bs 5 1 ≤ 11 ∧ ∀ p ∈ rollItems bs, p.1.kind ≤ 10
        (3 ≤ netAt bs 4 1 → netAt bs 4 1 ≤ 6 → known → ∃ t, exec (.mirrorRollout r bs) s = .next t
          ∧ t.roll.mirror = s.roll.mirror.filter (fun x => x.id != netAt bs 0 2))
        ∧ (6 < netAt bs 4 1 ∨ ¬ known → discards (.mirrorRollout r bs)))
    ∧ (∀ (id : Nat) (c : Ctx) (bs : List Byte), follows → id = netAt bs 0 2 → s.ctxOf id = some c → c.cfg.station = id →
        (netAt bs 2 1 ≤ 4 → netAt bs 3 1 ≤ 2 → ∃ t k, exec (.mirrorContext r bs) s = .next t ∧ t.ctxOf id = some k
          ∧ enOfCode (netAt bs 3 1) = some k.en ∧ ctxStOf (netAt bs 2 1) = some k.st ∧ k.outImg = padTo 64 (bs.drop 32) ∧ k.rxSeq = BitVec.ofNat 32 (netAt bs 0xC 4)
          ∧ (BitVec.ofNat 32 (netAt bs 8 4) ≠ 0 → k.txSeq = some (BitVec.ofNat 32 (netAt bs 8 4))))
        ∧ (4 < netAt bs 2 1 ∨ 2 < netAt bs 3 1 → discards (.mirrorContext r bs)))
    ∧ (∀ set bs, paired → set ≤ 2 → bs.length = 128 → netAt bs 0 2 ≤ 11 → s.circ (netAt bs 0 2) = none →
        ∃ t y, exec (.mirrorMeter r 0 set bs) s = .next t ∧ t.circ (netAt bs 0 2) = some y ∧ y.mirrored = true)
    ∧ (∀ kind set bs, paired → 1 < kind ∨ 2 < set → discards (.mirrorMeter r kind set bs))
    ∧ (∀ total bs ok, follows → bs.length < total → ∃ t, exec (.mirrorImage r 0 0 total bs ok) s = .next t
        ∧ t.model.mirrorIn = bs)
    ∧ (∀ image o n bs ok, follows → 1 < image → discards (.mirrorImage r image o n bs ok))
    ∧ (∀ bs, follows → (tallyChecks bs bs.length s.houseId s.fuse).1 = 0 →
        ∃ t, exec (.mirrorImage r 1 0 bs.length bs true) s = .next t ∧ t.tally.loaded = true
        ∧ t.tally.banks = s.tally.banks.set s.spareBank ⟨bs, 0⟩)
    ∧ (∀ l, paired → s.tally.load = some l → l.stage = .mirroring → ∃ t, exec (.mirrorVerdict r 1 0) s = .next t
        ∧ t.tally.load = some { l with stage := .writing })
    ∧ (∀ v, follows → s.tally.loaded = true → word (u32At (s.tally.banks.getD s.spareBank default).bytes 0x0C) = v →
        ∃ t, exec (.mirrorMark r 1 v) s = .next t ∧ t.tally.bank = s.spareBank ∧ t.tally.loaded = false)
    ∧ (∀ n, follows → (first = w.mirrorRx ∨ first = w.mirrorRx + 1) →
        (∃ t, exec (.mirrorResync r 0 n) s = .next t ∧ t.twin.resyncGap = false ∧ t.twin.resyncSince = some s.now)
        ∧ (w.resyncGap = false → ∃ t, exec (.mirrorResync r 1 n) s = .next t ∧ t.twin.unsynced = false
          ∧ t.twin.resyncReq = false))

/-- A running panel programs its lowest dirty line with currents that never exceed the limit, then the next one, and ends the sweep after
the last; a quiescing panel goes dark. A staged rectangle is committed whole and its lines become dirty; the refresh makes the next line
dirty at its time; a blink boundary samples its plane. Each of the panel's instants comes when its period has passed, and nothing
happens before. A programmed line holds its currents; stress adds up by whole units,
carries the rest, and is saved but not in hold-up. The second open reading of the crack loop makes the
panel CRACKED, dark and DISABLED; with the loop disabled nothing follows. PANEL_WRITE stages, PANEL_MASK, PANEL_CURVE and PANEL_SET store,
and PANEL_CTL switches the panel on with every line dirty, or dark and off; a cracked panel and the hold-up refuse. What DETAIL holds
is not stated: a free value. -/
def Obligations.PanelShowsAndProtects : Prop :=
  ∀ (s : State) (ref : OrderRef),
    let p := s.panel
    let cmd (op : Nat) : Prop := s.orderReady ref op = true
    let said (u : State) (st : Nat) : List Fld := [u8 st, u8 (enCode u.panel.en), u16 (Config.freeWord 4 s.freeCnt).toNat]
    let dark (c : Instr) : Prop := ∃ t, exec c s = .next t ∧ t.panel.pnlEn = false ∧ t.panel.pnlDis = true
      ∧ t.panel.en = .disabled ∧ Output.panelBlank ∈ t.out
    let half : Nat := s.tai / (s.fld (rBlinkCtl 0) 29 16 * (5 * msNs))
    let aged : Prop := p.ageAt + 60 * secNs ≤ s.now
    let saveDue : Prop := p.savedAt + 3600 * secNs ≤ s.now
    let readDue : Prop := p.crackAt + 100 * msNs ≤ s.now
    let bumped (q : Panel) : State := { s with
      panel := q
      freeCnt := s.freeCnt + 1 }
    (p.sweepAt ≠ none → s.now < p.lineAt + s.lineNs → exec .panelLineProgram s = .next s)
    ∧ (∀ y ys, p.dirty = y :: ys → p.en = .enabled → s.panelRuns = true → p.sweepAt = none → ∃ t cs, exec .panelLineProgram s = .next t
      ∧ t.panel.sweepAt = some y ∧ t.panel.lineAt = s.now ∧ t.panel.dirty = p.dirty.filter (fun z => z != y) ∧ t.panel.lines = satInc p.lines
      ∧ Output.panelLine (if s.fld rPanelCfg 30 30 = 1 then s.panelHeight - 1 - y else y) cs ∈ t.out
      ∧ alGet t.panel.held y = some (s.now, cs) ∧ cs.length = 3 * s.panelWidth ∧ ∀ v ∈ cs, fLt (fc 20000 1) v = false)
    ∧ (∀ y, p.dirty = [] → p.en = .enabled → s.panelRuns = true → p.sweepAt = some y → p.lineAt + s.lineNs ≤ s.now →
        exec .panelLineProgram s = .next (({ s with
          panel := { p with
            sweepAt := none
            sweeps := p.sweeps + 1 } } : State).alarm 0x13))
    ∧ (p.en = .quiescing → p.lineAt + s.lineNs ≤ s.now → dark .panelLineProgram)
    ∧ (∀ x xs, p.staged = x :: xs → ∃ t, exec .panelWriteCommit s = .next t ∧ t.panel.staged = xs
        ∧ t.panel.buf = putRows x.rect x.rect.h p.buf (padTo (x.rect.w * x.rect.h * 3) x.data)
        ∧ (∀ y, x.rect.y ≤ y → y < x.rect.y + x.rect.h → y < s.panelHeight → y ∈ t.panel.dirty)
        ∧ Answered s x.ref 0x1001 0 (said s 0) t)
    ∧ (s.now < p.refreshAt + s.refreshNs → exec .panelRefreshTick s = .next s)
    ∧ (p.refreshAt + s.refreshNs ≤ s.now → ∃ t, exec .panelRefreshTick s = .next t ∧ t.panel.refreshLine = (p.refreshLine + 1) % s.panelHeight
        ∧ (p.refreshLine < s.panelHeight → p.refreshLine ∈ t.panel.dirty))
    ∧ (p.blink0 = some half → exec (.blinkHalfPeriod 0) s = .next s)
    ∧ (p.blink0 ≠ some half → ∃ t, exec (.blinkHalfPeriod 0) s = .next t ∧ t.panel.blink0 = some half
        ∧ t.panel.half0 = (half % 2 == 1)
        ∧ t.panel.act0 = (s.fld (rBlinkCtl 0) 31 31 == 1
            && (s.fld (rBlinkCtl 0) 30 30 == 0 || s.pubMarker (s.fld (rBlinkCtl 0) 15 0)))
        ∧ t.panel.act1 = p.act1)
    ∧ (¬ aged → ∀ g, exec (.panelAgeUpdate g) s = .next s)
    ∧ (aged → ∀ x : Stress, x.block < 510 → x.primary < 3 → ∃ t, exec (.panelAgeUpdate (some [x])) s = .next t
        ∧ alGet t.panel.stress (3 * x.block + x.primary)
            = some (min ((alGet p.stress (3 * x.block + x.primary)).getD 0 + x.add) 0xFFFFFFFF))
    ∧ (aged → ∀ k n, p.held = [] → p.carried = [(k, n)] → k < 1530 → ∃ t, exec (.panelAgeUpdate none) s = .next t
        ∧ alGet t.panel.stress k = some (min ((alGet p.stress k).getD 0 + n / s.stressUnit (k / 3)) 0xFFFFFFFF)
        ∧ t.panel.carried = [(k, n % s.stressUnit (k / 3))])
    ∧ (∀ ok, (s.sup.holdUp = false → saveDue → exec (.panelStressSave ok) s = .next { s with
          panel := { p with
            saves := (p.stress, ok) :: p.saves.take 1
            savedAt := s.now } })
        ∧ (s.sup.holdUp = true ∨ ¬ saveDue → exec (.panelStressSave ok) s = .next s))
    ∧ (∀ b, s.fld rPanelCfg 31 31 = 0 ∨ ¬ readDue → exec (.crackCheck b) s = .next s)
    ∧ (s.fld rPanelCfg 31 31 = 1 → readDue → (p.crackRun = 0 → exec (.crackCheck true) s = .next { s with
          panel := { p with
            crackOpen := true
            crackRun := 1
            crackAt := s.now } })
        ∧ (p.crackRun = 1 → p.st ≠ .cracked → dark (.crackCheck true)
          ∧ ∃ t, exec (.crackCheck true) s = .next t ∧ t.panel.st = .cracked)
        ∧ exec (.crackCheck false) s = .next { s with
          panel := { p with
            crackOpen := false
            crackRun := 0
            crackAt := s.now } })
    ∧ (∀ (r : Rect) (data : List Byte), cmd 0x1001 →
        (s.panelRefusal ref true = 0 → s.rectOk r = true → Runs (.panelWrite ref r data) s { s with
          panel := { p with staged := p.staged ++ [⟨ref, r, data⟩] } })
        ∧ (p.st = .cracked → Completes (.panelWrite ref r data) s (bumped p) ref 0x1001 0 (said s 3))
        ∧ (s.panelRefusal ref true = 0 → s.rectOk r = false →
            Completes (.panelWrite ref r data) s (bumped p) ref 0x1001 0 (said s 1)))
    ∧ (∀ (r : Rect) (data : List Byte), cmd 0x1002 → p.en = .enabled → s.rectOk r = true →
        Completes (.panelMask ref 0 r data) s (bumped { p with mask0 := maskRows r data r.h p.mask0 }) ref 0x1002 0 (said s 0)
        ∧ Completes (.panelMask ref 1 r data) s (bumped { p with mask1 := maskRows r data r.h p.mask1 }) ref 0x1002 0 (said s 0)
        ∧ Completes (.panelMask ref 2 r data) s (bumped p) ref 0x1002 0 (said s 1))
    ∧ (∀ l : List Nat, cmd 0x1003 →
        (curveOk l = true → Completes (.panelCurve ref 0 l) s (bumped { p with curve0 := some l }) ref 0x1003 0 (said s 0)
          ∧ Completes (.panelCurve ref 2 l) s (bumped { p with curve2 := some l }) ref 0x1003 0 (said s 0))
        ∧ (curveOk l = false → Completes (.panelCurve ref 0 l) s (bumped p) ref 0x1003 0 (said s 1)))
    ∧ (∀ x : PanelSet, cmd 0x1004 → x.bright ≤ 255 → x.alt0.toNat < 2 ^ 18 → x.alt1.toNat < 2 ^ 18 →
        ∃ t, exec (.panelSet ref x) s = .next t ∧ t.reg rPanelBright = word x.bright ∧ t.reg (rBlinkAlt 0) = x.alt0
        ∧ t.reg (rBlinkAlt 1) = x.alt1 ∧ t.reg (rBlinkCtl 0) = normBlinkCtl x.ctl0 ∧ Answered s ref 0x1004 0 (said s 0) t)
    ∧ (cmd 0x1005 →
        (p.st ≠ .cracked → s.sup.holdUp = false → p.en = .disabled → ∃ t, exec (.panelCtl ref 1) s = .next t ∧ t.panel.en = .enabled
          ∧ t.panel.st = .running ∧ t.panel.pnlEn = true ∧ (∀ y, y < s.panelHeight → y ∈ t.panel.dirty)
          ∧ Answered s ref 0x1005 0 (said t 0) t)
        ∧ (p.st = .cracked → Completes (.panelCtl ref 1) s (bumped p) ref 0x1005 0 (said s 3))
        ∧ (p.st ≠ .cracked → s.sup.holdUp = true → Completes (.panelCtl ref 1) s (bumped p) ref 0x1005 0 (said s 5))
        ∧ (p.en = .enabled → p.sweepAt = none → p.staged = [] → dark (.panelCtl ref 0))
        ∧ (∀ y, p.en = .enabled → p.sweepAt = some y → p.staged = [] →
            Completes (.panelCtl ref 0) s (bumped { p with en := .quiescing }) ref 0x1005 0 [u8 0, u8 2,
              u16 (Config.freeWord 4 s.freeCnt).toNat]))

/-- An accepted update starts with its energy check, or waits in place of the one that waited, which is answered 7. Energy below the
update's need and the reserve ends it with 4 and nothing is driven; else the mark is driven and the in-progress flag set. MARK, DRIVE
and UNMARK drive the differing segments and end in REST, each after its duration; its end shows the image, counts it and answers 0. A full update drives every segment.
After the power-fail warning an update is answered 5. TAG_CTL enables, and disables at once with no update running, else at its end. -/
def Obligations.TagUpdatesPhaseByPhase : Prop :=
  ∀ (s : State) (ref : OrderRef),
    let t := s.tag
    let cmd (op : Nat) : Prop := s.orderReady ref op = true
    let free : Nat := (Config.freeWord 5 s.freeCnt).toNat
    let all : DWord := ~~~seg63
    (∀ (img : DWord) (flags : Nat), cmd 0x1006 → img.getLsbD 63 = false → flags ≤ 1 →
      let u : TagUpd := ⟨some ref, img, flags == 1, false⟩
      (t.powerFail = false → t.en = .enabled → t.run = none → Runs (.tagUpdate ref img flags) s { s with
          tag := { t with
            phase := .check
            phaseAt := s.now
            pulse := s.fld rTagCfg 9 0
            run := some u
            wait := none } })
      ∧ (∀ x, t.powerFail = false → t.en = .enabled → t.run = some x → t.wait = none → Runs (.tagUpdate ref img flags) s { s with
          tag := { t with wait := some u } })
      ∧ (∀ x w other, t.powerFail = false → t.en = .enabled → t.run = some x → t.wait = some w → w.ref = some other → other ≠ ref →
          ∃ z, exec (.tagUpdate ref img flags) s = .next z ∧ z.tag.wait = some u
          ∧ Answered s other 0x1006 0 [u8 7, u8 1, u16 free] z)
      ∧ (t.powerFail = true → Completes (.tagUpdate ref img flags) s { s with freeCnt := s.freeCnt + 1 } ref 0x1006 0
          [u8 5, u8 (enCode t.en), u16 free])
      ∧ (t.powerFail = false → t.en = .quiescing → Completes (.tagUpdate ref img flags) s { s with freeCnt := s.freeCnt + 1 } ref
          0x1006 0 [u8 2, u8 2, u16 free]))
    ∧ (∀ (u : TagUpd) (raw : Nat), t.run = some u → t.phase = .check → t.en = .enabled → t.phaseAt ≤ s.now →
        let need := tagMj t.pulse u.full
        let e := s.usableMj (s.sensed 1 raw).2
        (need + reserveMj ≤ e → ∃ z, exec (.tagPhaseEnd raw) s = .next z ∧ z.tag.phase = .mark ∧ z.tag.flag = true
          ∧ z.tag.wanted = u.image ∧ z.tag.energyLow = false ∧ Output.tagDrive seg63 0 ∈ z.out)
        ∧ (e < need + reserveMj → t.wait = none → ∃ z, exec (.tagPhaseEnd raw) s = .next z ∧ z.tag.phase = .idle ∧ z.tag.run = none
          ∧ z.tag.energyLow = true ∧ z.tag.segs = t.segs ∧ z.tag.shown = t.shown))
    ∧ (∀ (u : TagUpd) (raw : Nat), t.run = some u → s.tagPhaseOver u = false → exec (.tagPhaseEnd raw) s = .next s)
    ∧ (∀ (u : TagUpd) (raw : Nat), t.run = some u → t.phaseAt + tagPhaseNs t.pulse u.full t.phase ≤ s.now →
        (t.phase = .mark → ∃ z, exec (.tagPhaseEnd raw) s = .next z ∧ z.tag = { t with
            phase := .drive
            phaseAt := s.now
            segs := t.segs ||| seg63 }
          ∧ (u.full = false → Output.tagDrive (u.image &&& ~~~t.shown) (t.shown &&& ~~~u.image) ∈ z.out))
        ∧ (t.phase = .drive → exec (.tagPhaseEnd raw) s = .next { s with
            tag := { t with
              phase := .unmark
              phaseAt := s.now
              segs := (t.segs &&& ~~~(if u.full then all else u.image ^^^ t.shown))
                ||| (u.image &&& (if u.full then all else u.image ^^^ t.shown)) }
            out := s.out ++ [.tagDrive 0 seg63] })
        ∧ (t.phase = .unmark → exec (.tagPhaseEnd raw) s = .next { s with
            tag := { t with
              phase := .rest
              phaseAt := s.now
              segs := t.segs &&& all }
            out := s.out ++ [.tagRest] })
        ∧ (t.phase = .rest → t.wait = none → ∃ z, exec (.tagPhaseEnd raw) s = .next z ∧ z.tag.shown = u.image
          ∧ z.tag.updates = t.updates + 1 ∧ z.tag.flag = false ∧ z.tag.run = none ∧ z.tag.phase = .idle
          ∧ (∀ r, u.ref = some r → Answered s r 0x1006 0 [u8 0, u8 (enCode t.en), u16 free] z)))
    ∧ (cmd 0x1007 →
        (t.en = .disabled → Completes (.tagCtl ref 1) s { s with
            tag := { t with en := .enabled }
            freeCnt := s.freeCnt + 1 } ref 0x1007 0 [u8 0, u8 1, u16 free])
        ∧ (t.en = .enabled → t.run = none → Completes (.tagCtl ref 0) s { s with
            tag := { t with en := .disabled }
            freeCnt := s.freeCnt + 1 } ref 0x1007 0 [u8 0, u8 0, u16 free])
        ∧ (∀ u, t.en = .enabled → t.run = some u → t.wait = none → Completes (.tagCtl ref 0) s { s with
            tag := { t with en := .quiescing }
            freeCnt := s.freeCnt + 1 } ref 0x1007 0 [u8 0, u8 2, u16 free]))

/-- With the level OFF no command has an effect; with crossing 0x16 stopped no line leaves. A bad line is answered ER 02 and a command above the level ER 03, and nothing else changes.
HELLO, STAT and FWQ give their line, RD the words of its registers, LOG its records, CALX the page and its CRC, each ended OK. WR does what the
register write does. FRZ freezes the log. CALI and IMG open a transfer; a data line in order with its CRC extends it, any other ends it
with 02. RST needs F on a lone tablet, and resets the tablet, which then stands before step 1. KEYFUSE takes the hash, whose confirmation number is a free value, and fuses it
on the right number, never twice. UNLOCK with the code gives SERVICE; the third wrong one locks out. LOCK, 10 min without a command, and
a break give VIEW; the lockout ends. -/
def Obligations.MonitorAnswersAtItsLevel : Prop :=
  ∀ (s : State),
    let v := s.svc
    let u : State := { s with svc := { v with lastCmd := s.now } }
    let ends (x : State) (ls : List Output) (code : Nat) : State := { x with out := x.out ++ ls ++ [.monDone code] }
    let seen : Prop := v.level ≠ .off ∧ s.xingStopped 0x16 = false
    let service : Prop := v.level = .service ∧ s.xingStopped 0x16 = false
    (v.level = .off → ∀ (b : Bool) (a : Option (Nat × Nat)) (w : Option (Nat × Word)) (f : Option (Nat × Option Nat)) (n : Nat) (bs : List Byte) (c : Word),
      exec (.hello b) s = .next s ∧ exec (.stat b) s = .next s ∧ exec (.rd a) s = .next s ∧ exec (.wr w) s = .next s
      ∧ exec (.log a) s = .next s ∧ exec (.frz f) s = .next s ∧ exec (.calx b) s = .next s ∧ exec (.fwq b) s = .next s
      ∧ (∀ x, exec (.cali x) s = .next s) ∧ (∀ x, exec (.calc x n) s = .next s) ∧ (∀ x, exec (.img x) s = .next s)
      ∧ (∀ x, exec (.rst x) s = .next s) ∧ (∀ x, exec (.keyfuse x) s = .next s) ∧ (∀ x, exec (.unlock x) s = .next s)
      ∧ exec (.lock b) s = .next s ∧ exec (.monitorDataLine n bs c) s = .next s)
    ∧ (seen → ∀ c : Instr, (c = .hello true ∨ c = .stat true ∨ c = .rd none ∨ c = .wr none ∨ c = .log none ∨ c = .frz none
        ∨ c = .calx true ∨ c = .cali none ∨ c = .calc none 0 ∨ c = .fwq true ∨ c = .img none ∨ c = .rst none ∨ c = .keyfuse none
        ∨ c = .unlock none ∨ c = .lock true) → exec c s = .next (ends u [] 2))
    ∧ (v.level = .view → s.xingStopped 0x16 = false → ∀ (c : Instr) (x : Nat × Word) (y : CaliArg) (z : KeyfuseArg) (n : Word) (r : Nat),
        c = .wr (some x) ∨ c = .cali (some y) ∨ c = .calc (some n) r ∨ c = .keyfuse (some z) → exec c s = .next (ends u [] 3))
    ∧ (seen → (∃ l, exec (.hello false) s = .next (ends u [.monLine l] 0) ∧ l.head? = some (u32 0x48100000))
        ∧ (∃ l, exec (.stat false) s = .next (ends u [.monLine l] 0) ∧ l.head? = some (u8 s.sup.step))
        ∧ exec (.fwq false) s = .next (ends u [.monLine s.fwInfo] 0))
    ∧ (∀ o n, seen → o % 4 = 0 → o < 0x10000 → 1 ≤ n → n ≤ 64 →
        (o + 4 * n ≤ 0x100C ∨ 0x100C < o → exec (.rd (some (o, n))) s
          = .next (ends u ((List.range n).map (fun i => .monLine [u32 (u.readBar0 (o + 4 * i)).toNat])) 0))
        ∧ (o ≤ 0x100C → 0x100C < o + 4 * n → ∃ t, exec (.rd (some (o, n))) s = .next t ∧ t.host.flrSeen = false))
    ∧ (∀ o w, service → o < 0x10000 → ∃ t, exec (.registerWrite o w) u = .next t
        ∧ exec (.wr (some (o, w))) s = .next (ends t [] 0))
    ∧ (∀ first n, seen → first < s.nlog.slots.length → 1 ≤ n → n ≤ 4096 → ∃ ls, exec (.log (some (first, n))) s = .next (ends u ls 0)
        ∧ ls.length = min n (s.nlog.slots.length - first))
    ∧ (seen → s.nlog.state = .recording → ∃ t, exec (.frz (some (1, none))) s = .next t ∧ t.nlog.state = .frozen
        ∧ t.nlog.freezeDue = some (s.now + 60 * secNs) ∧ Output.monDone 0 ∈ t.out)
    ∧ (seen → s.calBusy = false → ∃ t, exec (.calx false) s = .next t ∧ OnlyReports u t
        ∧ Output.monLine [u32 (u32At s.cal.stored 0xFFC)] ∈ t.out ∧ Output.monDone (if s.cal.valid then 0 else 7) ∈ t.out)
    ∧ (service → s.calBusy = false → v.xfer = none → exec (.cali (some .start)) s = .next (ends { u with
          svc := { u.svc with xfer := some (.page, []) } } [] 0))
    ∧ (∀ c r, service → s.calBusy = false → c.toNat ≠ calCrc s.cal → exec (.calc (some c) r) s = .next (ends u [] 7))
    ∧ (∀ n, service → 1 ≤ n → n ≤ 16777216 → s.fwBusy = false → v.xfer = none → exec (.img (some (.start n))) s = .next (ends { u with
          svc := { u.svc with xfer := some (.firmware n, []) } } [] 0))
    ∧ (∀ k got n bs, seen → v.xfer = some (k, got) →
        (n = got.length → bs.length = 64 → exec (.monitorDataLine n bs (crc32c bs)) s = .next { u with
          svc := { u.svc with xfer := some (k, got ++ bs) } })
        ∧ (n ≠ got.length → ∀ c, exec (.monitorDataLine n bs c) s = .next (ends { u with svc := { u.svc with xfer := none } } [] 2)))
    ∧ (∀ f, service → (s.twin.role = .solo → exec (.rst (some false)) s = .next (ends u [] 7))
        ∧ (f = true ∨ s.twin.role = .standby → ∃ t, exec (.rst (some f)) s = .next t ∧ t.sup.step = 0 ∧ t.sup.cause = .monitor
          ∧ t.fuses = s.fuses ∧ Output.reset ∈ t.out))
    ∧ (service → (s.fuses.house = [] → ∀ bs : List Byte, bs.length = 32 →
          (∃ t, exec (.keyfuse (some (.hash bs (crc32c bs)))) s = .next t ∧ t.fuses = s.fuses
            ∧ t.svc.keyfuse = some (bs, (Config.freeWord 9 s.freeCnt).toNat % 2 ^ 16))
          ∧ (∀ n, v.keyfuse = some (bs, n) → ∃ t, exec (.keyfuse (some (.go n))) s = .next t ∧ t.fuses.house = bs)
          ∧ (∀ n m, v.keyfuse = some (bs, m) → n ≠ m → exec (.keyfuse (some (.go n))) s = .next (ends u [] 7)))
        ∧ (s.fuses.house ≠ [] → ∀ a, exec (.keyfuse (some a)) s = .next (ends u [] 7)))
    ∧ (∀ c, seen → v.lockout = none →
        (c = v.code → v.code ≠ 0 → ∃ t, exec (.unlock (some c)) s = .next t ∧ t.svc.level = .service ∧ t.svc.badRun = 0)
        ∧ (c ≠ v.code → v.code ≠ 0 → ∃ t, exec (.unlock (some c)) s = .next t ∧ t.svc.level = v.level
          ∧ (t.svc.lockout = if 2 ≤ v.badRun then some (s.now + 600 * secNs) else none) ∧ Output.monDone 7 ∈ t.out)
        ∧ (v.code = 0 → exec (.unlock (some c)) s = .next (ends u [] 7)))
    ∧ (v.level = .service → (∃ t, exec (.lock false) s = .next t ∧ t.svc.level = .view ∧ t.svc.xfer = none)
        ∧ (v.lastCmd + 600 * secNs ≤ s.now → ∃ t, exec .monitorIdleTimeout s = .next t ∧ t.svc.level = .view)
        ∧ ∃ t, exec .monitorBreak s = .next t ∧ t.svc.level = .view)
    ∧ (v.level ≠ .off → s.xingStopped 0x16 = true → ∀ bad, ∃ t, exec (.fwq bad) s = .next t ∧ t.svc = u.svc
        ∧ ∀ o ∈ t.out, o ∈ s.out ∨ (∀ l, o ≠ .monLine l) ∧ ∀ code, o ≠ .monDone code)
    ∧ (∀ at_, v.lockout = some at_ → at_ ≤ s.now → exec .lockoutEnd s = .next { s with svc := { v with lockout := none } })

/-- CAL_EXPORT delivers the stored bytes and answers 0, or 1 for an invalid page. CAL_IMPORT answers 2 for a page that breaks its format,
3 for another tablet's, 4 for a wrong CONFIRM, 0 with VALIDATE_ONLY, 7 once the power has failed, 5 without the energy of a write and
the reserve; else the write starts, with the tablet's own SERIAL and MAC, the next WRITES and the page's constants. CAL_CAPTURE and, at the
level SERVICE, the monitor's CALC do the same with the captured constants. Each answers 6 while a transfer or a write is in progress. The end of a write puts the new page in
place and answers 0; a first failed read-back is retried; a second leaves the page invalid and answers 8. -/
def Obligations.CalibrationPageIsReplacedWhole : Prop :=
  ∀ (s : State) (ref : OrderRef),
    let cmd (op : Nat) : Prop := s.orderReady ref op = true
    let count : Nat := (if s.cal.valid then calWrites s.cal else s.cal.writes) + 1
    let begun (x : State) (src : SvcSrc) (origin raw : Nat) (consts : List Byte) : State :=
      let v : State := (x.sensed 1 raw).1
      { v with cal := { v.cal with
          write := some ⟨src, mkPage origin count s.fuses.serial.toNat s.fuses.mac (s.tai / secNs % 2 ^ 48) consts, origin,
            word (calCrc s.cal), false⟩
          writes := count } }
    let started := begun s (.order ref)
    (∀ a, cmd 0x1101 →
      (s.calBusy = true → Completes (.calExport ref a) s s ref 0x1101 0 (s.calBody 6))
      ∧ (s.calBusy = false → ∃ t, exec (.calExport ref a) s = .next t ∧ OnlyAnswers s t
        ∧ (s.xingStopped 0x01 = false → Output.hostData a (s.cal.stored.map (fun (b : Byte) => u8 b.toNat)) ∈ t.out)
        ∧ Answered s ref 0x1101 0 (s.calBody (if s.cal.valid then 0 else 1)) t))
    ∧ (∀ (page : List Byte) (confirm : Word) (vo : Bool) (raw : Nat), cmd 0x1102 →
        let c : Instr := .calImport ref page confirm vo raw
        let mine : Prop := s.calBusy = false ∧ pageOk page = true ∧ pageSerial page = s.fuses.serial.toNat
        (s.calBusy = true → Completes c s s ref 0x1102 0 (s.calBody 6))
        ∧ (s.calBusy = false → pageOk page = false → Completes c s s ref 0x1102 0 (s.calBody 2))
        ∧ (s.calBusy = false → pageOk page = true → pageSerial page ≠ s.fuses.serial.toNat →
            Completes c s s ref 0x1102 0 (s.calBody 3))
        ∧ (mine → confirm.toNat ≠ calCrc s.cal → Completes c s s ref 0x1102 0 (s.calBody 4))
        ∧ (mine → confirm.toNat = calCrc s.cal → vo = true → Completes c s s ref 0x1102 0 (s.calBody 0))
        ∧ (mine → confirm.toNat = calCrc s.cal → vo = false → s.sup.holdUp = true → Completes c s s ref 0x1102 0 (s.calBody 7))
        ∧ (mine → confirm.toNat = calCrc s.cal → vo = false → s.sup.holdUp = false →
            (s.usableMj (s.sensed 1 raw).2 < 60 + reserveMj → Completes c s (s.sensed 1 raw).1 ref 0x1102 0 (s.calBody 5))
            ∧ (60 + reserveMj ≤ s.usableMj (s.sensed 1 raw).2 → Runs c s (started 1 raw ((page.take 0xFFC).drop 0x30)))))
    ∧ (∀ (confirm : Word) (raw : Nat), cmd 0x1103 →
        let c : Instr := .calCapture ref confirm raw
        (s.calBusy = true → Completes c s s ref 0x1103 0 (s.calBody 6))
        ∧ (s.calBusy = false → confirm.toNat ≠ calCrc s.cal → Completes c s s ref 0x1103 0 (s.calBody 4))
        ∧ (s.calBusy = false → confirm.toNat = calCrc s.cal → s.sup.holdUp = false →
            (s.usableMj (s.sensed 1 raw).2 < 60 + reserveMj → Completes c s (s.sensed 1 raw).1 ref 0x1103 0 (s.calBody 5))
            ∧ (60 + reserveMj ≤ s.usableMj (s.sensed 1 raw).2 → Runs c s (started 2 raw s.captured))))
    ∧ (∀ (confirm : Word) (raw : Nat), s.svc.level = .service → s.calBusy = false → confirm.toNat = calCrc s.cal →
        s.sup.holdUp = false →
        let u : State := { s with svc := { s.svc with lastCmd := s.now } }
        (60 + reserveMj ≤ s.usableMj (u.sensed 1 raw).2 → exec (.calc (some confirm) raw) s = .next (begun u .monitor 2 raw u.captured))
        ∧ (s.usableMj (u.sensed 1 raw).2 < 60 + reserveMj → s.xingStopped 0x16 = false → ∃ t, exec (.calc (some confirm) raw) s = .next t
            ∧ t.out.getLast? = some (.monDone 7) ∧ t.cal = s.cal))
    ∧ (∀ w : PageWrite, s.cal.write = some w →
        let op : Nat := if w.origin = 1 then 0x1102 else 0x1103
        let new : State := { s with cal := { s.cal with page := w.page, valid := true, write := none } }
        let lost : State := { s with cal := { s.cal with page := [], valid := false, write := none } }
        (∀ r, w.src = .order r →
          Completes (.calWriteDone true) s new.battRefresh r op 0 (new.calBody 0)
          ∧ (w.retried = true → Completes (.calWriteDone false) s lost r op 0 (lost.calBody 8)))
        ∧ (w.src = .monitor → s.xingStopped 0x16 = false → ∃ t, exec (.calWriteDone true) s = .next t ∧ OnlyReports new.battRefresh t
          ∧ t.out.getLast? = some (.monDone 0))
        ∧ (w.retried = false → exec (.calWriteDone false) s = .next { s with
            cal := { s.cal with write := some { w with retried := true } } }))

/-- FW_LOAD answers 7 while a load or a transfer is in progress, the status of the first check that fails, 6 for a revision below the
running one without ALLOW_OLDER, 0 with VALIDATE_ONLY; else the bank that is not running is erased and its write begins. The
end of the write answers 8 where the read-back fails; else the bank holds the image, on trial and with the highest activation
sequence only with ACTIVATE, and the answer is 0. In RECOVERY the bank is always activated and the tablet resets with cause RECOVERY. FW_QUERY
delivers FW_INFO. The bank that runs keeps its bytes. -/
def Obligations.FirmwareLoadsIntoTheOtherBank : Prop :=
  ∀ (s : State) (ref : OrderRef),
    let cmd (op : Nat) : Prop := s.orderReady ref op = true
    let body (st : Nat) (img : List Byte) : List Fld := [u8 st, u8 0, u8 0, u8 0, u32 (fwRevision img)]
    (∀ (img : List Byte) (n : Nat) (vo older act : Bool), cmd 0x1104 →
      let c : Instr := .fwLoad ref img n vo older act
      let ok : Prop := s.fwBusy = false ∧ fwChecks s.fuses.vendor img n = 0
      (s.fwBusy = true → Completes c s s ref 0x1104 0 (body 7 img))
      ∧ (s.fwBusy = false → fwChecks s.fuses.vendor img n ≠ 0 →
          Completes c s s ref 0x1104 0 (body (fwChecks s.fuses.vendor img n) img))
      ∧ (ok → fwRevision img < s.fwRevNow → older = false → Completes c s s ref 0x1104 0 (body 6 img))
      ∧ (ok → s.fwRevNow ≤ fwRevision img ∨ older = true → vo = true → Completes c s s ref 0x1104 0 (body 0 img))
      ∧ (ok → s.fwRevNow ≤ fwRevision img ∨ older = true → vo = false → Runs c s { s with
          fw := { s.fw with
            banks := s.fw.banks.set s.fwSpare default
            load := some ⟨.order ref, img, act || s.fw.recovery⟩ } }))
    ∧ (∀ (l : FwLoad) (r : OrderRef), s.fw.load = some l → l.src = .order r →
        Completes (.fwLoadDone false) s { s with fw := { s.fw with load := none } } r 0x1104 0 (body 8 l.bytes)
        ∧ (s.fw.recovery = false → Completes (.fwLoadDone true) s { s with
            fw := { s.fw with
              load := none
              banks := s.fw.banks.set s.fwSpare
                ⟨l.bytes, if l.activate then (s.fw.banks.map (fun (b : FwBank) => b.seq)).foldl max 0 + 1 else 0, l.activate,
                  false⟩ } } r 0x1104 0 (body 0 l.bytes))
        ∧ (s.fw.recovery = true → ∃ t, exec (.fwLoadDone true) s = .next t ∧ t.sup.step = 0 ∧ t.sup.cause = .recovery
          ∧ t.fuses = s.fuses ∧ Output.reset ∈ t.out))
    ∧ (cmd 0x1105 → Completes (.fwQuery ref) s s ref 0x1105 0 s.fwInfo)
    ∧ (∀ i, s.fw.running = some i → i < 2 → s.fwSpare ≠ i)

/-- VIN accepted starts step 3, and does nothing where start-up has begun. With the beam up, the bank of the higher activation sequence that
passes its checks runs, else the other, and step 4 begins; with none the tablet stays at step 3 in RECOVERY. A lost battery region
starts from its default. The page is valid exactly where its checks pass, and its SENSE gains load. Ready ring ports are noted
at step 6 with a house id. The end of the hold-up sequence resets the tablet: cause RST_PIN, BROWNOUT with VIN back, else POWER_ON; fuses, the
log's slots, the capture store, the count of power failures and the epoch stay. With RST_N the flushes are complete; one that the store
did not carry leaves the Tally's CRC inverted. -/
def Obligations.StartUpAndResetKeepTheirOrder : Prop :=
  ∀ (s : State),
    let bank (i : Nat) : FwBank := s.fw.banks.getD i default
    let good (i : Nat) : Prop := (bank i).bad = false ∧ fwChecks s.fuses.vendor (bank i).bytes (bank i).bytes.length = 0
    (∀ en, (s.sup.step = 0 → s.sup.holdUp = false → exec (.vinAccept en) s = .next { s with
          sup := { s.sup with step := 3, startedAt := s.now }
          svc := { s.svc with strap := en } })
        ∧ (s.sup.step ≠ 0 → exec (.vinAccept en) s = .next s))
    ∧ (∀ lost, s.sup.step = 3 → s.sup.holdUp = false → s.fw.recovery = false → s.fw.running = none →
        ∃ t, exec (.beamUp lost) s = .next t
        ∧ ((bank 1).seq ≤ (bank 0).seq → good 0 → t.fw.running = some 0)
        ∧ ((bank 1).seq ≤ (bank 0).seq → ¬ good 0 → good 1 → t.fw.running = some 1)
        ∧ ((bank 0).seq < (bank 1).seq → good 1 → t.fw.running = some 1)
        ∧ ((bank 0).seq < (bank 1).seq → ¬ good 1 → good 0 → t.fw.running = some 0)
        ∧ (good 0 ∨ good 1 → t.sup.step = 4 ∧ t.fw.recovery = false)
        ∧ (¬ good 0 → ¬ good 1 → t.sup.step = 3 ∧ t.fw.recovery = true ∧ t.fw.running = none)
        ∧ t.svc.level = (if s.svc.strap then .view else .off)
        ∧ t.cal.valid = pageOk s.cal.page
        ∧ (pageOk s.cal.page = true →
            t.cal.sense = [f32At s.cal.page 0x270, f32At s.cal.page 0x274, f32At s.cal.page 0x278])
        ∧ (lost % 64 = 0 → t.sup.pfCnt = s.sup.pfCnt ∧ t.sup.battClock = s.sup.battClock ∧ t.sup.battLost = s.sup.battLost)
        ∧ (lost % 2 = 1 → t.sup.battClock = none ∧ t.sup.battLost = true)
        ∧ (lost / 2 % 2 = 1 → t.twin.storedEpoch = 0)
        ∧ (lost / 32 % 2 = 1 → t.sup.pfCnt = 0)
        ∧ t.fuses = s.fuses)
    ∧ (s.sup.step = 6 → s.sup.held6 = false → s.sup.holdUp = false → s.ring.ready = false →
        (s.houseId ≠ 0 → exec .ringPortsReady s = .next { s with ring := { s.ring with ready := true, readyAt := s.now, portsUp := true } })
        ∧ (s.houseId = 0 → exec .ringPortsReady s = .next s))
    ∧ (∀ tally meter back : Bool,
        (s.sup.holdUp = false → exec (.holdupReset tally meter back) s = .next s)
        ∧ (s.sup.holdUp = true → ∃ t, exec (.holdupReset tally meter back) s = .next t
          ∧ t.sup.step = 0 ∧ t.sup.holdUp = false ∧ t.ring.legsClosed = true ∧ Output.reset ∈ t.out
          ∧ t.sup.cause = (if s.sup.rstLow then .rstPin else if back then .brownout else .powerOn)
          ∧ t.fuses = s.fuses ∧ t.nlog.slots = s.nlog.slots ∧ t.nlog.capture = s.nlog.capture ∧ t.sup.pfCnt = s.sup.pfCnt
          ∧ t.twin.storedEpoch = s.twin.storedEpoch ∧ t.now = s.now ∧ t.pending = s.pending
          ∧ (s.sup.rstLow = true → t.tally.flash = s.tally.flash ∧ t.meter.saves = s.meter.saves)
          ∧ (s.sup.rstLow = false → s.sup.tallyFlush = true → tally = false →
              t.tally.flash = s.tally.flash.map (fun (f : Retentive) => { f with crc := ~~~f.crc }))))

/-- A power-fail warning or an RST_N request: the hold-up sequence runs, the warning is counted, PFW_N is low, later records go to the
capture store, the ring is disabled and its legs closed, its links and the host link are down, a running Tally stops with cause 8 and its
image is SAFE_DIO, a running panel is blank and discharging, the tag takes no more updates, and every deck without a live metering role has lost
its rail. Before step 1 and during the sequence a warning does nothing. Loss of the beam closes the ring, drops the host link and
disables the twin and the field buses. -/
def Obligations.PowerFailurePutsThePlantSafe : Prop :=
  ∀ (s : State) (vin vhold waiting : Nat) (c : Instr),
    (c = .powerFailWarning vin vhold waiting ∨ c = .rstNRequest vin vhold waiting →
      (s.sup.step = 0 ∨ s.sup.holdUp = true → exec c s = .next s)
      ∧ (s.sup.step ≠ 0 → s.sup.holdUp = false → ∃ t, exec c s = .next t
        ∧ t.sup.holdUp = true ∧ t.sup.pfCnt = min (s.sup.pfCnt + 1) 0xFFFFFFFF ∧ t.sup.pfwLow = true ∧ t.nlog.capturing = true
        ∧ (t.sup.rstLow = true ↔ c = .rstNRequest vin vhold waiting)
        ∧ t.ring.en = .disabled ∧ t.ring.legsClosed = true ∧ t.ring.linkA = false ∧ t.ring.linkB = false
        ∧ t.host.linkUp = false
        ∧ t.tally.run = .stopped ∧ (s.tally.run ≠ .stopped → t.tally.stopCause = 8 ∧ t.tally.outImg = s.tally.cfg.safeDio)
        ∧ (s.panel.st = .running → t.panel.st = .blanked ∧ t.panel.pnlDis = true ∧ t.panel.pnlEn = false)
        ∧ t.tag.powerFail = true ∧ t.tag.wait.bind (fun (u : TagUpd) => u.ref) = none
        ∧ (∀ d, (∀ r ∈ s.place.roles, roleKind r.id = 7 → r.st ≠ .retired → deckOf r.bead ≠ d) → (t.deck d).rail = 0)
        ∧ t.fuses = s.fuses ∧ t.nlog.slots = s.nlog.slots))
    ∧ (s.fab.beamLost = true → exec (.beamLoss waiting) s = .next s)
    ∧ (s.fab.beamLost = false → ∃ t, exec (.beamLoss waiting) s = .next t ∧ t.fab.beamLost = true ∧ t.ring.en = .disabled
        ∧ t.ring.legsClosed = true ∧ t.host.linkUp = false ∧ t.twin.en = .disabled ∧ ∀ b ∈ t.can, b.en = .disabled)

/-- With SENSE gains of 1.0 after step 1: a refresh, at most every 10 ms, stores VIN, VHOLD and VBAT in millivolts and the store's usable energy,
½ × CAP_UF × (VHOLD² − 6 V²) in whole millijoules. HOLD_LOW follows the comparison with the 80 mJ reserve once 5 s have passed with VIN present, and is
kept otherwise; HOLD_LOW is raised only where it changes. A surge's start and end set and clear SURGE, and a repeat does nothing. VBAT below
2.7 V sets VBAT_LOW, and a reading that does not change it does nothing. Nothing else changes. -/
def Obligations.SupplyReadingsAreJudged : Prop :=
  ∀ (s : State) (vin vhold vbat : Nat), s.sup.step ≠ 0 → (∀ k, s.cal.sense.getD k fOne = fOne) →
    let e : Nat := s.fld rHoldCfg 31 16 * (vhold * vhold - 6000 * 6000) / 2000000000
    let c : Instr := .holdEnergyRefresh vin vhold vbat
    (s.now < s.sup.energyAt + 10 * msNs → exec c s = .next s)
    ∧ (s.sup.energyAt + 10 * msNs ≤ s.now → ∃ t, exec c s = .next t ∧ OnlyReports { s with sup := t.sup } t ∧ t.sup.energyAt = s.now
      ∧ t.sup.vinMv = vin ∧ t.sup.vholdMv = vhold ∧ t.sup.vbatMv = vbat ∧ t.sup.energyMj = e
      ∧ (vin < 5500 ∨ s.sup.holdUp = true ∨ s.now < s.sup.startedAt + 5 * secNs → t.sup.holdLow = s.sup.holdLow)
      ∧ (5500 ≤ vin → s.sup.holdUp = false → s.sup.startedAt + 5 * secNs ≤ s.now → (t.sup.holdLow = true ↔ e < 80))
      ∧ (t.sup.charging = true ↔ 5500 ≤ vin ∧ s.sup.holdUp = false ∧ vhold + 500 < 1000 * s.fld rHoldCfg 7 0)
      ∧ (t.sup.holdLow = s.sup.holdLow → t.out = s.out ∧ t.nlog = s.nlog))
    ∧ (s.sup.surge = false → Runs (.vinSurge true vin) s { s with sup := { s.sup with surge := true, surgeSince := s.now } })
    ∧ (s.sup.surge = true → Runs (.vinSurge false vin) s { s with sup := { s.sup with surge := false } })
    ∧ exec (.vinSurge s.sup.surge vin) s = .next s
    ∧ (s.sup.holdUp = false → (s.sup.vbatLow = true ↔ vbat < 2700) → exec (.vbatLow vbat) s = .next s)
    ∧ (s.sup.holdUp = false → ¬ (s.sup.vbatLow = true ↔ vbat < 2700) → Runs (.vbatLow vbat) s { s with
          sup := { s.sup with vbatLow := decide (vbat < 2700), vbatMv := vbat } })

/-- SETUP_LOAD answers 0x10 while a load runs, the status of the first check that fails, 7 for another house without NEW_HOUSE, and its
result with VALIDATE_ONLY; else the write of the slot not in use begins. Its end puts the image there with the highest activation sequence;
a first failed read-back is retried; a second leaves the slot empty with 0x13. SETUP_QUERY delivers SETUP_INFO. At step 5 the slot of the higher
activation sequence that passes its checks sets the house id and its entries are applied, a register write as the host's; without one
nothing is loaded; step 6 then begins, held without a house id. The seal value seals once and ends the hold at step 6 where a house id is
set; every other value does nothing. SEAL_WAIT_S seals with BY 2. -/
def Obligations.SetUpImagesAreLoadedAndApplied : Prop :=
  ∀ (s : State) (ref : OrderRef),
    let x := s.setup
    let cmd (op : Nat) : Prop := s.orderReady ref op = true
    let slot (i : Nat) : SetupSlot := x.slots.getD i default
    let good (i : Nat) : Prop := (slot i).seq ≠ 0 ∧ (setupChecks s.fuse (slot i).bytes (slot i).bytes.length).status = 0
    let best (i : Nat) : Prop := i < 2 ∧ good i ∧ (¬ good (1 - i) ∨ (slot (1 - i)).seq < (slot i).seq)
    (∀ (img : List Byte) (n : Nat) (vo house : Bool), cmd 0x0110 →
      let c : Instr := .setupLoad ref img n vo house
      let v := s.setupVerdict img n house
      (x.load.isSome = true → Completes c s s ref 0x0110 0 (s.setupResult (bareRes 0x10) img))
      ∧ (x.load = none → v.status ≠ 0 ∨ vo = true → Completes c s s ref 0x0110 0 (s.setupResult v img))
      ∧ (x.load = none → (setupChecks s.fuse img n).status ≠ 0 → v = setupChecks s.fuse img n)
      ∧ ((setupChecks s.fuse img n).status = 0 → setupHouse img ≠ s.houseId → house = false → v = ⟨0x07, 0, 0xFFFFFFFF, 8, 0⟩)
      ∧ (x.load = none → v.status = 0 → vo = false → Runs c s { s with setup := { x with load := some ⟨ref, img, false⟩ } }))
    ∧ (∀ l, x.load = some l →
        (∃ t, exec (.setupSlotWritten true) s = .next t ∧ OnlyAnswers s t ∧ t.setup.load = none
          ∧ t.setup.slots = x.slots.set s.setupSpare ⟨l.bytes, (x.slots.map (fun (y : SetupSlot) => y.seq)).foldl max 0 + 1⟩
          ∧ Answered s l.ref 0x0110 0 (s.setupResult checkOk l.bytes) t)
        ∧ (l.retried = false → exec (.setupSlotWritten false) s = .next { s with
            setup := { x with load := some { l with retried := true } } })
        ∧ (l.retried = true → ∃ t, exec (.setupSlotWritten false) s = .next t ∧ OnlyAnswers s t ∧ t.setup.load = none
          ∧ t.setup.slots = x.slots.set s.setupSpare default
          ∧ Answered s l.ref 0x0110 0 (s.setupResult (bareRes 0x13) l.bytes) t))
    ∧ (x.slot < 2 → s.setupSpare ≠ x.slot)
    ∧ (cmd 0x0111 → Completes (.setupQuery ref) s s ref 0x0111 0 s.setupInfo)
    ∧ (s.sup.step ≠ 5 → exec .setupApply s = .next s)
    ∧ (s.sup.step = 5 → s.sup.holdUp = false →
        (¬ good 0 → ¬ good 1 → ∃ t, exec .setupApply s = .next t ∧ t.sup.step = 6 ∧ t.setup = x ∧ t.houseId = s.houseId
          ∧ (t.sup.held6 = true ↔ s.houseId = 0))
        ∧ (∀ i, best i → ∃ t, exec .setupApply s = .next t ∧ t.sup.step = 6 ∧ (t.sup.held6 = true ↔ t.houseId = 0))
        ∧ (∀ i e, best i → entriesOf (slot i).bytes (setupCount (slot i).bytes) = [e] → e.opcode = 1 → e.clean = true →
            e.link = false → x.sealed = false → ∀ o v, u32At e.par 0 = o → word (u32At e.par 4) = v → accOf o = .rws →
            0x5000 ≤ o → o < 0x6000 → ∃ t, exec .setupApply s = .next t ∧ t.setup.loaded = true ∧ t.setup.slot = i
            ∧ t.setup.rev = word (setupRev (slot i).bytes) ∧ t.houseId = setupHouse (slot i).bytes ∧ t.reg o = normReg o v
            ∧ t.setup.sealed = setupSeals (slot i).bytes))
    ∧ (∀ v : Word, v ≠ 0x00005EA1#32 ∨ x.sealed = true → exec (.setupSeal v) s = .next s)
    ∧ (x.sealed = false → ∃ t, exec (.setupSeal 0x00005EA1#32) s = .next t ∧ t.setup.sealed = true ∧ t.setup.sealBy = 0
        ∧ t.sup.step = s.sup.step
        ∧ (s.sup.step = 6 → s.sup.held6 = true → s.houseId ≠ 0 → t.sup.held6 = false ∧ t.ring.ready = true ∧ t.ring.readyAt = s.now)
        ∧ (s.sup.step ≠ 6 ∨ s.houseId = 0 → t.sup.held6 = s.sup.held6))
    ∧ (∀ w, x.sealDue = some w →
        (s.now < w → exec .sealWaitExpiry s = .next s)
        ∧ (w ≤ s.now → x.sealed = false → ∃ t, exec .sealWaitExpiry s = .next t ∧ t.setup.sealed = true ∧ t.setup.sealBy = 2))

/-- In every state in which each slot's CRC is the chain CRC over its record and the slot before it, the first over NLOG_CLEARS (where no clear is
under way), and at most 65 536 slots are written, a step that answers a next state leaves it so. -/
def Obligations.LogStaysAChain : Prop := ∀ s t : State, LogOk s → step s = .next t → LogOk t

/-- From every state a step leaves the vendor key hash, SERIAL and MAC as they are, and the house key hash too once it is fused. -/
def Obligations.FusesArePermanent : Prop :=
  ∀ s t : State, step s = .next t → t.fuses.vendor = s.fuses.vendor ∧ t.fuses.serial = s.fuses.serial ∧ t.fuses.mac = s.fuses.mac
    ∧ (s.fuses.house ≠ [] → t.fuses.house = s.fuses.house)

/-- A write of 0x0000_5EA1 seals, as the command of its own and as a register write; every other value is ignored. No command unseals, except
the three that can reset the tablet, and those only by the reset, which leaves it before step 1 and unsealed. GLB_SETUP_SEAL reads SEALED
in bit 0, BY in bits 2 and 1, zeros above, and 0 at reset; BY is 0 for a host write, 1 for the set-up image's SEAL and 2 where SEAL_WAIT_S
has expired. -/
def Obligations.OnlyAResetUnseals : Prop :=
  (∀ (s : State) (c : Instr), c = .setupSeal 0x00005EA1#32 ∨ c = .registerWrite 0x0010 0x00005EA1#32 →
    ∃ t, exec c s = .next t ∧ t.setup.sealed = true ∧ (s.setup.sealed = false → t.setup.sealBy = 0))
  ∧ (∀ (s : State) (v : Word), v ≠ 0x00005EA1#32 → exec (.setupSeal v) s = .next s ∧ exec (.registerWrite 0x0010 v) s = .next s)
  ∧ (∀ (s t : State) (c : Instr), s.setup.sealed = true → exec c s = .next t → t.setup.sealed = true
      ∨ (t.sup.step = 0 ∧ ((∃ a, c = .rst a) ∨ (∃ a b d, c = .holdupReset a b d) ∨ ∃ a, c = .fwLoadDone a)))
  ∧ (∀ (s : State) (cause : ResetCause), (s.reboot cause).setup.sealed = false)
  ∧ (∀ s : State, s.setup.sealBy < 4 → s.readBar0 0x0010 = word (2 * s.setup.sealBy + b01 s.setup.sealed))
  ∧ State.reset.readBar0 0x0010 = 0
  ∧ (∀ (s : State) (img : List Byte), s.setup.sealed = false → setupSeals img = true → (s.setupSeal (some img)).setup.sealBy = 1)
  ∧ (∀ (s : State) (w : Nat), s.setup.sealed = false → s.setup.sealDue = some w → w ≤ s.now →
      ∃ t, exec .sealWaitExpiry s = .next t ∧ t.setup.sealed = true ∧ t.setup.sealBy = 2)

/-- The step from 0xFFFF is to 0x0001, from every other value to the next; no step gives 0x0000; and a receiver whose H is not 0x0000 judges the epoch after H as
newer, and the epoch before it as older. -/
def Obligations.EpochsStepPastZero : Prop :=
  epochStep 0xFFFF#16 = 1#16 ∧ (∀ e : Half, e ≠ 0xFFFF#16 → epochStep e = e + 1) ∧ (∀ e : Half, epochStep e ≠ 0)
  ∧ ∀ h : Half, h ≠ 0 → epochRel h (epochStep h) = .newer ∧ epochRel (epochStep h) h = .older

/-- Before the seal a write of GLB_HOLD_CFG stores CAP_UF, or 470 where it lies outside 47 to 10 000, and VHOLD_SET, or 30 where it lies outside 16
to 36; the reserved bits read 0; a read returns what is stored. After the seal the register is read-only. At reset CAP_UF is 470, VHOLD_SET
is 30 and the reserved bits are 0. -/
def Obligations.HoldConfigKeepsItsRanges : Prop :=
  (∀ (s : State) (v : Word), s.setup.sealed = false →
    let cap := v.toNat / 65536
    let set := v.toNat % 256
    ∃ t, exec (.registerWrite 0x010C v) s = .next t
      ∧ t.fld 0x010C 31 16 = (if 47 ≤ cap ∧ cap ≤ 10000 then cap else 470)
      ∧ t.fld 0x010C 7 0 = (if 16 ≤ set ∧ set ≤ 36 then set else 30)
      ∧ t.fld 0x010C 15 8 = 0
      ∧ t.readBar0 0x010C = t.reg 0x010C)
  ∧ (∀ (s : State) (v : Word), s.setup.sealed = true →
      ∃ t, exec (.registerWrite 0x010C v) s = .next t ∧ t.readBar0 0x010C = s.readBar0 0x010C ∧ t.regs = s.regs)
  ∧ State.reset.fld 0x010C 31 16 = 470 ∧ State.reset.fld 0x010C 15 8 = 0 ∧ State.reset.fld 0x010C 7 0 = 30

/-- A raise of a source with less than one token after the refill takes no token, counts the event for its source and in
NLOG_SUPPR, and does nothing else. With a token one is taken, the suppressed count starts anew, and where the log records and its queue has a place, a record that carries
the source, the next sequence number, the suppressed count and the parameters joins the queue; a FULL log counts it instead. The log's own sources have no bucket. The
refill is RATE hundredths of a token per second up to BURST. -/
def Obligations.EventsPassTheirBucket : Prop :=
  ∀ (s : State) (src : Nat) (ps : List Fld), src ≠ 0xD6 →
    let x := s.srcOf src
    let tokens := s.refilled x
    let noted (t : State) (sup : Nat) : Prop := ∃ r ∈ t.nlog.queue, r.event.source = src ∧ r.event.seq = s.nlog.seq
      ∧ r.event.suppressed = sup ∧ r.event.params = ps ∧ r.event.tai = s.tai
    tokens = min ((s.bucketOf x.cfg).2 * tokenUnit) (x.tokens + (s.bucketOf x.cfg).1 * (s.now - x.updated))
    ∧ tokenUnit = 100 * secNs
    ∧ (ownSource src = false → tokens < tokenUnit → s.raise src ps =
        let u : State := s.setSrc src { x with tokens := tokens, updated := s.now, sup := min (x.sup + 1) 0xFFFF }
        { u with nlog := { u.nlog with suppr := satInc u.nlog.suppr } })
    ∧ (ownSource src = false → tokenUnit ≤ tokens →
        (s.raise src ps).srcOf src = { x with tokens := tokens - tokenUnit, updated := s.now, sup := 0 }
        ∧ s.nlog.seq < (s.raise src ps).nlog.seq
        ∧ (s.nlog.capturing = false → s.nlog.state ≠ .full → s.nlog.queued < 256 → noted (s.raise src ps) x.sup)
        ∧ (s.nlog.capturing = false → s.nlog.state = .full → (s.raise src ps).nlog.queue = s.nlog.queue
          ∧ (s.nlog.fullDrop.toNat < (s.raise src ps).nlog.fullDrop.toNat ∨ s.nlog.fullDrop = 0xFFFFFFFF#32)))
    ∧ (ownSource src = true → s.nlog.capturing = false → s.nlog.state ≠ .full → noted (s.raise src ps) 0)

/-- The state at reset: no command waits; start-up stands before step 1 with cause POWER_ON; the bypass legs are closed; H is 0x0000; the house id
is 0x0000; the set-up is not sealed; the log is a chain; and the listed registers read the reset values of their tables. -/
def Obligations.ResetLeavesItsValues : Prop :=
  let s : State := State.reset
  s.pending = [] ∧ s.sup.step = 0 ∧ s.sup.cause = .powerOn ∧ s.ring.legsClosed = true ∧ s.twin.epoch = 0 ∧ s.houseId = 0
  ∧ s.setup.sealed = false ∧ LogOk s
  ∧ s.readBar0 0x0000 = 0x48100100#32 ∧ s.readBar0 0x000C = 0#32 ∧ s.readBar0 0x0014 = 0x30000000#32
  ∧ s.readBar0 0x010C = 0x01D6001E#32 ∧ s.readBar0 0x0110 = 0x00500000#32 ∧ s.readBar0 0x0114 = 0#32
  ∧ s.readBar0 0x1000 = 0x00202020#32 ∧ s.readBar0 0x2000 = 0x02080200#32 ∧ s.readBar0 0x20A4 = 0x0000050F#32
  ∧ s.readBar0 0x3004 = 0x00010080#32 ∧ s.readBar0 0x4004 = 0x00500000#32 ∧ s.readBar0 0x5004 = 0x0BB83204#32
  ∧ s.readBar0 0x6000 = 4#32 ∧ s.readBar0 0x7004 = 0x00000271#32 ∧ s.readBar0 0x8004 = 0x811001E0#32
  ∧ s.readBar0 0x9000 = 0x01000040#32 ∧ s.readBar0 0x901C = 0x002003E8#32
end

