-- ==== Sys2Proof/Laws/Memory.lean ====
section
/-! SUPPORT. The laws of byte memory: every operation keeps the canonical form, a read sees the last write to its address and no
other. -/

namespace Sys2Proof.Machine

open Sys2Proof

/-! ### Association lists in ascending order -/

theorem alGet_cons {α : Type} (p : Nat × α) (l : List (Nat × α)) (k : Nat) :
    alGet (p :: l) k = if p.1 = k then some p.2 else alGet l k := by
  unfold alGet
  rw [List.find?_cons]
  by_cases h : p.1 = k
  · simp [h]
  · simp [h, beq_false_of_ne h]

theorem alGet_alPut {α : Type} (m : List (Nat × α)) (a : Nat) (v : α) (k : Nat) :
    alGet (alPut m a v) k = if a = k then some v else alGet m k := by
  induction m with
  | nil => simp [alPut, alGet_cons]
  | cons p l ih =>
    obtain ⟨k', v'⟩ := p
    unfold alPut
    split
    · simp [alGet_cons]
    · split
      · subst_vars
        simp only [alGet_cons]
        split <;> simp
      · rename_i h1 h2
        simp only [alGet_cons, ih]
        by_cases h3 : a = k
        · simp only [h3] at h2 ⊢
          simp [Ne.symm h2]
        · simp [h3]

theorem alGet_alDel {α : Type} (m : List (Nat × α)) (a k : Nat) :
    alGet (alDel m a) k = if a = k then none else alGet m k := by
  induction m with
  | nil => simp [alDel, alGet]
  | cons p l ih =>
    unfold alDel at ih ⊢
    rw [List.filter_cons]
    by_cases h : p.1 = a
    · by_cases h2 : a = k
      · simp_all
      · simp_all [alGet_cons]
    · by_cases h2 : a = k
      · subst h2
        simp_all [alGet_cons]
      · simp_all [alGet_cons]

/-- The keys ascend. -/
abbrev Ascending {α : Type} (l : List (Nat × α)) : Prop := l.Pairwise (fun a b => a.1 < b.1)

theorem mem_alPut {α : Type} {m : List (Nat × α)} {a : Nat} {v : α} {p : Nat × α} (h : p ∈ alPut m a v) : p = (a, v) ∨ p ∈ m := by
  induction m with
  | nil => simp_all [alPut]
  | cons q l ih =>
    unfold alPut at h
    split at h
    · simpa using h
    · split at h
      · rcases List.mem_cons.mp h with h | h
        · exact .inl h
        · exact .inr (List.mem_cons_of_mem _ h)
      · rcases List.mem_cons.mp h with h | h
        · exact .inr (h ▸ List.mem_cons_self)
        · rcases ih h with h | h
          · exact .inl h
          · exact .inr (List.mem_cons_of_mem _ h)

theorem alPut_ascending {α : Type} {m : List (Nat × α)} (h : Ascending m) (a : Nat) (v : α) : Ascending (alPut m a v) := by
  induction m with
  | nil => simp [alPut]
  | cons q l ih =>
    obtain ⟨hq, hl⟩ := List.pairwise_cons.mp h
    unfold alPut
    split
    · refine List.pairwise_cons.mpr ⟨fun p hp => ?_, h⟩
      rcases List.mem_cons.mp hp with rfl | hp
      · assumption
      · exact lt_trans ‹_› (hq p hp)
    · split
      · subst_vars
        exact List.pairwise_cons.mpr ⟨hq, hl⟩
      · refine List.pairwise_cons.mpr ⟨fun p hp => ?_, ih hl⟩
        rcases mem_alPut hp with rfl | hp
        · simp only at *
          omega
        · exact hq p hp

theorem alDel_ascending {α : Type} {m : List (Nat × α)} (h : Ascending m) (a : Nat) : Ascending (alDel m a) :=
  h.sublist List.filter_sublist

/-! ### The canonical form (Mem.wf) -/

theorem Mem.wf_nil : Mem.wf [] := by simp [Mem.wf]

theorem Mem.wf_write {m : List Host.Cell} (h : Mem.wf m) (a : Nat) (v : Byte) : Mem.wf (Mem.write m a v) := by
  unfold Mem.write
  split
  · exact ⟨alDel_ascending h.1 a, fun c hc => h.2 c (List.mem_filter.mp hc).1⟩
  · refine ⟨alPut_ascending h.1 a v, fun c hc => ?_⟩
    rcases mem_alPut hc with rfl | hc
    · assumption
    · exact h.2 c hc

theorem Mem.wf_writes {m : List Host.Cell} (h : Mem.wf m) (a : Nat) (bs : List Byte) : Mem.wf (Mem.writes m a bs) := by
  induction bs generalizing m a with
  | nil => exact h
  | cons b bs ih => exact ih (Mem.wf_write h a b) (a + 1)

theorem Mem.wf_setBit {m : List Host.Cell} (h : Mem.wf m) (n : Nat) (v : Bool) : Mem.wf (Mem.setBit m n v) := Mem.wf_write h _ _

/-! ### Reads after writes -/

theorem Mem.read_write (m : List Host.Cell) (a : Nat) (v : Byte) (k : Nat) :
    Mem.read (Mem.write m a v) k = if a = k then v else Mem.read m k := by
  unfold Mem.read Mem.write
  split
  · rename_i h
    rw [alGet_alDel]
    split <;> simp [h]
  · rw [alGet_alPut]
    split <;> simp

@[simp] theorem Mem.read_write_same (m : List Host.Cell) (a : Nat) (v : Byte) : Mem.read (Mem.write m a v) a = v := by
  simp [Mem.read_write]

theorem Mem.read_write_ne {m : List Host.Cell} {a k : Nat} (h : a ≠ k) (v : Byte) : Mem.read (Mem.write m a v) k = Mem.read m k := by
  simp [Mem.read_write, h]

theorem Mem.read_writes (bs : List Byte) (m : List Host.Cell) (a k : Nat) :
    Mem.read (Mem.writes m a bs) k = if a ≤ k then (bs[k - a]?).getD (Mem.read m k) else Mem.read m k := by
  induction bs generalizing m a with
  | nil => simp [Mem.writes]
  | cons b bs ih =>
    simp only [Mem.writes, ih, Mem.read_write]
    rcases lt_trichotomy a k with h | h | h
    · have h1 : a + 1 ≤ k := h
      have h2 : a ≤ k := by omega
      have h3 : a ≠ k := by omega
      have h4 : k - a = (k - (a + 1)) + 1 := by omega
      simp [h1, h2, h3, h4]
    · subst h
      simp
    · have h1 : ¬(a + 1 ≤ k) := by omega
      have h2 : ¬(a ≤ k) := by omega
      have h3 : a ≠ k := by omega
      simp [h1, h2, h3]

/-- Two memories in canonical form that read alike are equal. -/
theorem Mem.ext_read {m n : List Host.Cell} (hm : Mem.wf m) (hn : Mem.wf n) (h : ∀ a, Mem.read m a = Mem.read n a) : m = n := by
  have key : ∀ (l : List Host.Cell), Mem.wf l → ∀ c : Host.Cell, c ∈ l ↔ (Mem.read l c.1 = c.2 ∧ c.2 ≠ 0) := by
    intro l
    induction l with
    | nil => intro _ c; simp only [Mem.read, alGet, List.not_mem_nil, List.find?_nil, Option.map_none, Option.getD_none, false_iff, not_and, not_not]; exact Eq.symm
    | cons q l ih =>
      intro hl c
      obtain ⟨hq, hp⟩ := List.pairwise_cons.mp hl.1
      have hw : Mem.wf l := ⟨hp, fun d hd => hl.2 d (List.mem_cons_of_mem _ hd)⟩
      have hq0 : q.2 ≠ 0 := hl.2 q List.mem_cons_self
      have hr : Mem.read (q :: l) c.1 = if q.1 = c.1 then q.2 else Mem.read l c.1 := by
        unfold Mem.read
        rw [alGet_cons]
        split <;> rfl
      rw [hr, List.mem_cons, ih hw c]
      constructor
      · rintro (rfl | ⟨h1, h2⟩)
        · simpa using hq0
        · have : q.1 ≠ c.1 := fun e => by
            have hc := (ih hw c).mpr ⟨h1, h2⟩
            have := hq c hc
            omega
          simp only [this, if_false]
          exact ⟨h1, h2⟩
      · rintro ⟨h1, h2⟩
        split at h1
        · rename_i e
          exact .inl (Prod.ext e.symm h1.symm)
        · exact .inr ⟨h1, h2⟩
  have hmem : ∀ c, c ∈ m ↔ c ∈ n := fun c => by rw [key m hm, key n hn, h]
  have nd : ∀ (l : List Host.Cell), Mem.wf l → l.Nodup := fun l hl =>
    hl.1.imp (fun hab e => by subst e; exact lt_irrefl _ hab)
  have hperm : m.Perm n := (List.perm_ext_iff_of_nodup (nd m hm) (nd n hn)).mpr hmem
  exact hperm.eq_of_pairwise (fun a b _ _ h1 h2 => absurd h1 (by omega)) hm.1 hn.1

end Sys2Proof.Machine
end

