-- ==== Sys2Proof/Laws/Ops.lean ====
section
/-! SUPPORT. What the shared operations can do: raising an event, reporting and answering an order change the host interface, the
log and the outputs, and nothing else of the tablet. -/

namespace Sys2Proof.Machine

open Sys2Proof

theorem modify_void_self (l : List Crossing) (i : Nat) :
    l.modify i (fun c => { c with void := (l.getD i default).void }) = l := by
  induction l generalizing i with
  | nil => cases i <;> rfl
  | cons a l ih =>
    cases i with
    | zero => rfl
    | succ i => simpa using ih i

@[simp] theorem withHostVoid_self (s : State) : s.withHostVoid s.hostVoid = s := by
  have h := modify_void_self s.fab.crossings 1
  simp only [State.withHostVoid, State.hostVoid, State.modXing, State.xing, h]

@[simp] theorem withHostVoid_twice (s : State) (v w : Word) : (s.withHostVoid v).withHostVoid w = s.withHostVoid w := by
  simp only [State.withHostVoid, State.modXing, List.modify_modify_eq]
  rfl

theorem getD_modify_stopped (l : List Crossing) (i j : Nat) (g : Crossing → Word) :
    ((l.modify i (fun c => { c with void := g c })).getD j default).stopped = (l.getD j default).stopped := by
  induction l generalizing i j with
  | nil => cases i <;> rfl
  | cons a l ih =>
    cases i with
    | zero => cases j <;> rfl
    | succ i =>
      cases j with
      | zero => rfl
      | succ j => simpa using ih i j

/-- Counting a void stops and starts no crossing. -/
@[simp] theorem withHostVoid_stopped (s : State) (v : Word) (x : Nat) : (s.withHostVoid v).xingStopped x = s.xingStopped x :=
  getD_modify_stopped _ 1 x (fun _ => v)

/-- A change of the host interface, the log and the outputs alone. -/
theorem OnlyReports.of_eq {s t : State} (h : t = { s with host := t.host, nlog := t.nlog, out := t.out }) : OnlyReports s t := by
  have hf : t.fab = s.fab := by rw [h]
  have hv : t.hostVoid = s.hostVoid := by rw [h]; rfl
  refine ⟨?_, fun _ => hf⟩
  rw [hv, withHostVoid_self]
  exact h

theorem OnlyReports.refl (s : State) : OnlyReports s s := .of_eq rfl

theorem OnlyReports.stopped {s t : State} (h : OnlyReports s t) (x : Nat) : t.xingStopped x = s.xingStopped x := by
  rw [h.1]
  exact withHostVoid_stopped s t.hostVoid x

theorem OnlyReports.trans {s t u : State} (h : OnlyReports s t) (k : OnlyReports t u) : OnlyReports s u := by
  refine ⟨?_, fun hs => (k.2 ((h.stopped 0x01).trans hs)).trans (h.2 hs)⟩
  have e : t.withHostVoid u.hostVoid
      = { s.withHostVoid u.hostVoid with host := t.host, nlog := t.nlog, out := t.out } := by
    rw [← withHostVoid_twice s t.hostVoid u.hostVoid]
    exact congrArg (fun x => State.withHostVoid x u.hostVoid) h.1
  exact k.1.trans (by rw [e])

theorem OnlyReports.setup {s t : State} (h : OnlyReports s t) : t.setup = s.setup := by
  rw [h.1]
  rfl
theorem OnlyReports.answers {s t : State} (h : OnlyReports s t) : OnlyAnswers s t := by
  unfold OnlyAnswers
  rw [h.setup]
  exact h
theorem OnlyAnswers.refl (s : State) : OnlyAnswers s s := (OnlyReports.refl s).answers
theorem OnlyAnswers.stopped {s t : State} (h : OnlyAnswers s t) (x : Nat) : t.xingStopped x = s.xingStopped x :=
  OnlyReports.stopped h x
theorem OnlyAnswers.trans {s t u : State} (h : OnlyAnswers s t) (k : OnlyAnswers t u) : OnlyAnswers s u := by
  refine OnlyReports.trans (t := { t with setup := u.setup }) ⟨?_, fun hs => h.2 hs⟩ k
  have e := congrArg (fun x : State => { x with setup := u.setup }) h.1
  exact e

/-! ### Reports -/

theorem emit_only (s : State) (o : Output) : OnlyReports s (s.emit o) := .of_eq rfl
theorem setRpt_only (s : State) (k : Nat) (f : RptRing → RptRing) : OnlyReports s (s.setRpt k f) := .of_eq rfl
theorem setOrd_only (s : State) (r : Nat) (f : OrdRing → OrdRing) : OnlyReports s (s.setOrd r f) := .of_eq rfl
theorem setSrc_only (s : State) (n : Nat) (x : SrcState) : OnlyReports s (s.setSrc n x) := .of_eq rfl

/-- What leaves for the host leaves by crossing 0x01, or is counted there (R67). -/
theorem toHost_cases (s : State) (o : Output) :
    (s.xingStopped 0x01 = false ∧ s.toHost o = s.emit o) ∨ (s.xingStopped 0x01 = true ∧ s.toHost o = s.xingVoid 0x01) := by
  cases h : s.xingStopped 0x01 with
  | false => exact .inl ⟨rfl, by simp [State.toHost, State.cross, h]⟩
  | true => exact .inr ⟨rfl, by simp [State.toHost, State.cross, h]⟩

theorem toHost_running {s : State} (o : Output) (h : s.xingStopped 0x01 = false) : s.toHost o = s.emit o := by
  simp [State.toHost, State.cross, h]

theorem modify_void_of (l : List Crossing) (i : Nat) (f : Word → Word) :
    l.modify i (fun c => { c with void := f c.void })
      = l.modify i (fun c => { c with void := ((l.modify i (fun c => { c with void := f c.void })).getD i default).void }) := by
  induction l generalizing i with
  | nil => cases i <;> rfl
  | cons a l ih =>
    cases i with
    | zero => rfl
    | succ i => simpa using ih i

theorem hostVoid_only {s : State} (h : s.xingStopped 0x01 = true) : OnlyReports s (s.xingVoid 0x01) := by
  refine ⟨?_, fun k => by rw [h] at k; cases k⟩
  have e := modify_void_of s.fab.crossings 1 satInc
  simp only [State.xingVoid, State.xingCount, State.emit, State.withHostVoid, State.hostVoid, State.modXing, State.xing]
  rw [← e]

theorem toHost_only (s : State) (o : Output) : OnlyReports s (s.toHost o) := by
  obtain ⟨-, h⟩ | ⟨k, h⟩ := toHost_cases s o
  · rw [h]
    exact emit_only s o
  · rw [h]
    exact hostVoid_only k

theorem writeShadow_only (s : State) (r : Nat) (i : Word) : OnlyReports s (s.writeShadow r i) := by
  unfold State.writeShadow
  split
  · exact .refl s
  · exact toHost_only _ _

theorem fireVector_only (s : State) (k : Nat) : OnlyReports s (s.fireVector k) := by
  unfold State.fireVector
  split
  · exact .of_eq rfl
  · exact toHost_only _ _

theorem signal_only (s : State) (k : Nat) : OnlyReports s (s.signal k) :=
  ((setRpt_only s k _).trans (writeShadow_only _ _ _)).trans (fireVector_only _ _)

theorem putReport_only (s : State) (k : Nat) (r : Report) : OnlyReports s (s.putReport k r) := by
  unfold State.putReport
  extract_lets g size idx r' t u
  have h : OnlyReports s u := (toHost_only s _).trans (setRpt_only _ _ _)
  clear_value u
  split
  · exact h.trans (signal_only _ _)
  · exact h

theorem tryReport_only (s : State) (cls kind : Nat) (body : List Fld) : OnlyReports s (s.tryReport cls kind body).1 := by
  unfold State.tryReport
  dsimp only
  split
  · exact putReport_only _ _ _
  · exact OnlyReports.trans (t := { s with host := { s.host with dropCnt := satInc s.host.dropCnt } }) (.of_eq rfl) (setRpt_only _ _ _)

theorem logRecord_eq (s : State) (r : LogRec) :
    s.logRecord r = { s with host := (s.logRecord r).host, nlog := (s.logRecord r).nlog, out := (s.logRecord r).out } := by
  unfold State.logRecord
  dsimp only
  split
  · split <;> rfl
  · split
    · rfl
    · split <;> rfl

theorem logRecord_only (s : State) (r : LogRec) : OnlyReports s (s.logRecord r) := .of_eq (logRecord_eq s r)

theorem raiseCore_only (s : State) (src : Nat) (ps : List Fld) (logged : Bool) : OnlyReports s (s.raiseCore src ps logged).1 := by
  unfold State.raiseCore
  dsimp only
  split
  · have h1 : ∀ (c : Bool) (x : State) (y : SrcState), OnlyReports x (if c then x else x.setSrc src y) := by
      intro c x y
      split
      · exact .refl x
      · exact setSrc_only _ _ _
    have h2 : ∀ (x : State) (y : LogRec), OnlyReports x (if logged then x.logRecord y else x) := by
      intro x y
      split
      · exact logRecord_only _ _
      · exact .refl x
    refine OnlyReports.trans (OnlyReports.trans (OnlyReports.trans (?_ : OnlyReports s _) (h1 _ _ _)) (tryReport_only _ _ _ _)) (h2 _ _)
    exact .of_eq rfl
  · exact .of_eq rfl

theorem holdCount_only (s : State) (src key : Nat) (pre : List Fld) (n m : Nat) : OnlyReports s (s.holdCount src key pre n m) := .of_eq rfl
theorem startTimer_only (s : State) (src key : Nat) (pre : List Fld) (two : Bool) : OnlyReports s (s.startTimer src key pre two) := .of_eq rfl

theorem noteDrop_only (n : Nat) (s : State) (k : Option Nat) : OnlyReports s (s.noteDrop n k) := by
  induction n generalizing s k with
  | zero => cases k <;> exact .refl s
  | succ n ih =>
    cases k with
    | none => exact .refl s
    | some k =>
      unfold State.noteDrop
      split
      · exact holdCount_only _ _ _ _ _ _
      · exact ((startTimer_only s _ _ _ _).trans (raiseCore_only _ _ _ _)).trans (ih _ _)

/-- An event (R554, R595, R604): nothing but the log, the report rings and the outputs. -/
theorem raise_only (s : State) (src : Nat) (ps : List Fld) : OnlyReports s (s.raise src ps) :=
  (raiseCore_only s src ps true).trans (noteDrop_only 3 _ _)

theorem raiseReportOnly_only (s : State) (src : Nat) (ps : List Fld) : OnlyReports s (s.raiseReportOnly src ps) :=
  (raiseCore_only s src ps false).trans (noteDrop_only 3 _ _)

theorem raiseTimed2_only (s : State) (src key : Nat) (pre : List Fld) (two : Bool) (n m : Nat) :
    OnlyReports s (s.raiseTimed2 src key pre two n m) := by
  unfold State.raiseTimed2
  split
  · exact holdCount_only _ _ _ _ _ _
  · extract_lets t
    have h : OnlyReports s t := (startTimer_only s _ _ _ _).trans (raise_only _ _ _)
    clear_value t
    split
    · exact h.trans (holdCount_only _ _ _ _ _ _)
    · exact h

theorem raiseTimed_only (s : State) (src key : Nat) (pre : List Fld) : OnlyReports s (s.raiseTimed src key pre) :=
  raiseTimed2_only _ _ _ _ _ _ _

theorem report_only (s : State) (cls kind : Nat) (body : List Fld) : OnlyReports s (s.report cls kind body) :=
  (tryReport_only s cls kind body).trans (noteDrop_only 3 _ _)

/-! ### Orders -/

theorem handOverAll_only (s : State) : OnlyReports s s.handOverAll := .of_eq rfl

theorem settleRing_only (s : State) (r : Nat) : OnlyReports s (s.settleRing r) := by
  unfold State.settleRing
  dsimp only
  split
  · exact (setOrd_only s r _).trans (raise_only _ _ _)
  · exact .refl s

theorem finish_only (s : State) (l : LiveOrder) (kind st : Nat) (body : List Fld) : OnlyReports s (s.finish l kind st body) := by
  have drop : ∀ (x : State) (tag : Half) (gen : Byte),
      OnlyReports x { x with host := { x.host with live := eraseLive tag gen x.host.live } } := fun _ _ _ => .of_eq rfl
  unfold State.finish
  exact (((setRpt_only s l.rpt _).trans (putReport_only _ _ _)).trans (drop _ _ _)).trans
    ((handOverAll_only _).trans (settleRing_only _ _))

theorem lateCompletion_only (s : State) : OnlyReports s s.lateCompletion := by
  unfold State.lateCompletion
  exact OnlyReports.trans (t := { s with host := { s.host with lateCnt := satInc s.host.lateCnt } }) (.of_eq rfl) (raiseTimed_only _ _ _ _)

/-- An order's completion (R540, R559). -/
theorem answer_only (s : State) (ref : OrderRef) (op : Nat) (a : Answer) : OnlyAnswers s (s.answer ref op a) := by
  unfold State.answer
  split
  · split
    · split
      · exact (OnlyReports.trans (t := { s with host := { s.host with live := eraseLive _ _ s.host.live } }) (.of_eq rfl)
          (lateCompletion_only _)).answers
      · exact (finish_only _ _ _ _ _).answers
    · exact (lateCompletion_only s).answers
  · split
    · exact .refl s
    · exact OnlyAnswers.trans
        (t := { s with setup := { s.setup with faults := true, refused := min (s.setup.refused + 1) 0xFFFF } }) (.refl _)
        (raise_only _ _ _).answers

theorem markStarted_only (s : State) (ref : OrderRef) : OnlyReports s (s.markStarted ref) := by
  cases ref <;> exact .of_eq rfl

/-- Running an order does what its function does, or nothing where the order has not reached it (R534). -/
theorem runOrder_cases (s : State) (ref : OrderRef) (op : Nat) (f : State → State) :
    s.runOrder ref op f = f (s.markStarted ref) ∨ s.runOrder ref op f = s := by
  unfold State.runOrder
  split
  · exact .inl rfl
  · exact .inr rfl

theorem runOrder_ready {s : State} {ref : OrderRef} {op : Nat} (f : State → State) (h : s.orderReady ref op = true) :
    s.runOrder ref op f = f (s.markStarted ref) := by
  simp [State.runOrder, h]

/-! ### Free values, calibrated readings -/

/-! FIT (R492) and crossings (R67). -/

theorem judgeFit_cases (s : State) :
    (s.judgeFit = s ∧ s.twinFit = s.twin.fit) ∨ (OnlyReports s.fitNow s.judgeFit ∧ s.twinFit ≠ s.twin.fit) := by
  unfold State.judgeFit
  split
  · exact .inl ⟨rfl, ‹_›⟩
  · exact .inr ⟨raise_only _ _ _, ‹_›⟩

theorem fitNow_same {s : State} (h : s.twinFit = s.twin.fit) : s.fitNow = s := by
  unfold State.fitNow
  rw [h]

/-- What judging FIT can do: it notes FIT, and reports where it has changed. -/
theorem judgeFit_only (s : State) : OnlyReports s.fitNow s.judgeFit := by
  obtain ⟨h, k⟩ | ⟨h, -⟩ := judgeFit_cases s
  · rw [h, fitNow_same k]
    exact OnlyReports.refl s
  · exact h

theorem xingVoids_only (xs : List Nat) (s : State) :
    xs.foldl State.xingVoid s
      = { s with
          fab := { s.fab with crossings := (xs.foldl State.xingVoid s).fab.crossings }, out := (xs.foldl State.xingVoid s).out } := by
  induction xs generalizing s with
  | nil => rfl
  | cons x xs ih =>
    rw [List.foldl_cons, ih]
    rfl

/-- An output whose crossings all run leaves, and nothing else changes. -/
theorem cross_running {s : State} {xs : List Nat} (o : Output) (hx : xs ≠ []) (h : ∀ x ∈ xs, s.xingStopped x = false) :
    s.cross xs o = s.emit o := by
  have hn : xs.filter s.xingStopped = [] := List.filter_eq_nil_iff.mpr (fun x hx => by simp [h x hx])
  have ha : xs.all s.xingStopped = false := by
    cases xs with
    | nil => exact absurd rfl hx
    | cons x xs => simp [h x (by simp)]
  simp [State.cross, hn, ha]

/-- An output whose crossings are all stopped does not leave; each counts it. -/
theorem cross_stopped {s : State} {xs : List Nat} (o : Output) (h : ∀ x ∈ xs, s.xingStopped x = true) :
    s.cross xs o = xs.foldl State.xingVoid s := by
  have hn : xs.filter s.xingStopped = xs := List.filter_eq_self.mpr h
  have ha : xs.all s.xingStopped = true := List.all_eq_true.mpr h
  simp [State.cross, hn, ha]

/-- Handing an output to its crossings changes only their counts and the outputs. -/
theorem cross_only (s : State) (xs : List Nat) (o : Output) :
    s.cross xs o = { s with fab := { s.fab with crossings := (s.cross xs o).fab.crossings }, out := (s.cross xs o).out } := by
  unfold State.cross
  simp only
  rw [xingVoids_only]
  split <;> rfl

theorem takeFree_only (s : State) (site : Nat) : (s.takeFree site).2 = { s with freeCnt := s.freeCnt + 1 } := rfl

/-- A reading may take one free value and changes nothing else. -/
theorem sensed_only (s : State) (k mv : Nat) : (s.sensed k mv).1 = { s with freeCnt := (s.sensed k mv).1.freeCnt } := by
  unfold State.sensed State.openRound
  dsimp only
  split <;> rfl

theorem deckTemp_only (s : State) (d raw : Nat) : (s.deckTemp d raw).1 = { s with freeCnt := (s.deckTemp d raw).1.freeCnt } := by
  unfold State.deckTemp State.openRound
  dsimp only
  split <;> rfl

/-! ### Outputs stay, live orders stay -/

/-- `t` has every output of `s`. -/
def OutGrows (s t : State) : Prop := ∃ o, t.out = s.out ++ o

theorem OutGrows.refl (s : State) : OutGrows s s := ⟨[], by simp⟩
theorem OutGrows.trans {s t u : State} (h : OutGrows s t) (k : OutGrows t u) : OutGrows s u := by
  obtain ⟨a, ha⟩ := h
  obtain ⟨b, hb⟩ := k
  exact ⟨a ++ b, by rw [hb, ha, List.append_assoc]⟩
theorem OutGrows.mem {s t : State} (h : OutGrows s t) {o : Output} (m : o ∈ s.out) : o ∈ t.out := by
  obtain ⟨a, ha⟩ := h
  rw [ha]
  exact List.mem_append_left _ m

theorem emit_grows (s : State) (o : Output) : OutGrows s (s.emit o) := ⟨[o], rfl⟩
theorem same_grows {s t : State} (h : t.out = s.out) : OutGrows s t := ⟨[], by simp [h]⟩

theorem toHost_grows (s : State) (o : Output) : OutGrows s (s.toHost o) := by
  obtain ⟨-, h⟩ | ⟨-, h⟩ := toHost_cases s o <;> rw [h]
  · exact emit_grows s o
  · exact ⟨[.xingAck 0x01 .void], rfl⟩

theorem signal_grows (s : State) (k : Nat) : OutGrows s (s.signal k) := by
  have h1 : ∀ (x : State) (r : Nat) (i : Word), OutGrows x (x.writeShadow r i) := by
    intro x r i
    unfold State.writeShadow
    split
    · exact OutGrows.refl x
    · exact toHost_grows _ _
  have h2 : ∀ (x : State) (j : Nat), OutGrows x (x.fireVector j) := by
    intro x j
    unfold State.fireVector
    split
    · exact same_grows rfl
    · exact toHost_grows _ _
  exact ((same_grows (t := s.setRpt k (fun g => { g with unsignalled := 0 })) rfl).trans (h1 _ _ _)).trans (h2 _ _)

theorem putReport_grows (s : State) (k : Nat) (r : Report) : OutGrows s (s.putReport k r) := by
  unfold State.putReport
  extract_lets g size idx r' t u
  have h : OutGrows s u := (toHost_grows s (.report k idx r')).trans (same_grows rfl)
  clear_value u
  split
  · exact h.trans (signal_grows _ _)
  · exact h

/-- The report is written, with its phase and stamp (R530, R531). -/
theorem putReport_out {s : State} (h : s.xingStopped 0x01 = false) (k : Nat) (r : Report) :
    ∃ i p w, Output.report k i { r with phase := p, stamp := w } ∈ (s.putReport k r).out := by
  unfold State.putReport
  extract_lets g size idx r' t u
  refine ⟨idx, r'.phase, r'.stamp, ?_⟩
  have ht : t = s.emit (.report k idx r') := toHost_running _ h
  have m : Output.report k idx r' ∈ u.out := by
    change Output.report k idx r' ∈ t.out
    rw [ht]
    exact List.mem_append_right _ (List.mem_singleton_self _)
  clear_value u
  split
  · exact (signal_grows u k).mem m
  · exact m

theorem tryReport_grows (s : State) (cls kind : Nat) (body : List Fld) : OutGrows s (s.tryReport cls kind body).1 := by
  unfold State.tryReport
  dsimp only
  split
  · exact putReport_grows _ _ _
  · exact same_grows rfl

theorem raiseCore_grows (s : State) (src : Nat) (ps : List Fld) (logged : Bool) : OutGrows s (s.raiseCore src ps logged).1 := by
  have hl : ∀ (x : State) (y : LogRec), (x.logRecord y).out = x.out := fun x y => by
    unfold State.logRecord
    dsimp only
    split
    · split <;> rfl
    · split
      · rfl
      · split <;> rfl
  have h1 : ∀ (c : Bool) (x : State) (y : SrcState), OutGrows x (if c then x else x.setSrc src y) := by
    intro c x y
    split
    · exact OutGrows.refl x
    · exact same_grows rfl
  have h2 : ∀ (x : State) (y : LogRec), OutGrows x (if logged then x.logRecord y else x) := by
    intro x y
    split
    · exact same_grows (hl _ _)
    · exact OutGrows.refl x
  unfold State.raiseCore
  dsimp only
  split
  · refine OutGrows.trans (OutGrows.trans (OutGrows.trans (?_ : OutGrows s _) (h1 _ _ _)) (tryReport_grows _ _ _ _)) (h2 _ _)
    exact same_grows rfl
  · exact same_grows rfl

theorem noteDrop_grows (n : Nat) (s : State) (k : Option Nat) : OutGrows s (s.noteDrop n k) := by
  induction n generalizing s k with
  | zero => cases k <;> exact OutGrows.refl _
  | succ n ih =>
    cases k with
    | none => exact OutGrows.refl _
    | some k =>
      unfold State.noteDrop
      split
      · exact same_grows rfl
      · exact ((same_grows (t := s.startTimer 0xD6 k [u16 k] false) rfl).trans (raiseCore_grows _ _ _ _)).trans (ih _ _)

theorem raise_grows (s : State) (src : Nat) (ps : List Fld) : OutGrows s (s.raise src ps) :=
  (raiseCore_grows s src ps true).trans (noteDrop_grows 3 _ _)

theorem finish_reports {s : State} (h : s.xingStopped 0x01 = false) (l : LiveOrder) (kind st : Nat) (body : List Fld) :
    ∃ i r, Output.report l.rpt i r ∈ (s.finish l kind st body).out ∧ r.kind = kind
      ∧ r.tag = l.tag ∧ r.gen = l.gen ∧ r.status = st ∧ r.ring = l.ring ∧ r.user = l.user ∧ r.body = body := by
  have hs : ∀ (x : State) (r : Nat), OutGrows x (x.settleRing r) := fun x r => by
    unfold State.settleRing
    dsimp only
    split
    · exact (same_grows (t := x.setOrd r (fun o => { o with en := .disabled })) rfl).trans (raise_grows _ _ _)
    · exact OutGrows.refl x
  have hd : ∀ (x : State) (tag : Half) (gen : Byte) (k : Nat),
      OutGrows x (({ x with host := { x.host with live := eraseLive tag gen x.host.live } } : State).handOverAll.settleRing k) :=
    fun x tag gen k => (same_grows rfl).trans (hs _ k)
  unfold State.finish
  obtain ⟨i, p, w, hm⟩ := putReport_out (s := s.setRpt l.rpt (fun g => { g with reserved := g.reserved - 1 })) h l.rpt
    ⟨kind, l.tag, l.gen, st, l.ring, false, false, 0, l.user, body⟩
  exact ⟨i, _, (hd _ _ _ _).mem hm, rfl, rfl, rfl, rfl, rfl, rfl, rfl⟩

theorem findLive_markStarted (s : State) (tag : Half) (gen : Byte) (ref : OrderRef) :
    (s.markStarted ref).findLive tag gen = (s.findLive tag gen).map (fun l =>
      match ref with
      | .host t g => if l.is t g then { l with started := true } else l
      | .setup _ => l) := by
  cases ref with
  | setup i => simp [State.markStarted]
  | host t g =>
    simp only [State.findLive, State.markStarted, List.find?_map]
    congr 1
    · congr 1
      funext l
      have hc : ∀ (c : Prop) [Decidable c], LiveOrder.is (if c then { l with started := true } else l) tag gen = l.is tag gen := by
        intro c _
        split <;> rfl
      exact hc _

theorem toHost_live (s : State) (o : Output) : (s.toHost o).host.live = s.host.live := by
  obtain ⟨-, h⟩ | ⟨-, h⟩ := toHost_cases s o <;> rw [h] <;> rfl

theorem signal_live (s : State) (k : Nat) : (s.signal k).host.live = s.host.live := by
  have h1 : ∀ (x : State) (r : Nat) (i : Word), (x.writeShadow r i).host.live = x.host.live := by
    intro x r i
    unfold State.writeShadow
    split
    · rfl
    · exact toHost_live _ _
  have h2 : ∀ (x : State) (j : Nat), (x.fireVector j).host.live = x.host.live := by
    intro x j
    unfold State.fireVector
    split
    · rfl
    · exact toHost_live _ _
  exact (h2 _ _).trans (h1 _ _ _)

theorem putReport_live (s : State) (k : Nat) (r : Report) : (s.putReport k r).host.live = s.host.live := by
  unfold State.putReport
  extract_lets g size idx r' t u
  have h : u.host.live = s.host.live := toHost_live s (.report k idx r')
  clear_value u
  split
  · exact (signal_live _ _).trans h
  · exact h

theorem tryReport_live (s : State) (cls kind : Nat) (body : List Fld) :
    (s.tryReport cls kind body).1.host.live = s.host.live := by
  unfold State.tryReport
  dsimp only
  split
  · exact putReport_live _ _ _
  · rfl

theorem raiseCore_live (s : State) (src : Nat) (ps : List Fld) (logged : Bool) :
    (s.raiseCore src ps logged).1.host.live = s.host.live := by
  have h1 : ∀ (c : Bool) (x : State) (y : SrcState), (if c then x else x.setSrc src y).host.live = x.host.live := by
    intro c x y
    split <;> rfl
  have h2 : ∀ (x : State) (y : LogRec), (if logged then x.logRecord y else x).host.live = x.host.live := by
    intro x y
    split
    · unfold State.logRecord
      dsimp only
      split
      · split <;> rfl
      · split
        · rfl
        · split <;> rfl
    · rfl
  unfold State.raiseCore
  dsimp only
  split
  · exact (h2 _ _).trans ((tryReport_live _ _ _ _).trans ((h1 _ _ _).trans rfl))
  · rfl

theorem noteDrop_live (n : Nat) (s : State) (k : Option Nat) : (s.noteDrop n k).host.live = s.host.live := by
  induction n generalizing s k with
  | zero => cases k <;> rfl
  | succ n ih =>
    cases k with
    | none => rfl
    | some k =>
      unfold State.noteDrop
      split
      · rfl
      · exact (ih _ _).trans (raiseCore_live _ _ _ _)

/-- Raising an event leaves every live order where it is. -/
theorem raise_live (s : State) (src : Nat) (ps : List Fld) : (s.raise src ps).host.live = s.host.live :=
  (noteDrop_live 3 _ _).trans (raiseCore_live s src ps true)

theorem raiseTimed_live (s : State) (src key : Nat) (pre : List Fld) : (s.raiseTimed src key pre).host.live = s.host.live := by
  unfold State.raiseTimed State.raiseTimed2
  split
  · rfl
  · extract_lets u
    have h : u.host.live = s.host.live := raise_live _ _ _
    clear_value u
    split
    · exact absurd ‹1 < 1› (by decide)
    · exact h

theorem report_live (s : State) (cls kind : Nat) (body : List Fld) : (s.report cls kind body).host.live = s.host.live :=
  (noteDrop_live 3 _ _).trans (tryReport_live s cls kind body)

/-- The completion of an order that has been taken, from any state with the same live orders. -/
theorem answer_answers {s t : State} {ref : OrderRef} (h : t.host.live = (s.markStarted ref).host.live) (op : Nat) (a : Answer) :
    Answered s ref op a.status a.body (t.answer ref op a) := by
  cases ref with
  | setup i => trivial
  | host tag gen =>
    intro l hl hdead hrun
    rw [(answer_only t (.host tag gen) op a).stopped] at hrun
    have ht : t.findLive tag gen = some (if l.is tag gen then { l with started := true } else l) := by
      have := findLive_markStarted s tag gen (.host tag gen)
      rw [hl] at this
      unfold State.findLive at *
      rw [h]
      simpa using this
    unfold State.answer
    simp only [ht]
    have hd : (if l.is tag gen then { l with started := true } else l : LiveOrder).dead = false := by
      split <;> exact hdead
    simp only [hd]
    obtain ⟨i, r, hm, hk, h1, h2, h3, h4, h5, h6⟩ := finish_reports hrun
      (if l.is tag gen then { l with started := true } else l) (0x8000 + op) a.status a.body
    refine ⟨i, r, ?_, hk, ?_, ?_, h3, ?_, ?_, h6⟩
    · have : (if l.is tag gen then { l with started := true } else l : LiveOrder).rpt = l.rpt := by split <;> rfl
      rw [this] at hm
      exact hm
    · rw [h1]; split <;> rfl
    · rw [h2]; split <;> rfl
    · rw [h4]; split <;> rfl
    · rw [h5]; split <;> rfl

end Sys2Proof.Machine
end

