-- ==== Sys2Proof/Laws/State.lean ====
section
/-! SUPPORT. One lemma per field of State and named update: the field an update writes, and every field it leaves. The same for the
operations that raise, report and answer. -/

namespace Sys2Proof.Machine

open Sys2Proof

/-! `State.emit` writes `out`. -/

section

variable (s : State) (o : Output)

@[simp] theorem State.emit_out : (s.emit o).out = s.out ++ [o] := rfl
@[simp] theorem State.emit_now : (s.emit o).now = s.now := rfl
@[simp] theorem State.emit_clockOfs : (s.emit o).clockOfs = s.clockOfs := rfl
@[simp] theorem State.emit_freeCnt : (s.emit o).freeCnt = s.freeCnt := rfl
@[simp] theorem State.emit_regs : (s.emit o).regs = s.regs := rfl
@[simp] theorem State.emit_fuses : (s.emit o).fuses = s.fuses := rfl
@[simp] theorem State.emit_host : (s.emit o).host = s.host := rfl
@[simp] theorem State.emit_nlog : (s.emit o).nlog = s.nlog := rfl
@[simp] theorem State.emit_time : (s.emit o).time = s.time := rfl
@[simp] theorem State.emit_ring : (s.emit o).ring = s.ring := rfl
@[simp] theorem State.emit_twin : (s.emit o).twin = s.twin := rfl
@[simp] theorem State.emit_sup : (s.emit o).sup = s.sup := rfl
@[simp] theorem State.emit_setup : (s.emit o).setup = s.setup := rfl
@[simp] theorem State.emit_fab : (s.emit o).fab = s.fab := rfl
@[simp] theorem State.emit_place : (s.emit o).place = s.place := rfl
@[simp] theorem State.emit_model : (s.emit o).model = s.model := rfl
@[simp] theorem State.emit_reck : (s.emit o).reck = s.reck := rfl
@[simp] theorem State.emit_la : (s.emit o).la = s.la := rfl
@[simp] theorem State.emit_opt : (s.emit o).opt = s.opt := rfl
@[simp] theorem State.emit_roll : (s.emit o).roll = s.roll := rfl
@[simp] theorem State.emit_stn : (s.emit o).stn = s.stn := rfl
@[simp] theorem State.emit_loops : (s.emit o).loops = s.loops := rfl
@[simp] theorem State.emit_tally : (s.emit o).tally = s.tally := rfl
@[simp] theorem State.emit_meter : (s.emit o).meter = s.meter := rfl
@[simp] theorem State.emit_can : (s.emit o).can = s.can := rfl
@[simp] theorem State.emit_panel : (s.emit o).panel = s.panel := rfl
@[simp] theorem State.emit_tag : (s.emit o).tag = s.tag := rfl
@[simp] theorem State.emit_svc : (s.emit o).svc = s.svc := rfl
@[simp] theorem State.emit_cal : (s.emit o).cal = s.cal := rfl
@[simp] theorem State.emit_fw : (s.emit o).fw = s.fw := rfl
@[simp] theorem State.emit_pending : (s.emit o).pending = s.pending := rfl

end

/-! `State.setReg` writes `regs`. -/

section

variable (s : State) (o : Nat) (v : Word)

@[simp] theorem State.setReg_now : (s.setReg o v).now = s.now := rfl
@[simp] theorem State.setReg_clockOfs : (s.setReg o v).clockOfs = s.clockOfs := rfl
@[simp] theorem State.setReg_freeCnt : (s.setReg o v).freeCnt = s.freeCnt := rfl
@[simp] theorem State.setReg_fuses : (s.setReg o v).fuses = s.fuses := rfl
@[simp] theorem State.setReg_host : (s.setReg o v).host = s.host := rfl
@[simp] theorem State.setReg_nlog : (s.setReg o v).nlog = s.nlog := rfl
@[simp] theorem State.setReg_time : (s.setReg o v).time = s.time := rfl
@[simp] theorem State.setReg_ring : (s.setReg o v).ring = s.ring := rfl
@[simp] theorem State.setReg_twin : (s.setReg o v).twin = s.twin := rfl
@[simp] theorem State.setReg_sup : (s.setReg o v).sup = s.sup := rfl
@[simp] theorem State.setReg_setup : (s.setReg o v).setup = s.setup := rfl
@[simp] theorem State.setReg_fab : (s.setReg o v).fab = s.fab := rfl
@[simp] theorem State.setReg_place : (s.setReg o v).place = s.place := rfl
@[simp] theorem State.setReg_model : (s.setReg o v).model = s.model := rfl
@[simp] theorem State.setReg_reck : (s.setReg o v).reck = s.reck := rfl
@[simp] theorem State.setReg_la : (s.setReg o v).la = s.la := rfl
@[simp] theorem State.setReg_opt : (s.setReg o v).opt = s.opt := rfl
@[simp] theorem State.setReg_roll : (s.setReg o v).roll = s.roll := rfl
@[simp] theorem State.setReg_stn : (s.setReg o v).stn = s.stn := rfl
@[simp] theorem State.setReg_loops : (s.setReg o v).loops = s.loops := rfl
@[simp] theorem State.setReg_tally : (s.setReg o v).tally = s.tally := rfl
@[simp] theorem State.setReg_meter : (s.setReg o v).meter = s.meter := rfl
@[simp] theorem State.setReg_can : (s.setReg o v).can = s.can := rfl
@[simp] theorem State.setReg_panel : (s.setReg o v).panel = s.panel := rfl
@[simp] theorem State.setReg_tag : (s.setReg o v).tag = s.tag := rfl
@[simp] theorem State.setReg_svc : (s.setReg o v).svc = s.svc := rfl
@[simp] theorem State.setReg_cal : (s.setReg o v).cal = s.cal := rfl
@[simp] theorem State.setReg_fw : (s.setReg o v).fw = s.fw := rfl
@[simp] theorem State.setReg_out : (s.setReg o v).out = s.out := rfl
@[simp] theorem State.setReg_pending : (s.setReg o v).pending = s.pending := rfl

end

/-! `State.setRpt` writes `host`. -/

section

variable (s : State) (k : Nat) (f : RptRing → RptRing)

@[simp] theorem State.setRpt_now : (s.setRpt k f).now = s.now := rfl
@[simp] theorem State.setRpt_clockOfs : (s.setRpt k f).clockOfs = s.clockOfs := rfl
@[simp] theorem State.setRpt_freeCnt : (s.setRpt k f).freeCnt = s.freeCnt := rfl
@[simp] theorem State.setRpt_regs : (s.setRpt k f).regs = s.regs := rfl
@[simp] theorem State.setRpt_fuses : (s.setRpt k f).fuses = s.fuses := rfl
@[simp] theorem State.setRpt_nlog : (s.setRpt k f).nlog = s.nlog := rfl
@[simp] theorem State.setRpt_time : (s.setRpt k f).time = s.time := rfl
@[simp] theorem State.setRpt_ring : (s.setRpt k f).ring = s.ring := rfl
@[simp] theorem State.setRpt_twin : (s.setRpt k f).twin = s.twin := rfl
@[simp] theorem State.setRpt_sup : (s.setRpt k f).sup = s.sup := rfl
@[simp] theorem State.setRpt_setup : (s.setRpt k f).setup = s.setup := rfl
@[simp] theorem State.setRpt_fab : (s.setRpt k f).fab = s.fab := rfl
@[simp] theorem State.setRpt_place : (s.setRpt k f).place = s.place := rfl
@[simp] theorem State.setRpt_model : (s.setRpt k f).model = s.model := rfl
@[simp] theorem State.setRpt_reck : (s.setRpt k f).reck = s.reck := rfl
@[simp] theorem State.setRpt_la : (s.setRpt k f).la = s.la := rfl
@[simp] theorem State.setRpt_opt : (s.setRpt k f).opt = s.opt := rfl
@[simp] theorem State.setRpt_roll : (s.setRpt k f).roll = s.roll := rfl
@[simp] theorem State.setRpt_stn : (s.setRpt k f).stn = s.stn := rfl
@[simp] theorem State.setRpt_loops : (s.setRpt k f).loops = s.loops := rfl
@[simp] theorem State.setRpt_tally : (s.setRpt k f).tally = s.tally := rfl
@[simp] theorem State.setRpt_meter : (s.setRpt k f).meter = s.meter := rfl
@[simp] theorem State.setRpt_can : (s.setRpt k f).can = s.can := rfl
@[simp] theorem State.setRpt_panel : (s.setRpt k f).panel = s.panel := rfl
@[simp] theorem State.setRpt_tag : (s.setRpt k f).tag = s.tag := rfl
@[simp] theorem State.setRpt_svc : (s.setRpt k f).svc = s.svc := rfl
@[simp] theorem State.setRpt_cal : (s.setRpt k f).cal = s.cal := rfl
@[simp] theorem State.setRpt_fw : (s.setRpt k f).fw = s.fw := rfl
@[simp] theorem State.setRpt_out : (s.setRpt k f).out = s.out := rfl
@[simp] theorem State.setRpt_pending : (s.setRpt k f).pending = s.pending := rfl

end

/-! `State.setOrd` writes `host`. -/

section

variable (s : State) (r : Nat) (f : OrdRing → OrdRing)

@[simp] theorem State.setOrd_now : (s.setOrd r f).now = s.now := rfl
@[simp] theorem State.setOrd_clockOfs : (s.setOrd r f).clockOfs = s.clockOfs := rfl
@[simp] theorem State.setOrd_freeCnt : (s.setOrd r f).freeCnt = s.freeCnt := rfl
@[simp] theorem State.setOrd_regs : (s.setOrd r f).regs = s.regs := rfl
@[simp] theorem State.setOrd_fuses : (s.setOrd r f).fuses = s.fuses := rfl
@[simp] theorem State.setOrd_nlog : (s.setOrd r f).nlog = s.nlog := rfl
@[simp] theorem State.setOrd_time : (s.setOrd r f).time = s.time := rfl
@[simp] theorem State.setOrd_ring : (s.setOrd r f).ring = s.ring := rfl
@[simp] theorem State.setOrd_twin : (s.setOrd r f).twin = s.twin := rfl
@[simp] theorem State.setOrd_sup : (s.setOrd r f).sup = s.sup := rfl
@[simp] theorem State.setOrd_setup : (s.setOrd r f).setup = s.setup := rfl
@[simp] theorem State.setOrd_fab : (s.setOrd r f).fab = s.fab := rfl
@[simp] theorem State.setOrd_place : (s.setOrd r f).place = s.place := rfl
@[simp] theorem State.setOrd_model : (s.setOrd r f).model = s.model := rfl
@[simp] theorem State.setOrd_reck : (s.setOrd r f).reck = s.reck := rfl
@[simp] theorem State.setOrd_la : (s.setOrd r f).la = s.la := rfl
@[simp] theorem State.setOrd_opt : (s.setOrd r f).opt = s.opt := rfl
@[simp] theorem State.setOrd_roll : (s.setOrd r f).roll = s.roll := rfl
@[simp] theorem State.setOrd_stn : (s.setOrd r f).stn = s.stn := rfl
@[simp] theorem State.setOrd_loops : (s.setOrd r f).loops = s.loops := rfl
@[simp] theorem State.setOrd_tally : (s.setOrd r f).tally = s.tally := rfl
@[simp] theorem State.setOrd_meter : (s.setOrd r f).meter = s.meter := rfl
@[simp] theorem State.setOrd_can : (s.setOrd r f).can = s.can := rfl
@[simp] theorem State.setOrd_panel : (s.setOrd r f).panel = s.panel := rfl
@[simp] theorem State.setOrd_tag : (s.setOrd r f).tag = s.tag := rfl
@[simp] theorem State.setOrd_svc : (s.setOrd r f).svc = s.svc := rfl
@[simp] theorem State.setOrd_cal : (s.setOrd r f).cal = s.cal := rfl
@[simp] theorem State.setOrd_fw : (s.setOrd r f).fw = s.fw := rfl
@[simp] theorem State.setOrd_out : (s.setOrd r f).out = s.out := rfl
@[simp] theorem State.setOrd_pending : (s.setOrd r f).pending = s.pending := rfl

end

/-! `State.setSrc` writes `nlog`. -/

section

variable (s : State) (n : Nat) (x : SrcState)

@[simp] theorem State.setSrc_now : (s.setSrc n x).now = s.now := rfl
@[simp] theorem State.setSrc_clockOfs : (s.setSrc n x).clockOfs = s.clockOfs := rfl
@[simp] theorem State.setSrc_freeCnt : (s.setSrc n x).freeCnt = s.freeCnt := rfl
@[simp] theorem State.setSrc_regs : (s.setSrc n x).regs = s.regs := rfl
@[simp] theorem State.setSrc_fuses : (s.setSrc n x).fuses = s.fuses := rfl
@[simp] theorem State.setSrc_host : (s.setSrc n x).host = s.host := rfl
@[simp] theorem State.setSrc_time : (s.setSrc n x).time = s.time := rfl
@[simp] theorem State.setSrc_ring : (s.setSrc n x).ring = s.ring := rfl
@[simp] theorem State.setSrc_twin : (s.setSrc n x).twin = s.twin := rfl
@[simp] theorem State.setSrc_sup : (s.setSrc n x).sup = s.sup := rfl
@[simp] theorem State.setSrc_setup : (s.setSrc n x).setup = s.setup := rfl
@[simp] theorem State.setSrc_fab : (s.setSrc n x).fab = s.fab := rfl
@[simp] theorem State.setSrc_place : (s.setSrc n x).place = s.place := rfl
@[simp] theorem State.setSrc_model : (s.setSrc n x).model = s.model := rfl
@[simp] theorem State.setSrc_reck : (s.setSrc n x).reck = s.reck := rfl
@[simp] theorem State.setSrc_la : (s.setSrc n x).la = s.la := rfl
@[simp] theorem State.setSrc_opt : (s.setSrc n x).opt = s.opt := rfl
@[simp] theorem State.setSrc_roll : (s.setSrc n x).roll = s.roll := rfl
@[simp] theorem State.setSrc_stn : (s.setSrc n x).stn = s.stn := rfl
@[simp] theorem State.setSrc_loops : (s.setSrc n x).loops = s.loops := rfl
@[simp] theorem State.setSrc_tally : (s.setSrc n x).tally = s.tally := rfl
@[simp] theorem State.setSrc_meter : (s.setSrc n x).meter = s.meter := rfl
@[simp] theorem State.setSrc_can : (s.setSrc n x).can = s.can := rfl
@[simp] theorem State.setSrc_panel : (s.setSrc n x).panel = s.panel := rfl
@[simp] theorem State.setSrc_tag : (s.setSrc n x).tag = s.tag := rfl
@[simp] theorem State.setSrc_svc : (s.setSrc n x).svc = s.svc := rfl
@[simp] theorem State.setSrc_cal : (s.setSrc n x).cal = s.cal := rfl
@[simp] theorem State.setSrc_fw : (s.setSrc n x).fw = s.fw := rfl
@[simp] theorem State.setSrc_out : (s.setSrc n x).out = s.out := rfl
@[simp] theorem State.setSrc_pending : (s.setSrc n x).pending = s.pending := rfl

end

/-! `State.setBus` writes `can`. -/

section

variable (s : State) (b : Nat) (f : Bus → Bus)

@[simp] theorem State.setBus_can : (s.setBus b f).can = s.can.modify b f := rfl
@[simp] theorem State.setBus_now : (s.setBus b f).now = s.now := rfl
@[simp] theorem State.setBus_clockOfs : (s.setBus b f).clockOfs = s.clockOfs := rfl
@[simp] theorem State.setBus_freeCnt : (s.setBus b f).freeCnt = s.freeCnt := rfl
@[simp] theorem State.setBus_regs : (s.setBus b f).regs = s.regs := rfl
@[simp] theorem State.setBus_fuses : (s.setBus b f).fuses = s.fuses := rfl
@[simp] theorem State.setBus_host : (s.setBus b f).host = s.host := rfl
@[simp] theorem State.setBus_nlog : (s.setBus b f).nlog = s.nlog := rfl
@[simp] theorem State.setBus_time : (s.setBus b f).time = s.time := rfl
@[simp] theorem State.setBus_ring : (s.setBus b f).ring = s.ring := rfl
@[simp] theorem State.setBus_twin : (s.setBus b f).twin = s.twin := rfl
@[simp] theorem State.setBus_sup : (s.setBus b f).sup = s.sup := rfl
@[simp] theorem State.setBus_setup : (s.setBus b f).setup = s.setup := rfl
@[simp] theorem State.setBus_fab : (s.setBus b f).fab = s.fab := rfl
@[simp] theorem State.setBus_place : (s.setBus b f).place = s.place := rfl
@[simp] theorem State.setBus_model : (s.setBus b f).model = s.model := rfl
@[simp] theorem State.setBus_reck : (s.setBus b f).reck = s.reck := rfl
@[simp] theorem State.setBus_la : (s.setBus b f).la = s.la := rfl
@[simp] theorem State.setBus_opt : (s.setBus b f).opt = s.opt := rfl
@[simp] theorem State.setBus_roll : (s.setBus b f).roll = s.roll := rfl
@[simp] theorem State.setBus_stn : (s.setBus b f).stn = s.stn := rfl
@[simp] theorem State.setBus_loops : (s.setBus b f).loops = s.loops := rfl
@[simp] theorem State.setBus_tally : (s.setBus b f).tally = s.tally := rfl
@[simp] theorem State.setBus_meter : (s.setBus b f).meter = s.meter := rfl
@[simp] theorem State.setBus_panel : (s.setBus b f).panel = s.panel := rfl
@[simp] theorem State.setBus_tag : (s.setBus b f).tag = s.tag := rfl
@[simp] theorem State.setBus_svc : (s.setBus b f).svc = s.svc := rfl
@[simp] theorem State.setBus_cal : (s.setBus b f).cal = s.cal := rfl
@[simp] theorem State.setBus_fw : (s.setBus b f).fw = s.fw := rfl
@[simp] theorem State.setBus_out : (s.setBus b f).out = s.out := rfl
@[simp] theorem State.setBus_pending : (s.setBus b f).pending = s.pending := rfl

end

/-! `State.setRx` writes `can`. -/

section

variable (s : State) (b k : Nat) (x : RxObj)

@[simp] theorem State.setRx_now : (s.setRx b k x).now = s.now := rfl
@[simp] theorem State.setRx_clockOfs : (s.setRx b k x).clockOfs = s.clockOfs := rfl
@[simp] theorem State.setRx_freeCnt : (s.setRx b k x).freeCnt = s.freeCnt := rfl
@[simp] theorem State.setRx_regs : (s.setRx b k x).regs = s.regs := rfl
@[simp] theorem State.setRx_fuses : (s.setRx b k x).fuses = s.fuses := rfl
@[simp] theorem State.setRx_host : (s.setRx b k x).host = s.host := rfl
@[simp] theorem State.setRx_nlog : (s.setRx b k x).nlog = s.nlog := rfl
@[simp] theorem State.setRx_time : (s.setRx b k x).time = s.time := rfl
@[simp] theorem State.setRx_ring : (s.setRx b k x).ring = s.ring := rfl
@[simp] theorem State.setRx_twin : (s.setRx b k x).twin = s.twin := rfl
@[simp] theorem State.setRx_sup : (s.setRx b k x).sup = s.sup := rfl
@[simp] theorem State.setRx_setup : (s.setRx b k x).setup = s.setup := rfl
@[simp] theorem State.setRx_fab : (s.setRx b k x).fab = s.fab := rfl
@[simp] theorem State.setRx_place : (s.setRx b k x).place = s.place := rfl
@[simp] theorem State.setRx_model : (s.setRx b k x).model = s.model := rfl
@[simp] theorem State.setRx_reck : (s.setRx b k x).reck = s.reck := rfl
@[simp] theorem State.setRx_la : (s.setRx b k x).la = s.la := rfl
@[simp] theorem State.setRx_opt : (s.setRx b k x).opt = s.opt := rfl
@[simp] theorem State.setRx_roll : (s.setRx b k x).roll = s.roll := rfl
@[simp] theorem State.setRx_stn : (s.setRx b k x).stn = s.stn := rfl
@[simp] theorem State.setRx_loops : (s.setRx b k x).loops = s.loops := rfl
@[simp] theorem State.setRx_tally : (s.setRx b k x).tally = s.tally := rfl
@[simp] theorem State.setRx_meter : (s.setRx b k x).meter = s.meter := rfl
@[simp] theorem State.setRx_panel : (s.setRx b k x).panel = s.panel := rfl
@[simp] theorem State.setRx_tag : (s.setRx b k x).tag = s.tag := rfl
@[simp] theorem State.setRx_svc : (s.setRx b k x).svc = s.svc := rfl
@[simp] theorem State.setRx_cal : (s.setRx b k x).cal = s.cal := rfl
@[simp] theorem State.setRx_fw : (s.setRx b k x).fw = s.fw := rfl
@[simp] theorem State.setRx_out : (s.setRx b k x).out = s.out := rfl
@[simp] theorem State.setRx_pending : (s.setRx b k x).pending = s.pending := rfl

end

/-! `State.setTx` writes `can`. -/

section

variable (s : State) (b k : Nat) (x : TxObj)

@[simp] theorem State.setTx_now : (s.setTx b k x).now = s.now := rfl
@[simp] theorem State.setTx_clockOfs : (s.setTx b k x).clockOfs = s.clockOfs := rfl
@[simp] theorem State.setTx_freeCnt : (s.setTx b k x).freeCnt = s.freeCnt := rfl
@[simp] theorem State.setTx_regs : (s.setTx b k x).regs = s.regs := rfl
@[simp] theorem State.setTx_fuses : (s.setTx b k x).fuses = s.fuses := rfl
@[simp] theorem State.setTx_host : (s.setTx b k x).host = s.host := rfl
@[simp] theorem State.setTx_nlog : (s.setTx b k x).nlog = s.nlog := rfl
@[simp] theorem State.setTx_time : (s.setTx b k x).time = s.time := rfl
@[simp] theorem State.setTx_ring : (s.setTx b k x).ring = s.ring := rfl
@[simp] theorem State.setTx_twin : (s.setTx b k x).twin = s.twin := rfl
@[simp] theorem State.setTx_sup : (s.setTx b k x).sup = s.sup := rfl
@[simp] theorem State.setTx_setup : (s.setTx b k x).setup = s.setup := rfl
@[simp] theorem State.setTx_fab : (s.setTx b k x).fab = s.fab := rfl
@[simp] theorem State.setTx_place : (s.setTx b k x).place = s.place := rfl
@[simp] theorem State.setTx_model : (s.setTx b k x).model = s.model := rfl
@[simp] theorem State.setTx_reck : (s.setTx b k x).reck = s.reck := rfl
@[simp] theorem State.setTx_la : (s.setTx b k x).la = s.la := rfl
@[simp] theorem State.setTx_opt : (s.setTx b k x).opt = s.opt := rfl
@[simp] theorem State.setTx_roll : (s.setTx b k x).roll = s.roll := rfl
@[simp] theorem State.setTx_stn : (s.setTx b k x).stn = s.stn := rfl
@[simp] theorem State.setTx_loops : (s.setTx b k x).loops = s.loops := rfl
@[simp] theorem State.setTx_tally : (s.setTx b k x).tally = s.tally := rfl
@[simp] theorem State.setTx_meter : (s.setTx b k x).meter = s.meter := rfl
@[simp] theorem State.setTx_panel : (s.setTx b k x).panel = s.panel := rfl
@[simp] theorem State.setTx_tag : (s.setTx b k x).tag = s.tag := rfl
@[simp] theorem State.setTx_svc : (s.setTx b k x).svc = s.svc := rfl
@[simp] theorem State.setTx_cal : (s.setTx b k x).cal = s.cal := rfl
@[simp] theorem State.setTx_fw : (s.setTx b k x).fw = s.fw := rfl
@[simp] theorem State.setTx_out : (s.setTx b k x).out = s.out := rfl
@[simp] theorem State.setTx_pending : (s.setTx b k x).pending = s.pending := rfl

end

/-! `State.setCtx` writes `stn`. -/

section

variable (s : State) (i : Nat) (f : Ctx → Ctx)

@[simp] theorem State.setCtx_now : (s.setCtx i f).now = s.now := rfl
@[simp] theorem State.setCtx_clockOfs : (s.setCtx i f).clockOfs = s.clockOfs := rfl
@[simp] theorem State.setCtx_freeCnt : (s.setCtx i f).freeCnt = s.freeCnt := rfl
@[simp] theorem State.setCtx_regs : (s.setCtx i f).regs = s.regs := rfl
@[simp] theorem State.setCtx_fuses : (s.setCtx i f).fuses = s.fuses := rfl
@[simp] theorem State.setCtx_host : (s.setCtx i f).host = s.host := rfl
@[simp] theorem State.setCtx_nlog : (s.setCtx i f).nlog = s.nlog := rfl
@[simp] theorem State.setCtx_time : (s.setCtx i f).time = s.time := rfl
@[simp] theorem State.setCtx_ring : (s.setCtx i f).ring = s.ring := rfl
@[simp] theorem State.setCtx_twin : (s.setCtx i f).twin = s.twin := rfl
@[simp] theorem State.setCtx_sup : (s.setCtx i f).sup = s.sup := rfl
@[simp] theorem State.setCtx_setup : (s.setCtx i f).setup = s.setup := rfl
@[simp] theorem State.setCtx_fab : (s.setCtx i f).fab = s.fab := rfl
@[simp] theorem State.setCtx_place : (s.setCtx i f).place = s.place := rfl
@[simp] theorem State.setCtx_model : (s.setCtx i f).model = s.model := rfl
@[simp] theorem State.setCtx_reck : (s.setCtx i f).reck = s.reck := rfl
@[simp] theorem State.setCtx_la : (s.setCtx i f).la = s.la := rfl
@[simp] theorem State.setCtx_opt : (s.setCtx i f).opt = s.opt := rfl
@[simp] theorem State.setCtx_roll : (s.setCtx i f).roll = s.roll := rfl
@[simp] theorem State.setCtx_loops : (s.setCtx i f).loops = s.loops := rfl
@[simp] theorem State.setCtx_tally : (s.setCtx i f).tally = s.tally := rfl
@[simp] theorem State.setCtx_meter : (s.setCtx i f).meter = s.meter := rfl
@[simp] theorem State.setCtx_can : (s.setCtx i f).can = s.can := rfl
@[simp] theorem State.setCtx_panel : (s.setCtx i f).panel = s.panel := rfl
@[simp] theorem State.setCtx_tag : (s.setCtx i f).tag = s.tag := rfl
@[simp] theorem State.setCtx_svc : (s.setCtx i f).svc = s.svc := rfl
@[simp] theorem State.setCtx_cal : (s.setCtx i f).cal = s.cal := rfl
@[simp] theorem State.setCtx_fw : (s.setCtx i f).fw = s.fw := rfl
@[simp] theorem State.setCtx_out : (s.setCtx i f).out = s.out := rfl
@[simp] theorem State.setCtx_pending : (s.setCtx i f).pending = s.pending := rfl

end

/-! `State.setLoop` writes `loops`. -/

section

variable (s : State) (n : Nat) (l : Loop)

@[simp] theorem State.setLoop_now : (s.setLoop n l).now = s.now := rfl
@[simp] theorem State.setLoop_clockOfs : (s.setLoop n l).clockOfs = s.clockOfs := rfl
@[simp] theorem State.setLoop_freeCnt : (s.setLoop n l).freeCnt = s.freeCnt := rfl
@[simp] theorem State.setLoop_regs : (s.setLoop n l).regs = s.regs := rfl
@[simp] theorem State.setLoop_fuses : (s.setLoop n l).fuses = s.fuses := rfl
@[simp] theorem State.setLoop_host : (s.setLoop n l).host = s.host := rfl
@[simp] theorem State.setLoop_nlog : (s.setLoop n l).nlog = s.nlog := rfl
@[simp] theorem State.setLoop_time : (s.setLoop n l).time = s.time := rfl
@[simp] theorem State.setLoop_ring : (s.setLoop n l).ring = s.ring := rfl
@[simp] theorem State.setLoop_twin : (s.setLoop n l).twin = s.twin := rfl
@[simp] theorem State.setLoop_sup : (s.setLoop n l).sup = s.sup := rfl
@[simp] theorem State.setLoop_setup : (s.setLoop n l).setup = s.setup := rfl
@[simp] theorem State.setLoop_fab : (s.setLoop n l).fab = s.fab := rfl
@[simp] theorem State.setLoop_place : (s.setLoop n l).place = s.place := rfl
@[simp] theorem State.setLoop_model : (s.setLoop n l).model = s.model := rfl
@[simp] theorem State.setLoop_reck : (s.setLoop n l).reck = s.reck := rfl
@[simp] theorem State.setLoop_la : (s.setLoop n l).la = s.la := rfl
@[simp] theorem State.setLoop_opt : (s.setLoop n l).opt = s.opt := rfl
@[simp] theorem State.setLoop_roll : (s.setLoop n l).roll = s.roll := rfl
@[simp] theorem State.setLoop_stn : (s.setLoop n l).stn = s.stn := rfl
@[simp] theorem State.setLoop_tally : (s.setLoop n l).tally = s.tally := rfl
@[simp] theorem State.setLoop_meter : (s.setLoop n l).meter = s.meter := rfl
@[simp] theorem State.setLoop_can : (s.setLoop n l).can = s.can := rfl
@[simp] theorem State.setLoop_panel : (s.setLoop n l).panel = s.panel := rfl
@[simp] theorem State.setLoop_tag : (s.setLoop n l).tag = s.tag := rfl
@[simp] theorem State.setLoop_svc : (s.setLoop n l).svc = s.svc := rfl
@[simp] theorem State.setLoop_cal : (s.setLoop n l).cal = s.cal := rfl
@[simp] theorem State.setLoop_fw : (s.setLoop n l).fw = s.fw := rfl
@[simp] theorem State.setLoop_out : (s.setLoop n l).out = s.out := rfl
@[simp] theorem State.setLoop_pending : (s.setLoop n l).pending = s.pending := rfl

end

/-! `State.setTask` writes `tally`. -/

section

variable (s : State) (k : Nat) (t : TaskSt)

@[simp] theorem State.setTask_now : (s.setTask k t).now = s.now := rfl
@[simp] theorem State.setTask_clockOfs : (s.setTask k t).clockOfs = s.clockOfs := rfl
@[simp] theorem State.setTask_freeCnt : (s.setTask k t).freeCnt = s.freeCnt := rfl
@[simp] theorem State.setTask_regs : (s.setTask k t).regs = s.regs := rfl
@[simp] theorem State.setTask_fuses : (s.setTask k t).fuses = s.fuses := rfl
@[simp] theorem State.setTask_host : (s.setTask k t).host = s.host := rfl
@[simp] theorem State.setTask_nlog : (s.setTask k t).nlog = s.nlog := rfl
@[simp] theorem State.setTask_time : (s.setTask k t).time = s.time := rfl
@[simp] theorem State.setTask_ring : (s.setTask k t).ring = s.ring := rfl
@[simp] theorem State.setTask_twin : (s.setTask k t).twin = s.twin := rfl
@[simp] theorem State.setTask_sup : (s.setTask k t).sup = s.sup := rfl
@[simp] theorem State.setTask_setup : (s.setTask k t).setup = s.setup := rfl
@[simp] theorem State.setTask_fab : (s.setTask k t).fab = s.fab := rfl
@[simp] theorem State.setTask_place : (s.setTask k t).place = s.place := rfl
@[simp] theorem State.setTask_model : (s.setTask k t).model = s.model := rfl
@[simp] theorem State.setTask_reck : (s.setTask k t).reck = s.reck := rfl
@[simp] theorem State.setTask_la : (s.setTask k t).la = s.la := rfl
@[simp] theorem State.setTask_opt : (s.setTask k t).opt = s.opt := rfl
@[simp] theorem State.setTask_roll : (s.setTask k t).roll = s.roll := rfl
@[simp] theorem State.setTask_stn : (s.setTask k t).stn = s.stn := rfl
@[simp] theorem State.setTask_loops : (s.setTask k t).loops = s.loops := rfl
@[simp] theorem State.setTask_meter : (s.setTask k t).meter = s.meter := rfl
@[simp] theorem State.setTask_can : (s.setTask k t).can = s.can := rfl
@[simp] theorem State.setTask_panel : (s.setTask k t).panel = s.panel := rfl
@[simp] theorem State.setTask_tag : (s.setTask k t).tag = s.tag := rfl
@[simp] theorem State.setTask_svc : (s.setTask k t).svc = s.svc := rfl
@[simp] theorem State.setTask_cal : (s.setTask k t).cal = s.cal := rfl
@[simp] theorem State.setTask_fw : (s.setTask k t).fw = s.fw := rfl
@[simp] theorem State.setTask_out : (s.setTask k t).out = s.out := rfl
@[simp] theorem State.setTask_pending : (s.setTask k t).pending = s.pending := rfl

end

/-! `State.setBank` writes `tally`. -/

section

variable (s : State) (i : Nat) (x : Bank)

@[simp] theorem State.setBank_now : (s.setBank i x).now = s.now := rfl
@[simp] theorem State.setBank_clockOfs : (s.setBank i x).clockOfs = s.clockOfs := rfl
@[simp] theorem State.setBank_freeCnt : (s.setBank i x).freeCnt = s.freeCnt := rfl
@[simp] theorem State.setBank_regs : (s.setBank i x).regs = s.regs := rfl
@[simp] theorem State.setBank_fuses : (s.setBank i x).fuses = s.fuses := rfl
@[simp] theorem State.setBank_host : (s.setBank i x).host = s.host := rfl
@[simp] theorem State.setBank_nlog : (s.setBank i x).nlog = s.nlog := rfl
@[simp] theorem State.setBank_time : (s.setBank i x).time = s.time := rfl
@[simp] theorem State.setBank_ring : (s.setBank i x).ring = s.ring := rfl
@[simp] theorem State.setBank_twin : (s.setBank i x).twin = s.twin := rfl
@[simp] theorem State.setBank_sup : (s.setBank i x).sup = s.sup := rfl
@[simp] theorem State.setBank_setup : (s.setBank i x).setup = s.setup := rfl
@[simp] theorem State.setBank_fab : (s.setBank i x).fab = s.fab := rfl
@[simp] theorem State.setBank_place : (s.setBank i x).place = s.place := rfl
@[simp] theorem State.setBank_model : (s.setBank i x).model = s.model := rfl
@[simp] theorem State.setBank_reck : (s.setBank i x).reck = s.reck := rfl
@[simp] theorem State.setBank_la : (s.setBank i x).la = s.la := rfl
@[simp] theorem State.setBank_opt : (s.setBank i x).opt = s.opt := rfl
@[simp] theorem State.setBank_roll : (s.setBank i x).roll = s.roll := rfl
@[simp] theorem State.setBank_stn : (s.setBank i x).stn = s.stn := rfl
@[simp] theorem State.setBank_loops : (s.setBank i x).loops = s.loops := rfl
@[simp] theorem State.setBank_meter : (s.setBank i x).meter = s.meter := rfl
@[simp] theorem State.setBank_can : (s.setBank i x).can = s.can := rfl
@[simp] theorem State.setBank_panel : (s.setBank i x).panel = s.panel := rfl
@[simp] theorem State.setBank_tag : (s.setBank i x).tag = s.tag := rfl
@[simp] theorem State.setBank_svc : (s.setBank i x).svc = s.svc := rfl
@[simp] theorem State.setBank_cal : (s.setBank i x).cal = s.cal := rfl
@[simp] theorem State.setBank_fw : (s.setBank i x).fw = s.fw := rfl
@[simp] theorem State.setBank_out : (s.setBank i x).out = s.out := rfl
@[simp] theorem State.setBank_pending : (s.setBank i x).pending = s.pending := rfl

end

/-! `State.setCirc` writes `meter`. -/

section

variable (s : State) (c : Nat) (x : Circ)

@[simp] theorem State.setCirc_now : (s.setCirc c x).now = s.now := rfl
@[simp] theorem State.setCirc_clockOfs : (s.setCirc c x).clockOfs = s.clockOfs := rfl
@[simp] theorem State.setCirc_freeCnt : (s.setCirc c x).freeCnt = s.freeCnt := rfl
@[simp] theorem State.setCirc_regs : (s.setCirc c x).regs = s.regs := rfl
@[simp] theorem State.setCirc_fuses : (s.setCirc c x).fuses = s.fuses := rfl
@[simp] theorem State.setCirc_host : (s.setCirc c x).host = s.host := rfl
@[simp] theorem State.setCirc_nlog : (s.setCirc c x).nlog = s.nlog := rfl
@[simp] theorem State.setCirc_time : (s.setCirc c x).time = s.time := rfl
@[simp] theorem State.setCirc_ring : (s.setCirc c x).ring = s.ring := rfl
@[simp] theorem State.setCirc_twin : (s.setCirc c x).twin = s.twin := rfl
@[simp] theorem State.setCirc_sup : (s.setCirc c x).sup = s.sup := rfl
@[simp] theorem State.setCirc_setup : (s.setCirc c x).setup = s.setup := rfl
@[simp] theorem State.setCirc_fab : (s.setCirc c x).fab = s.fab := rfl
@[simp] theorem State.setCirc_place : (s.setCirc c x).place = s.place := rfl
@[simp] theorem State.setCirc_model : (s.setCirc c x).model = s.model := rfl
@[simp] theorem State.setCirc_reck : (s.setCirc c x).reck = s.reck := rfl
@[simp] theorem State.setCirc_la : (s.setCirc c x).la = s.la := rfl
@[simp] theorem State.setCirc_opt : (s.setCirc c x).opt = s.opt := rfl
@[simp] theorem State.setCirc_roll : (s.setCirc c x).roll = s.roll := rfl
@[simp] theorem State.setCirc_stn : (s.setCirc c x).stn = s.stn := rfl
@[simp] theorem State.setCirc_loops : (s.setCirc c x).loops = s.loops := rfl
@[simp] theorem State.setCirc_tally : (s.setCirc c x).tally = s.tally := rfl
@[simp] theorem State.setCirc_can : (s.setCirc c x).can = s.can := rfl
@[simp] theorem State.setCirc_panel : (s.setCirc c x).panel = s.panel := rfl
@[simp] theorem State.setCirc_tag : (s.setCirc c x).tag = s.tag := rfl
@[simp] theorem State.setCirc_svc : (s.setCirc c x).svc = s.svc := rfl
@[simp] theorem State.setCirc_cal : (s.setCirc c x).cal = s.cal := rfl
@[simp] theorem State.setCirc_fw : (s.setCirc c x).fw = s.fw := rfl
@[simp] theorem State.setCirc_out : (s.setCirc c x).out = s.out := rfl
@[simp] theorem State.setCirc_pending : (s.setCirc c x).pending = s.pending := rfl

end

/-! `State.setPoint` writes `meter`. -/

section

variable (s : State) (p : Nat) (x : HeatPoint)

@[simp] theorem State.setPoint_now : (s.setPoint p x).now = s.now := rfl
@[simp] theorem State.setPoint_clockOfs : (s.setPoint p x).clockOfs = s.clockOfs := rfl
@[simp] theorem State.setPoint_freeCnt : (s.setPoint p x).freeCnt = s.freeCnt := rfl
@[simp] theorem State.setPoint_regs : (s.setPoint p x).regs = s.regs := rfl
@[simp] theorem State.setPoint_fuses : (s.setPoint p x).fuses = s.fuses := rfl
@[simp] theorem State.setPoint_host : (s.setPoint p x).host = s.host := rfl
@[simp] theorem State.setPoint_nlog : (s.setPoint p x).nlog = s.nlog := rfl
@[simp] theorem State.setPoint_time : (s.setPoint p x).time = s.time := rfl
@[simp] theorem State.setPoint_ring : (s.setPoint p x).ring = s.ring := rfl
@[simp] theorem State.setPoint_twin : (s.setPoint p x).twin = s.twin := rfl
@[simp] theorem State.setPoint_sup : (s.setPoint p x).sup = s.sup := rfl
@[simp] theorem State.setPoint_setup : (s.setPoint p x).setup = s.setup := rfl
@[simp] theorem State.setPoint_fab : (s.setPoint p x).fab = s.fab := rfl
@[simp] theorem State.setPoint_place : (s.setPoint p x).place = s.place := rfl
@[simp] theorem State.setPoint_model : (s.setPoint p x).model = s.model := rfl
@[simp] theorem State.setPoint_reck : (s.setPoint p x).reck = s.reck := rfl
@[simp] theorem State.setPoint_la : (s.setPoint p x).la = s.la := rfl
@[simp] theorem State.setPoint_opt : (s.setPoint p x).opt = s.opt := rfl
@[simp] theorem State.setPoint_roll : (s.setPoint p x).roll = s.roll := rfl
@[simp] theorem State.setPoint_stn : (s.setPoint p x).stn = s.stn := rfl
@[simp] theorem State.setPoint_loops : (s.setPoint p x).loops = s.loops := rfl
@[simp] theorem State.setPoint_tally : (s.setPoint p x).tally = s.tally := rfl
@[simp] theorem State.setPoint_can : (s.setPoint p x).can = s.can := rfl
@[simp] theorem State.setPoint_panel : (s.setPoint p x).panel = s.panel := rfl
@[simp] theorem State.setPoint_tag : (s.setPoint p x).tag = s.tag := rfl
@[simp] theorem State.setPoint_svc : (s.setPoint p x).svc = s.svc := rfl
@[simp] theorem State.setPoint_cal : (s.setPoint p x).cal = s.cal := rfl
@[simp] theorem State.setPoint_fw : (s.setPoint p x).fw = s.fw := rfl
@[simp] theorem State.setPoint_out : (s.setPoint p x).out = s.out := rfl
@[simp] theorem State.setPoint_pending : (s.setPoint p x).pending = s.pending := rfl

end

/-! `State.setVset` writes `meter`. -/

section

variable (s : State) (v : Nat) (x : Vset)

@[simp] theorem State.setVset_now : (s.setVset v x).now = s.now := rfl
@[simp] theorem State.setVset_clockOfs : (s.setVset v x).clockOfs = s.clockOfs := rfl
@[simp] theorem State.setVset_freeCnt : (s.setVset v x).freeCnt = s.freeCnt := rfl
@[simp] theorem State.setVset_regs : (s.setVset v x).regs = s.regs := rfl
@[simp] theorem State.setVset_fuses : (s.setVset v x).fuses = s.fuses := rfl
@[simp] theorem State.setVset_host : (s.setVset v x).host = s.host := rfl
@[simp] theorem State.setVset_nlog : (s.setVset v x).nlog = s.nlog := rfl
@[simp] theorem State.setVset_time : (s.setVset v x).time = s.time := rfl
@[simp] theorem State.setVset_ring : (s.setVset v x).ring = s.ring := rfl
@[simp] theorem State.setVset_twin : (s.setVset v x).twin = s.twin := rfl
@[simp] theorem State.setVset_sup : (s.setVset v x).sup = s.sup := rfl
@[simp] theorem State.setVset_setup : (s.setVset v x).setup = s.setup := rfl
@[simp] theorem State.setVset_fab : (s.setVset v x).fab = s.fab := rfl
@[simp] theorem State.setVset_place : (s.setVset v x).place = s.place := rfl
@[simp] theorem State.setVset_model : (s.setVset v x).model = s.model := rfl
@[simp] theorem State.setVset_reck : (s.setVset v x).reck = s.reck := rfl
@[simp] theorem State.setVset_la : (s.setVset v x).la = s.la := rfl
@[simp] theorem State.setVset_opt : (s.setVset v x).opt = s.opt := rfl
@[simp] theorem State.setVset_roll : (s.setVset v x).roll = s.roll := rfl
@[simp] theorem State.setVset_stn : (s.setVset v x).stn = s.stn := rfl
@[simp] theorem State.setVset_loops : (s.setVset v x).loops = s.loops := rfl
@[simp] theorem State.setVset_tally : (s.setVset v x).tally = s.tally := rfl
@[simp] theorem State.setVset_can : (s.setVset v x).can = s.can := rfl
@[simp] theorem State.setVset_panel : (s.setVset v x).panel = s.panel := rfl
@[simp] theorem State.setVset_tag : (s.setVset v x).tag = s.tag := rfl
@[simp] theorem State.setVset_svc : (s.setVset v x).svc = s.svc := rfl
@[simp] theorem State.setVset_cal : (s.setVset v x).cal = s.cal := rfl
@[simp] theorem State.setVset_fw : (s.setVset v x).fw = s.fw := rfl
@[simp] theorem State.setVset_out : (s.setVset v x).out = s.out := rfl
@[simp] theorem State.setVset_pending : (s.setVset v x).pending = s.pending := rfl

end

/-! `State.setAgg` writes `meter`. -/

section

variable (s : State) (a : Nat) (x : HeatAgg)

@[simp] theorem State.setAgg_now : (s.setAgg a x).now = s.now := rfl
@[simp] theorem State.setAgg_clockOfs : (s.setAgg a x).clockOfs = s.clockOfs := rfl
@[simp] theorem State.setAgg_freeCnt : (s.setAgg a x).freeCnt = s.freeCnt := rfl
@[simp] theorem State.setAgg_regs : (s.setAgg a x).regs = s.regs := rfl
@[simp] theorem State.setAgg_fuses : (s.setAgg a x).fuses = s.fuses := rfl
@[simp] theorem State.setAgg_host : (s.setAgg a x).host = s.host := rfl
@[simp] theorem State.setAgg_nlog : (s.setAgg a x).nlog = s.nlog := rfl
@[simp] theorem State.setAgg_time : (s.setAgg a x).time = s.time := rfl
@[simp] theorem State.setAgg_ring : (s.setAgg a x).ring = s.ring := rfl
@[simp] theorem State.setAgg_twin : (s.setAgg a x).twin = s.twin := rfl
@[simp] theorem State.setAgg_sup : (s.setAgg a x).sup = s.sup := rfl
@[simp] theorem State.setAgg_setup : (s.setAgg a x).setup = s.setup := rfl
@[simp] theorem State.setAgg_fab : (s.setAgg a x).fab = s.fab := rfl
@[simp] theorem State.setAgg_place : (s.setAgg a x).place = s.place := rfl
@[simp] theorem State.setAgg_model : (s.setAgg a x).model = s.model := rfl
@[simp] theorem State.setAgg_reck : (s.setAgg a x).reck = s.reck := rfl
@[simp] theorem State.setAgg_la : (s.setAgg a x).la = s.la := rfl
@[simp] theorem State.setAgg_opt : (s.setAgg a x).opt = s.opt := rfl
@[simp] theorem State.setAgg_roll : (s.setAgg a x).roll = s.roll := rfl
@[simp] theorem State.setAgg_stn : (s.setAgg a x).stn = s.stn := rfl
@[simp] theorem State.setAgg_loops : (s.setAgg a x).loops = s.loops := rfl
@[simp] theorem State.setAgg_tally : (s.setAgg a x).tally = s.tally := rfl
@[simp] theorem State.setAgg_can : (s.setAgg a x).can = s.can := rfl
@[simp] theorem State.setAgg_panel : (s.setAgg a x).panel = s.panel := rfl
@[simp] theorem State.setAgg_tag : (s.setAgg a x).tag = s.tag := rfl
@[simp] theorem State.setAgg_svc : (s.setAgg a x).svc = s.svc := rfl
@[simp] theorem State.setAgg_cal : (s.setAgg a x).cal = s.cal := rfl
@[simp] theorem State.setAgg_fw : (s.setAgg a x).fw = s.fw := rfl
@[simp] theorem State.setAgg_out : (s.setAgg a x).out = s.out := rfl
@[simp] theorem State.setAgg_pending : (s.setAgg a x).pending = s.pending := rfl

end

/-! `State.setChan` writes `meter`. -/

section

variable (s : State) (n : Nat) (c : Chan)

@[simp] theorem State.setChan_now : (s.setChan n c).now = s.now := rfl
@[simp] theorem State.setChan_clockOfs : (s.setChan n c).clockOfs = s.clockOfs := rfl
@[simp] theorem State.setChan_freeCnt : (s.setChan n c).freeCnt = s.freeCnt := rfl
@[simp] theorem State.setChan_regs : (s.setChan n c).regs = s.regs := rfl
@[simp] theorem State.setChan_fuses : (s.setChan n c).fuses = s.fuses := rfl
@[simp] theorem State.setChan_host : (s.setChan n c).host = s.host := rfl
@[simp] theorem State.setChan_nlog : (s.setChan n c).nlog = s.nlog := rfl
@[simp] theorem State.setChan_time : (s.setChan n c).time = s.time := rfl
@[simp] theorem State.setChan_ring : (s.setChan n c).ring = s.ring := rfl
@[simp] theorem State.setChan_twin : (s.setChan n c).twin = s.twin := rfl
@[simp] theorem State.setChan_sup : (s.setChan n c).sup = s.sup := rfl
@[simp] theorem State.setChan_setup : (s.setChan n c).setup = s.setup := rfl
@[simp] theorem State.setChan_fab : (s.setChan n c).fab = s.fab := rfl
@[simp] theorem State.setChan_place : (s.setChan n c).place = s.place := rfl
@[simp] theorem State.setChan_model : (s.setChan n c).model = s.model := rfl
@[simp] theorem State.setChan_reck : (s.setChan n c).reck = s.reck := rfl
@[simp] theorem State.setChan_la : (s.setChan n c).la = s.la := rfl
@[simp] theorem State.setChan_opt : (s.setChan n c).opt = s.opt := rfl
@[simp] theorem State.setChan_roll : (s.setChan n c).roll = s.roll := rfl
@[simp] theorem State.setChan_stn : (s.setChan n c).stn = s.stn := rfl
@[simp] theorem State.setChan_loops : (s.setChan n c).loops = s.loops := rfl
@[simp] theorem State.setChan_tally : (s.setChan n c).tally = s.tally := rfl
@[simp] theorem State.setChan_can : (s.setChan n c).can = s.can := rfl
@[simp] theorem State.setChan_panel : (s.setChan n c).panel = s.panel := rfl
@[simp] theorem State.setChan_tag : (s.setChan n c).tag = s.tag := rfl
@[simp] theorem State.setChan_svc : (s.setChan n c).svc = s.svc := rfl
@[simp] theorem State.setChan_cal : (s.setChan n c).cal = s.cal := rfl
@[simp] theorem State.setChan_fw : (s.setChan n c).fw = s.fw := rfl
@[simp] theorem State.setChan_out : (s.setChan n c).out = s.out := rfl
@[simp] theorem State.setChan_pending : (s.setChan n c).pending = s.pending := rfl

end

/-! `State.setPanel` writes `panel`. -/

section

variable (s : State) (p : Panel)

@[simp] theorem State.setPanel_panel : (s.setPanel p).panel = p := rfl
@[simp] theorem State.setPanel_now : (s.setPanel p).now = s.now := rfl
@[simp] theorem State.setPanel_clockOfs : (s.setPanel p).clockOfs = s.clockOfs := rfl
@[simp] theorem State.setPanel_freeCnt : (s.setPanel p).freeCnt = s.freeCnt := rfl
@[simp] theorem State.setPanel_regs : (s.setPanel p).regs = s.regs := rfl
@[simp] theorem State.setPanel_fuses : (s.setPanel p).fuses = s.fuses := rfl
@[simp] theorem State.setPanel_host : (s.setPanel p).host = s.host := rfl
@[simp] theorem State.setPanel_nlog : (s.setPanel p).nlog = s.nlog := rfl
@[simp] theorem State.setPanel_time : (s.setPanel p).time = s.time := rfl
@[simp] theorem State.setPanel_ring : (s.setPanel p).ring = s.ring := rfl
@[simp] theorem State.setPanel_twin : (s.setPanel p).twin = s.twin := rfl
@[simp] theorem State.setPanel_sup : (s.setPanel p).sup = s.sup := rfl
@[simp] theorem State.setPanel_setup : (s.setPanel p).setup = s.setup := rfl
@[simp] theorem State.setPanel_fab : (s.setPanel p).fab = s.fab := rfl
@[simp] theorem State.setPanel_place : (s.setPanel p).place = s.place := rfl
@[simp] theorem State.setPanel_model : (s.setPanel p).model = s.model := rfl
@[simp] theorem State.setPanel_reck : (s.setPanel p).reck = s.reck := rfl
@[simp] theorem State.setPanel_la : (s.setPanel p).la = s.la := rfl
@[simp] theorem State.setPanel_opt : (s.setPanel p).opt = s.opt := rfl
@[simp] theorem State.setPanel_roll : (s.setPanel p).roll = s.roll := rfl
@[simp] theorem State.setPanel_stn : (s.setPanel p).stn = s.stn := rfl
@[simp] theorem State.setPanel_loops : (s.setPanel p).loops = s.loops := rfl
@[simp] theorem State.setPanel_tally : (s.setPanel p).tally = s.tally := rfl
@[simp] theorem State.setPanel_meter : (s.setPanel p).meter = s.meter := rfl
@[simp] theorem State.setPanel_can : (s.setPanel p).can = s.can := rfl
@[simp] theorem State.setPanel_tag : (s.setPanel p).tag = s.tag := rfl
@[simp] theorem State.setPanel_svc : (s.setPanel p).svc = s.svc := rfl
@[simp] theorem State.setPanel_cal : (s.setPanel p).cal = s.cal := rfl
@[simp] theorem State.setPanel_fw : (s.setPanel p).fw = s.fw := rfl
@[simp] theorem State.setPanel_out : (s.setPanel p).out = s.out := rfl
@[simp] theorem State.setPanel_pending : (s.setPanel p).pending = s.pending := rfl

end

/-! `State.setTag` writes `tag`. -/

section

variable (s : State) (t : Tag)

@[simp] theorem State.setTag_tag : (s.setTag t).tag = t := rfl
@[simp] theorem State.setTag_now : (s.setTag t).now = s.now := rfl
@[simp] theorem State.setTag_clockOfs : (s.setTag t).clockOfs = s.clockOfs := rfl
@[simp] theorem State.setTag_freeCnt : (s.setTag t).freeCnt = s.freeCnt := rfl
@[simp] theorem State.setTag_regs : (s.setTag t).regs = s.regs := rfl
@[simp] theorem State.setTag_fuses : (s.setTag t).fuses = s.fuses := rfl
@[simp] theorem State.setTag_host : (s.setTag t).host = s.host := rfl
@[simp] theorem State.setTag_nlog : (s.setTag t).nlog = s.nlog := rfl
@[simp] theorem State.setTag_time : (s.setTag t).time = s.time := rfl
@[simp] theorem State.setTag_ring : (s.setTag t).ring = s.ring := rfl
@[simp] theorem State.setTag_twin : (s.setTag t).twin = s.twin := rfl
@[simp] theorem State.setTag_sup : (s.setTag t).sup = s.sup := rfl
@[simp] theorem State.setTag_setup : (s.setTag t).setup = s.setup := rfl
@[simp] theorem State.setTag_fab : (s.setTag t).fab = s.fab := rfl
@[simp] theorem State.setTag_place : (s.setTag t).place = s.place := rfl
@[simp] theorem State.setTag_model : (s.setTag t).model = s.model := rfl
@[simp] theorem State.setTag_reck : (s.setTag t).reck = s.reck := rfl
@[simp] theorem State.setTag_la : (s.setTag t).la = s.la := rfl
@[simp] theorem State.setTag_opt : (s.setTag t).opt = s.opt := rfl
@[simp] theorem State.setTag_roll : (s.setTag t).roll = s.roll := rfl
@[simp] theorem State.setTag_stn : (s.setTag t).stn = s.stn := rfl
@[simp] theorem State.setTag_loops : (s.setTag t).loops = s.loops := rfl
@[simp] theorem State.setTag_tally : (s.setTag t).tally = s.tally := rfl
@[simp] theorem State.setTag_meter : (s.setTag t).meter = s.meter := rfl
@[simp] theorem State.setTag_can : (s.setTag t).can = s.can := rfl
@[simp] theorem State.setTag_panel : (s.setTag t).panel = s.panel := rfl
@[simp] theorem State.setTag_svc : (s.setTag t).svc = s.svc := rfl
@[simp] theorem State.setTag_cal : (s.setTag t).cal = s.cal := rfl
@[simp] theorem State.setTag_fw : (s.setTag t).fw = s.fw := rfl
@[simp] theorem State.setTag_out : (s.setTag t).out = s.out := rfl
@[simp] theorem State.setTag_pending : (s.setTag t).pending = s.pending := rfl

end

/-! `State.modDeck` writes `fab`. -/

section

variable (s : State) (d : Nat) (f : Deck → Deck)

@[simp] theorem State.modDeck_now : (s.modDeck d f).now = s.now := rfl
@[simp] theorem State.modDeck_clockOfs : (s.modDeck d f).clockOfs = s.clockOfs := rfl
@[simp] theorem State.modDeck_freeCnt : (s.modDeck d f).freeCnt = s.freeCnt := rfl
@[simp] theorem State.modDeck_regs : (s.modDeck d f).regs = s.regs := rfl
@[simp] theorem State.modDeck_fuses : (s.modDeck d f).fuses = s.fuses := rfl
@[simp] theorem State.modDeck_host : (s.modDeck d f).host = s.host := rfl
@[simp] theorem State.modDeck_nlog : (s.modDeck d f).nlog = s.nlog := rfl
@[simp] theorem State.modDeck_time : (s.modDeck d f).time = s.time := rfl
@[simp] theorem State.modDeck_ring : (s.modDeck d f).ring = s.ring := rfl
@[simp] theorem State.modDeck_twin : (s.modDeck d f).twin = s.twin := rfl
@[simp] theorem State.modDeck_sup : (s.modDeck d f).sup = s.sup := rfl
@[simp] theorem State.modDeck_setup : (s.modDeck d f).setup = s.setup := rfl
@[simp] theorem State.modDeck_place : (s.modDeck d f).place = s.place := rfl
@[simp] theorem State.modDeck_model : (s.modDeck d f).model = s.model := rfl
@[simp] theorem State.modDeck_reck : (s.modDeck d f).reck = s.reck := rfl
@[simp] theorem State.modDeck_la : (s.modDeck d f).la = s.la := rfl
@[simp] theorem State.modDeck_opt : (s.modDeck d f).opt = s.opt := rfl
@[simp] theorem State.modDeck_roll : (s.modDeck d f).roll = s.roll := rfl
@[simp] theorem State.modDeck_stn : (s.modDeck d f).stn = s.stn := rfl
@[simp] theorem State.modDeck_loops : (s.modDeck d f).loops = s.loops := rfl
@[simp] theorem State.modDeck_tally : (s.modDeck d f).tally = s.tally := rfl
@[simp] theorem State.modDeck_meter : (s.modDeck d f).meter = s.meter := rfl
@[simp] theorem State.modDeck_can : (s.modDeck d f).can = s.can := rfl
@[simp] theorem State.modDeck_panel : (s.modDeck d f).panel = s.panel := rfl
@[simp] theorem State.modDeck_tag : (s.modDeck d f).tag = s.tag := rfl
@[simp] theorem State.modDeck_svc : (s.modDeck d f).svc = s.svc := rfl
@[simp] theorem State.modDeck_cal : (s.modDeck d f).cal = s.cal := rfl
@[simp] theorem State.modDeck_fw : (s.modDeck d f).fw = s.fw := rfl
@[simp] theorem State.modDeck_out : (s.modDeck d f).out = s.out := rfl
@[simp] theorem State.modDeck_pending : (s.modDeck d f).pending = s.pending := rfl

end

/-! `State.modXing` writes `fab`. -/

section

variable (s : State) (x : Nat) (f : Crossing → Crossing)

@[simp] theorem State.modXing_now : (s.modXing x f).now = s.now := rfl
@[simp] theorem State.modXing_clockOfs : (s.modXing x f).clockOfs = s.clockOfs := rfl
@[simp] theorem State.modXing_freeCnt : (s.modXing x f).freeCnt = s.freeCnt := rfl
@[simp] theorem State.modXing_regs : (s.modXing x f).regs = s.regs := rfl
@[simp] theorem State.modXing_fuses : (s.modXing x f).fuses = s.fuses := rfl
@[simp] theorem State.modXing_host : (s.modXing x f).host = s.host := rfl
@[simp] theorem State.modXing_nlog : (s.modXing x f).nlog = s.nlog := rfl
@[simp] theorem State.modXing_time : (s.modXing x f).time = s.time := rfl
@[simp] theorem State.modXing_ring : (s.modXing x f).ring = s.ring := rfl
@[simp] theorem State.modXing_twin : (s.modXing x f).twin = s.twin := rfl
@[simp] theorem State.modXing_sup : (s.modXing x f).sup = s.sup := rfl
@[simp] theorem State.modXing_setup : (s.modXing x f).setup = s.setup := rfl
@[simp] theorem State.modXing_place : (s.modXing x f).place = s.place := rfl
@[simp] theorem State.modXing_model : (s.modXing x f).model = s.model := rfl
@[simp] theorem State.modXing_reck : (s.modXing x f).reck = s.reck := rfl
@[simp] theorem State.modXing_la : (s.modXing x f).la = s.la := rfl
@[simp] theorem State.modXing_opt : (s.modXing x f).opt = s.opt := rfl
@[simp] theorem State.modXing_roll : (s.modXing x f).roll = s.roll := rfl
@[simp] theorem State.modXing_stn : (s.modXing x f).stn = s.stn := rfl
@[simp] theorem State.modXing_loops : (s.modXing x f).loops = s.loops := rfl
@[simp] theorem State.modXing_tally : (s.modXing x f).tally = s.tally := rfl
@[simp] theorem State.modXing_meter : (s.modXing x f).meter = s.meter := rfl
@[simp] theorem State.modXing_can : (s.modXing x f).can = s.can := rfl
@[simp] theorem State.modXing_panel : (s.modXing x f).panel = s.panel := rfl
@[simp] theorem State.modXing_tag : (s.modXing x f).tag = s.tag := rfl
@[simp] theorem State.modXing_svc : (s.modXing x f).svc = s.svc := rfl
@[simp] theorem State.modXing_cal : (s.modXing x f).cal = s.cal := rfl
@[simp] theorem State.modXing_fw : (s.modXing x f).fw = s.fw := rfl
@[simp] theorem State.modXing_out : (s.modXing x f).out = s.out := rfl
@[simp] theorem State.modXing_pending : (s.modXing x f).pending = s.pending := rfl

end

/-! `State.modRole` writes `place`. -/

section

variable (s : State) (i : Half) (f : Role → Role)

@[simp] theorem State.modRole_now : (s.modRole i f).now = s.now := rfl
@[simp] theorem State.modRole_clockOfs : (s.modRole i f).clockOfs = s.clockOfs := rfl
@[simp] theorem State.modRole_freeCnt : (s.modRole i f).freeCnt = s.freeCnt := rfl
@[simp] theorem State.modRole_regs : (s.modRole i f).regs = s.regs := rfl
@[simp] theorem State.modRole_fuses : (s.modRole i f).fuses = s.fuses := rfl
@[simp] theorem State.modRole_host : (s.modRole i f).host = s.host := rfl
@[simp] theorem State.modRole_nlog : (s.modRole i f).nlog = s.nlog := rfl
@[simp] theorem State.modRole_time : (s.modRole i f).time = s.time := rfl
@[simp] theorem State.modRole_ring : (s.modRole i f).ring = s.ring := rfl
@[simp] theorem State.modRole_twin : (s.modRole i f).twin = s.twin := rfl
@[simp] theorem State.modRole_sup : (s.modRole i f).sup = s.sup := rfl
@[simp] theorem State.modRole_setup : (s.modRole i f).setup = s.setup := rfl
@[simp] theorem State.modRole_fab : (s.modRole i f).fab = s.fab := rfl
@[simp] theorem State.modRole_model : (s.modRole i f).model = s.model := rfl
@[simp] theorem State.modRole_reck : (s.modRole i f).reck = s.reck := rfl
@[simp] theorem State.modRole_la : (s.modRole i f).la = s.la := rfl
@[simp] theorem State.modRole_opt : (s.modRole i f).opt = s.opt := rfl
@[simp] theorem State.modRole_roll : (s.modRole i f).roll = s.roll := rfl
@[simp] theorem State.modRole_stn : (s.modRole i f).stn = s.stn := rfl
@[simp] theorem State.modRole_loops : (s.modRole i f).loops = s.loops := rfl
@[simp] theorem State.modRole_tally : (s.modRole i f).tally = s.tally := rfl
@[simp] theorem State.modRole_meter : (s.modRole i f).meter = s.meter := rfl
@[simp] theorem State.modRole_can : (s.modRole i f).can = s.can := rfl
@[simp] theorem State.modRole_panel : (s.modRole i f).panel = s.panel := rfl
@[simp] theorem State.modRole_tag : (s.modRole i f).tag = s.tag := rfl
@[simp] theorem State.modRole_svc : (s.modRole i f).svc = s.svc := rfl
@[simp] theorem State.modRole_cal : (s.modRole i f).cal = s.cal := rfl
@[simp] theorem State.modRole_fw : (s.modRole i f).fw = s.fw := rfl
@[simp] theorem State.modRole_out : (s.modRole i f).out = s.out := rfl
@[simp] theorem State.modRole_pending : (s.modRole i f).pending = s.pending := rfl

end

/-! `State.setCount` writes `place`. -/

section

variable (s : State) (k n : Nat)

@[simp] theorem State.setCount_now : (s.setCount k n).now = s.now := rfl
@[simp] theorem State.setCount_clockOfs : (s.setCount k n).clockOfs = s.clockOfs := rfl
@[simp] theorem State.setCount_freeCnt : (s.setCount k n).freeCnt = s.freeCnt := rfl
@[simp] theorem State.setCount_regs : (s.setCount k n).regs = s.regs := rfl
@[simp] theorem State.setCount_fuses : (s.setCount k n).fuses = s.fuses := rfl
@[simp] theorem State.setCount_host : (s.setCount k n).host = s.host := rfl
@[simp] theorem State.setCount_nlog : (s.setCount k n).nlog = s.nlog := rfl
@[simp] theorem State.setCount_time : (s.setCount k n).time = s.time := rfl
@[simp] theorem State.setCount_ring : (s.setCount k n).ring = s.ring := rfl
@[simp] theorem State.setCount_twin : (s.setCount k n).twin = s.twin := rfl
@[simp] theorem State.setCount_sup : (s.setCount k n).sup = s.sup := rfl
@[simp] theorem State.setCount_setup : (s.setCount k n).setup = s.setup := rfl
@[simp] theorem State.setCount_fab : (s.setCount k n).fab = s.fab := rfl
@[simp] theorem State.setCount_model : (s.setCount k n).model = s.model := rfl
@[simp] theorem State.setCount_reck : (s.setCount k n).reck = s.reck := rfl
@[simp] theorem State.setCount_la : (s.setCount k n).la = s.la := rfl
@[simp] theorem State.setCount_opt : (s.setCount k n).opt = s.opt := rfl
@[simp] theorem State.setCount_roll : (s.setCount k n).roll = s.roll := rfl
@[simp] theorem State.setCount_stn : (s.setCount k n).stn = s.stn := rfl
@[simp] theorem State.setCount_loops : (s.setCount k n).loops = s.loops := rfl
@[simp] theorem State.setCount_tally : (s.setCount k n).tally = s.tally := rfl
@[simp] theorem State.setCount_meter : (s.setCount k n).meter = s.meter := rfl
@[simp] theorem State.setCount_can : (s.setCount k n).can = s.can := rfl
@[simp] theorem State.setCount_panel : (s.setCount k n).panel = s.panel := rfl
@[simp] theorem State.setCount_tag : (s.setCount k n).tag = s.tag := rfl
@[simp] theorem State.setCount_svc : (s.setCount k n).svc = s.svc := rfl
@[simp] theorem State.setCount_cal : (s.setCount k n).cal = s.cal := rfl
@[simp] theorem State.setCount_fw : (s.setCount k n).fw = s.fw := rfl
@[simp] theorem State.setCount_out : (s.setCount k n).out = s.out := rfl
@[simp] theorem State.setCount_pending : (s.setCount k n).pending = s.pending := rfl

end

/-! `State.setSlot` writes `model`. -/

section

variable (s : State) (i : Nat) (x : ModelSlot)

@[simp] theorem State.setSlot_now : (s.setSlot i x).now = s.now := rfl
@[simp] theorem State.setSlot_clockOfs : (s.setSlot i x).clockOfs = s.clockOfs := rfl
@[simp] theorem State.setSlot_freeCnt : (s.setSlot i x).freeCnt = s.freeCnt := rfl
@[simp] theorem State.setSlot_regs : (s.setSlot i x).regs = s.regs := rfl
@[simp] theorem State.setSlot_fuses : (s.setSlot i x).fuses = s.fuses := rfl
@[simp] theorem State.setSlot_host : (s.setSlot i x).host = s.host := rfl
@[simp] theorem State.setSlot_nlog : (s.setSlot i x).nlog = s.nlog := rfl
@[simp] theorem State.setSlot_time : (s.setSlot i x).time = s.time := rfl
@[simp] theorem State.setSlot_ring : (s.setSlot i x).ring = s.ring := rfl
@[simp] theorem State.setSlot_twin : (s.setSlot i x).twin = s.twin := rfl
@[simp] theorem State.setSlot_sup : (s.setSlot i x).sup = s.sup := rfl
@[simp] theorem State.setSlot_setup : (s.setSlot i x).setup = s.setup := rfl
@[simp] theorem State.setSlot_fab : (s.setSlot i x).fab = s.fab := rfl
@[simp] theorem State.setSlot_place : (s.setSlot i x).place = s.place := rfl
@[simp] theorem State.setSlot_reck : (s.setSlot i x).reck = s.reck := rfl
@[simp] theorem State.setSlot_la : (s.setSlot i x).la = s.la := rfl
@[simp] theorem State.setSlot_opt : (s.setSlot i x).opt = s.opt := rfl
@[simp] theorem State.setSlot_roll : (s.setSlot i x).roll = s.roll := rfl
@[simp] theorem State.setSlot_stn : (s.setSlot i x).stn = s.stn := rfl
@[simp] theorem State.setSlot_loops : (s.setSlot i x).loops = s.loops := rfl
@[simp] theorem State.setSlot_tally : (s.setSlot i x).tally = s.tally := rfl
@[simp] theorem State.setSlot_meter : (s.setSlot i x).meter = s.meter := rfl
@[simp] theorem State.setSlot_can : (s.setSlot i x).can = s.can := rfl
@[simp] theorem State.setSlot_panel : (s.setSlot i x).panel = s.panel := rfl
@[simp] theorem State.setSlot_tag : (s.setSlot i x).tag = s.tag := rfl
@[simp] theorem State.setSlot_svc : (s.setSlot i x).svc = s.svc := rfl
@[simp] theorem State.setSlot_cal : (s.setSlot i x).cal = s.cal := rfl
@[simp] theorem State.setSlot_fw : (s.setSlot i x).fw = s.fw := rfl
@[simp] theorem State.setSlot_out : (s.setSlot i x).out = s.out := rfl
@[simp] theorem State.setSlot_pending : (s.setSlot i x).pending = s.pending := rfl

end

/-! `State.setLoad` writes `model`. -/

section

variable (s : State) (l : ModelLoad)

@[simp] theorem State.setLoad_now : (s.setLoad l).now = s.now := rfl
@[simp] theorem State.setLoad_clockOfs : (s.setLoad l).clockOfs = s.clockOfs := rfl
@[simp] theorem State.setLoad_freeCnt : (s.setLoad l).freeCnt = s.freeCnt := rfl
@[simp] theorem State.setLoad_regs : (s.setLoad l).regs = s.regs := rfl
@[simp] theorem State.setLoad_fuses : (s.setLoad l).fuses = s.fuses := rfl
@[simp] theorem State.setLoad_host : (s.setLoad l).host = s.host := rfl
@[simp] theorem State.setLoad_nlog : (s.setLoad l).nlog = s.nlog := rfl
@[simp] theorem State.setLoad_time : (s.setLoad l).time = s.time := rfl
@[simp] theorem State.setLoad_ring : (s.setLoad l).ring = s.ring := rfl
@[simp] theorem State.setLoad_twin : (s.setLoad l).twin = s.twin := rfl
@[simp] theorem State.setLoad_sup : (s.setLoad l).sup = s.sup := rfl
@[simp] theorem State.setLoad_setup : (s.setLoad l).setup = s.setup := rfl
@[simp] theorem State.setLoad_fab : (s.setLoad l).fab = s.fab := rfl
@[simp] theorem State.setLoad_place : (s.setLoad l).place = s.place := rfl
@[simp] theorem State.setLoad_reck : (s.setLoad l).reck = s.reck := rfl
@[simp] theorem State.setLoad_la : (s.setLoad l).la = s.la := rfl
@[simp] theorem State.setLoad_opt : (s.setLoad l).opt = s.opt := rfl
@[simp] theorem State.setLoad_roll : (s.setLoad l).roll = s.roll := rfl
@[simp] theorem State.setLoad_stn : (s.setLoad l).stn = s.stn := rfl
@[simp] theorem State.setLoad_loops : (s.setLoad l).loops = s.loops := rfl
@[simp] theorem State.setLoad_tally : (s.setLoad l).tally = s.tally := rfl
@[simp] theorem State.setLoad_meter : (s.setLoad l).meter = s.meter := rfl
@[simp] theorem State.setLoad_can : (s.setLoad l).can = s.can := rfl
@[simp] theorem State.setLoad_panel : (s.setLoad l).panel = s.panel := rfl
@[simp] theorem State.setLoad_tag : (s.setLoad l).tag = s.tag := rfl
@[simp] theorem State.setLoad_svc : (s.setLoad l).svc = s.svc := rfl
@[simp] theorem State.setLoad_cal : (s.setLoad l).cal = s.cal := rfl
@[simp] theorem State.setLoad_fw : (s.setLoad l).fw = s.fw := rfl
@[simp] theorem State.setLoad_out : (s.setLoad l).out = s.out := rfl
@[simp] theorem State.setLoad_pending : (s.setLoad l).pending = s.pending := rfl

end

/-! `State.setRoll` writes `roll`. -/

section

variable (s : State) (x : Rollout)

@[simp] theorem State.setRoll_now : (s.setRoll x).now = s.now := rfl
@[simp] theorem State.setRoll_clockOfs : (s.setRoll x).clockOfs = s.clockOfs := rfl
@[simp] theorem State.setRoll_freeCnt : (s.setRoll x).freeCnt = s.freeCnt := rfl
@[simp] theorem State.setRoll_regs : (s.setRoll x).regs = s.regs := rfl
@[simp] theorem State.setRoll_fuses : (s.setRoll x).fuses = s.fuses := rfl
@[simp] theorem State.setRoll_host : (s.setRoll x).host = s.host := rfl
@[simp] theorem State.setRoll_nlog : (s.setRoll x).nlog = s.nlog := rfl
@[simp] theorem State.setRoll_time : (s.setRoll x).time = s.time := rfl
@[simp] theorem State.setRoll_ring : (s.setRoll x).ring = s.ring := rfl
@[simp] theorem State.setRoll_twin : (s.setRoll x).twin = s.twin := rfl
@[simp] theorem State.setRoll_sup : (s.setRoll x).sup = s.sup := rfl
@[simp] theorem State.setRoll_setup : (s.setRoll x).setup = s.setup := rfl
@[simp] theorem State.setRoll_fab : (s.setRoll x).fab = s.fab := rfl
@[simp] theorem State.setRoll_place : (s.setRoll x).place = s.place := rfl
@[simp] theorem State.setRoll_model : (s.setRoll x).model = s.model := rfl
@[simp] theorem State.setRoll_reck : (s.setRoll x).reck = s.reck := rfl
@[simp] theorem State.setRoll_la : (s.setRoll x).la = s.la := rfl
@[simp] theorem State.setRoll_opt : (s.setRoll x).opt = s.opt := rfl
@[simp] theorem State.setRoll_stn : (s.setRoll x).stn = s.stn := rfl
@[simp] theorem State.setRoll_loops : (s.setRoll x).loops = s.loops := rfl
@[simp] theorem State.setRoll_tally : (s.setRoll x).tally = s.tally := rfl
@[simp] theorem State.setRoll_meter : (s.setRoll x).meter = s.meter := rfl
@[simp] theorem State.setRoll_can : (s.setRoll x).can = s.can := rfl
@[simp] theorem State.setRoll_panel : (s.setRoll x).panel = s.panel := rfl
@[simp] theorem State.setRoll_tag : (s.setRoll x).tag = s.tag := rfl
@[simp] theorem State.setRoll_svc : (s.setRoll x).svc = s.svc := rfl
@[simp] theorem State.setRoll_cal : (s.setRoll x).cal = s.cal := rfl
@[simp] theorem State.setRoll_fw : (s.setRoll x).fw = s.fw := rfl
@[simp] theorem State.setRoll_out : (s.setRoll x).out = s.out := rfl
@[simp] theorem State.setRoll_pending : (s.setRoll x).pending = s.pending := rfl

end

/-! `State.setTout` writes `time`. -/

section

variable (s : State) (n : Nat) (x : TOut)

@[simp] theorem State.setTout_now : (s.setTout n x).now = s.now := rfl
@[simp] theorem State.setTout_clockOfs : (s.setTout n x).clockOfs = s.clockOfs := rfl
@[simp] theorem State.setTout_freeCnt : (s.setTout n x).freeCnt = s.freeCnt := rfl
@[simp] theorem State.setTout_regs : (s.setTout n x).regs = s.regs := rfl
@[simp] theorem State.setTout_fuses : (s.setTout n x).fuses = s.fuses := rfl
@[simp] theorem State.setTout_host : (s.setTout n x).host = s.host := rfl
@[simp] theorem State.setTout_nlog : (s.setTout n x).nlog = s.nlog := rfl
@[simp] theorem State.setTout_ring : (s.setTout n x).ring = s.ring := rfl
@[simp] theorem State.setTout_twin : (s.setTout n x).twin = s.twin := rfl
@[simp] theorem State.setTout_sup : (s.setTout n x).sup = s.sup := rfl
@[simp] theorem State.setTout_setup : (s.setTout n x).setup = s.setup := rfl
@[simp] theorem State.setTout_fab : (s.setTout n x).fab = s.fab := rfl
@[simp] theorem State.setTout_place : (s.setTout n x).place = s.place := rfl
@[simp] theorem State.setTout_model : (s.setTout n x).model = s.model := rfl
@[simp] theorem State.setTout_reck : (s.setTout n x).reck = s.reck := rfl
@[simp] theorem State.setTout_la : (s.setTout n x).la = s.la := rfl
@[simp] theorem State.setTout_opt : (s.setTout n x).opt = s.opt := rfl
@[simp] theorem State.setTout_roll : (s.setTout n x).roll = s.roll := rfl
@[simp] theorem State.setTout_stn : (s.setTout n x).stn = s.stn := rfl
@[simp] theorem State.setTout_loops : (s.setTout n x).loops = s.loops := rfl
@[simp] theorem State.setTout_tally : (s.setTout n x).tally = s.tally := rfl
@[simp] theorem State.setTout_meter : (s.setTout n x).meter = s.meter := rfl
@[simp] theorem State.setTout_can : (s.setTout n x).can = s.can := rfl
@[simp] theorem State.setTout_panel : (s.setTout n x).panel = s.panel := rfl
@[simp] theorem State.setTout_tag : (s.setTout n x).tag = s.tag := rfl
@[simp] theorem State.setTout_svc : (s.setTout n x).svc = s.svc := rfl
@[simp] theorem State.setTout_cal : (s.setTout n x).cal = s.cal := rfl
@[simp] theorem State.setTout_fw : (s.setTout n x).fw = s.fw := rfl
@[simp] theorem State.setTout_out : (s.setTout n x).out = s.out := rfl
@[simp] theorem State.setTout_pending : (s.setTout n x).pending = s.pending := rfl

end

/-! `State.setTxQ` writes `time`. -/

section

variable (s : State) (q : Nat) (x : TxQueue)

@[simp] theorem State.setTxQ_now : (s.setTxQ q x).now = s.now := rfl
@[simp] theorem State.setTxQ_clockOfs : (s.setTxQ q x).clockOfs = s.clockOfs := rfl
@[simp] theorem State.setTxQ_freeCnt : (s.setTxQ q x).freeCnt = s.freeCnt := rfl
@[simp] theorem State.setTxQ_regs : (s.setTxQ q x).regs = s.regs := rfl
@[simp] theorem State.setTxQ_fuses : (s.setTxQ q x).fuses = s.fuses := rfl
@[simp] theorem State.setTxQ_host : (s.setTxQ q x).host = s.host := rfl
@[simp] theorem State.setTxQ_nlog : (s.setTxQ q x).nlog = s.nlog := rfl
@[simp] theorem State.setTxQ_ring : (s.setTxQ q x).ring = s.ring := rfl
@[simp] theorem State.setTxQ_twin : (s.setTxQ q x).twin = s.twin := rfl
@[simp] theorem State.setTxQ_sup : (s.setTxQ q x).sup = s.sup := rfl
@[simp] theorem State.setTxQ_setup : (s.setTxQ q x).setup = s.setup := rfl
@[simp] theorem State.setTxQ_fab : (s.setTxQ q x).fab = s.fab := rfl
@[simp] theorem State.setTxQ_place : (s.setTxQ q x).place = s.place := rfl
@[simp] theorem State.setTxQ_model : (s.setTxQ q x).model = s.model := rfl
@[simp] theorem State.setTxQ_reck : (s.setTxQ q x).reck = s.reck := rfl
@[simp] theorem State.setTxQ_la : (s.setTxQ q x).la = s.la := rfl
@[simp] theorem State.setTxQ_opt : (s.setTxQ q x).opt = s.opt := rfl
@[simp] theorem State.setTxQ_roll : (s.setTxQ q x).roll = s.roll := rfl
@[simp] theorem State.setTxQ_stn : (s.setTxQ q x).stn = s.stn := rfl
@[simp] theorem State.setTxQ_loops : (s.setTxQ q x).loops = s.loops := rfl
@[simp] theorem State.setTxQ_tally : (s.setTxQ q x).tally = s.tally := rfl
@[simp] theorem State.setTxQ_meter : (s.setTxQ q x).meter = s.meter := rfl
@[simp] theorem State.setTxQ_can : (s.setTxQ q x).can = s.can := rfl
@[simp] theorem State.setTxQ_panel : (s.setTxQ q x).panel = s.panel := rfl
@[simp] theorem State.setTxQ_tag : (s.setTxQ q x).tag = s.tag := rfl
@[simp] theorem State.setTxQ_svc : (s.setTxQ q x).svc = s.svc := rfl
@[simp] theorem State.setTxQ_cal : (s.setTxQ q x).cal = s.cal := rfl
@[simp] theorem State.setTxQ_fw : (s.setTxQ q x).fw = s.fw := rfl
@[simp] theorem State.setTxQ_out : (s.setTxQ q x).out = s.out := rfl
@[simp] theorem State.setTxQ_pending : (s.setTxQ q x).pending = s.pending := rfl

end

/-! `State.setXfer` writes `svc`. -/

section

variable (s : State) (x : Option (XferKind × List Byte))

@[simp] theorem State.setXfer_now : (s.setXfer x).now = s.now := rfl
@[simp] theorem State.setXfer_clockOfs : (s.setXfer x).clockOfs = s.clockOfs := rfl
@[simp] theorem State.setXfer_freeCnt : (s.setXfer x).freeCnt = s.freeCnt := rfl
@[simp] theorem State.setXfer_regs : (s.setXfer x).regs = s.regs := rfl
@[simp] theorem State.setXfer_fuses : (s.setXfer x).fuses = s.fuses := rfl
@[simp] theorem State.setXfer_host : (s.setXfer x).host = s.host := rfl
@[simp] theorem State.setXfer_nlog : (s.setXfer x).nlog = s.nlog := rfl
@[simp] theorem State.setXfer_time : (s.setXfer x).time = s.time := rfl
@[simp] theorem State.setXfer_ring : (s.setXfer x).ring = s.ring := rfl
@[simp] theorem State.setXfer_twin : (s.setXfer x).twin = s.twin := rfl
@[simp] theorem State.setXfer_sup : (s.setXfer x).sup = s.sup := rfl
@[simp] theorem State.setXfer_setup : (s.setXfer x).setup = s.setup := rfl
@[simp] theorem State.setXfer_fab : (s.setXfer x).fab = s.fab := rfl
@[simp] theorem State.setXfer_place : (s.setXfer x).place = s.place := rfl
@[simp] theorem State.setXfer_model : (s.setXfer x).model = s.model := rfl
@[simp] theorem State.setXfer_reck : (s.setXfer x).reck = s.reck := rfl
@[simp] theorem State.setXfer_la : (s.setXfer x).la = s.la := rfl
@[simp] theorem State.setXfer_opt : (s.setXfer x).opt = s.opt := rfl
@[simp] theorem State.setXfer_roll : (s.setXfer x).roll = s.roll := rfl
@[simp] theorem State.setXfer_stn : (s.setXfer x).stn = s.stn := rfl
@[simp] theorem State.setXfer_loops : (s.setXfer x).loops = s.loops := rfl
@[simp] theorem State.setXfer_tally : (s.setXfer x).tally = s.tally := rfl
@[simp] theorem State.setXfer_meter : (s.setXfer x).meter = s.meter := rfl
@[simp] theorem State.setXfer_can : (s.setXfer x).can = s.can := rfl
@[simp] theorem State.setXfer_panel : (s.setXfer x).panel = s.panel := rfl
@[simp] theorem State.setXfer_tag : (s.setXfer x).tag = s.tag := rfl
@[simp] theorem State.setXfer_cal : (s.setXfer x).cal = s.cal := rfl
@[simp] theorem State.setXfer_fw : (s.setXfer x).fw = s.fw := rfl
@[simp] theorem State.setXfer_out : (s.setXfer x).out = s.out := rfl
@[simp] theorem State.setXfer_pending : (s.setXfer x).pending = s.pending := rfl

end

/-! `State.setFwBank` writes `fw`. -/

section

variable (s : State) (i : Nat) (b : FwBank)

@[simp] theorem State.setFwBank_now : (s.setFwBank i b).now = s.now := rfl
@[simp] theorem State.setFwBank_clockOfs : (s.setFwBank i b).clockOfs = s.clockOfs := rfl
@[simp] theorem State.setFwBank_freeCnt : (s.setFwBank i b).freeCnt = s.freeCnt := rfl
@[simp] theorem State.setFwBank_regs : (s.setFwBank i b).regs = s.regs := rfl
@[simp] theorem State.setFwBank_fuses : (s.setFwBank i b).fuses = s.fuses := rfl
@[simp] theorem State.setFwBank_host : (s.setFwBank i b).host = s.host := rfl
@[simp] theorem State.setFwBank_nlog : (s.setFwBank i b).nlog = s.nlog := rfl
@[simp] theorem State.setFwBank_time : (s.setFwBank i b).time = s.time := rfl
@[simp] theorem State.setFwBank_ring : (s.setFwBank i b).ring = s.ring := rfl
@[simp] theorem State.setFwBank_twin : (s.setFwBank i b).twin = s.twin := rfl
@[simp] theorem State.setFwBank_sup : (s.setFwBank i b).sup = s.sup := rfl
@[simp] theorem State.setFwBank_setup : (s.setFwBank i b).setup = s.setup := rfl
@[simp] theorem State.setFwBank_fab : (s.setFwBank i b).fab = s.fab := rfl
@[simp] theorem State.setFwBank_place : (s.setFwBank i b).place = s.place := rfl
@[simp] theorem State.setFwBank_model : (s.setFwBank i b).model = s.model := rfl
@[simp] theorem State.setFwBank_reck : (s.setFwBank i b).reck = s.reck := rfl
@[simp] theorem State.setFwBank_la : (s.setFwBank i b).la = s.la := rfl
@[simp] theorem State.setFwBank_opt : (s.setFwBank i b).opt = s.opt := rfl
@[simp] theorem State.setFwBank_roll : (s.setFwBank i b).roll = s.roll := rfl
@[simp] theorem State.setFwBank_stn : (s.setFwBank i b).stn = s.stn := rfl
@[simp] theorem State.setFwBank_loops : (s.setFwBank i b).loops = s.loops := rfl
@[simp] theorem State.setFwBank_tally : (s.setFwBank i b).tally = s.tally := rfl
@[simp] theorem State.setFwBank_meter : (s.setFwBank i b).meter = s.meter := rfl
@[simp] theorem State.setFwBank_can : (s.setFwBank i b).can = s.can := rfl
@[simp] theorem State.setFwBank_panel : (s.setFwBank i b).panel = s.panel := rfl
@[simp] theorem State.setFwBank_tag : (s.setFwBank i b).tag = s.tag := rfl
@[simp] theorem State.setFwBank_svc : (s.setFwBank i b).svc = s.svc := rfl
@[simp] theorem State.setFwBank_cal : (s.setFwBank i b).cal = s.cal := rfl
@[simp] theorem State.setFwBank_out : (s.setFwBank i b).out = s.out := rfl
@[simp] theorem State.setFwBank_pending : (s.setFwBank i b).pending = s.pending := rfl

end

/-! `State.setLayer` writes `opt`. -/

section

variable (s : State) (y : Layer) (x : LayerSt)

@[simp] theorem State.setLayer_now : (s.setLayer y x).now = s.now := rfl
@[simp] theorem State.setLayer_clockOfs : (s.setLayer y x).clockOfs = s.clockOfs := rfl
@[simp] theorem State.setLayer_freeCnt : (s.setLayer y x).freeCnt = s.freeCnt := rfl
@[simp] theorem State.setLayer_regs : (s.setLayer y x).regs = s.regs := rfl
@[simp] theorem State.setLayer_fuses : (s.setLayer y x).fuses = s.fuses := rfl
@[simp] theorem State.setLayer_host : (s.setLayer y x).host = s.host := rfl
@[simp] theorem State.setLayer_nlog : (s.setLayer y x).nlog = s.nlog := rfl
@[simp] theorem State.setLayer_time : (s.setLayer y x).time = s.time := rfl
@[simp] theorem State.setLayer_ring : (s.setLayer y x).ring = s.ring := rfl
@[simp] theorem State.setLayer_twin : (s.setLayer y x).twin = s.twin := rfl
@[simp] theorem State.setLayer_sup : (s.setLayer y x).sup = s.sup := rfl
@[simp] theorem State.setLayer_setup : (s.setLayer y x).setup = s.setup := rfl
@[simp] theorem State.setLayer_fab : (s.setLayer y x).fab = s.fab := rfl
@[simp] theorem State.setLayer_place : (s.setLayer y x).place = s.place := rfl
@[simp] theorem State.setLayer_model : (s.setLayer y x).model = s.model := rfl
@[simp] theorem State.setLayer_reck : (s.setLayer y x).reck = s.reck := rfl
@[simp] theorem State.setLayer_la : (s.setLayer y x).la = s.la := rfl
@[simp] theorem State.setLayer_roll : (s.setLayer y x).roll = s.roll := rfl
@[simp] theorem State.setLayer_stn : (s.setLayer y x).stn = s.stn := rfl
@[simp] theorem State.setLayer_loops : (s.setLayer y x).loops = s.loops := rfl
@[simp] theorem State.setLayer_tally : (s.setLayer y x).tally = s.tally := rfl
@[simp] theorem State.setLayer_meter : (s.setLayer y x).meter = s.meter := rfl
@[simp] theorem State.setLayer_can : (s.setLayer y x).can = s.can := rfl
@[simp] theorem State.setLayer_panel : (s.setLayer y x).panel = s.panel := rfl
@[simp] theorem State.setLayer_tag : (s.setLayer y x).tag = s.tag := rfl
@[simp] theorem State.setLayer_svc : (s.setLayer y x).svc = s.svc := rfl
@[simp] theorem State.setLayer_cal : (s.setLayer y x).cal = s.cal := rfl
@[simp] theorem State.setLayer_fw : (s.setLayer y x).fw = s.fw := rfl
@[simp] theorem State.setLayer_out : (s.setLayer y x).out = s.out := rfl
@[simp] theorem State.setLayer_pending : (s.setLayer y x).pending = s.pending := rfl

end

/-! `State.xingCount` writes `fab`. -/

section

variable (s : State) (x : Nat)

@[simp] theorem State.xingCount_now : (s.xingCount x).now = s.now := rfl
@[simp] theorem State.xingCount_clockOfs : (s.xingCount x).clockOfs = s.clockOfs := rfl
@[simp] theorem State.xingCount_freeCnt : (s.xingCount x).freeCnt = s.freeCnt := rfl
@[simp] theorem State.xingCount_regs : (s.xingCount x).regs = s.regs := rfl
@[simp] theorem State.xingCount_fuses : (s.xingCount x).fuses = s.fuses := rfl
@[simp] theorem State.xingCount_host : (s.xingCount x).host = s.host := rfl
@[simp] theorem State.xingCount_nlog : (s.xingCount x).nlog = s.nlog := rfl
@[simp] theorem State.xingCount_time : (s.xingCount x).time = s.time := rfl
@[simp] theorem State.xingCount_ring : (s.xingCount x).ring = s.ring := rfl
@[simp] theorem State.xingCount_twin : (s.xingCount x).twin = s.twin := rfl
@[simp] theorem State.xingCount_sup : (s.xingCount x).sup = s.sup := rfl
@[simp] theorem State.xingCount_setup : (s.xingCount x).setup = s.setup := rfl
@[simp] theorem State.xingCount_place : (s.xingCount x).place = s.place := rfl
@[simp] theorem State.xingCount_model : (s.xingCount x).model = s.model := rfl
@[simp] theorem State.xingCount_reck : (s.xingCount x).reck = s.reck := rfl
@[simp] theorem State.xingCount_la : (s.xingCount x).la = s.la := rfl
@[simp] theorem State.xingCount_opt : (s.xingCount x).opt = s.opt := rfl
@[simp] theorem State.xingCount_roll : (s.xingCount x).roll = s.roll := rfl
@[simp] theorem State.xingCount_stn : (s.xingCount x).stn = s.stn := rfl
@[simp] theorem State.xingCount_loops : (s.xingCount x).loops = s.loops := rfl
@[simp] theorem State.xingCount_tally : (s.xingCount x).tally = s.tally := rfl
@[simp] theorem State.xingCount_meter : (s.xingCount x).meter = s.meter := rfl
@[simp] theorem State.xingCount_can : (s.xingCount x).can = s.can := rfl
@[simp] theorem State.xingCount_panel : (s.xingCount x).panel = s.panel := rfl
@[simp] theorem State.xingCount_tag : (s.xingCount x).tag = s.tag := rfl
@[simp] theorem State.xingCount_svc : (s.xingCount x).svc = s.svc := rfl
@[simp] theorem State.xingCount_cal : (s.xingCount x).cal = s.cal := rfl
@[simp] theorem State.xingCount_fw : (s.xingCount x).fw = s.fw := rfl
@[simp] theorem State.xingCount_out : (s.xingCount x).out = s.out := rfl
@[simp] theorem State.xingCount_pending : (s.xingCount x).pending = s.pending := rfl

end

/-! `State.withHostVoid` writes `fab`. -/

section

variable (s : State) (v : Word)

@[simp] theorem State.withHostVoid_now : (s.withHostVoid v).now = s.now := rfl
@[simp] theorem State.withHostVoid_clockOfs : (s.withHostVoid v).clockOfs = s.clockOfs := rfl
@[simp] theorem State.withHostVoid_freeCnt : (s.withHostVoid v).freeCnt = s.freeCnt := rfl
@[simp] theorem State.withHostVoid_regs : (s.withHostVoid v).regs = s.regs := rfl
@[simp] theorem State.withHostVoid_fuses : (s.withHostVoid v).fuses = s.fuses := rfl
@[simp] theorem State.withHostVoid_host : (s.withHostVoid v).host = s.host := rfl
@[simp] theorem State.withHostVoid_nlog : (s.withHostVoid v).nlog = s.nlog := rfl
@[simp] theorem State.withHostVoid_time : (s.withHostVoid v).time = s.time := rfl
@[simp] theorem State.withHostVoid_ring : (s.withHostVoid v).ring = s.ring := rfl
@[simp] theorem State.withHostVoid_twin : (s.withHostVoid v).twin = s.twin := rfl
@[simp] theorem State.withHostVoid_sup : (s.withHostVoid v).sup = s.sup := rfl
@[simp] theorem State.withHostVoid_setup : (s.withHostVoid v).setup = s.setup := rfl
@[simp] theorem State.withHostVoid_place : (s.withHostVoid v).place = s.place := rfl
@[simp] theorem State.withHostVoid_model : (s.withHostVoid v).model = s.model := rfl
@[simp] theorem State.withHostVoid_reck : (s.withHostVoid v).reck = s.reck := rfl
@[simp] theorem State.withHostVoid_la : (s.withHostVoid v).la = s.la := rfl
@[simp] theorem State.withHostVoid_opt : (s.withHostVoid v).opt = s.opt := rfl
@[simp] theorem State.withHostVoid_roll : (s.withHostVoid v).roll = s.roll := rfl
@[simp] theorem State.withHostVoid_stn : (s.withHostVoid v).stn = s.stn := rfl
@[simp] theorem State.withHostVoid_loops : (s.withHostVoid v).loops = s.loops := rfl
@[simp] theorem State.withHostVoid_tally : (s.withHostVoid v).tally = s.tally := rfl
@[simp] theorem State.withHostVoid_meter : (s.withHostVoid v).meter = s.meter := rfl
@[simp] theorem State.withHostVoid_can : (s.withHostVoid v).can = s.can := rfl
@[simp] theorem State.withHostVoid_panel : (s.withHostVoid v).panel = s.panel := rfl
@[simp] theorem State.withHostVoid_tag : (s.withHostVoid v).tag = s.tag := rfl
@[simp] theorem State.withHostVoid_svc : (s.withHostVoid v).svc = s.svc := rfl
@[simp] theorem State.withHostVoid_cal : (s.withHostVoid v).cal = s.cal := rfl
@[simp] theorem State.withHostVoid_fw : (s.withHostVoid v).fw = s.fw := rfl
@[simp] theorem State.withHostVoid_out : (s.withHostVoid v).out = s.out := rfl
@[simp] theorem State.withHostVoid_pending : (s.withHostVoid v).pending = s.pending := rfl

end

/-! `State.xingVoid` writes `fab` and `out`. -/

section

variable (s : State) (x : Nat)

@[simp] theorem State.xingVoid_out : (s.xingVoid x).out = s.out ++ [.xingAck x .void] := rfl
@[simp] theorem State.xingVoid_now : (s.xingVoid x).now = s.now := rfl
@[simp] theorem State.xingVoid_clockOfs : (s.xingVoid x).clockOfs = s.clockOfs := rfl
@[simp] theorem State.xingVoid_freeCnt : (s.xingVoid x).freeCnt = s.freeCnt := rfl
@[simp] theorem State.xingVoid_regs : (s.xingVoid x).regs = s.regs := rfl
@[simp] theorem State.xingVoid_fuses : (s.xingVoid x).fuses = s.fuses := rfl
@[simp] theorem State.xingVoid_host : (s.xingVoid x).host = s.host := rfl
@[simp] theorem State.xingVoid_nlog : (s.xingVoid x).nlog = s.nlog := rfl
@[simp] theorem State.xingVoid_time : (s.xingVoid x).time = s.time := rfl
@[simp] theorem State.xingVoid_ring : (s.xingVoid x).ring = s.ring := rfl
@[simp] theorem State.xingVoid_twin : (s.xingVoid x).twin = s.twin := rfl
@[simp] theorem State.xingVoid_sup : (s.xingVoid x).sup = s.sup := rfl
@[simp] theorem State.xingVoid_setup : (s.xingVoid x).setup = s.setup := rfl
@[simp] theorem State.xingVoid_place : (s.xingVoid x).place = s.place := rfl
@[simp] theorem State.xingVoid_model : (s.xingVoid x).model = s.model := rfl
@[simp] theorem State.xingVoid_reck : (s.xingVoid x).reck = s.reck := rfl
@[simp] theorem State.xingVoid_la : (s.xingVoid x).la = s.la := rfl
@[simp] theorem State.xingVoid_opt : (s.xingVoid x).opt = s.opt := rfl
@[simp] theorem State.xingVoid_roll : (s.xingVoid x).roll = s.roll := rfl
@[simp] theorem State.xingVoid_stn : (s.xingVoid x).stn = s.stn := rfl
@[simp] theorem State.xingVoid_loops : (s.xingVoid x).loops = s.loops := rfl
@[simp] theorem State.xingVoid_tally : (s.xingVoid x).tally = s.tally := rfl
@[simp] theorem State.xingVoid_meter : (s.xingVoid x).meter = s.meter := rfl
@[simp] theorem State.xingVoid_can : (s.xingVoid x).can = s.can := rfl
@[simp] theorem State.xingVoid_panel : (s.xingVoid x).panel = s.panel := rfl
@[simp] theorem State.xingVoid_tag : (s.xingVoid x).tag = s.tag := rfl
@[simp] theorem State.xingVoid_svc : (s.xingVoid x).svc = s.svc := rfl
@[simp] theorem State.xingVoid_cal : (s.xingVoid x).cal = s.cal := rfl
@[simp] theorem State.xingVoid_fw : (s.xingVoid x).fw = s.fw := rfl
@[simp] theorem State.xingVoid_pending : (s.xingVoid x).pending = s.pending := rfl

end

/-! `State.stir` writes `fab`. -/

section

variable (s : State) (d : Nat)

@[simp] theorem State.stir_now : (s.stir d).now = s.now := rfl
@[simp] theorem State.stir_clockOfs : (s.stir d).clockOfs = s.clockOfs := rfl
@[simp] theorem State.stir_freeCnt : (s.stir d).freeCnt = s.freeCnt := rfl
@[simp] theorem State.stir_regs : (s.stir d).regs = s.regs := rfl
@[simp] theorem State.stir_fuses : (s.stir d).fuses = s.fuses := rfl
@[simp] theorem State.stir_host : (s.stir d).host = s.host := rfl
@[simp] theorem State.stir_nlog : (s.stir d).nlog = s.nlog := rfl
@[simp] theorem State.stir_time : (s.stir d).time = s.time := rfl
@[simp] theorem State.stir_ring : (s.stir d).ring = s.ring := rfl
@[simp] theorem State.stir_twin : (s.stir d).twin = s.twin := rfl
@[simp] theorem State.stir_sup : (s.stir d).sup = s.sup := rfl
@[simp] theorem State.stir_setup : (s.stir d).setup = s.setup := rfl
@[simp] theorem State.stir_place : (s.stir d).place = s.place := rfl
@[simp] theorem State.stir_model : (s.stir d).model = s.model := rfl
@[simp] theorem State.stir_reck : (s.stir d).reck = s.reck := rfl
@[simp] theorem State.stir_la : (s.stir d).la = s.la := rfl
@[simp] theorem State.stir_opt : (s.stir d).opt = s.opt := rfl
@[simp] theorem State.stir_roll : (s.stir d).roll = s.roll := rfl
@[simp] theorem State.stir_stn : (s.stir d).stn = s.stn := rfl
@[simp] theorem State.stir_loops : (s.stir d).loops = s.loops := rfl
@[simp] theorem State.stir_tally : (s.stir d).tally = s.tally := rfl
@[simp] theorem State.stir_meter : (s.stir d).meter = s.meter := rfl
@[simp] theorem State.stir_can : (s.stir d).can = s.can := rfl
@[simp] theorem State.stir_panel : (s.stir d).panel = s.panel := rfl
@[simp] theorem State.stir_tag : (s.stir d).tag = s.tag := rfl
@[simp] theorem State.stir_svc : (s.stir d).svc = s.svc := rfl
@[simp] theorem State.stir_cal : (s.stir d).cal = s.cal := rfl
@[simp] theorem State.stir_fw : (s.stir d).fw = s.fw := rfl
@[simp] theorem State.stir_out : (s.stir d).out = s.out := rfl
@[simp] theorem State.stir_pending : (s.stir d).pending = s.pending := rfl

end

/-! `State.wakeDeck` writes `fab`. -/

section

variable (s : State) (d : Nat)

@[simp] theorem State.wakeDeck_now : (s.wakeDeck d).now = s.now := rfl
@[simp] theorem State.wakeDeck_clockOfs : (s.wakeDeck d).clockOfs = s.clockOfs := rfl
@[simp] theorem State.wakeDeck_freeCnt : (s.wakeDeck d).freeCnt = s.freeCnt := rfl
@[simp] theorem State.wakeDeck_regs : (s.wakeDeck d).regs = s.regs := rfl
@[simp] theorem State.wakeDeck_fuses : (s.wakeDeck d).fuses = s.fuses := rfl
@[simp] theorem State.wakeDeck_host : (s.wakeDeck d).host = s.host := rfl
@[simp] theorem State.wakeDeck_nlog : (s.wakeDeck d).nlog = s.nlog := rfl
@[simp] theorem State.wakeDeck_time : (s.wakeDeck d).time = s.time := rfl
@[simp] theorem State.wakeDeck_ring : (s.wakeDeck d).ring = s.ring := rfl
@[simp] theorem State.wakeDeck_twin : (s.wakeDeck d).twin = s.twin := rfl
@[simp] theorem State.wakeDeck_sup : (s.wakeDeck d).sup = s.sup := rfl
@[simp] theorem State.wakeDeck_setup : (s.wakeDeck d).setup = s.setup := rfl
@[simp] theorem State.wakeDeck_place : (s.wakeDeck d).place = s.place := rfl
@[simp] theorem State.wakeDeck_model : (s.wakeDeck d).model = s.model := rfl
@[simp] theorem State.wakeDeck_reck : (s.wakeDeck d).reck = s.reck := rfl
@[simp] theorem State.wakeDeck_la : (s.wakeDeck d).la = s.la := rfl
@[simp] theorem State.wakeDeck_opt : (s.wakeDeck d).opt = s.opt := rfl
@[simp] theorem State.wakeDeck_roll : (s.wakeDeck d).roll = s.roll := rfl
@[simp] theorem State.wakeDeck_stn : (s.wakeDeck d).stn = s.stn := rfl
@[simp] theorem State.wakeDeck_loops : (s.wakeDeck d).loops = s.loops := rfl
@[simp] theorem State.wakeDeck_tally : (s.wakeDeck d).tally = s.tally := rfl
@[simp] theorem State.wakeDeck_meter : (s.wakeDeck d).meter = s.meter := rfl
@[simp] theorem State.wakeDeck_can : (s.wakeDeck d).can = s.can := rfl
@[simp] theorem State.wakeDeck_panel : (s.wakeDeck d).panel = s.panel := rfl
@[simp] theorem State.wakeDeck_tag : (s.wakeDeck d).tag = s.tag := rfl
@[simp] theorem State.wakeDeck_svc : (s.wakeDeck d).svc = s.svc := rfl
@[simp] theorem State.wakeDeck_cal : (s.wakeDeck d).cal = s.cal := rfl
@[simp] theorem State.wakeDeck_fw : (s.wakeDeck d).fw = s.fw := rfl
@[simp] theorem State.wakeDeck_out : (s.wakeDeck d).out = s.out := rfl
@[simp] theorem State.wakeDeck_pending : (s.wakeDeck d).pending = s.pending := rfl

end

/-! `State.setEpoch` writes `twin`. -/

section

variable (s : State) (e : Half)

@[simp] theorem State.setEpoch_now : (s.setEpoch e).now = s.now := rfl
@[simp] theorem State.setEpoch_clockOfs : (s.setEpoch e).clockOfs = s.clockOfs := rfl
@[simp] theorem State.setEpoch_freeCnt : (s.setEpoch e).freeCnt = s.freeCnt := rfl
@[simp] theorem State.setEpoch_regs : (s.setEpoch e).regs = s.regs := rfl
@[simp] theorem State.setEpoch_fuses : (s.setEpoch e).fuses = s.fuses := rfl
@[simp] theorem State.setEpoch_host : (s.setEpoch e).host = s.host := rfl
@[simp] theorem State.setEpoch_nlog : (s.setEpoch e).nlog = s.nlog := rfl
@[simp] theorem State.setEpoch_time : (s.setEpoch e).time = s.time := rfl
@[simp] theorem State.setEpoch_ring : (s.setEpoch e).ring = s.ring := rfl
@[simp] theorem State.setEpoch_sup : (s.setEpoch e).sup = s.sup := rfl
@[simp] theorem State.setEpoch_setup : (s.setEpoch e).setup = s.setup := rfl
@[simp] theorem State.setEpoch_fab : (s.setEpoch e).fab = s.fab := rfl
@[simp] theorem State.setEpoch_place : (s.setEpoch e).place = s.place := rfl
@[simp] theorem State.setEpoch_model : (s.setEpoch e).model = s.model := rfl
@[simp] theorem State.setEpoch_reck : (s.setEpoch e).reck = s.reck := rfl
@[simp] theorem State.setEpoch_la : (s.setEpoch e).la = s.la := rfl
@[simp] theorem State.setEpoch_opt : (s.setEpoch e).opt = s.opt := rfl
@[simp] theorem State.setEpoch_roll : (s.setEpoch e).roll = s.roll := rfl
@[simp] theorem State.setEpoch_stn : (s.setEpoch e).stn = s.stn := rfl
@[simp] theorem State.setEpoch_loops : (s.setEpoch e).loops = s.loops := rfl
@[simp] theorem State.setEpoch_tally : (s.setEpoch e).tally = s.tally := rfl
@[simp] theorem State.setEpoch_meter : (s.setEpoch e).meter = s.meter := rfl
@[simp] theorem State.setEpoch_can : (s.setEpoch e).can = s.can := rfl
@[simp] theorem State.setEpoch_panel : (s.setEpoch e).panel = s.panel := rfl
@[simp] theorem State.setEpoch_tag : (s.setEpoch e).tag = s.tag := rfl
@[simp] theorem State.setEpoch_svc : (s.setEpoch e).svc = s.svc := rfl
@[simp] theorem State.setEpoch_cal : (s.setEpoch e).cal = s.cal := rfl
@[simp] theorem State.setEpoch_fw : (s.setEpoch e).fw = s.fw := rfl
@[simp] theorem State.setEpoch_out : (s.setEpoch e).out = s.out := rfl
@[simp] theorem State.setEpoch_pending : (s.setEpoch e).pending = s.pending := rfl

end

/-! `State.twinDiscard` writes `twin`. -/

section

variable (s : State)

@[simp] theorem State.twinDiscard_now : (s.twinDiscard).now = s.now := rfl
@[simp] theorem State.twinDiscard_clockOfs : (s.twinDiscard).clockOfs = s.clockOfs := rfl
@[simp] theorem State.twinDiscard_freeCnt : (s.twinDiscard).freeCnt = s.freeCnt := rfl
@[simp] theorem State.twinDiscard_regs : (s.twinDiscard).regs = s.regs := rfl
@[simp] theorem State.twinDiscard_fuses : (s.twinDiscard).fuses = s.fuses := rfl
@[simp] theorem State.twinDiscard_host : (s.twinDiscard).host = s.host := rfl
@[simp] theorem State.twinDiscard_nlog : (s.twinDiscard).nlog = s.nlog := rfl
@[simp] theorem State.twinDiscard_time : (s.twinDiscard).time = s.time := rfl
@[simp] theorem State.twinDiscard_ring : (s.twinDiscard).ring = s.ring := rfl
@[simp] theorem State.twinDiscard_sup : (s.twinDiscard).sup = s.sup := rfl
@[simp] theorem State.twinDiscard_setup : (s.twinDiscard).setup = s.setup := rfl
@[simp] theorem State.twinDiscard_fab : (s.twinDiscard).fab = s.fab := rfl
@[simp] theorem State.twinDiscard_place : (s.twinDiscard).place = s.place := rfl
@[simp] theorem State.twinDiscard_model : (s.twinDiscard).model = s.model := rfl
@[simp] theorem State.twinDiscard_reck : (s.twinDiscard).reck = s.reck := rfl
@[simp] theorem State.twinDiscard_la : (s.twinDiscard).la = s.la := rfl
@[simp] theorem State.twinDiscard_opt : (s.twinDiscard).opt = s.opt := rfl
@[simp] theorem State.twinDiscard_roll : (s.twinDiscard).roll = s.roll := rfl
@[simp] theorem State.twinDiscard_stn : (s.twinDiscard).stn = s.stn := rfl
@[simp] theorem State.twinDiscard_loops : (s.twinDiscard).loops = s.loops := rfl
@[simp] theorem State.twinDiscard_tally : (s.twinDiscard).tally = s.tally := rfl
@[simp] theorem State.twinDiscard_meter : (s.twinDiscard).meter = s.meter := rfl
@[simp] theorem State.twinDiscard_can : (s.twinDiscard).can = s.can := rfl
@[simp] theorem State.twinDiscard_panel : (s.twinDiscard).panel = s.panel := rfl
@[simp] theorem State.twinDiscard_tag : (s.twinDiscard).tag = s.tag := rfl
@[simp] theorem State.twinDiscard_svc : (s.twinDiscard).svc = s.svc := rfl
@[simp] theorem State.twinDiscard_cal : (s.twinDiscard).cal = s.cal := rfl
@[simp] theorem State.twinDiscard_fw : (s.twinDiscard).fw = s.fw := rfl
@[simp] theorem State.twinDiscard_out : (s.twinDiscard).out = s.out := rfl
@[simp] theorem State.twinDiscard_pending : (s.twinDiscard).pending = s.pending := rfl

end

/-! `State.goUnsynced` writes `twin`. -/

section

variable (s : State)

@[simp] theorem State.goUnsynced_now : (s.goUnsynced).now = s.now := rfl
@[simp] theorem State.goUnsynced_clockOfs : (s.goUnsynced).clockOfs = s.clockOfs := rfl
@[simp] theorem State.goUnsynced_freeCnt : (s.goUnsynced).freeCnt = s.freeCnt := rfl
@[simp] theorem State.goUnsynced_regs : (s.goUnsynced).regs = s.regs := rfl
@[simp] theorem State.goUnsynced_fuses : (s.goUnsynced).fuses = s.fuses := rfl
@[simp] theorem State.goUnsynced_host : (s.goUnsynced).host = s.host := rfl
@[simp] theorem State.goUnsynced_nlog : (s.goUnsynced).nlog = s.nlog := rfl
@[simp] theorem State.goUnsynced_time : (s.goUnsynced).time = s.time := rfl
@[simp] theorem State.goUnsynced_ring : (s.goUnsynced).ring = s.ring := rfl
@[simp] theorem State.goUnsynced_sup : (s.goUnsynced).sup = s.sup := rfl
@[simp] theorem State.goUnsynced_setup : (s.goUnsynced).setup = s.setup := rfl
@[simp] theorem State.goUnsynced_fab : (s.goUnsynced).fab = s.fab := rfl
@[simp] theorem State.goUnsynced_place : (s.goUnsynced).place = s.place := rfl
@[simp] theorem State.goUnsynced_model : (s.goUnsynced).model = s.model := rfl
@[simp] theorem State.goUnsynced_reck : (s.goUnsynced).reck = s.reck := rfl
@[simp] theorem State.goUnsynced_la : (s.goUnsynced).la = s.la := rfl
@[simp] theorem State.goUnsynced_opt : (s.goUnsynced).opt = s.opt := rfl
@[simp] theorem State.goUnsynced_roll : (s.goUnsynced).roll = s.roll := rfl
@[simp] theorem State.goUnsynced_stn : (s.goUnsynced).stn = s.stn := rfl
@[simp] theorem State.goUnsynced_loops : (s.goUnsynced).loops = s.loops := rfl
@[simp] theorem State.goUnsynced_tally : (s.goUnsynced).tally = s.tally := rfl
@[simp] theorem State.goUnsynced_meter : (s.goUnsynced).meter = s.meter := rfl
@[simp] theorem State.goUnsynced_can : (s.goUnsynced).can = s.can := rfl
@[simp] theorem State.goUnsynced_panel : (s.goUnsynced).panel = s.panel := rfl
@[simp] theorem State.goUnsynced_tag : (s.goUnsynced).tag = s.tag := rfl
@[simp] theorem State.goUnsynced_svc : (s.goUnsynced).svc = s.svc := rfl
@[simp] theorem State.goUnsynced_cal : (s.goUnsynced).cal = s.cal := rfl
@[simp] theorem State.goUnsynced_fw : (s.goUnsynced).fw = s.fw := rfl
@[simp] theorem State.goUnsynced_out : (s.goUnsynced).out = s.out := rfl
@[simp] theorem State.goUnsynced_pending : (s.goUnsynced).pending = s.pending := rfl

end

/-! `State.emitting` writes `twin`. -/

section

variable (s : State)

@[simp] theorem State.emitting_now : (s.emitting).now = s.now := rfl
@[simp] theorem State.emitting_clockOfs : (s.emitting).clockOfs = s.clockOfs := rfl
@[simp] theorem State.emitting_freeCnt : (s.emitting).freeCnt = s.freeCnt := rfl
@[simp] theorem State.emitting_regs : (s.emitting).regs = s.regs := rfl
@[simp] theorem State.emitting_fuses : (s.emitting).fuses = s.fuses := rfl
@[simp] theorem State.emitting_host : (s.emitting).host = s.host := rfl
@[simp] theorem State.emitting_nlog : (s.emitting).nlog = s.nlog := rfl
@[simp] theorem State.emitting_time : (s.emitting).time = s.time := rfl
@[simp] theorem State.emitting_ring : (s.emitting).ring = s.ring := rfl
@[simp] theorem State.emitting_sup : (s.emitting).sup = s.sup := rfl
@[simp] theorem State.emitting_setup : (s.emitting).setup = s.setup := rfl
@[simp] theorem State.emitting_fab : (s.emitting).fab = s.fab := rfl
@[simp] theorem State.emitting_place : (s.emitting).place = s.place := rfl
@[simp] theorem State.emitting_model : (s.emitting).model = s.model := rfl
@[simp] theorem State.emitting_reck : (s.emitting).reck = s.reck := rfl
@[simp] theorem State.emitting_la : (s.emitting).la = s.la := rfl
@[simp] theorem State.emitting_opt : (s.emitting).opt = s.opt := rfl
@[simp] theorem State.emitting_roll : (s.emitting).roll = s.roll := rfl
@[simp] theorem State.emitting_stn : (s.emitting).stn = s.stn := rfl
@[simp] theorem State.emitting_loops : (s.emitting).loops = s.loops := rfl
@[simp] theorem State.emitting_tally : (s.emitting).tally = s.tally := rfl
@[simp] theorem State.emitting_meter : (s.emitting).meter = s.meter := rfl
@[simp] theorem State.emitting_can : (s.emitting).can = s.can := rfl
@[simp] theorem State.emitting_panel : (s.emitting).panel = s.panel := rfl
@[simp] theorem State.emitting_tag : (s.emitting).tag = s.tag := rfl
@[simp] theorem State.emitting_svc : (s.emitting).svc = s.svc := rfl
@[simp] theorem State.emitting_cal : (s.emitting).cal = s.cal := rfl
@[simp] theorem State.emitting_fw : (s.emitting).fw = s.fw := rfl
@[simp] theorem State.emitting_out : (s.emitting).out = s.out := rfl
@[simp] theorem State.emitting_pending : (s.emitting).pending = s.pending := rfl

end

/-! `State.fitNow` writes `twin`. -/

section

variable (s : State)

@[simp] theorem State.fitNow_now : (s.fitNow).now = s.now := rfl
@[simp] theorem State.fitNow_clockOfs : (s.fitNow).clockOfs = s.clockOfs := rfl
@[simp] theorem State.fitNow_freeCnt : (s.fitNow).freeCnt = s.freeCnt := rfl
@[simp] theorem State.fitNow_regs : (s.fitNow).regs = s.regs := rfl
@[simp] theorem State.fitNow_fuses : (s.fitNow).fuses = s.fuses := rfl
@[simp] theorem State.fitNow_host : (s.fitNow).host = s.host := rfl
@[simp] theorem State.fitNow_nlog : (s.fitNow).nlog = s.nlog := rfl
@[simp] theorem State.fitNow_time : (s.fitNow).time = s.time := rfl
@[simp] theorem State.fitNow_ring : (s.fitNow).ring = s.ring := rfl
@[simp] theorem State.fitNow_sup : (s.fitNow).sup = s.sup := rfl
@[simp] theorem State.fitNow_setup : (s.fitNow).setup = s.setup := rfl
@[simp] theorem State.fitNow_fab : (s.fitNow).fab = s.fab := rfl
@[simp] theorem State.fitNow_place : (s.fitNow).place = s.place := rfl
@[simp] theorem State.fitNow_model : (s.fitNow).model = s.model := rfl
@[simp] theorem State.fitNow_reck : (s.fitNow).reck = s.reck := rfl
@[simp] theorem State.fitNow_la : (s.fitNow).la = s.la := rfl
@[simp] theorem State.fitNow_opt : (s.fitNow).opt = s.opt := rfl
@[simp] theorem State.fitNow_roll : (s.fitNow).roll = s.roll := rfl
@[simp] theorem State.fitNow_stn : (s.fitNow).stn = s.stn := rfl
@[simp] theorem State.fitNow_loops : (s.fitNow).loops = s.loops := rfl
@[simp] theorem State.fitNow_tally : (s.fitNow).tally = s.tally := rfl
@[simp] theorem State.fitNow_meter : (s.fitNow).meter = s.meter := rfl
@[simp] theorem State.fitNow_can : (s.fitNow).can = s.can := rfl
@[simp] theorem State.fitNow_panel : (s.fitNow).panel = s.panel := rfl
@[simp] theorem State.fitNow_tag : (s.fitNow).tag = s.tag := rfl
@[simp] theorem State.fitNow_svc : (s.fitNow).svc = s.svc := rfl
@[simp] theorem State.fitNow_cal : (s.fitNow).cal = s.cal := rfl
@[simp] theorem State.fitNow_fw : (s.fitNow).fw = s.fw := rfl
@[simp] theorem State.fitNow_out : (s.fitNow).out = s.out := rfl
@[simp] theorem State.fitNow_pending : (s.fitNow).pending = s.pending := rfl

end

/-! `State.noteClear` writes `model`. -/

section

variable (s : State)

@[simp] theorem State.noteClear_now : (s.noteClear).now = s.now := rfl
@[simp] theorem State.noteClear_clockOfs : (s.noteClear).clockOfs = s.clockOfs := rfl
@[simp] theorem State.noteClear_freeCnt : (s.noteClear).freeCnt = s.freeCnt := rfl
@[simp] theorem State.noteClear_regs : (s.noteClear).regs = s.regs := rfl
@[simp] theorem State.noteClear_fuses : (s.noteClear).fuses = s.fuses := rfl
@[simp] theorem State.noteClear_host : (s.noteClear).host = s.host := rfl
@[simp] theorem State.noteClear_nlog : (s.noteClear).nlog = s.nlog := rfl
@[simp] theorem State.noteClear_time : (s.noteClear).time = s.time := rfl
@[simp] theorem State.noteClear_ring : (s.noteClear).ring = s.ring := rfl
@[simp] theorem State.noteClear_twin : (s.noteClear).twin = s.twin := rfl
@[simp] theorem State.noteClear_sup : (s.noteClear).sup = s.sup := rfl
@[simp] theorem State.noteClear_setup : (s.noteClear).setup = s.setup := rfl
@[simp] theorem State.noteClear_fab : (s.noteClear).fab = s.fab := rfl
@[simp] theorem State.noteClear_place : (s.noteClear).place = s.place := rfl
@[simp] theorem State.noteClear_reck : (s.noteClear).reck = s.reck := rfl
@[simp] theorem State.noteClear_la : (s.noteClear).la = s.la := rfl
@[simp] theorem State.noteClear_opt : (s.noteClear).opt = s.opt := rfl
@[simp] theorem State.noteClear_roll : (s.noteClear).roll = s.roll := rfl
@[simp] theorem State.noteClear_stn : (s.noteClear).stn = s.stn := rfl
@[simp] theorem State.noteClear_loops : (s.noteClear).loops = s.loops := rfl
@[simp] theorem State.noteClear_tally : (s.noteClear).tally = s.tally := rfl
@[simp] theorem State.noteClear_meter : (s.noteClear).meter = s.meter := rfl
@[simp] theorem State.noteClear_can : (s.noteClear).can = s.can := rfl
@[simp] theorem State.noteClear_panel : (s.noteClear).panel = s.panel := rfl
@[simp] theorem State.noteClear_tag : (s.noteClear).tag = s.tag := rfl
@[simp] theorem State.noteClear_svc : (s.noteClear).svc = s.svc := rfl
@[simp] theorem State.noteClear_cal : (s.noteClear).cal = s.cal := rfl
@[simp] theorem State.noteClear_fw : (s.noteClear).fw = s.fw := rfl
@[simp] theorem State.noteClear_out : (s.noteClear).out = s.out := rfl
@[simp] theorem State.noteClear_pending : (s.noteClear).pending = s.pending := rfl

end

/-! `State.dropLoad` writes `model`. -/

section

variable (s : State)

@[simp] theorem State.dropLoad_now : (s.dropLoad).now = s.now := rfl
@[simp] theorem State.dropLoad_clockOfs : (s.dropLoad).clockOfs = s.clockOfs := rfl
@[simp] theorem State.dropLoad_freeCnt : (s.dropLoad).freeCnt = s.freeCnt := rfl
@[simp] theorem State.dropLoad_regs : (s.dropLoad).regs = s.regs := rfl
@[simp] theorem State.dropLoad_fuses : (s.dropLoad).fuses = s.fuses := rfl
@[simp] theorem State.dropLoad_host : (s.dropLoad).host = s.host := rfl
@[simp] theorem State.dropLoad_nlog : (s.dropLoad).nlog = s.nlog := rfl
@[simp] theorem State.dropLoad_time : (s.dropLoad).time = s.time := rfl
@[simp] theorem State.dropLoad_ring : (s.dropLoad).ring = s.ring := rfl
@[simp] theorem State.dropLoad_twin : (s.dropLoad).twin = s.twin := rfl
@[simp] theorem State.dropLoad_sup : (s.dropLoad).sup = s.sup := rfl
@[simp] theorem State.dropLoad_setup : (s.dropLoad).setup = s.setup := rfl
@[simp] theorem State.dropLoad_fab : (s.dropLoad).fab = s.fab := rfl
@[simp] theorem State.dropLoad_place : (s.dropLoad).place = s.place := rfl
@[simp] theorem State.dropLoad_reck : (s.dropLoad).reck = s.reck := rfl
@[simp] theorem State.dropLoad_la : (s.dropLoad).la = s.la := rfl
@[simp] theorem State.dropLoad_opt : (s.dropLoad).opt = s.opt := rfl
@[simp] theorem State.dropLoad_roll : (s.dropLoad).roll = s.roll := rfl
@[simp] theorem State.dropLoad_stn : (s.dropLoad).stn = s.stn := rfl
@[simp] theorem State.dropLoad_loops : (s.dropLoad).loops = s.loops := rfl
@[simp] theorem State.dropLoad_tally : (s.dropLoad).tally = s.tally := rfl
@[simp] theorem State.dropLoad_meter : (s.dropLoad).meter = s.meter := rfl
@[simp] theorem State.dropLoad_can : (s.dropLoad).can = s.can := rfl
@[simp] theorem State.dropLoad_panel : (s.dropLoad).panel = s.panel := rfl
@[simp] theorem State.dropLoad_tag : (s.dropLoad).tag = s.tag := rfl
@[simp] theorem State.dropLoad_svc : (s.dropLoad).svc = s.svc := rfl
@[simp] theorem State.dropLoad_cal : (s.dropLoad).cal = s.cal := rfl
@[simp] theorem State.dropLoad_fw : (s.dropLoad).fw = s.fw := rfl
@[simp] theorem State.dropLoad_out : (s.dropLoad).out = s.out := rfl
@[simp] theorem State.dropLoad_pending : (s.dropLoad).pending = s.pending := rfl

end

/-! The fields that `OnlyReports` leaves. -/

section

variable {s t : State}

theorem OnlyReports.now (h : OnlyReports s t) : t.now = s.now := by rw [h.1]; rfl
theorem OnlyReports.clockOfs (h : OnlyReports s t) : t.clockOfs = s.clockOfs := by rw [h.1]; rfl
theorem OnlyReports.freeCnt (h : OnlyReports s t) : t.freeCnt = s.freeCnt := by rw [h.1]; rfl
theorem OnlyReports.regs (h : OnlyReports s t) : t.regs = s.regs := by rw [h.1]; rfl
theorem OnlyReports.fuses (h : OnlyReports s t) : t.fuses = s.fuses := by rw [h.1]; rfl
theorem OnlyReports.time (h : OnlyReports s t) : t.time = s.time := by rw [h.1]; rfl
theorem OnlyReports.ring (h : OnlyReports s t) : t.ring = s.ring := by rw [h.1]; rfl
theorem OnlyReports.twin (h : OnlyReports s t) : t.twin = s.twin := by rw [h.1]; rfl
theorem OnlyReports.sup (h : OnlyReports s t) : t.sup = s.sup := by rw [h.1]; rfl
theorem OnlyReports.fab (h : OnlyReports s t) (k : s.xingStopped 0x01 = false) : t.fab = s.fab := h.2 k
theorem OnlyReports.place (h : OnlyReports s t) : t.place = s.place := by rw [h.1]; rfl
theorem OnlyReports.model (h : OnlyReports s t) : t.model = s.model := by rw [h.1]; rfl
theorem OnlyReports.reck (h : OnlyReports s t) : t.reck = s.reck := by rw [h.1]; rfl
theorem OnlyReports.la (h : OnlyReports s t) : t.la = s.la := by rw [h.1]; rfl
theorem OnlyReports.opt (h : OnlyReports s t) : t.opt = s.opt := by rw [h.1]; rfl
theorem OnlyReports.roll (h : OnlyReports s t) : t.roll = s.roll := by rw [h.1]; rfl
theorem OnlyReports.stn (h : OnlyReports s t) : t.stn = s.stn := by rw [h.1]; rfl
theorem OnlyReports.loops (h : OnlyReports s t) : t.loops = s.loops := by rw [h.1]; rfl
theorem OnlyReports.tally (h : OnlyReports s t) : t.tally = s.tally := by rw [h.1]; rfl
theorem OnlyReports.meter (h : OnlyReports s t) : t.meter = s.meter := by rw [h.1]; rfl
theorem OnlyReports.can (h : OnlyReports s t) : t.can = s.can := by rw [h.1]; rfl
theorem OnlyReports.panel (h : OnlyReports s t) : t.panel = s.panel := by rw [h.1]; rfl
theorem OnlyReports.tag (h : OnlyReports s t) : t.tag = s.tag := by rw [h.1]; rfl
theorem OnlyReports.svc (h : OnlyReports s t) : t.svc = s.svc := by rw [h.1]; rfl
theorem OnlyReports.cal (h : OnlyReports s t) : t.cal = s.cal := by rw [h.1]; rfl
theorem OnlyReports.fw (h : OnlyReports s t) : t.fw = s.fw := by rw [h.1]; rfl
theorem OnlyReports.pending (h : OnlyReports s t) : t.pending = s.pending := by rw [h.1]; rfl

end

/-! The fields that `OnlyAnswers` leaves. -/

section

variable {s t : State}

theorem OnlyAnswers.now (h : OnlyAnswers s t) : t.now = s.now := by rw [h.1]; rfl
theorem OnlyAnswers.clockOfs (h : OnlyAnswers s t) : t.clockOfs = s.clockOfs := by rw [h.1]; rfl
theorem OnlyAnswers.freeCnt (h : OnlyAnswers s t) : t.freeCnt = s.freeCnt := by rw [h.1]; rfl
theorem OnlyAnswers.regs (h : OnlyAnswers s t) : t.regs = s.regs := by rw [h.1]; rfl
theorem OnlyAnswers.fuses (h : OnlyAnswers s t) : t.fuses = s.fuses := by rw [h.1]; rfl
theorem OnlyAnswers.time (h : OnlyAnswers s t) : t.time = s.time := by rw [h.1]; rfl
theorem OnlyAnswers.ring (h : OnlyAnswers s t) : t.ring = s.ring := by rw [h.1]; rfl
theorem OnlyAnswers.twin (h : OnlyAnswers s t) : t.twin = s.twin := by rw [h.1]; rfl
theorem OnlyAnswers.sup (h : OnlyAnswers s t) : t.sup = s.sup := by rw [h.1]; rfl
theorem OnlyAnswers.fab (h : OnlyAnswers s t) (k : s.xingStopped 0x01 = false) : t.fab = s.fab := h.2 k
theorem OnlyAnswers.place (h : OnlyAnswers s t) : t.place = s.place := by rw [h.1]; rfl
theorem OnlyAnswers.model (h : OnlyAnswers s t) : t.model = s.model := by rw [h.1]; rfl
theorem OnlyAnswers.reck (h : OnlyAnswers s t) : t.reck = s.reck := by rw [h.1]; rfl
theorem OnlyAnswers.la (h : OnlyAnswers s t) : t.la = s.la := by rw [h.1]; rfl
theorem OnlyAnswers.opt (h : OnlyAnswers s t) : t.opt = s.opt := by rw [h.1]; rfl
theorem OnlyAnswers.roll (h : OnlyAnswers s t) : t.roll = s.roll := by rw [h.1]; rfl
theorem OnlyAnswers.stn (h : OnlyAnswers s t) : t.stn = s.stn := by rw [h.1]; rfl
theorem OnlyAnswers.loops (h : OnlyAnswers s t) : t.loops = s.loops := by rw [h.1]; rfl
theorem OnlyAnswers.tally (h : OnlyAnswers s t) : t.tally = s.tally := by rw [h.1]; rfl
theorem OnlyAnswers.meter (h : OnlyAnswers s t) : t.meter = s.meter := by rw [h.1]; rfl
theorem OnlyAnswers.can (h : OnlyAnswers s t) : t.can = s.can := by rw [h.1]; rfl
theorem OnlyAnswers.panel (h : OnlyAnswers s t) : t.panel = s.panel := by rw [h.1]; rfl
theorem OnlyAnswers.tag (h : OnlyAnswers s t) : t.tag = s.tag := by rw [h.1]; rfl
theorem OnlyAnswers.svc (h : OnlyAnswers s t) : t.svc = s.svc := by rw [h.1]; rfl
theorem OnlyAnswers.cal (h : OnlyAnswers s t) : t.cal = s.cal := by rw [h.1]; rfl
theorem OnlyAnswers.fw (h : OnlyAnswers s t) : t.fw = s.fw := by rw [h.1]; rfl
theorem OnlyAnswers.pending (h : OnlyAnswers s t) : t.pending = s.pending := by rw [h.1]; rfl

end

/-! `State.toHost`. -/

section

variable (s : State) (o : Output)

@[simp] theorem State.toHost_now : (s.toHost o).now = s.now := (toHost_only s o).now
@[simp] theorem State.toHost_clockOfs : (s.toHost o).clockOfs = s.clockOfs := (toHost_only s o).clockOfs
@[simp] theorem State.toHost_freeCnt : (s.toHost o).freeCnt = s.freeCnt := (toHost_only s o).freeCnt
@[simp] theorem State.toHost_regs : (s.toHost o).regs = s.regs := (toHost_only s o).regs
@[simp] theorem State.toHost_fuses : (s.toHost o).fuses = s.fuses := (toHost_only s o).fuses
@[simp] theorem State.toHost_time : (s.toHost o).time = s.time := (toHost_only s o).time
@[simp] theorem State.toHost_ring : (s.toHost o).ring = s.ring := (toHost_only s o).ring
@[simp] theorem State.toHost_twin : (s.toHost o).twin = s.twin := (toHost_only s o).twin
@[simp] theorem State.toHost_sup : (s.toHost o).sup = s.sup := (toHost_only s o).sup
@[simp] theorem State.toHost_setup : (s.toHost o).setup = s.setup := (toHost_only s o).setup
@[simp] theorem State.toHost_xingStopped (x : Nat) : (s.toHost o).xingStopped x = s.xingStopped x := (toHost_only s o).stopped x
theorem State.toHost_fab (run : s.xingStopped 0x01 = false) : (s.toHost o).fab = s.fab := (toHost_only s o).fab run
@[simp] theorem State.toHost_place : (s.toHost o).place = s.place := (toHost_only s o).place
@[simp] theorem State.toHost_model : (s.toHost o).model = s.model := (toHost_only s o).model
@[simp] theorem State.toHost_reck : (s.toHost o).reck = s.reck := (toHost_only s o).reck
@[simp] theorem State.toHost_la : (s.toHost o).la = s.la := (toHost_only s o).la
@[simp] theorem State.toHost_opt : (s.toHost o).opt = s.opt := (toHost_only s o).opt
@[simp] theorem State.toHost_roll : (s.toHost o).roll = s.roll := (toHost_only s o).roll
@[simp] theorem State.toHost_stn : (s.toHost o).stn = s.stn := (toHost_only s o).stn
@[simp] theorem State.toHost_loops : (s.toHost o).loops = s.loops := (toHost_only s o).loops
@[simp] theorem State.toHost_tally : (s.toHost o).tally = s.tally := (toHost_only s o).tally
@[simp] theorem State.toHost_meter : (s.toHost o).meter = s.meter := (toHost_only s o).meter
@[simp] theorem State.toHost_can : (s.toHost o).can = s.can := (toHost_only s o).can
@[simp] theorem State.toHost_panel : (s.toHost o).panel = s.panel := (toHost_only s o).panel
@[simp] theorem State.toHost_tag : (s.toHost o).tag = s.tag := (toHost_only s o).tag
@[simp] theorem State.toHost_svc : (s.toHost o).svc = s.svc := (toHost_only s o).svc
@[simp] theorem State.toHost_cal : (s.toHost o).cal = s.cal := (toHost_only s o).cal
@[simp] theorem State.toHost_fw : (s.toHost o).fw = s.fw := (toHost_only s o).fw
@[simp] theorem State.toHost_pending : (s.toHost o).pending = s.pending := (toHost_only s o).pending

end

/-! `State.raise`. -/

section

variable (s : State) (a : Nat) (b : List Fld)

@[simp] theorem State.raise_now : (s.raise a b).now = s.now := (raise_only s a b).now
@[simp] theorem State.raise_clockOfs : (s.raise a b).clockOfs = s.clockOfs := (raise_only s a b).clockOfs
@[simp] theorem State.raise_freeCnt : (s.raise a b).freeCnt = s.freeCnt := (raise_only s a b).freeCnt
@[simp] theorem State.raise_regs : (s.raise a b).regs = s.regs := (raise_only s a b).regs
@[simp] theorem State.raise_fuses : (s.raise a b).fuses = s.fuses := (raise_only s a b).fuses
@[simp] theorem State.raise_time : (s.raise a b).time = s.time := (raise_only s a b).time
@[simp] theorem State.raise_ring : (s.raise a b).ring = s.ring := (raise_only s a b).ring
@[simp] theorem State.raise_twin : (s.raise a b).twin = s.twin := (raise_only s a b).twin
@[simp] theorem State.raise_sup : (s.raise a b).sup = s.sup := (raise_only s a b).sup
@[simp] theorem State.raise_setup : (s.raise a b).setup = s.setup := (raise_only s a b).setup
@[simp] theorem State.raise_xingStopped (x : Nat) : (s.raise a b).xingStopped x = s.xingStopped x := (raise_only s a b).stopped x
theorem State.raise_fab (run : s.xingStopped 0x01 = false) : (s.raise a b).fab = s.fab := (raise_only s a b).fab run
@[simp] theorem State.raise_place : (s.raise a b).place = s.place := (raise_only s a b).place
@[simp] theorem State.raise_model : (s.raise a b).model = s.model := (raise_only s a b).model
@[simp] theorem State.raise_reck : (s.raise a b).reck = s.reck := (raise_only s a b).reck
@[simp] theorem State.raise_la : (s.raise a b).la = s.la := (raise_only s a b).la
@[simp] theorem State.raise_opt : (s.raise a b).opt = s.opt := (raise_only s a b).opt
@[simp] theorem State.raise_roll : (s.raise a b).roll = s.roll := (raise_only s a b).roll
@[simp] theorem State.raise_stn : (s.raise a b).stn = s.stn := (raise_only s a b).stn
@[simp] theorem State.raise_loops : (s.raise a b).loops = s.loops := (raise_only s a b).loops
@[simp] theorem State.raise_tally : (s.raise a b).tally = s.tally := (raise_only s a b).tally
@[simp] theorem State.raise_meter : (s.raise a b).meter = s.meter := (raise_only s a b).meter
@[simp] theorem State.raise_can : (s.raise a b).can = s.can := (raise_only s a b).can
@[simp] theorem State.raise_panel : (s.raise a b).panel = s.panel := (raise_only s a b).panel
@[simp] theorem State.raise_tag : (s.raise a b).tag = s.tag := (raise_only s a b).tag
@[simp] theorem State.raise_svc : (s.raise a b).svc = s.svc := (raise_only s a b).svc
@[simp] theorem State.raise_cal : (s.raise a b).cal = s.cal := (raise_only s a b).cal
@[simp] theorem State.raise_fw : (s.raise a b).fw = s.fw := (raise_only s a b).fw
@[simp] theorem State.raise_pending : (s.raise a b).pending = s.pending := (raise_only s a b).pending

end

/-! `State.raiseReportOnly`. -/

section

variable (s : State) (a : Nat) (b : List Fld)

@[simp] theorem State.raiseReportOnly_now : (s.raiseReportOnly a b).now = s.now := (raiseReportOnly_only s a b).now
@[simp] theorem State.raiseReportOnly_clockOfs : (s.raiseReportOnly a b).clockOfs = s.clockOfs := (raiseReportOnly_only s a b).clockOfs
@[simp] theorem State.raiseReportOnly_freeCnt : (s.raiseReportOnly a b).freeCnt = s.freeCnt := (raiseReportOnly_only s a b).freeCnt
@[simp] theorem State.raiseReportOnly_regs : (s.raiseReportOnly a b).regs = s.regs := (raiseReportOnly_only s a b).regs
@[simp] theorem State.raiseReportOnly_fuses : (s.raiseReportOnly a b).fuses = s.fuses := (raiseReportOnly_only s a b).fuses
@[simp] theorem State.raiseReportOnly_time : (s.raiseReportOnly a b).time = s.time := (raiseReportOnly_only s a b).time
@[simp] theorem State.raiseReportOnly_ring : (s.raiseReportOnly a b).ring = s.ring := (raiseReportOnly_only s a b).ring
@[simp] theorem State.raiseReportOnly_twin : (s.raiseReportOnly a b).twin = s.twin := (raiseReportOnly_only s a b).twin
@[simp] theorem State.raiseReportOnly_sup : (s.raiseReportOnly a b).sup = s.sup := (raiseReportOnly_only s a b).sup
@[simp] theorem State.raiseReportOnly_setup : (s.raiseReportOnly a b).setup = s.setup := (raiseReportOnly_only s a b).setup
@[simp] theorem State.raiseReportOnly_xingStopped (x : Nat) : (s.raiseReportOnly a b).xingStopped x = s.xingStopped x := (raiseReportOnly_only s a b).stopped x
theorem State.raiseReportOnly_fab (run : s.xingStopped 0x01 = false) : (s.raiseReportOnly a b).fab = s.fab := (raiseReportOnly_only s a b).fab run
@[simp] theorem State.raiseReportOnly_place : (s.raiseReportOnly a b).place = s.place := (raiseReportOnly_only s a b).place
@[simp] theorem State.raiseReportOnly_model : (s.raiseReportOnly a b).model = s.model := (raiseReportOnly_only s a b).model
@[simp] theorem State.raiseReportOnly_reck : (s.raiseReportOnly a b).reck = s.reck := (raiseReportOnly_only s a b).reck
@[simp] theorem State.raiseReportOnly_la : (s.raiseReportOnly a b).la = s.la := (raiseReportOnly_only s a b).la
@[simp] theorem State.raiseReportOnly_opt : (s.raiseReportOnly a b).opt = s.opt := (raiseReportOnly_only s a b).opt
@[simp] theorem State.raiseReportOnly_roll : (s.raiseReportOnly a b).roll = s.roll := (raiseReportOnly_only s a b).roll
@[simp] theorem State.raiseReportOnly_stn : (s.raiseReportOnly a b).stn = s.stn := (raiseReportOnly_only s a b).stn
@[simp] theorem State.raiseReportOnly_loops : (s.raiseReportOnly a b).loops = s.loops := (raiseReportOnly_only s a b).loops
@[simp] theorem State.raiseReportOnly_tally : (s.raiseReportOnly a b).tally = s.tally := (raiseReportOnly_only s a b).tally
@[simp] theorem State.raiseReportOnly_meter : (s.raiseReportOnly a b).meter = s.meter := (raiseReportOnly_only s a b).meter
@[simp] theorem State.raiseReportOnly_can : (s.raiseReportOnly a b).can = s.can := (raiseReportOnly_only s a b).can
@[simp] theorem State.raiseReportOnly_panel : (s.raiseReportOnly a b).panel = s.panel := (raiseReportOnly_only s a b).panel
@[simp] theorem State.raiseReportOnly_tag : (s.raiseReportOnly a b).tag = s.tag := (raiseReportOnly_only s a b).tag
@[simp] theorem State.raiseReportOnly_svc : (s.raiseReportOnly a b).svc = s.svc := (raiseReportOnly_only s a b).svc
@[simp] theorem State.raiseReportOnly_cal : (s.raiseReportOnly a b).cal = s.cal := (raiseReportOnly_only s a b).cal
@[simp] theorem State.raiseReportOnly_fw : (s.raiseReportOnly a b).fw = s.fw := (raiseReportOnly_only s a b).fw
@[simp] theorem State.raiseReportOnly_pending : (s.raiseReportOnly a b).pending = s.pending := (raiseReportOnly_only s a b).pending

end

/-! `State.raiseTimed`. -/

section

variable (s : State) (a k : Nat) (b : List Fld)

@[simp] theorem State.raiseTimed_now : (s.raiseTimed a k b).now = s.now := (raiseTimed_only s a k b).now
@[simp] theorem State.raiseTimed_clockOfs : (s.raiseTimed a k b).clockOfs = s.clockOfs := (raiseTimed_only s a k b).clockOfs
@[simp] theorem State.raiseTimed_freeCnt : (s.raiseTimed a k b).freeCnt = s.freeCnt := (raiseTimed_only s a k b).freeCnt
@[simp] theorem State.raiseTimed_regs : (s.raiseTimed a k b).regs = s.regs := (raiseTimed_only s a k b).regs
@[simp] theorem State.raiseTimed_fuses : (s.raiseTimed a k b).fuses = s.fuses := (raiseTimed_only s a k b).fuses
@[simp] theorem State.raiseTimed_time : (s.raiseTimed a k b).time = s.time := (raiseTimed_only s a k b).time
@[simp] theorem State.raiseTimed_ring : (s.raiseTimed a k b).ring = s.ring := (raiseTimed_only s a k b).ring
@[simp] theorem State.raiseTimed_twin : (s.raiseTimed a k b).twin = s.twin := (raiseTimed_only s a k b).twin
@[simp] theorem State.raiseTimed_sup : (s.raiseTimed a k b).sup = s.sup := (raiseTimed_only s a k b).sup
@[simp] theorem State.raiseTimed_setup : (s.raiseTimed a k b).setup = s.setup := (raiseTimed_only s a k b).setup
@[simp] theorem State.raiseTimed_xingStopped (x : Nat) : (s.raiseTimed a k b).xingStopped x = s.xingStopped x := (raiseTimed_only s a k b).stopped x
theorem State.raiseTimed_fab (run : s.xingStopped 0x01 = false) : (s.raiseTimed a k b).fab = s.fab := (raiseTimed_only s a k b).fab run
@[simp] theorem State.raiseTimed_place : (s.raiseTimed a k b).place = s.place := (raiseTimed_only s a k b).place
@[simp] theorem State.raiseTimed_model : (s.raiseTimed a k b).model = s.model := (raiseTimed_only s a k b).model
@[simp] theorem State.raiseTimed_reck : (s.raiseTimed a k b).reck = s.reck := (raiseTimed_only s a k b).reck
@[simp] theorem State.raiseTimed_la : (s.raiseTimed a k b).la = s.la := (raiseTimed_only s a k b).la
@[simp] theorem State.raiseTimed_opt : (s.raiseTimed a k b).opt = s.opt := (raiseTimed_only s a k b).opt
@[simp] theorem State.raiseTimed_roll : (s.raiseTimed a k b).roll = s.roll := (raiseTimed_only s a k b).roll
@[simp] theorem State.raiseTimed_stn : (s.raiseTimed a k b).stn = s.stn := (raiseTimed_only s a k b).stn
@[simp] theorem State.raiseTimed_loops : (s.raiseTimed a k b).loops = s.loops := (raiseTimed_only s a k b).loops
@[simp] theorem State.raiseTimed_tally : (s.raiseTimed a k b).tally = s.tally := (raiseTimed_only s a k b).tally
@[simp] theorem State.raiseTimed_meter : (s.raiseTimed a k b).meter = s.meter := (raiseTimed_only s a k b).meter
@[simp] theorem State.raiseTimed_can : (s.raiseTimed a k b).can = s.can := (raiseTimed_only s a k b).can
@[simp] theorem State.raiseTimed_panel : (s.raiseTimed a k b).panel = s.panel := (raiseTimed_only s a k b).panel
@[simp] theorem State.raiseTimed_tag : (s.raiseTimed a k b).tag = s.tag := (raiseTimed_only s a k b).tag
@[simp] theorem State.raiseTimed_svc : (s.raiseTimed a k b).svc = s.svc := (raiseTimed_only s a k b).svc
@[simp] theorem State.raiseTimed_cal : (s.raiseTimed a k b).cal = s.cal := (raiseTimed_only s a k b).cal
@[simp] theorem State.raiseTimed_fw : (s.raiseTimed a k b).fw = s.fw := (raiseTimed_only s a k b).fw
@[simp] theorem State.raiseTimed_pending : (s.raiseTimed a k b).pending = s.pending := (raiseTimed_only s a k b).pending

end

/-! `State.raiseTimed2`. -/

section

variable (s : State) (a k : Nat) (b : List Fld) (two : Bool) (n m : Nat)

@[simp] theorem State.raiseTimed2_now : (s.raiseTimed2 a k b two n m).now = s.now := (raiseTimed2_only s a k b two n m).now
@[simp] theorem State.raiseTimed2_clockOfs : (s.raiseTimed2 a k b two n m).clockOfs = s.clockOfs := (raiseTimed2_only s a k b two n m).clockOfs
@[simp] theorem State.raiseTimed2_freeCnt : (s.raiseTimed2 a k b two n m).freeCnt = s.freeCnt := (raiseTimed2_only s a k b two n m).freeCnt
@[simp] theorem State.raiseTimed2_regs : (s.raiseTimed2 a k b two n m).regs = s.regs := (raiseTimed2_only s a k b two n m).regs
@[simp] theorem State.raiseTimed2_fuses : (s.raiseTimed2 a k b two n m).fuses = s.fuses := (raiseTimed2_only s a k b two n m).fuses
@[simp] theorem State.raiseTimed2_time : (s.raiseTimed2 a k b two n m).time = s.time := (raiseTimed2_only s a k b two n m).time
@[simp] theorem State.raiseTimed2_ring : (s.raiseTimed2 a k b two n m).ring = s.ring := (raiseTimed2_only s a k b two n m).ring
@[simp] theorem State.raiseTimed2_twin : (s.raiseTimed2 a k b two n m).twin = s.twin := (raiseTimed2_only s a k b two n m).twin
@[simp] theorem State.raiseTimed2_sup : (s.raiseTimed2 a k b two n m).sup = s.sup := (raiseTimed2_only s a k b two n m).sup
@[simp] theorem State.raiseTimed2_setup : (s.raiseTimed2 a k b two n m).setup = s.setup := (raiseTimed2_only s a k b two n m).setup
@[simp] theorem State.raiseTimed2_xingStopped (x : Nat) : (s.raiseTimed2 a k b two n m).xingStopped x = s.xingStopped x := (raiseTimed2_only s a k b two n m).stopped x
theorem State.raiseTimed2_fab (run : s.xingStopped 0x01 = false) : (s.raiseTimed2 a k b two n m).fab = s.fab := (raiseTimed2_only s a k b two n m).fab run
@[simp] theorem State.raiseTimed2_place : (s.raiseTimed2 a k b two n m).place = s.place := (raiseTimed2_only s a k b two n m).place
@[simp] theorem State.raiseTimed2_model : (s.raiseTimed2 a k b two n m).model = s.model := (raiseTimed2_only s a k b two n m).model
@[simp] theorem State.raiseTimed2_reck : (s.raiseTimed2 a k b two n m).reck = s.reck := (raiseTimed2_only s a k b two n m).reck
@[simp] theorem State.raiseTimed2_la : (s.raiseTimed2 a k b two n m).la = s.la := (raiseTimed2_only s a k b two n m).la
@[simp] theorem State.raiseTimed2_opt : (s.raiseTimed2 a k b two n m).opt = s.opt := (raiseTimed2_only s a k b two n m).opt
@[simp] theorem State.raiseTimed2_roll : (s.raiseTimed2 a k b two n m).roll = s.roll := (raiseTimed2_only s a k b two n m).roll
@[simp] theorem State.raiseTimed2_stn : (s.raiseTimed2 a k b two n m).stn = s.stn := (raiseTimed2_only s a k b two n m).stn
@[simp] theorem State.raiseTimed2_loops : (s.raiseTimed2 a k b two n m).loops = s.loops := (raiseTimed2_only s a k b two n m).loops
@[simp] theorem State.raiseTimed2_tally : (s.raiseTimed2 a k b two n m).tally = s.tally := (raiseTimed2_only s a k b two n m).tally
@[simp] theorem State.raiseTimed2_meter : (s.raiseTimed2 a k b two n m).meter = s.meter := (raiseTimed2_only s a k b two n m).meter
@[simp] theorem State.raiseTimed2_can : (s.raiseTimed2 a k b two n m).can = s.can := (raiseTimed2_only s a k b two n m).can
@[simp] theorem State.raiseTimed2_panel : (s.raiseTimed2 a k b two n m).panel = s.panel := (raiseTimed2_only s a k b two n m).panel
@[simp] theorem State.raiseTimed2_tag : (s.raiseTimed2 a k b two n m).tag = s.tag := (raiseTimed2_only s a k b two n m).tag
@[simp] theorem State.raiseTimed2_svc : (s.raiseTimed2 a k b two n m).svc = s.svc := (raiseTimed2_only s a k b two n m).svc
@[simp] theorem State.raiseTimed2_cal : (s.raiseTimed2 a k b two n m).cal = s.cal := (raiseTimed2_only s a k b two n m).cal
@[simp] theorem State.raiseTimed2_fw : (s.raiseTimed2 a k b two n m).fw = s.fw := (raiseTimed2_only s a k b two n m).fw
@[simp] theorem State.raiseTimed2_pending : (s.raiseTimed2 a k b two n m).pending = s.pending := (raiseTimed2_only s a k b two n m).pending

end

/-! `State.report`. -/

section

variable (s : State) (c k : Nat) (b : List Fld)

@[simp] theorem State.report_now : (s.report c k b).now = s.now := (report_only s c k b).now
@[simp] theorem State.report_clockOfs : (s.report c k b).clockOfs = s.clockOfs := (report_only s c k b).clockOfs
@[simp] theorem State.report_freeCnt : (s.report c k b).freeCnt = s.freeCnt := (report_only s c k b).freeCnt
@[simp] theorem State.report_regs : (s.report c k b).regs = s.regs := (report_only s c k b).regs
@[simp] theorem State.report_fuses : (s.report c k b).fuses = s.fuses := (report_only s c k b).fuses
@[simp] theorem State.report_time : (s.report c k b).time = s.time := (report_only s c k b).time
@[simp] theorem State.report_ring : (s.report c k b).ring = s.ring := (report_only s c k b).ring
@[simp] theorem State.report_twin : (s.report c k b).twin = s.twin := (report_only s c k b).twin
@[simp] theorem State.report_sup : (s.report c k b).sup = s.sup := (report_only s c k b).sup
@[simp] theorem State.report_setup : (s.report c k b).setup = s.setup := (report_only s c k b).setup
@[simp] theorem State.report_xingStopped (x : Nat) : (s.report c k b).xingStopped x = s.xingStopped x := (report_only s c k b).stopped x
theorem State.report_fab (run : s.xingStopped 0x01 = false) : (s.report c k b).fab = s.fab := (report_only s c k b).fab run
@[simp] theorem State.report_place : (s.report c k b).place = s.place := (report_only s c k b).place
@[simp] theorem State.report_model : (s.report c k b).model = s.model := (report_only s c k b).model
@[simp] theorem State.report_reck : (s.report c k b).reck = s.reck := (report_only s c k b).reck
@[simp] theorem State.report_la : (s.report c k b).la = s.la := (report_only s c k b).la
@[simp] theorem State.report_opt : (s.report c k b).opt = s.opt := (report_only s c k b).opt
@[simp] theorem State.report_roll : (s.report c k b).roll = s.roll := (report_only s c k b).roll
@[simp] theorem State.report_stn : (s.report c k b).stn = s.stn := (report_only s c k b).stn
@[simp] theorem State.report_loops : (s.report c k b).loops = s.loops := (report_only s c k b).loops
@[simp] theorem State.report_tally : (s.report c k b).tally = s.tally := (report_only s c k b).tally
@[simp] theorem State.report_meter : (s.report c k b).meter = s.meter := (report_only s c k b).meter
@[simp] theorem State.report_can : (s.report c k b).can = s.can := (report_only s c k b).can
@[simp] theorem State.report_panel : (s.report c k b).panel = s.panel := (report_only s c k b).panel
@[simp] theorem State.report_tag : (s.report c k b).tag = s.tag := (report_only s c k b).tag
@[simp] theorem State.report_svc : (s.report c k b).svc = s.svc := (report_only s c k b).svc
@[simp] theorem State.report_cal : (s.report c k b).cal = s.cal := (report_only s c k b).cal
@[simp] theorem State.report_fw : (s.report c k b).fw = s.fw := (report_only s c k b).fw
@[simp] theorem State.report_pending : (s.report c k b).pending = s.pending := (report_only s c k b).pending

end

/-! `State.answer`. -/

section

variable (s : State) (ref : OrderRef) (op : Nat) (a : Answer)

@[simp] theorem State.answer_now : (s.answer ref op a).now = s.now := (answer_only s ref op a).now
@[simp] theorem State.answer_clockOfs : (s.answer ref op a).clockOfs = s.clockOfs := (answer_only s ref op a).clockOfs
@[simp] theorem State.answer_freeCnt : (s.answer ref op a).freeCnt = s.freeCnt := (answer_only s ref op a).freeCnt
@[simp] theorem State.answer_regs : (s.answer ref op a).regs = s.regs := (answer_only s ref op a).regs
@[simp] theorem State.answer_fuses : (s.answer ref op a).fuses = s.fuses := (answer_only s ref op a).fuses
@[simp] theorem State.answer_time : (s.answer ref op a).time = s.time := (answer_only s ref op a).time
@[simp] theorem State.answer_ring : (s.answer ref op a).ring = s.ring := (answer_only s ref op a).ring
@[simp] theorem State.answer_twin : (s.answer ref op a).twin = s.twin := (answer_only s ref op a).twin
@[simp] theorem State.answer_sup : (s.answer ref op a).sup = s.sup := (answer_only s ref op a).sup
@[simp] theorem State.answer_xingStopped (x : Nat) : (s.answer ref op a).xingStopped x = s.xingStopped x := (answer_only s ref op a).stopped x
theorem State.answer_fab (run : s.xingStopped 0x01 = false) : (s.answer ref op a).fab = s.fab := (answer_only s ref op a).fab run
@[simp] theorem State.answer_place : (s.answer ref op a).place = s.place := (answer_only s ref op a).place
@[simp] theorem State.answer_model : (s.answer ref op a).model = s.model := (answer_only s ref op a).model
@[simp] theorem State.answer_reck : (s.answer ref op a).reck = s.reck := (answer_only s ref op a).reck
@[simp] theorem State.answer_la : (s.answer ref op a).la = s.la := (answer_only s ref op a).la
@[simp] theorem State.answer_opt : (s.answer ref op a).opt = s.opt := (answer_only s ref op a).opt
@[simp] theorem State.answer_roll : (s.answer ref op a).roll = s.roll := (answer_only s ref op a).roll
@[simp] theorem State.answer_stn : (s.answer ref op a).stn = s.stn := (answer_only s ref op a).stn
@[simp] theorem State.answer_loops : (s.answer ref op a).loops = s.loops := (answer_only s ref op a).loops
@[simp] theorem State.answer_tally : (s.answer ref op a).tally = s.tally := (answer_only s ref op a).tally
@[simp] theorem State.answer_meter : (s.answer ref op a).meter = s.meter := (answer_only s ref op a).meter
@[simp] theorem State.answer_can : (s.answer ref op a).can = s.can := (answer_only s ref op a).can
@[simp] theorem State.answer_panel : (s.answer ref op a).panel = s.panel := (answer_only s ref op a).panel
@[simp] theorem State.answer_tag : (s.answer ref op a).tag = s.tag := (answer_only s ref op a).tag
@[simp] theorem State.answer_svc : (s.answer ref op a).svc = s.svc := (answer_only s ref op a).svc
@[simp] theorem State.answer_cal : (s.answer ref op a).cal = s.cal := (answer_only s ref op a).cal
@[simp] theorem State.answer_fw : (s.answer ref op a).fw = s.fw := (answer_only s ref op a).fw
@[simp] theorem State.answer_pending : (s.answer ref op a).pending = s.pending := (answer_only s ref op a).pending

end

/-! `State.markStarted`. -/

section

variable (s : State) (ref : OrderRef)

@[simp] theorem State.markStarted_now : (s.markStarted ref).now = s.now := (markStarted_only s ref).now
@[simp] theorem State.markStarted_clockOfs : (s.markStarted ref).clockOfs = s.clockOfs := (markStarted_only s ref).clockOfs
@[simp] theorem State.markStarted_freeCnt : (s.markStarted ref).freeCnt = s.freeCnt := (markStarted_only s ref).freeCnt
@[simp] theorem State.markStarted_regs : (s.markStarted ref).regs = s.regs := (markStarted_only s ref).regs
@[simp] theorem State.markStarted_fuses : (s.markStarted ref).fuses = s.fuses := (markStarted_only s ref).fuses
@[simp] theorem State.markStarted_time : (s.markStarted ref).time = s.time := (markStarted_only s ref).time
@[simp] theorem State.markStarted_ring : (s.markStarted ref).ring = s.ring := (markStarted_only s ref).ring
@[simp] theorem State.markStarted_twin : (s.markStarted ref).twin = s.twin := (markStarted_only s ref).twin
@[simp] theorem State.markStarted_sup : (s.markStarted ref).sup = s.sup := (markStarted_only s ref).sup
@[simp] theorem State.markStarted_setup : (s.markStarted ref).setup = s.setup := (markStarted_only s ref).setup
@[simp] theorem State.markStarted_xingStopped (x : Nat) : (s.markStarted ref).xingStopped x = s.xingStopped x := (markStarted_only s ref).stopped x
theorem State.markStarted_fab (run : s.xingStopped 0x01 = false) : (s.markStarted ref).fab = s.fab := (markStarted_only s ref).fab run
@[simp] theorem State.markStarted_place : (s.markStarted ref).place = s.place := (markStarted_only s ref).place
@[simp] theorem State.markStarted_model : (s.markStarted ref).model = s.model := (markStarted_only s ref).model
@[simp] theorem State.markStarted_reck : (s.markStarted ref).reck = s.reck := (markStarted_only s ref).reck
@[simp] theorem State.markStarted_la : (s.markStarted ref).la = s.la := (markStarted_only s ref).la
@[simp] theorem State.markStarted_opt : (s.markStarted ref).opt = s.opt := (markStarted_only s ref).opt
@[simp] theorem State.markStarted_roll : (s.markStarted ref).roll = s.roll := (markStarted_only s ref).roll
@[simp] theorem State.markStarted_stn : (s.markStarted ref).stn = s.stn := (markStarted_only s ref).stn
@[simp] theorem State.markStarted_loops : (s.markStarted ref).loops = s.loops := (markStarted_only s ref).loops
@[simp] theorem State.markStarted_tally : (s.markStarted ref).tally = s.tally := (markStarted_only s ref).tally
@[simp] theorem State.markStarted_meter : (s.markStarted ref).meter = s.meter := (markStarted_only s ref).meter
@[simp] theorem State.markStarted_can : (s.markStarted ref).can = s.can := (markStarted_only s ref).can
@[simp] theorem State.markStarted_panel : (s.markStarted ref).panel = s.panel := (markStarted_only s ref).panel
@[simp] theorem State.markStarted_tag : (s.markStarted ref).tag = s.tag := (markStarted_only s ref).tag
@[simp] theorem State.markStarted_svc : (s.markStarted ref).svc = s.svc := (markStarted_only s ref).svc
@[simp] theorem State.markStarted_cal : (s.markStarted ref).cal = s.cal := (markStarted_only s ref).cal
@[simp] theorem State.markStarted_fw : (s.markStarted ref).fw = s.fw := (markStarted_only s ref).fw
@[simp] theorem State.markStarted_pending : (s.markStarted ref).pending = s.pending := (markStarted_only s ref).pending

end

end Sys2Proof.Machine
end

