-- ==== Sys2Proof/WellFormed.lean ====
section
/-! DEFINITION. Well-formed commands: every number fits the field, or names a part, that the spec gives the command. The meanings
do not ask for it: an order's field out of its range is answered by the order's own status. -/

namespace Sys2Proof

/-! ### Parts and records -/

def Part.ok : Part → Bool
  | .bead n => n < 512
  | .rod n => n < 64
  | .deck n => n < 8

/-- Routers 0–74 and beads 0–511 (R82). -/
def TokenVia.ok (via : TokenVia) (place : Nat) : Bool :=
  match via with
  | .router => place < 75
  | .port => place < 512
  | .stub => true
def MemReq.ok (a : MemReq) : Bool := a.idx < 2 ^ 16 && a.addr < 2 ^ 32
def Arrival.ok : Arrival → Bool
  | .token _ b _ => b < 512
  | .access a => a.ok

/-- Fields of one byte, of two and of four. -/
def bytesOk (l : List Nat) : Bool := l.all (· < 2 ^ 8)
def halvesOk (l : List Nat) : Bool := l.all (· < 2 ^ 16)
def wordsOk (l : List Nat) : Bool := l.all (· < 2 ^ 32)

/-- R528. -/
def OrderEntry.ok (e : OrderEntry) : Bool := halvesOk [e.opcode]
/-- R440. -/
def VsetCfg.ok (x : VsetCfg) : Bool := bytesOk ([x.vset, x.wiring] ++ x.ch) && x.ch.length == 3 && halvesOk [x.sag, x.swell, x.int_, x.hyst]
def CircCfg.ok (x : CircCfg) : Bool :=
  bytesOk [x.circuit, x.vset, x.flags, x.reserved, x.i1, x.i2, x.i3, x.in_] && halvesOk [x.windowN, x.reserved2]
/-- R585. -/
def RxCfg.ok (c : RxCfg) : Bool := bytesOk [c.bus, c.object, c.flags, c.minLen, c.seqPos] && halvesOk [c.freshMs] && wordsOk [c.id]
def TxCfg.ok (c : TxCfg) : Bool :=
  bytesOk [c.bus, c.object, c.len, c.seqPos] && halvesOk [c.flags] && wordsOk [c.id, c.periodUs, c.deadlineUs]
/-- R319, R320. -/
def StnCfg.ok (c : StnCfg) : Bool :=
  halvesOk [c.port, c.staleMs, c.offlineMs, c.timeoutMs, c.refreshMs] && bytesOk [c.retries, c.noackN, c.dscp]
def StnCtxCfg.ok (c : StnCtxCfg) : Bool :=
  halvesOk [c.station, c.flags, c.rport] && bytesOk [c.qdepth, c.reserved] && c.addr < 2 ^ 128
/-- R482. -/
def ToutSet.ok (o : ToutSet) : Bool :=
  bytesOk [o.output, o.mode] && wordsOk [o.startNs, o.widthNs] && o.startS < 2 ^ 64 && o.periodNs < 2 ^ 64
/-- R629. -/
def Rect.ok (r : Rect) : Bool := halvesOk [r.x, r.y, r.w, r.h]
def PanelSet.ok (x : PanelSet) : Bool := bytesOk [x.bright]
/-- R606. -/
def NlogSrc.ok (x : NlogSrc) : Bool :=
  bytesOk [x.source] && halvesOk [x.rate, x.burst]
    && x.slots.all (fun f => halvesOk [f.offset] && bytesOk [f.lsb, f.width])
/-- R273, R274. -/
def RollCfg.ok (c : RollCfg) : Bool :=
  halvesOk [c.leadPlanMs, c.startLeadMs, c.stageMs, c.sendAheadMs] && bytesOk [c.reshapeMax, c.reshapeK, c.flags, c.reserved]
def RollDest.ok (d : RollDest) : Bool := bytesOk [d.kind, d.index, d.anchor, d.reserved] && halvesOk [d.out, d.temp, d.run]
/-- R239. -/
def OptCfg.ok (c : OptCfg) : Bool :=
  bytesOk [c.importTable, c.exportTable, c.importCircuit] && halvesOk [c.elecProfile] && wordsOk [c.permitBase]
/-- R204. -/
def LaCfg.ok (c : LaCfg) : Bool := halvesOk [c.stepMs, c.horizonS, c.settleS, c.flags]
/-- R175. -/
def ReckonCfg.ok (c : ReckonCfg) : Bool := wordsOk [c.cadenceMs] && halvesOk [c.rejectMax, c.flags, c.mismatchN, c.reserved]
/-- R349. -/
def LoopCoef.ok (c : LoopCoef) : Bool := halvesOk [c.loop] && bytesOk [c.section_, c.sflags]
/-- R395. -/
def TallyCfg.ok (c : TallyCfg) : Bool := bytesOk [c.restart, c.flags] && halvesOk [c.exchWaitMs]

/-! ### Commands -/

def Instr.wf : Instr → Bool
  | .tokenArrival _ via place => via.ok place
  | .memoryAccess mem idx addr what reader ckptOf => MemReq.ok ⟨mem, idx, addr, what, reader, ckptOf⟩
  | .scrubStep _ _ => true
  | .paceStep deck rate raw floor _ _ => deck < 8 && rate < 2 ^ 32 && raw < 1024 && floor < 2 ^ 32
  | .retentionEntry deck _ => deck < 8
  | .deckWake deck a => deck < 8 && a.ok
  | .retentionExitDone deck _ railReached => deck < 8 && railReached < 256
  | .thermShed deck raw => deck < 8 && raw < 1024
  | .thermShedEnd deck raw => deck < 8 && raw < 1024
  | .thermTrip deck raw => deck < 8 && raw < 1024
  | .xingTimeout req => req.crossing < 23
  | .xingRestart x => x < 23
  | .islandCompletion x _ _ => x < 23
  | .handshakeStall requester unresponsive _ => requester.ok && unresponsive.ok
  | .beadFault bead check => bead < 512 && check < 65536
  | .rodFault rod check => rod < 64 && check < 65536
  | .deckFault deck check => deck < 8 && check < 65536
  | .frameLoss frame cause => frame < 2 && cause < 65536
  | .roleReplaced kind index bead run => kind < 16 && index < 4096 && bead < 512 && run < 2 ^ 32
  | .shifterEvaluation _ => true
  | .moveCommit _ => true
  | .sweepToken _ router => router < 75
  | .fenceClose _ => true
  | .placeAlloc _ c1 c2 c3 => c1 < 65536 && c2 < 65536 && c3 < 65536
  | .placeShift _ bits4 => bits4 < 256
  | .modelLoad _ _ length _ _ _ => length < 2 ^ 32
  | .modelChecksDone => true
  | .modelSlotWritten _ => true
  | .modelCommit => true
  | .modelSwap => true
  | .modelAbort _ => true
  | .modelQuery _ => true
  | .reckonTick => true
  | .solveEnd _ => true
  | .solveLate work worstNode _ => work.iters < 2 ^ 32 && work.steps < 2 ^ 32 && worstNode < 65536
  | .measPut _ index quality _ _ => index < 65536 && quality < 256
  | .reckonCfg _ c => c.ok
  | .reckonCtl _ enable => enable < 256
  | .stateQuery _ addr offset count => addr < 2 ^ 64 && offset < 2 ^ 32 && count < 2 ^ 32
  | .laSubmit rollout => rollout < 65536
  | .laRunDequeue => true
  | .laVerdict run _ => run < 2 ^ 32
  | .laOverrun run => run < 2 ^ 32
  | .laWithdraw run => run < 2 ^ 32
  | .laGridRebuild => true
  | .laCfg _ c => c.ok
  | .laCtl _ enable => enable < 256
  | .laDetail _ run addr => run < 2 ^ 32 && addr < 2 ^ 64
  | .laQuery _ => true
  | .layerBoundary _ => true
  | .layerSolveStart _ => true
  | .layerSolveEnd _ _ => true
  | .optBudgetExpiry _ _ _ => true
  | .optCfg _ c => c.ok
  | .optCtl _ enable => enable < 256
  | .tariffPut _ _ length => length < 2 ^ 32
  | .forecastPut _ _ length => length < 2 ^ 32
  | .planQuery _ layer addr maxItems => layer < 256 && addr < 2 ^ 64 && maxItems < 2 ^ 32
  | .rolloutHandover => true
  | .rolloutVerdict => true
  | .commandSend rollout => rollout < 65536
  | .rolloutDone rollout => rollout < 65536
  | .rollCfg _ c => c.ok
  | .rollDest _ d => d.ok
  | .rollHold _ kind object hold => kind < 256 && object < 256 && hold < 256
  | .rollCtl _ enable => enable < 256
  | .inputFrameRx _ _ => true
  | .replyFrameRx _ _ => true
  | .stnStaleTimeout station => station < 1024
  | .stnOfflineTimeout station => station < 1024
  | .txnTimeout station tag gen => station < 1024 && tag < 65536 && gen < 256
  | .sendOrderRelease station => station < 1024
  | .outputRefresh station => station < 1024
  | .resyncSend station => station < 1024
  | .stnCfg _ c => c.ok
  | .stnCtx _ c => c.ok
  | .stnSafe _ station image => station < 65536 && image.length == 48
  | .stnCtl _ station enable => station < 65536 && enable < 256
  | .stnQuery _ first count addr => first < 65536 && count < 65536 && addr < 2 ^ 64
  | .loopSample loop _ => loop < 512
  | .loopTriggerTimeout loop _ => loop < 512
  | .loopCfg _ loop desc => loop < 65536 && desc.length == 128
  | .loopCoef _ c => c.ok
  | .loopMode _ loop mode _ => loop < 65536 && mode < 256
  | .loopSp _ loop _ atS atNs => loop < 65536 && atS < 2 ^ 32 && atNs < 2 ^ 32
  | .loopCtl _ loop enable => loop < 65536 && enable < 256
  | .loopQuery _ first count addr => first < 65536 && count < 65536 && addr < 2 ^ 64
  | .loopTrace _ loop count addr => loop < 65536 && count < 65536 && addr < 2 ^ 64
  | .loopTable _ image => image.length == 1040
  | .pwmPeriodStart output => output < 16
  | .tallyCyclicRelease task => task < 25
  | .tallyCycleStart task => task < 25
  | .tallyBudgetOverrun task => task < 25
  | .tallyBgOverrun => true
  | .tPsh area addr => area < 16 && addr < 1048576
  | .tPshn area addr => area < 16 && addr < 1048576
  | .tAndb area addr => area < 16 && addr < 1048576
  | .tAndnb area addr => area < 16 && addr < 1048576
  | .tOrb area addr => area < 16 && addr < 1048576
  | .tOrnb area addr => area < 16 && addr < 1048576
  | .tXorb area addr => area < 16 && addr < 1048576
  | .tPsh0 => true
  | .tPsh1 => true
  | .tAnd => true
  | .tOr => true
  | .tXor => true
  | .tNot => true
  | .tDup => true
  | .tDrop => true
  | .tOutb area addr => area < 16 && addr < 1048576
  | .tSetb area addr => area < 16 && addr < 1048576
  | .tClrb area addr => area < 16 && addr < 1048576
  | .tEdgr area addr => area < 16 && addr < 1048576
  | .tEdgf area addr => area < 16 && addr < 1048576
  | .tTon area addr => area < 16 && addr < 1048576
  | .tTof area addr => area < 16 && addr < 1048576
  | .tTp area addr => area < 16 && addr < 1048576
  | .tTrst area addr => area < 16 && addr < 1048576
  | .tCtu area addr => area < 16 && addr < 1048576
  | .tCtd area addr => area < 16 && addr < 1048576
  | .tCrst area addr => area < 16 && addr < 1048576
  | .tCadd area addr => area < 16 && addr < 1048576
  | .tLdw area addr => area < 16 && addr < 1048576
  | .tLdbu area addr => area < 16 && addr < 1048576
  | .tLdhs area addr => area < 16 && addr < 1048576
  | .tLdhu area addr => area < 16 && addr < 1048576
  | .tLdq area addr => area < 16 && addr < 1048576
  | .tLds area addr => area < 16 && addr < 1048576
  | .tStw area addr => area < 16 && addr < 1048576
  | .tStb area addr => area < 16 && addr < 1048576
  | .tSth area addr => area < 16 && addr < 1048576
  | .tAdd area addr => area < 16 && addr < 1048576
  | .tSub area addr => area < 16 && addr < 1048576
  | .tMul area addr => area < 16 && addr < 1048576
  | .tDiv area addr => area < 16 && addr < 1048576
  | .tMod area addr => area < 16 && addr < 1048576
  | .tAndw area addr => area < 16 && addr < 1048576
  | .tOrw area addr => area < 16 && addr < 1048576
  | .tXorw area addr => area < 16 && addr < 1048576
  | .tShl area addr => area < 16 && addr < 1048576
  | .tShr area addr => area < 16 && addr < 1048576
  | .tAsr area addr => area < 16 && addr < 1048576
  | .tFadd area addr => area < 16 && addr < 1048576
  | .tFsub area addr => area < 16 && addr < 1048576
  | .tFmul area addr => area < 16 && addr < 1048576
  | .tFdiv area addr => area < 16 && addr < 1048576
  | .tFmin area addr => area < 16 && addr < 1048576
  | .tFmax area addr => area < 16 && addr < 1048576
  | .tItf => true
  | .tFti => true
  | .tFabs => true
  | .tFneg => true
  | .tCeq area addr => area < 16 && addr < 1048576
  | .tCne area addr => area < 16 && addr < 1048576
  | .tCgt area addr => area < 16 && addr < 1048576
  | .tCge area addr => area < 16 && addr < 1048576
  | .tClt area addr => area < 16 && addr < 1048576
  | .tCle area addr => area < 16 && addr < 1048576
  | .tFceq area addr => area < 16 && addr < 1048576
  | .tFcne area addr => area < 16 && addr < 1048576
  | .tFcgt area addr => area < 16 && addr < 1048576
  | .tFcge area addr => area < 16 && addr < 1048576
  | .tFclt area addr => area < 16 && addr < 1048576
  | .tFcle area addr => area < 16 && addr < 1048576
  | .tJmp addr => addr < 524288
  | .tJt addr => addr < 524288
  | .tJf addr => addr < 524288
  | .tTrig addr => addr < 1048576
  | .tEnd => true
  | .tNop => true
  | .tallyExchangePoint => true
  | .tallyExchTimeout => true
  | .dioEdge line _ => line < 32
  | .tallyLoad _ _ length flags => length < 2 ^ 32 && flags < 2 ^ 32
  | .tallyExchange _ => true
  | .tallyRun _ mode => mode < 256
  | .tallyStop _ => true
  | .tallyCtl _ enable => enable < 256
  | .tallyTrig _ task => task < 256
  | .tallyPeek _ area start addr length => area < 256 && start < 2 ^ 32 && addr < 2 ^ 64 && length < 2 ^ 32
  | .tallyPoke _ area start length data => area < 256 && start < 2 ^ 32 && length < 2 ^ 32 && data.length == 32
  | .tallyCfg _ c => c.ok
  | .tallySafe _ bus object flags data => bus < 256 && object < 256 && flags < 256 && data.length == 64
  | .tallyQuery _ addr => addr < 2 ^ 64
  | .meterSample xs => xs.all (fun x => x.channel < 32)
  | .chInactive ch => ch < 32
  | .chAcquireDone ch taps => ch < 32 && taps.length == 1024
  | .chTrackWindow ch w => ch < 32 && w.length == 4096
  | .chAcquireRetry ch => ch < 32
  | .lineCycleEnd vset end_ _ _ _ => vset < 8 && end_.getD 0 < 2 ^ 80
  | .freeRunEnter vset => vset < 8
  | .halfCycleBoundary vset at_ _ => vset < 8 && at_.getD 0 < 2 ^ 80
  | .billSnapshot => true
  | .billAggregate => true
  | .heatSample point _ => point < 64
  | .battBurst _ => true
  | .meterVset _ x => x.ok
  | .meterCirc _ x => x.ok
  | .heatCfg _ point desc => point < 256 && desc.length == 64
  | .billCfg _ billS waitS => billS < 2 ^ 32 && waitS < 65536
  | .meterCtl _ circuit enable => circuit < 256 && enable < 256
  | .heatCtl _ point enable => point < 256 && enable < 256
  | .meterQuery _ set first count addr => set < 256 && first < 256 && count < 256 && addr < 2 ^ 64
  | .heatQuery _ set kind first count addr => set < 256 && kind < 256 && first < 256 && count < 256 && addr < 2 ^ 64
  | .ringFrameRx port _ => port < 2
  | .hsrSupervision => true
  | .ringOpenDetect => true
  | .linkChange port _ _ => port < 3
  | .legsOpen => true
  | .legsSenseCheck _ => true
  | .ringBypass _ bypass force waiting => bypass < 256 && force < 256 && waiting < 65536
  | .ringSend _ port _ f => port < 256 && f.length < 65536 && f.addr < 2 ^ 64 && f.data.length == f.length
  | .txStampCapture q id gen => q < 3 && id < 4096 && gen < 16
  | .txStampExpiry q id gen => q < 3 && id < 4096 && gen < 16
  | .txqHeadWrite q _ => q < 3
  | .timeLatch => true
  | .ptpSyncRx domain m => domain < 256 && m.port < 3
  | .ptpAnnounceRx domain m => domain < 256 && m.port < 3
  | .announceTimeout _ => true
  | .domainRevert => true
  | .holdoverLong => true
  | .acqTimeout => true
  | .pdelayMeasure port _ => port < 3
  | .ppsEdge => true
  | .slewDone => true
  | .rtcWrite => true
  | .toutFire output => output < 8
  | .toutSet _ o => o.ok
  | .timeSelect _ domain => domain < 256
  | .timeTod _ _ => true
  | .timeCfg _ _ _ _ => true
  | .heartbeatSend => true
  | .heartbeatRx _ _ => true
  | .pathSilent _ => true
  | .negotiationTimeout => true
  | .ringLossHandover => true
  | .mirrorEmitStn _ station _ => station < 1024
  | .mirrorEmitFbus _ bus object reserved _ => bus < 2 && object < 256 && reserved < 65536
  | .mirrorLoopOut _ loop _ _ => loop < 512
  | .mirrorSnapshot _ solve _ first _ => solve < 65536 && first < 65536
  | .mirrorTally _ area start _ => area < 256 && start < 2 ^ 32
  | .mirrorPlan _ _ => true
  | .mirrorRollout _ _ => true
  | .mirrorContext _ _ => true
  | .mirrorMeter _ kind set _ => kind < 256 && set < 256
  | .mirrorImage _ image offset total _ _ => image < 3 && offset < 2 ^ 32 && total < 2 ^ 32
  | .mirrorVerdict _ image status => image < 3 && status < 256
  | .mirrorMark _ image _ => image < 3
  | .mirrorResync _ phase records => phase < 256 && records < 2 ^ 32
  | .twinCtl _ enable retired => enable < 256 && retired < 2 ^ 32
  | .twinSwitch _ => true
  | .twinPromote _ => true
  | .doorbell ring width _ => ring < 64 && width < 17
  | .orderFetch ring entry => ring < 64 && entry.ok
  | .hostMemoryTimeout _ => true
  | .coalesceTimer report => report < 32
  | .hostRingEnable ring _ => ring < 64
  | .hostRingDisable ring _ => ring < 64
  | .setupSeal _ => true
  | .sealWaitExpiry => true
  | .w1cWrite offset _ => offset < 65536
  | .registerWrite offset _ => offset < 65536
  | .barBadAccess => true
  | .pcieLinkUp width speed => width < 17 && speed < 4
  | .pcieLinkDown => true
  | .pcieFlr => true
  | .hqNop _ => true
  | .hqAbort _ _ _ => true
  | .setupLoad _ _ length _ _ => length < 2 ^ 32
  | .setupQuery _ => true
  | .canFrameRx bus _ => bus < 2
  | .fbusAttemptEnd bus _ => bus < 2
  | .fbusDeadline bus object => bus < 2 && object < 256
  | .fbusPeriod bus object => bus < 2 && object < 256
  | .fbusRecoveryDone bus => bus < 2
  | .fbusLockRead bus slot => bus < 2 && slot < 256
  | .fbusUnlockRead bus slot => bus < 2 && slot < 256
  | .fbusRxCfg _ c => c.ok
  | .fbusTxCfg _ c => c.ok
  | .fbusSend _ bus object data => bus < 256 && object < 256 && data.length == 64
  | .fbusCtl _ bus enable => bus < 256 && enable < 256
  | .fbusRecover _ bus => bus < 256
  | .reportTimerExpiry src key => src < 256 && key < 2 ^ 32
  | .nlogRecordWrite => true
  | .nlogFreezeTimeout => true
  | .nlogDrainDone => true
  | .nlogEraseDone => true
  | .nlogReady _ _ => true
  | .nlogSrc _ x => x.ok
  | .nlogFreeze _ freeze timeoutS => freeze < 256 && timeoutS < 65536
  | .nlogRead _ first count addr => first < 2 ^ 32 && count < 65536 && addr < 2 ^ 64
  | .nlogClear _ _ => true
  | .panelLineProgram => true
  | .panelWriteCommit => true
  | .panelRefreshTick => true
  | .blinkHalfPeriod plane => plane < 2
  | .panelAgeUpdate _ => true
  | .panelStressSave _ => true
  | .crackCheck _ => true
  | .panelWrite _ rect _ => rect.ok
  | .panelMask _ plane rect _ => plane < 256 && rect.ok
  | .panelCurve _ primary values => primary < 256 && values.length == 64
  | .panelSet _ x => x.ok
  | .panelCtl _ enable => enable < 256
  | .tagPhaseEnd rawMv => rawMv < 65536
  | .tagUpdate _ _ flags => flags < 256
  | .tagCtl _ enable => enable < 256
  | .hello _ => true
  | .stat _ => true
  | .rd _ => true
  | .wr _ => true
  | .log _ => true
  | .frz _ => true
  | .calx _ => true
  | .cali _ => true
  | .calc _ rawMv => rawMv < 65536
  | .fwq _ => true
  | .img _ => true
  | .monitorDataLine offset data _ => offset < 2 ^ 32 && data.length == 64
  | .rst _ => true
  | .keyfuse _ => true
  | .unlock _ => true
  | .lock _ => true
  | .monitorIdleTimeout => true
  | .monitorBreak => true
  | .lockoutEnd => true
  | .calExport _ addr => addr < 2 ^ 64
  | .calImport _ page _ _ rawMv => page.length == 4096 && rawMv < 65536
  | .calCapture _ _ rawMv => rawMv < 65536
  | .calWriteDone _ => true
  | .fwLoad _ _ length _ _ _ => length < 2 ^ 32
  | .fwLoadDone _ => true
  | .fwQuery _ => true
  | .vinAccept _ => true
  | .beamUp lost => lost < 64
  | .scanDone _ _ _ => true
  | .setupApply => true
  | .ringPortsReady => true
  | .powerFailWarning rawVin rawVhold waiting => rawVin < 65536 && rawVhold < 65536 && waiting < 65536
  | .holdupReset _ _ _ => true
  | .rstNRequest rawVin rawVhold waiting => rawVin < 65536 && rawVhold < 65536 && waiting < 65536
  | .vinSurge _ rawPeak => rawPeak < 65536
  | .holdEnergyRefresh rawVin rawVhold rawVbat => rawVin < 65536 && rawVhold < 65536 && rawVbat < 65536
  | .vbatLow rawVbat => rawVbat < 65536
  | .ppsInLoss => true
  | .msixUnmask _ => true
  | .nodeForgetTime mac => mac < 2 ^ 48
  | .tallyBankWritten _ => true
  | .setupSlotWritten _ => true
  | .arbitrationWon bus => bus < 2
  | .busErrorRx bus rise => bus < 2 && rise < 256
  | .beamLoss waiting => waiting < 65536

end Sys2Proof
end

