-- ==== Sys2Proof/Tests/Slice0.lean ====
section
/-! SUPPORT. Tests: ill-formed terms that WellFormed refuses, a witness for the hypotheses of each statement with hypotheses, and
single commands against the values of the spec's worked examples. -/

namespace Sys2Proof.Tests

set_option Elab.async false

open Sys2Proof Sys2Proof.Machine

/-! ### Small states -/

def z : State := State.reset
def ref1 : OrderRef := .host 1 1
def live1 (op : Nat) : LiveOrder := { (default : LiveOrder) with tag := 1, gen := 1, opcode := op, handed := true }
/-- `s` with one order that has reached its function. -/
def ordered (op : Nat) (s : State) : State := { s with host := { s.host with live := [live1 op] } }
def later (n : Nat) (s : State) : State := { s with now := n }
def role1 : Role := { (default : Role) with id := 0x4001#16, bead := 3, epoch := 0x0100#16, st := .running, ckpt := some 1 }
def placed (r : Role) (s : State) : State := { s with place := { s.place with roles := [r] } }
def deckIs (d : Nat) (x : DeckSt) (s : State) : State := s.modDeck d (fun k => { k with st := x })
def atStep (n : Nat) (s : State) : State := { s with sup := { s.sup with step := n } }
def up (s : State) : State := { s with host := { s.host with linkUp := true } }

/-! ### Hypotheses that hold somewhere: the fabric and the placement -/

theorem witness_StepTakesTheFrontCommand : ({ z with pending := [.pcieFlr, .timeLatch] }).pending = .pcieFlr :: [.timeLatch] := by decide

theorem witness_IdleStepOnlyPassesTime :
    z.pending = [] ∧ z.time.slew = none ∧ 0 ≤ (z.now : Int) + z.clockOfs ∧ (z.now + 1) % (10 * msNs) ≠ 0
      ∧ ((later 9999999 z).pending = [] ∧ ((later 9999999 z).now + 1) % (10 * msNs) = 0) ∧ ∃ t, step z = .next t :=
  ⟨by decide, by decide, by decide, by decide, by decide, _, rfl⟩

def tok1 : Token := ⟨0x4001#16, 0x0100#16, 5⟩
def move1 : Move := ⟨2, 70, .heat, 0, false, [], [], [], [], []⟩

theorem witness_TokensHaveOneAcknowledge :
    let s := placed role1 z
    let moving := placed { role1 with st := .moving, move := some { move1 with from_ := 3 } } z
    let sent := { move1 with
      committed := true
      sweeps := [0]
      forwarding := [tok1] }
    let moved := placed { role1 with move := some sent } z
    let replacing (n : Nat) : State := placed { role1 with st := .replacing, waiting := List.replicate n tok1 } z
    (s.role tok1.role = some role1 ∧ role1.st ≠ .retired ∧ incarnation tok1.epoch = incarnation role1.epoch
      ∧ s.deckAsleep (deckOf 3) = false ∧ s.beadWorks 3 = true ∧ role1.st = .running ∧ role1.move = none ∧ role1.bead = 3)
    ∧ incarnation 0x0200#16 ≠ incarnation role1.epoch
    ∧ ((deckIs 0 .retention s).deck (deckOf 3)).st = .retention
    ∧ (∃ r, (replacing 31).role tok1.role = some r ∧ r.st = .replacing ∧ r.move = none ∧ r.waiting.length < 32)
    ∧ (∃ r, (replacing 32).role tok1.role = some r ∧ r.st = .replacing ∧ r.move = none ∧ 32 ≤ r.waiting.length)
    ∧ (∃ r m, moving.role tok1.role = some r ∧ r.st = .moving ∧ r.move = some m ∧ m.committed = false ∧ r.bead = 3)
    ∧ ∃ r m, moved.role tok1.role = some r ∧ r.st = .running ∧ r.move = some m ∧ m.committed = true ∧ m.from_ = 2 ∧ r.bead = 3
      ∧ tok1 ∈ m.forwarding := by
  refine ⟨by decide, by decide, by decide, ⟨_, rfl, by decide, rfl, by decide⟩, ⟨_, rfl, by decide, rfl, by decide⟩,
    ⟨_, _, rfl, rfl, rfl, rfl, rfl⟩, ⟨_, _, rfl, rfl, rfl, rfl, rfl, rfl, by decide⟩⟩

theorem witness_MemoryErrorsAreCorrectedOrPoison :
    let at_ : State := { z with fab := { z.fab with poisoned := [(.deckMemory, 7, 1)], scrubMem := .deckMemory, scrubIdx := 7, scrubWord := 5 } }
    let bad := placed role1 at_
    let tally : State := { z with tally := { z.tally with run := .running, prog := some ⟨0, [], [], [], [], [], [], []⟩ } }
    (z.memDown .deckMemory 7 = false ∧ z.memAsleep .deckMemory 7 = false ∧ (MemKind.deckMemory, 7, 1) ∉ z.fab.poisoned)
    ∧ z.memDown .beadStore 511 = false ∧ z.memDown .rodScratch 63 = false ∧ z.xingStopped 0x14 = false
    ∧ ((MemKind.deckMemory, 7, 1) ∈ bad.fab.poisoned ∧ bad.role role1.id = some role1 ∧ role1.st = .running)
    ∧ (((deckIs 7 .retention z).deck 7).st = .retention ∧ memDeck .deckMemory 7 = some 7 ∧ memDeck .rodScratch 63 = some 7
      ∧ memDeck .beadStore 511 = some 7 ∧ memDeck .lpddr 0 = none ∧ (deckIs 7 .retention z).memDown .rodScratch 63 = false)
    ∧ (tally.memDown .tallyCode 0 = false ∧ tally.tally.bank = 0 ∧ tally.tally.prog.isSome = true ∧ tally.tally.run ≠ .stopped)
    ∧ ({ z with fab := { z.fab with scrubOwed := [(.deckMemory, 7, 5)] } }).scrubOwes = some (.deckMemory, 7, 5)
    ∧ ({ z with fab := { z.fab with deckFail := [7] } }).memDown .deckMemory 7 = true
    ∧ (z.stopXing 0x14).xingStopped 0x14 = true
    ∧ (bad.scrubOwes = none ∧ bad.fab.scrubIdle = false ∧ bad.fab.scrubWord + 1 < scrubWords .deckMemory)
    ∧ (deckIs 7 .retention bad).memAsleep .deckMemory 7 = true ∧ (deckIs 7 .retention bad).scrubOwes = none := by decide

theorem witness_DecksPaceAndSleep :
    let s := later 3000000 z
    let r := deckIs 7 .retention (placed { role1 with bead := 511 } z)
    let w := deckIs 7 .waking z
    let p := { s with regs := [(rPaceCtl, 4#32)] }
    (7 < s.fab.decks.length ∧ (s.deck 7).st = .active ∧ (s.deck 7).hot = false ∧ (s.deck 7).lastStep + 50 * usNs ≤ s.now
      ∧ (s.deck 7).rail ≤ railMax false ∧ 39 < paceFloor false ∧ ¬ 40 < paceFloor false ∧ s.fld rPaceCtl 1 0 ≠ 1
      ∧ (s.deck 7).lastBacklog + msNs ≤ s.now)
    ∧ (p.deckAwake 7 = true ∧ (p.deck 7).idleSince + 2 * msNs ≤ p.now ∧ p.fld rPaceCtl 2 2 = 1 ∧ p.deckHoldsPinned 7 = false
      ∧ p.deckMoves 7 = false)
    ∧ (∃ x, r.role tok1.role = some x ∧ x.st ≠ .retired ∧ x.st ≠ .replacing ∧ incarnation tok1.epoch = incarnation x.epoch
      ∧ deckOf 511 = 7 ∧ (r.deck 7).st = .retention)
    ∧ (r.memDown .deckMemory 7 = false ∧ memDeck .deckMemory 7 = some 7 ∧ (r.deck 7).st = .retention) ∧ ((w.deck 7).st = .waking ∧ (w.deck 7).held = []) := by
  refine ⟨by decide, by decide, ⟨_, rfl, by decide, by decide, by decide, rfl, rfl⟩, by decide, by decide⟩

theorem witness_HeatShedsAndTrips :
    let shed := z.modDeck 0 (fun k => { k with st := .shedding, hot := true })
    (z.fab.decks.length = 8 ∧ z.cal.tofs.getD 0 0 = 0#32 ∧ tempOf z.shedC + 1 ≤ 1023 ∧ (z.deck 0).hot = false)
    ∧ ((shed.deck 0).hot = true ∧ tempOf (shed.shedC - 3) ≤ 1023) ∧ tempOf 125 < 757 ∧ 0 ∉ z.fab.deckFail := by decide

theorem witness_CrossingsStopAndRestart :
    let busy := z.modXing 0x13 (fun c => { c with done := 3, tookAt := some 0 })
    ((z.xing 22).stopped = false ∧ (z.xing 22).done ≤ 0 ∧ 22 < z.fab.crossings.length)
    ∧ ((busy.xing 0x13).stopped = false ∧ 2 < (busy.xing 0x13).done)
    ∧ ((z.stopXing 0).xing 0).stopped = true ∧ xingMerging 0x13 = true ∧ xingMerging 0 = false
    ∧ (busy.xing 0x13).carries 0x13 busy.now true = true ∧ (z.xing 0x13).carries 0x13 z.now true = false := by decide

theorem witness_FaultsIsolateTheirParts :
    let small : List Part := [.deck 0, .deck 1, .deck 2, .deck 4, .deck 5]
    z.beadWorks 511 = true ∧ 63 ∉ z.fab.rodFail ∧ 63 / 8 ∉ z.fab.deckFail ∧ 7 ∉ z.fab.deckFail ∧ 1 ∉ z.fab.frameLost
    ∧ (z.holdAtDeck 7 (.token tok1 511 false)).fab.deckFail = []
    ∧ (atStep 4 z).sup.step = 4 ∧ (atStep 4 z).sup.holdUp = false
    ∧ ((atStep 4 z).scanned small []).placementOk [⟨0x4000#16, 200, 6⟩, ⟨0x4001#16, 400, 3⟩] = true := by decide +kernel

theorem witness_MovesFreezeCommitAndFence :
    let plan : MovePlan := ⟨0x1001#16, 70, .heat, 0, 0, true⟩
    let r : Role := { role1 with id := 0x1001#16, ckpt := some 2 }
    let hot := placed r { z with
      now := 10000000
      regs := [(rPlaceCtl, 0x50F#32)]
      place := { z.place with shiftEn := .enabled }
      fab := { z.fab with decks := z.fab.decks.set 0 { z.deck 0 with temp := 676 } } }
    let m := { move1 with
      committed := true
      sweeps := [0] }
    (hot.role r.id = some r ∧ hot.place.shiftEn = .enabled ∧ hot.place.lastEval + 10 * msNs ≤ hot.now ∧ hot.moveOk plan = true)
    ∧ (move1.committed = false ∧ z.beadWorks move1.target = true ∧ z.deckAwake (deckOf move1.target) = true
      ∧ z.deckEligible (deckOf move1.target) = true
      ∧ (z.modDeck 1 (fun k => { k with hot := true })).deckEligible (deckOf move1.target) = false)
    ∧ (m.committed = true ∧ 0 ∈ m.sweeps)
    ∧ (role1.resend = [] ∧ (placed role1 z).roleDown role1.id = false
      ∧ ∀ q ∈ (placed role1 z).place.roles, q.retireAfter = true → q.move ≠ none ∧ q.id ≠ role1.id)
    ∧ ((ordered 0x0202 z).orderReady ref1 0x0202 = true ∧ z.place.shiftEn = .disabled)
    ∧ (ordered 0x0201 z).orderReady ref1 0x0201 = true ∧ 48 + 64 + 16 + 112 ≤ z.workingBeads := by decide +kernel

/-! ### The model, the Reckoner -/

/-- A model of one network, two nodes, a pipe, a zone and a host measurement, for house 1; signed by the key of `vendorKey`. -/
def modelImg : List Byte :=
  beBytes 48 0x4f505a4d010040000100050001000000e00100000000000000000000000000005749544e455353000000000000000000
    ++ beBytes 48 0x0000000000000000000000002449dfd9010020009000000001000000440c6deb02002000b00000000200000038e22e74
    ++ beBytes 48 0x03002000f000000001000000be2baed00a0020001001000001000000ca23bbb20b0030003001000001000000a93baae5
    ++ beBytes 48 0x00000000007c924833938d433393b0433393a1434e455400000000000000000000000002000000000050c34700247449
    ++ beBytes 48 0x000000000000000000401c460000000001000001000000000050c34700247449000000000000000000401c4600000000
    ++ beBytes 48 0x00000000010000000000c842cdcccc3d6f12033a0000803f00007a440000003f0000000000007a440000003f0ad7233c
    ++ beBytes 48 0x00409c460050c347000001005a300000000000030000ffff00000000000000000000c8420000803f0000000000000000
    ++ beBytes 48 0x0024f4490000000000000000000000006b17d1f2e12c4247f8bce6e563a440f277037d812deb33a0f4a13945d898c296
    ++ beBytes 48 0x4fe342e2fe1a7f9b8ee7eb4a7c0f9e162bce33576b315ececbb6406837bf51f57cf27b188d034f7e8a52380304b51ac3
    ++ beBytes 48 0xc08969e277f21b35a60b48fc476699788817f983c511a5c2cf9d849ba94423b7437678415771dcb39c530f4a977fb9e2


def load1 : ModelLoad := ⟨ref1, modelImg, 480, false, false, false, .checking, 0, false, false, false, 0⟩
def loading (l : ModelLoad) (s : State) : State := { s with model := { s.model with load := some l } }
/-- A tablet of house 1 with the key fused. -/
def house1 : State := { z with
  regs := [(rGlbHouse, 1#32)]
  fuses := { z.fuses with house := sha256 vendorKey } }
/-- The same with the model of `modelImg` running. -/
def running1 : State := { house1 with
  model := { house1.model with slots := [⟨modelImg, 1⟩, default], runSlot := some 0, run := modelImg } }

theorem witness_modelChecks : (modelChecks (house1.checkEnv (some 480) none false) modelImg).status = 0 := by decide +kernel

theorem witness_ModelLoadsStageByStage :
    let ready (at_ : Nat) (s : State) : State := loading { load1 with stage := .ready, readyAt := at_ } s
    ((ordered 0x0301 z).orderReady ref1 0x0301 = true ∧ z.model.load = none ∧ (loading load1 (ordered 0x0301 z)).model.load ≠ none)
    ∧ ((loading load1 house1).model.load = some load1 ∧ load1.stage = .checking ∧ load1.validateOnly = false)
    ∧ (modelChecks (z.checkEnv (some 0) none false) []).status ≠ 0
    ∧ ((loading { load1 with stage := .writing } z).standbyThere = false ∧ load1.retried = false)
    ∧ (0 ≤ (ready 0 z).tickNow ∧ (ready 0 z).twin.en = .disabled ∧ load1.twinOk = false) ∧ (ready 1 z).tickNow < 1
    ∧ ((ordered 0x0302 (ready 0 z)).orderReady ref1 0x0302 = true ∧ (ordered 0x0302 (ready 1 z)).orderReady ref1 0x0302 = true)
    ∧ (ordered 0x0302 z).orderReady ref1 0x0302 = true ∧ (ordered 0x0303 z).orderReady ref1 0x0303 = true := by decide +kernel

theorem witness_SwapAndReplacementRestart :
    let r : Role := { role1 with id := 0x1001#16, st := .replacing, waiting := [tok1] }
    ({ later 1000000000 running1 with model := { running1.model with swapDue := true } }).swapOk = true ∧ z.swapOk = false
    ∧ r.id = roleIdOf 1 1 ∧ (placed r z).role r.id = some r ∧ (placed r z).mayRestart r 3 = true
    ∧ (placed r { z with fab := { z.fab with beadFail := [3] } }).mayRestart r 200 = true ∧ roleKind r.id ≠ 6 ∧ roleKind r.id ≠ 4
    ∧ roleKind r.id ≠ 5 := by decide +kernel

def solve1 : Solve := { (default : Solve) with number := 1, tickAt := 0, cfg := ReckonCfg.init }
def solving (en : Enable) (s : State) : State := { s with
  now := 2000000000
  reck := { s.reck with en := en, running := some solve1 } }

theorem witness_ReckonerSolvesTickByTick :
    let s := later 1000000000 running1
    (s.sup.step ≠ 10 ∧ s.reck.en = .enabled ∧ s.model.runSlot ≠ none ∧ s.reck.running = none
      ∧ s.reck.lastTick < tickOf (s.reck.pendingCfg.getD s.reck.cfg) s.tai)
    ∧ (let u := solving .enabled running1
       u.sup.step ≠ 10 ∧ u.reck.running = some solve1 ∧ u.reck.en ≠ .quiescing
      ∧ u.reck.lastTick < tickOf (u.reck.pendingCfg.getD u.reck.cfg) u.tai
      ∧ solve1.tickAt + 2 * (solve1.cfg.cadenceMs * msNs) ≤ u.now ∧ u.pastDue solve1 = true
      ∧ (later 1 u).pastDue solve1 = false
      ∧ (u.solveNumbers solve1 (some { (default : SolveResult) with converged := true })).1.converged = true
      ∧ (u.solveNumbers solve1 (some default)).1.converged = false)
    ∧ (solving .quiescing z).reck.en = .quiescing := by decide +kernel

theorem witness_ReckonerOrdersComplete :
    (reckonCfgOk ReckonCfg.init = true ∧ reckonCfgOk { ReckonCfg.init with cadenceMs := 490 } = false
      ∧ (ordered 0x0401 z).orderReady ref1 0x0401 = true)
    ∧ (∃ r, recByKey running1.model.run 11 0 = some r ∧ u8At r 3 = 3) ∧ recByKey z.model.run 11 0 = none
    ∧ (ordered 0x0404 z).orderReady ref1 0x0404 = true
    ∧ ((ordered 0x0402 z).orderReady ref1 0x0402 = true ∧ z.reck.en = .enabled ∧ z.reck.running = none)
    ∧ (solving .enabled z).reck.running ≠ none ∧ (solving .quiescing z).reck.en = .quiescing
    ∧ ((ordered 0x0403 z).orderReady ref1 0x0403 = true ∧ 0x8B6F0 % 16 = 0 ∧ 0x8B6F0 + 16 * 1 ≤ 0x8B700
      ∧ 0x8B700 < 0x8B6F0 + 16 * 2)
    ∧ z.xingStopped 0x01 = false ∧ z.reck.queryAt ≠ some z.now ∧ ({ z with reck := { z.reck with queryAt := some 0 } }).reck.queryAt = some z.now := by
  refine ⟨by decide +kernel, ⟨_, rfl, by decide +kernel⟩, ?_⟩
  decide +kernel

/-! ### Look-ahead, the optimiser, the rollout sequencer -/

/-- A SOLO tablet of house 1 with a reckoned state. -/
def reckoned : State := { running1 with
  twin := { running1.twin with role := .solo }
  reck := { running1.reck with
    sets := (some ⟨1, 0, 0, 0, 1, [(0, ⟨0x48927C00#32, 0, .good, 0, 1, 0x42C80000#32⟩), (1, ⟨0x48927C00#32, 0, .good, 0, 1, 0x42C80000#32⟩)]⟩)
      :: List.replicate 8 none
    latest := some 0 } }

/-- A rollout of zone 0 with a command to bus object 3 that is due. -/
def cmd1 : RollCmd := ⟨1, 0, .bus 0 3, fOne, 0, 0, .new, false⟩
def roll1 (st : RollSt) : Rollout :=
  { (default : Rollout) with
    id := 1, unit := .zone 0, cfg := RollCfg.init, st := st, submitted := true, a1 := some 500000000, cmds := [cmd1] }
def withRoll (x : Rollout) (s : State) : State := { s with roll := { s.roll with rolls := [x] } }
def verdict1 (v : Nat) : Verdict := { (default : Verdict) with run := 7, rollout := 1, verdict := v }
def run1 : LaRun := { (default : LaRun) with number := 7, rollout := 1, cfg := LaCfg.init, horizonMs := 20000 }
def inLa (f : LookAhead → LookAhead) (s : State) : State := { s with la := f s.la }

theorem witness_LookAheadRunsAndVerdicts :
    let x := roll1 .vetting
    let s := withRoll x reckoned
    let q := inLa (fun l => { l with queue := [⟨7, 1, 0, 0, 0, true⟩] }) s
    let r := inLa (fun l => { l with runs := [run1], withdrawals := [7] }) (later 2000000000 s)
    let full := inLa (fun l => { l with runs := List.replicate 4 run1 }) s
    (s.rollOf 1 = some x ∧ x.submitted = true ∧ s.activeOrSolo = true ∧ s.la.en = .enabled ∧ s.la.runs.length < 4
      ∧ s.la.rebuilding = none ∧ s.la.queue = [] ∧ alGet s.place.pendingAlloc 2 = none ∧ s.la.count + 1 ∉ s.la.withdrawals
      ∧ s.startRefusal x (horizonMs s.la.cfg ((s.latestSet.map (fun y => y.tickTai)).getD 0) x.lastApply) = 0)
    ∧ (full.rollOf 1 = some x ∧ full.activeOrSolo = true ∧ 4 ≤ full.la.runs.length ∧ full.la.queue.length < 8)
    ∧ (q.la.queue = ⟨7, 1, 0, 0, 0, true⟩ :: [] ∧ q.rollOf 1 = some x ∧ 7 ∉ q.la.withdrawals
      ∧ 7 ∈ (inLa (fun l => { l with withdrawals := [7] }) q).la.withdrawals
      ∧ q.startRefusal x (horizonMs q.la.cfg ((q.latestSet.map (fun y => y.tickTai)).getD 0) x.lastApply) = 0)
    ∧ (r.la.runs.find? (fun y => y.number == run1.number) = some run1 ∧ run1.overrun = false ∧ run1.number ∈ r.la.withdrawals
      ∧ run1.startedAt + runBoundUs (r.kindCount 2) run1.cfg.stepMs (reachOfNet run1.cfg.stepMs run1.network r.model.run)
          run1.horizonMs * usNs < r.now)
    ∧ (runOutcome r.model.run run1 (some default)).diverged = false
    ∧ (runOutcome r.model.run run1 (some { (default : RunTrace) with diverged := true })).diverged = true
    ∧ (inLa (fun l => { l with rebuilding := some 1 }) z).la.rebuilding = some 1 := by decide +kernel

theorem witness_LookAheadOrdersComplete :
    let busy := inLa (fun l => { l with runs := [run1], recent := [verdict1 0] }) z
    (laCfgOk LaCfg.init = true ∧ laCfgOk { LaCfg.init with stepMs := 51 } = false
      ∧ reachTotal LaCfg.init.stepMs modelImg ≤ 131072)
    ∧ ((ordered 0x0501 z).orderReady ref1 0x0501 = true ∧ (ordered 0x0502 z).orderReady ref1 0x0502 = true
      ∧ (ordered 0x0503 z).orderReady ref1 0x0503 = true ∧ (ordered 0x0504 z).orderReady ref1 0x0504 = true)
    ∧ (z.la.en = .enabled ∧ z.la.runs = [] ∧ z.la.queue = [] ∧ busy.la.runs ≠ [] ∧ busy.la.queue = [])
    ∧ (busy.la.recent.find? (fun x => x.run == 7) = some (verdict1 0) ∧ busy.xingStopped 0x01 = false)
    ∧ z.la.recent.find? (fun x => x.run == 7) = none := by decide +kernel

def layerRun1 : LayerRun := { (default : LayerRun) with number := 1, cfg := OptCfg.init }
/-- A tariff table of one zero price, with its CRC. -/
def tariff1 (i kind : Nat) : List Byte :=
  let head := [BitVec.ofNat 8 i, BitVec.ofNat 8 kind, 1#8, 0#8] ++ List.replicate 24 0#8
  let body := List.replicate 8 0#8
  head ++ leBytes 4 (crc32c (head ++ body)).toNat ++ body
/-- A profile of one value 0, with its CRC. -/
def profile1 : List Byte :=
  let head := [5#8, 0#8, 1#8, 0#8]
  let body := List.replicate 12 0#8
  head ++ leBytes 4 (crc32c (head ++ body)).toNat ++ body
def optCfg1 : OptCfg := { OptCfg.init with importTable := 1, exportTable := 2, elecProfile := 5 }
def tariffed (s : State) : State := { s with opt := { s.opt with
  cfg := optCfg1
  tariffs := [(1, tariff1 1 1), (2, tariff1 2 2)]
  profiles := [(5, profile1)] } }
/-- The Tally runs. -/
def ticking (s : State) : State := { s with tally := { s.tally with run := .running } }
def dueDay (s : State) : State := { s with opt := { s.opt with day := { s.opt.day with due := some ⟨0, some (0, none)⟩ } } }
def solvingDay (s : State) : State := { s with
  now := 200000000000
  opt := { s.opt with day := { s.opt.day with run := some layerRun1 } } }

theorem witness_LayersSolveAndHandOver :
    let d := dueDay (tariffed reckoned)
    let r := solvingDay reckoned
    (reckoned.opt.en = .enabled ∧ reckoned.activeOrSolo = true ∧ (reckoned.layer .day).run = none
      ∧ (reckoned.layer .day).lastBoundary < (later 900000000000 reckoned).tai / secNs / layerPeriod .day * layerPeriod .day)
    ∧ ((d.layer .day).due = some ⟨0, some (0, none)⟩ ∧ d.layerReady ⟨0, some (0, none)⟩ = true ∧ (d.layer .day).run = none
      ∧ alGet d.place.pendingAlloc 3 = none ∧ d.kindCount 3 ≠ 0 ∧ d.layerRefusal .day 0 = 0
      ∧ (dueDay reckoned).layerRefusal .day 0 ≠ 0)
    ∧ (r.opt.en = .enabled ∧ (r.layer .day).run = some layerRun1
      ∧ layerRun1.startedAt + r.layerBoundUs .day * usNs ≤ r.now
      ∧ (let best (p : F32) := r.layerNumbers .day layerRun1 7 (some { (default : LayerResult) with primal := p, epsP := fOne })
         fLe (best fOne).primal (fMul (fc 10 1) (best fOne).epsP) = true
         ∧ fLe (best (fc 11 1)).primal (fMul (fc 10 1) (best (fc 11 1)).epsP) = false)
      ∧ (r.layerNumbers .day layerRun1 noBudget (some { (default : LayerResult) with ended := .converged })).ended = .converged
      ∧ (r.layerNumbers .day layerRun1 noBudget (some { (default : LayerResult) with ended := .infeasible 3 })).ended
          = .infeasible 3
      ∧ (r.layerNumbers .day layerRun1 7 (some { (default : LayerResult) with ended := .uncommitted })).ended = .uncommitted) := by decide +kernel

theorem witness_OptimiserOrdersComplete :
    let s := tariffed z
    (s.optCfgOk optCfg1 = true ∧ s.optCfgOk OptCfg.init = false ∧ (ordered 0x0601 s).orderReady ref1 0x0601 = true)
    ∧ (({ z.opt with en := .disabled }).en = .disabled ∧ z.opt.en = .enabled ∧ z.opt.day.run = none ∧ z.opt.pressure.run = none
      ∧ (solvingDay z).opt.day.run ≠ none ∧ (ordered 0x0602 z).orderReady ref1 0x0602 = true)
    ∧ (tariffStatus (tariff1 31 0) 40 = 0 ∧ z.tariffFits 31 0 = true ∧ tariffStatus (tariff1 32 0) 40 ≠ 0
      ∧ (ordered 0x0603 z).orderReady ref1 0x0603 = true)
    ∧ (profileStatus profile1 20 = 0 ∧ profileStatus profile1 24 ≠ 0 ∧ (ordered 0x0604 z).orderReady ref1 0x0604 = true)
    ∧ ((ordered 0x0605 z).orderReady ref1 0x0605 = true ∧ z.opt.pressure.plan = none
      ∧ ({ z.opt.day with plan := some (default : Plan) }).plan = some default
      ∧ z.xingStopped 0x01 = false ∧ z.opt.queryAt ≠ some z.now ∧ ({ z with opt := { z.opt with queryAt := some 0 } }).opt.queryAt = some z.now) := by decide +kernel

/-- A change of a pump of zone 0. -/
def change1 : Change := ⟨.zone 0, 1, [(8, 0, fOne)], 0⟩
def stnCtx1 : Ctx := { (default : Ctx) with cfg := { (default : StnCtxCfg) with station := 9, qdepth := 16 }, st := .online, en := .enabled }

/-- The ring is open, the clock has locked, and station 9 is ONLINE. -/
def linked (s : State) : State := { s.setReg rIpv4Pfx 24#32 with
  time := { s.time with firstLock := true }
  ring := { s.ring with en := .enabled }
  stn := { s.stn with ctxs := [stnCtx1] } }

theorem witness_RolloutsVetReleaseAndEnd :
    let h := { reckoned with roll := { reckoned.roll with incoming := [change1] } }
    let x := h.newRoll change1
    let y := h.buildSchedule x (h.firstApply x)
    let v := roll1 .vetting
    let told (n : Nat) (r : Rollout) := inLa (fun l => { l with delivered := [verdict1 n] }) (ticking (withRoll r reckoned))
    let out := withRoll (roll1 .released) reckoned
    let stn := { roll1 .released with cmds := [{ cmd1 with recv := .station 9 }] }
    let s := withRoll stn (linked reckoned)
    let gone := { roll1 .released with cmds := [{ cmd1 with st := .sent }] }
    (h.roll.incoming = change1 :: [] ∧ h.activeOrSolo = true ∧ h.handoverRefusal x = 0 ∧ h.unitRoll change1.unit = none
      ∧ (∀ r ∈ h.roll.rolls, r.id ≠ h.roll.nextId) ∧ x.hydraulic = true ∧ x.zone ≠ 0xFF ∧ h.netBusy x.net = false
      ∧ ¬ h.tai + h.vetLimit < y.lastApply)
    ∧ ((told 0 { v with pend := some 7 }).rollOf 1 = some { v with pend := some 7 }
      ∧ (told 0 { v with pend := some 7 }).lateFor { v with pend := some 7 } = false
      ∧ (told 0 { v with pend := some 7 }).permitDrop { v with pend := some 7 } true = none
      ∧ (let u := told 0 { v with pend := some 7 }
         u.unfitSolo = false ∧ ({ u with place := { u.place with unfit := true } }).unfitSolo = true))
    ∧ ({ v with reshapes := 2 }).cfg.reshapeMax ≤ ({ v with reshapes := 2 }).reshapes
    ∧ v.pend ≠ some (verdict1 0).run
    ∧ (out.roleDown (rollRole 1) = false ∧ out.unfitSolo = false
      ∧ ({ out with place := { out.place with unfit := true } }).unfitSolo = true)
    ∧ (out.rollOf 1 = some (roll1 .released) ∧ firstDue (roll1 .released) out.tai = some (0, cmd1) ∧ cmd1.recv = .bus 0 3)
    ∧ (s.rollOf 1 = some stn ∧ firstDue stn s.tai = some (0, { cmd1 with recv := .station 9 }) ∧ s.stnUp 9 = true
      ∧ 9 ∉ stn.dropped ∧ (s.stnCommand 9 0 fOne 0).2 ≠ none)
    ∧ ((withRoll gone (later 500000000 reckoned)).rollOf 1 = some gone ∧ (∀ c ∈ gone.cmds, c.st ≠ .new)
      ∧ gone.lastApply ≤ (later 500000000 reckoned).tai ∧ reckoned.roll.en = .enabled) := by decide +kernel

theorem witness_RolloutOrdersComplete :
    (rollCfgOk RollCfg.init = true ∧ rollCfgOk { RollCfg.init with reshapeMax := 5 } = false
      ∧ (ordered 0x0701 z).orderReady ref1 0x0701 = true)
    ∧ (z.destOk 0 = true ∧ (ordered 0x0702 z).orderReady ref1 0x0702 = true)
    ∧ (RollUnit.zone 63 ∉ z.roll.holds ∧ z.unitRoll (.zone 63) = none ∧ (ordered 0x0703 z).orderReady ref1 0x0703 = true)
    ∧ (z.roll.en = .enabled ∧ z.roll.rolls = [] ∧ ({ z.roll with en := .quiescing }).en = .quiescing
      ∧ (ordered 0x0704 z).orderReady ref1 0x0704 = true) := by decide +kernel

/-- The descriptor of loop `n`: current class, 100 µs, one section, PV channel 0, SP timed, no destination, gain 1, output −1 to 1. -/
def desc1 (n trigger : Nat) : List Byte :=
  let src (kind : Nat) : List Byte := [BitVec.ofNat 8 kind, 0#8, 0#8, 0#8, 0#8, 0#8, 0#8, 0#8] ++ leBytes 4 fOne.toNat ++ leBytes 4 0
  let head := leBytes 2 n ++ [0#8, 1#8] ++ leBytes 4 100 ++ [BitVec.ofNat 8 trigger, 0#8] ++ leBytes 2 0 ++ leBytes 2 0 ++ leBytes 2 4
    ++ src 1 ++ src 8 ++ src 0 ++ leBytes 2 0 ++ leBytes 2 0xFFFF ++ leBytes 2 0xFFFF ++ leBytes 2 0xFFFF
    ++ leBytes 4 fOne.toNat ++ leBytes 4 0 ++ leBytes 4 0xBF800000 ++ leBytes 4 fOne.toNat ++ leBytes 4 0 ++ leBytes 4 0
    ++ leBytes 4 0 ++ leBytes 4 fOne.toNat ++ leBytes 4 0 ++ leBytes 4 fOne.toNat
    ++ leBytes 4 100 ++ leBytes 4 0xFFFFFFFF ++ leBytes 4 0
  head ++ leBytes 4 (crc32c head).toNat
def coef1 : LoopCoef := ⟨1, 0, 1, fOne, 0, 0, 0, 0⟩
def loop1 (trigger : Nat) : Loop := newLoop (desc1 1 trigger) false 0
def looped (l : Loop) (s : State) : State := s.setLoop 1 l
def noIn : LoopIn := default
/-- Channel 0 holds a GOOD sample of now. -/
def sampled (s : State) : State := { s with meter := { s.meter with
  chans := s.meter.chans.set 0 { (s.chan 0) with st := .locked, good := true, x := fOne, at_ := some s.tai, clipped := false, uncal := false } } }

theorem witness_LoopsSampleAtTheirTriggers :
    let l := loop1 0
    let s := looped l (later 250000 reckoned)
    let g := sampled s
    let forced : Loop := { l with desc := l.desc.take 0x0A ++ [2#8] ++ l.desc.drop 0x0B }
    let f := looped forced (later 250000 reckoned)
    let late : Loop := { l with later := some ⟨.closed, 0, 250000⟩ }
    let qui : Loop := { l with en := .quiescing, due := some 200000 }
    let second := s.setLoop 2 l
    let down := looped l (placed { role1 with id := loopRole 1, st := .replacing } (later 250000 reckoned))
    let w := looped (loop1 2) (later 250000 reckoned)
    let p : State := { g with
      sup := { g.sup with step := 11 }
      loops := { g.loops with pwmNext := [(15, fOne)] } }
    (s.loopOf 1 = some l ∧ l.en = .enabled ∧ l.later = none ∧ s.loopDue l = some 200000 ∧ s.loopTurn 1 200000 = true)
    ∧ (let o := looped late (later 250000 reckoned)
       o.loopOf 1 = some late ∧ o.loopDue late = some 200000 ∧ o.loopTurn 1 200000 = true ∧ (200000 : Nat) < 250000 ∧ 250000 ≤ o.tai
      ∧ o.loopRoleDown 1 = false)
    ∧ (let q := looped qui (later 250000 reckoned)
       second.loopOf 2 = some l ∧ second.loopRoleDown 2 = false ∧ second.loopTurn 2 200000 = false
      ∧ q.loopOf 1 = some qui ∧ qui.en ≠ .disabled ∧ q.loopDue qui = some 200000 ∧ q.loopTurn 1 200000 = true)
    ∧ (f.loopOf 1 = some forced ∧ f.loopDue forced = some 200000 ∧ f.loopRoleDown 1 = false ∧ f.loopForce forced = some 1
      ∧ forced.promote = false)
    ∧ (g.loopOf 1 = some l ∧ g.loopDue l = some 200000 ∧ g.loopRoleDown 1 = false ∧ g.loopForce l = none ∧ l.startClose = false
      ∧ l.mode = .opened ∧ fLt 0 l.rate = false
      ∧ ({ (l.takeSp 200000).1 with lastTrig := 200000, trig := false }).pvUsable (g.loopSrc l oPv 200000) 200000 = true)
    ∧ ({ (l.takeSp 200000).1 with lastTrig := 200000, trig := false }).pvUsable (s.loopSrc l oPv 200000) 200000 = false
    ∧ (down.loopDue l = some 200000 ∧ down.loopRoleDown 1 = true)
    ∧ (w.loopOf 1 = some (loop1 2) ∧ (loop1 2).trigger = 2 ∧ (loop1 2).trig = false
      ∧ (loop1 2).lastTrig + (loop1 2).periodUs * usNs ≤ w.tai ∧ w.loopForce (loop1 2) = none)
    ∧ (p.driven = true ∧ p.activeOrSolo = true ∧ alGet p.loops.pwmNext 15 = some fOne)
    ∧ (p.stopXing 0x0A).xingStopped 0x0A = true ∧ p.xingStopped 0x0A = false
    ∧ z.driven = false := by decide +kernel

theorem witness_LoopOrdersComplete :
    let l := loop1 0
    let s := looped l (sampled reckoned)
    let ready := looped { l with coefMissing := false, sections := [⟨true, true, fOne, 0, 0, 0, 0, 0, 0⟩] } (sampled reckoned)
    let off := looped { l with en := .disabled } z
    (z.loopCfgStatus 1 (desc1 1 0) = 0 ∧ z.loopOf 1 = none ∧ z.loopCfgStatus 2 (desc1 1 0) ≠ 0
      ∧ (ordered 0x0901 z).orderReady ref1 0x0901 = true)
    ∧ (s.loopOf 1 = some l ∧ coef1.loop = 1 ∧ l.mode = .opened ∧ coef1.section_ < l.nSec ∧ coef1.sflags ≤ 1
      ∧ ([coef1.b0, coef1.b1, coef1.b2, coef1.a1, coef1.a2].all fFinite) = true ∧ secStable coef1 = true
      ∧ secStable { coef1 with a2 := 0x40000000#32 } = false
      ∧ (ordered 0x0902 s).orderReady ref1 0x0902 = true)
    ∧ (let b : State := { reckoned with twin := { reckoned.twin with role := .standby } }
       b.follows = true ∧ (ordered 0x0903 b).orderReady ref1 0x0903 = true ∧ (ordered 0x0904 b).orderReady ref1 0x0904 = true)
    ∧ (let u := looped l (later 250000 reckoned)
       u.loopUnderWay l = true ∧ u.loopOf 1 = some l ∧ u.loopDue l = some 200000 ∧ u.loopRoleDown 1 = false ∧ u.follows = false)
    ∧ (fFinite fOne = true ∧ s.loopUnderWay l = false ∧ s.loopDue l = none ∧ s.xingStopped 0x01 = false ∧ s.follows = false ∧ l.coefMissing = true ∧ (ordered 0x0903 s).orderReady ref1 0x0903 = true)
    ∧ (ready.loopOf 1 = some { l with coefMissing := false, sections := [⟨true, true, fOne, 0, 0, 0, 0, 0, 0⟩] }
      ∧ l.pvUsable (ready.loopSrc l oPv ready.tai) ready.tai = true ∧ l.forceBit = 0xFFFFFFFF ∧ ready.activeOrSolo = true
      ∧ ready.loopUnderWay l = false)
    ∧ (l.srcKind oSp = 8 ∧ l.queue.length < 8 ∧ (ordered 0x0904 s).orderReady ref1 0x0904 = true)
    ∧ (off.loopOf 1 = some { l with en := .disabled } ∧ s.loops.trace = none ∧ s.loops.taking = false
      ∧ (ordered 0x0905 s).orderReady ref1 0x0905 = true)
    ∧ (s.loops.loops.filter (fun p => between 1 1 p.1) ≠ [] ∧ (ordered 0x0906 s).orderReady ref1 0x0906 = true)
    ∧ (ordered 0x0907 s).orderReady ref1 0x0907 = true
    ∧ (z.loopTableStatus
        (leBytes 2 1023 ++ leBytes 2 0 ++ leBytes 4 0 ++ leBytes 4 0 ++
          leBytes 4 (crc32c (leBytes 2 1023 ++ leBytes 2 0 ++ leBytes 4 0 ++ leBytes 4 0 ++ List.replicate 1024 0#8)).toNat
          ++ List.replicate 1024 0#8) = 0
      ∧ (ordered 0x0908 z).orderReady ref1 0x0908 = true) := by decide +kernel

/-! ### Station exchange -/

def addr1 : IpAddr := ⟨false, 0x0A000009⟩
/-- A station's frame: header, records and CRC. -/
def stnBytes (kind house station seq : Nat) (recs : List Byte) : List Byte :=
  let body := beBytes 1 1 ++ beBytes 1 kind ++ beBytes 2 house ++ beBytes 2 station ++ beBytes 2 0 ++ beBytes 4 seq
    ++ beBytes 4 0 ++ beBytes 4 999999999 ++ recs
  body ++ beBytes 4 (crc32c body).toNat
def image1 : List Byte := List.replicate 64 7#8
/-- STATUS of a station that runs, quality ESTIMATED. -/
def status1 : List Byte := [0#8, 0#8, 1#8, 0#8, 0#8, 0#8, 0#8, 0#8]
def inFrame (house station seq : Nat) : List Byte := stnBytes 0x81 house station seq (stnRec 5 status1 ++ stnRec 4 image1)
def ackBody : List Byte := beBytes 2 65535 ++ [255#8, 0#8]
def repFrame (house station seq : Nat) : List Byte := stnBytes 0x82 house station seq (stnRec 9 ackBody)
/-- Flips the last bit of a frame's CRC. -/
def spoilt (bs : List Byte) : List Byte := bs.take (bs.length - 1) ++ [(bs.getD (bs.length - 1) 0) ^^^ 1#8]
def txn1 (att : Nat) : Txn := ⟨65535, 255, 5, .request 1, att, some 0, []⟩
/-- Station 9 of a reckoned, linked tablet, its context as given. -/
def stationIs (c : Ctx) (s : State) : State := { linked s with stn := { (linked s).stn with ctxs := [c] } }
def ctx9 : Ctx := { freshCtx ⟨9, 2, 5000, 16, 0, 0x0A000009 * 2 ^ 96⟩ true 0 with st := .online }

theorem witness_StationFramesAreChecked :
    let c : Ctx := { ctx9 with rxSeq := 0xFFFFFFFF#32, rxWin := [0xFFFFFFFF#32], txns := [txn1 0] }
    let s := stationIs c reckoned
    let bs := inFrame 1 9 0
    let rp := repFrame 1 9 62
    let sized (b : List Byte) : Bool := 24 ≤ b.length && b.length ≤ 544 && b.length % 4 == 0
    let off : State := { s with ring := { s.ring with en := .disabled } }
    let crcOk (b : List Byte) : Bool := netAt b (b.length - 4) 4 == (crc32c (b.take (b.length - 4))).toNat
    (s.ring.en ≠ .disabled ∧ s.familyUp addr1.v6 = true ∧ off.ring.en = .disabled)
    ∧ ((sized bs && crcOk bs && sized rp && crcOk rp) = true ∧ sized (spoilt bs) = true ∧ crcOk (spoilt bs) = false
      ∧ s.houseId = 1 ∧ netAt (inFrame 2 9 0) 2 2 ≠ s.houseId ∧ crcOk (inFrame 2 9 0) = true
      ∧ s.ctxOf (netAt (inFrame 1 10 0) 4 2) = none ∧ crcOk (inFrame 1 10 0) = true)
    ∧ (s.ctxOf (netAt bs 4 2) = some c ∧ ctxAddrIs c.cfg addr1 = true ∧ c.en = .enabled ∧ netAt bs 6 2 = 0
      ∧ parseRecs 140 ((bs.take (bs.length - 4)).drop 0x14) = some [(5, status1), (4, image1)]
      ∧ s.houseId ≠ 0 ∧ s.houseId ≠ 0xFFFF
      ∧ windowStep c.rxSeq (if joinIn [(5, status1), (4, image1)] || c.st == .offline || c.st == .returning then [] else c.rxWin) (BitVec.ofNat 32 (netAt bs 8 4))
          = some (0#32, [0#32, 0xFFFFFFFF#32])
      ∧ netAt bs 1 1 = 0x81 ∧ netAt bs 0x10 4 ≤ 999999999 ∧ netAt status1 0 2 % 2 = 0 ∧ netAt status1 4 2 = c.boot ∧ c.st = .online)
    ∧ (parseRecs 140 ((rp.take (rp.length - 4)).drop 0x14) = some [(9, ackBody)] ∧ netAt rp 1 1 = 0x82 ∧ netAt ackBody 3 1 = 0
      ∧ s.activeOrSolo = true ∧ c.txns.find? (fun u => u.tag == netAt ackBody 0 2 && u.gen == netAt ackBody 2 1) = some (txn1 0)
      ∧ (txn1 0).frame ≠ .resync ∧ c.order = [] ∧ (windowStep c.rxSeq c.rxWin (BitVec.ofNat 32 (netAt rp 8 4))).isSome = true) := by decide +kernel

theorem witness_StationContextsAgeRetryAndSend :
    let on : Ctx := { ctx9 with acq := some 0 }
    let at_ (n : Nat) : State := stationIs on (later n reckoned)
    let cfg := StnCfg.init
    let tx (a : Nat) : Ctx := { ctx9 with txns := [txn1 a] }
    let w : Waiting := ⟨6, .output, none⟩
    let wt : Ctx := { ctx9 with order := [w] }
    let back : Ctx := { ctx9 with st := .returning }
    let r := stationIs back (later 1000000000 reckoned)
    let q := stationIs wt (later 1000000000 reckoned)
    ((at_ (cfg.staleMs * msNs + 1)).ctxOf 9 = some on ∧ on.cfg.station = 9 ∧ on.en = .enabled ∧ on.st = .online
      ∧ (at_ (cfg.staleMs * msNs + 1)).inputAge on = some (cfg.staleMs * msNs + 1)
      ∧ (at_ (cfg.offlineMs * msNs + 1)).inputAge on = some (cfg.offlineMs * msNs + 1)
      ∧ (at_ 0).stn.cfg = cfg ∧ on.st ≠ .offline ∧ on.st ≠ .disabled)
    ∧ ((tx 0).txns.find? (fun u => u.tag == (txn1 0).tag && u.gen == (txn1 0).gen) = some (txn1 0) ∧ (txn1 0).sentAt = some 0
      ∧ 0 + cfg.timeoutMs * msNs ≤ 1000000000 ∧ (txn1 0).frame = .request 1 ∧ (txn1 0).attempt < cfg.retries
      ∧ cfg.retries ≤ (txn1 cfg.retries).attempt ∧ (tx cfg.retries).noackRun + 1 < cfg.noackN)
    ∧ (q.xingStopped 0x04 = false ∧ q.familyOn wt.cfg = true ∧ q.roleDown (stnRole 9) = false ∧ r.familyOn back.cfg = true)
    ∧ (wt.order = [w] ∧ w.frame = .output ∧ w.retry = none ∧ q.sendable wt w = true)
    ∧ (ctx9.st = .online ∧ q.stnMay = true ∧ (ctx9.sentAt.filter (fun x => q.now < x + secNs)).length < 250 ∧ ctx9.lastImage = none)
    ∧ (back.st = .returning ∧ back.order = [] ∧ back.txns = [] ∧ r.writersDone back = true ∧ r.stnMay = true ∧ r.inFlight < 2048
      ∧ r.stn.pool.next < 65536 ∧ ({ r.stn.pool with next := 65535 }).next < 65536) := by decide +kernel

theorem witness_StationOrdersComplete :
    let s := stationIs ctx9 z
    let off := stationIs { ctx9 with en := .disabled, st := .disabled } z
    let c : StnCtxCfg := ⟨0x3FF, 3, 65535, 64, 0, 1⟩
    (stnCfgOk StnCfg.init = true ∧ stnCfgOk { StnCfg.init with retries := 4 } = false ∧ z.setup.sealed = false
      ∧ (ordered 0x0801 z).orderReady ref1 0x0801 = true)
    ∧ (stnCtxOk c = true ∧ stnCtxOk { c with station := 0x400 } = false ∧ (ordered 0x0802 z).orderReady ref1 0x0802 = true
      ∧ s.ctxOf ({ c with station := 9 }).station = some ctx9 ∧ z.ctxOf c.station = none)
    ∧ (s.ctxOf 9 ≠ none ∧ (ordered 0x0803 s).orderReady ref1 0x0803 = true)
    ∧ (off.ctxOf 9 = some { ctx9 with en := .disabled, st := .disabled } ∧ s.ctxOf 9 = some ctx9 ∧ ctx9.en = .enabled
      ∧ ctx9.txns = [] ∧ (ordered 0x0804 s).orderReady ref1 0x0804 = true)
    ∧ s.xingStopped 0x01 = false ∧ (ordered 0x0805 s).orderReady ref1 0x0805 = true := by decide +kernel
def tallyImg : List Byte :=
  beBytes 48 0x4f505a54010040000100000001000000540200000000000000000000010000005749544e455353000000000000000000
    ++ beBytes 48 0xd70eda12000000000000000050dbe71a0000000000000000000000000000000000000000000000000000000000000000
    ++ List.replicate 48 0#8
    ++ List.replicate 48 0#8
    ++ List.replicate 48 0#8
    ++ List.replicate 48 0#8
    ++ List.replicate 48 0#8
    ++ List.replicate 48 0#8
    ++ List.replicate 48 0#8
    ++ beBytes 48 0x0000000000000000000000000000000003000000000000000a00000000000000000000786b17d1f2e12c4247f8bce6e5
    ++ beBytes 48 0x63a440f277037d812deb33a0f4a13945d898c2964fe342e2fe1a7f9b8ee7eb4a7c0f9e162bce33576b315ececbb64068
    ++ beBytes 48 0x37bf51f57cf27b188d034f7e8a52380304b51ac3c08969e277f21b35a60b48fc47669978dc48bc97cab5455ef8101bd5
    ++ beBytes 20 0xb8980cb0d36354b736ccac28b711ef94087f4fad

/-! ### The Logic Tally -/

/-- The next word of task 0 is an instruction, with an immediate word after it, on a SOLO tablet. -/
def atIns (op a n : Nat) (imm : Word) (t : TaskSt) : State := { reckoned with
  tally := { reckoned.tally with
    run := .running
    prog := some ⟨1, [⟨1, 8, 0, 10, 100⟩, ⟨0, 0, 0, 0, 0⟩], [⟨5, 1, 4095, 0⟩], [], [], [insWord op a n, imm], [], []⟩
    tasks := t :: List.replicate 24 default } }
def task0 : TaskSt := { (default : TaskSt) with started := true, stack := [true, false], w := 0x80000000#32 }

theorem witness_TallyBitInstructions :
    let at_ (op a n : Nat) : Bool := (atIns op a n 0 task0).tallyAt op a n == some (0, task0)
    ([0x01, 0x02, 0x03, 0x04, 0x05, 0x06, 0x07].all (fun op => at_ op 9 (128 * 512)) = true)
    ∧ ([0x08, 0x09, 0x0A, 0x0B, 0x0C, 0x0D, 0x0E, 0x0F].all (fun op => at_ op 0 0) = true) := by decide +kernel

theorem witness_TallyStoresReachTheirBytes :
    let at_ (op a n : Nat) (t : TaskSt) : Bool := (atIns op a n 0 t).tallyAt op a n == some (0, t)
    let off : TaskSt := { task0 with stack := [] }
    (at_ 0x10 2 65535 task0 && at_ 0x11 2 65535 task0 && at_ 0x12 2 65535 task0 && at_ 0x11 9 65536 off && at_ 0x12 1 0 off
      && at_ 0x38 3 262140 task0 && at_ 0x39 3 262143 task0 && at_ 0x3A 3 262142 task0 && at_ 0x38 1 0 task0 && at_ 0x39 1 3 task0
      && at_ 0x38 9 (128 * 64 + 60) task0 && at_ 0x39 8 47 task0 && at_ 0x38 8 44 task0) = true
    ∧ task0.stack.headD false = true ∧ off.stack.headD false = false ∧ 47 % 64 < 48 := by decide +kernel

theorem witness_TallyTimersCountersEdges :
    let at_ (op a n : Nat) : Bool := (atIns op a n 0 task0).tallyAt op a n == some (0, task0)
    ([0x20, 0x21, 0x22, 0x23].all (fun op => at_ op 4 4095) && [0x28, 0x29, 0x2A, 0x2B].all (fun op => at_ op 5 4095)
      && [0x18, 0x19].all (fun op => at_ op 6 8191)) = true
    ∧ (atIns 0x29 5 4095 0 task0).instKind 5 4095 = 1
    ∧ (timerOn { (default : Timer) with inPrev := true, running := true, preset := 5, last := some 0 } true 5000000).q = true := by decide +kernel

theorem witness_TallyWordInstructions :
    let at_ (op a n : Nat) (v : Word) : Bool := (atIns op a n v task0).tallyAt op a n == some (0, task0)
    ([0x30, 0x40, 0x41, 0x42, 0x43, 0x44, 0x45, 0x46, 0x47, 0x48, 0x49, 0x4A].all (fun op => at_ op 11 0 1 && at_ op 3 262140 0) = true)
    ∧ ([0x31, 0x32, 0x33].all (fun op => at_ op 7 65534 0) = true)
    ∧ (at_ 0x43 11 0 0 = true ∧ at_ 0x44 11 0 0 = true ∧ ¬ (task0.w = 0x80000000#32 ∧ 1#32 = 0xFFFFFFFF#32))
    ∧ (at_ 0x34 0 143 0 && at_ 0x35 0 143 0 && at_ 0x34 9 10239 0 && at_ 0x35 9 8192 0) = true
    ∧ slotTx 8192 = true ∧ slotTx 10239 = true := by decide +kernel

theorem witness_TallyFloatInstructions :
    let nan : TaskSt := { task0 with w := 0x7FC00000#32 }
    let one : TaskSt := { task0 with w := fOne }
    let at_ (op a n : Nat) (t : TaskSt) : Bool := (atIns op a n fOne t).tallyAt op a n == some (0, t)
    ([0x50, 0x51, 0x52, 0x53, 0x54, 0x55].all (fun op => at_ op 11 0 one && at_ op 3 0 one) = true)
    ∧ ([0x58, 0x59, 0x5A, 0x5B].all (fun op => at_ op 0 0 one) = true)
    ∧ (fIsNaN one.w = false ∧ fIsZero one.w = false ∧ fIsNaN nan.w = true ∧ at_ 0x59 0 0 nan = true) := by decide +kernel

theorem witness_TallyComparesAndJumps :
    let at_ (op a n : Nat) (t : TaskSt) : Bool := (atIns op a n 0 t).tallyAt op a n == some (0, t)
    let off : TaskSt := { task0 with stack := [false] }
    let s := atIns 0x74 0 0 0 task0
    let p := s.tally.prog.map (fun p => { p with tasks := [⟨1, 8, 0, 10, 100⟩] ++ List.replicate 7 default ++ [⟨2, 1, 0, 0, 1⟩] })
    let trig : State := { s with tally := { s.tally with prog := p } }
    ([0x60, 0x61, 0x62, 0x63, 0x64, 0x65, 0x68, 0x69, 0x6A, 0x6B, 0x6C, 0x6D].all (fun op => at_ op 11 0 task0 && at_ op 10 16 task0) = true)
    ∧ ([0x70, 0x71, 0x72].all (fun op => at_ op 0 1 task0) = true)
    ∧ (at_ 0x74 0 15 off = true ∧ at_ 0x79 0 0 task0 = true ∧ at_ 0x78 0 0 { task0 with stack := [] } = true)
    ∧ (trig.tallyAt 0x74 0 0 = some (0, task0) ∧ trig.taskUsed 8 = true ∧ trig.tally.en = .enabled ∧ (trig.task 8).rel = none) := by decide +kernel

/-- A program of cyclic task 0, event tasks 8 and 23 and a background task. -/
def prog1 : Prog := ⟨1, [⟨1, 8, 0, 10, 100⟩] ++ List.replicate 7 default ++ [⟨2, 1, 0, 0, 1⟩] ++ List.replicate 14 default
  ++ [⟨2, 1, 0, 0, 1⟩, ⟨3, 0, 0, 10, 0⟩], [], [], [], [0x78000000#32], [[.dio]], []⟩
def tallying (f : Tally → Tally) : State := { (later 20000000 reckoned) with
  tally := f { reckoned.tally with run := .running, prog := some prog1, banks := [⟨tallyImg, 1⟩, ⟨tallyImg, 0⟩] } }
def withTask (k : Nat) (t : TaskSt) (x : Tally) : Tally := { x with tasks := x.tasks.set k t }

theorem witness_TallyReleasesAndOverruns :
    let s := tallying (fun x => x)
    let on : TaskSt := { (default : TaskSt) with started := true, runFrom := some 0 }
    let wait : TaskSt := { (default : TaskSt) with rel := some (20000000, 20000000) }
    let r := tallying (withTask 0 on)
    let w := tallying (fun x => withTask 0 wait (withTask 24 on x))
    let x (n : Nat) := tallying (fun y => { y with run := .exchanging, exch := some ⟨ref1, n⟩, loaded := true })
    (s.taskUsed 0 = true ∧ s.tallyRuns = true ∧ s.tally.en = .enabled ∧ (s.task 0).rel = none ∧ (s.task 0).started = false
      ∧ (s.task 0).lastPer < s.tai / ((s.taskDef 0).param * msNs) * ((s.taskDef 0).param * msNs))
    ∧ ((r.task 0).started = true ∧ 0 < r.tally.tasks.length ∧ (r.taskDef 0).budgetUs * usNs < 20000000)
    ∧ (w.tallyRuns = true ∧ w.mayStart 0 = true ∧ w.topTask = some 24)
    ∧ ((w.task 24).started = true ∧ (w.taskDef 24).param * msNs < w.now - (w.task 24).startAt)
    ∧ ((tallying (withTask 23 on)).task 23).started = true
    ∧ (getBit s.tally.dioIn 31 ≠ true ∧ s.xingStopped 0x0B = false)
    ∧ ((x 0).tally.exch = some ⟨ref1, 0⟩ ∧ (x 0).tally.run = .exchanging ∧ (x 0).exchangePoint = true ∧ (later 1000000000 (x 0)).tally.run = .exchanging
      ∧ 0 + (x 0).tally.cfg.exchWaitMs * msNs ≤ (later 1000000000 (x 0)).now) := by decide +kernel

theorem witness_TallyOrdersComplete :
    let s := tallying (fun x => x)
    let o (op : Nat) (s : State) : Bool := (ordered op s).orderReady ref1 op
    let ld (r : Bool) : TallyLoad := ⟨ref1, tallyImg, false, .writing, r⟩
    let l (r : Bool) := tallying (fun x => { x with load := some (ld r) })
    let full := tallying (fun x => { x with loaded := true })
    let stop := tallying (fun x => { x with run := .stopped })
    let busy := tallying (withTask 0 task0)
    (o 0x0A01 s = true ∧ (tallyChecks tallyImg 596 house1.houseId house1.fuse).1 = 0
      ∧ (tallyChecks [] 0 house1.houseId house1.fuse).1 ≠ 0 ∧ s.tally.load = none ∧ s.tally.exch = none ∧ s.standbyThere = false)
    ∧ ((l true).tally.load = some (ld true) ∧ (ld false).stage = .writing ∧ (ld false).retried = false)
    ∧ (o 0x0A02 full = true ∧ full.follows = false ∧ full.tally.loaded = true ∧ full.tally.run ≠ .stopped ∧ full.tally.en ≠ .quiescing)
    ∧ (o 0x0A03 stop = true ∧ stop.tally.run = .stopped ∧ stop.tally.en = .enabled ∧ stop.tally.loaded = false
      ∧ stop.tally.prog = some prog1)
    ∧ (o 0x0A04 s = true ∧ o 0x0A05 s = true ∧ busy.startedTasks ≠ [] ∧ stop.startedTasks = [])
    ∧ (o 0x0A06 s = true ∧ s.taskUsed (8 + 15) = true ∧ (s.task (8 + 15)).rel = none)
    ∧ (o 0x0A07 s = true ∧ 0 + 65536 ≤ areaSize 3 ∧ 8191 + 1 ≤ areaSize 6)
    ∧ (o 0x0A08 s = true ∧ 262112 + 32 ≤ areaSize 3 ∧ s.follows = false)
    ∧ (o 0x0A09 s = true ∧ TallyCfg.init.restart ≤ 1 ∧ TallyCfg.init.flags ≤ 1 ∧ 10 ≤ TallyCfg.init.exchWaitMs
      ∧ TallyCfg.init.exchWaitMs ≤ 10000 ∧ s.setup.sealed = false)
    ∧ (o 0x0A0A s = true ∧ o 0x0A0B s = true) := by decide +kernel
/-! ### The field buses -/

def bused (b : Nat) (u : Bus) (s : State) : State := { s with can := s.can.set b u }
def rx1 : RxCfg := ⟨1, 127, 1, 2, 0x1FFFFFFF, 60000, 63⟩
def tx1 (own : Nat) : TxCfg := ⟨1, 31, 64 * own, 0x7FF, 8, 0, 1000, 1000000⟩
def canf (ide : Bool) (id n : Nat) : CanFrame := ⟨ide, id, false, false, false, List.replicate n 1#8⟩
def frame1 (id : Nat) (w : Bool) : BusFrame := ⟨id, 31, List.replicate 8 0#8, 0, 0, w, false, none⟩
def bus1 : Bus := { (default : Bus) with
  en := .enabled
  rx := [(127, { (default : RxObj) with cfg := some rx1 })]
  tx := [(31, { (default : TxObj) with cfg := some (tx1 3) })] }

theorem witness_FieldBusFramesAndErrors :
    let s := bused 1 bus1 { (later 1000000 reckoned) with sup := { reckoned.sup with step := 11 } }
    let q := bused 1 { bus1 with frames := [frame1 0 false] } (later 1000000 reckoned)
    let w := bused 1 { bus1 with frames := [frame1 0 true], estate := .passive } reckoned
    let late := bused 1 { bus1 with frames := [frame1 0 false] } (later 1000000001 reckoned)
    let r := bused 1 { bus1 with estate := .recovering, stranded := [frame1 0 false] } (later 1000000 reckoned)
    let l := bused 1 { bus1 with lock := some ⟨159, [], 0, 0⟩ } reckoned
    (1 < 2 ∧ (s.bus 1).en = .enabled ∧ (s.bus 1).estate = .active ∧ s.xingStopped (busXing 1) = false ∧ (s.bus 1).rxe ≤ 127)
    ∧ ((s.bus 1).rxFor false 0x7FF = none ∧ (s.bus 1).rxFor true 0x1FFFFFFF = some (127, { (default : RxObj) with cfg := some rx1 }, rx1)
      ∧ (canf true 0x1FFFFFFF 1).data.length < rx1.minLen ∧ rx1.minLen ≤ (canf true 0x1FFFFFFF 2).data.length
      ∧ cfgBit rx1.flags 2 = false)
    ∧ (s.houseId ≠ 0 ∧ q.houseId ≠ 0 ∧ z.houseId = 0)
    ∧ ((q.bus 1).frames = [frame1 0 false] ∧ q.frameLate 1 (frame1 0 false) = false ∧ (frame1 0 false).onWire = false)
    ∧ ((w.bus 1).frames = [frame1 0 true] ∧ (frame1 0 true).ref = none ∧ (w.bus 1).estate = .passive ∧ TxEnd.crc ≠ .sent)
    ∧ ((late.bus 1).frames.find? (fun g => g.object == 31 && !g.onWire && late.frameLate 1 g) = some (frame1 0 false))
    ∧ (((s.bus 1).txObj 31).cfg = some (tx1 3) ∧ ((s.bus 1).txObj 31).lastPer < s.tai / ((tx1 3).periodUs * usNs) * ((tx1 3).periodUs * usNs)
      ∧ s.activeOrSolo = true ∧ s.driven = true ∧ (s.bus 1).frames = [])
    ∧ ((r.bus 1).estate = .recovering ∧ (r.bus 1).en ≠ .disabled)
    ∧ (l.bus 1).lock = some ⟨159, [], 0, 0⟩ ∧ 1 < l.can.length := by decide +kernel

theorem witness_FieldBusOrdersComplete :
    let o (op : Nat) (s : State) : Bool := (ordered op s).orderReady ref1 op
    let s := bused 1 bus1 { reckoned with sup := { reckoned.sup with step := 11 } }
    let sealed_ := bused 1 bus1 { z with setup := { z.setup with sealed := true } }
    let tally := bused 1 { bus1 with tx := [(31, { (default : TxObj) with cfg := some (tx1 0) })] } reckoned
    let f : BusFrame := { frame1 0 true with ref := some ref1 }
    (o 0x0E01 s = true ∧ rx1.bus = 1 ∧ rx1.object ≤ 127 ∧ rx1.flags ≤ 15 ∧ cfgBit rx1.flags 3 = false ∧ rx1.minLen ≤ 64
      ∧ idOk (cfgBit rx1.flags 0) rx1.id = true ∧ rx1.freshMs ≤ 60000 ∧ rx1.seqPos ≤ 63)
    ∧ (sealed_.busFixed 1 = true ∧ s.busFixed 1 = false ∧ z.busFixed 1 = false ∧ (z.bus 1).rxFor true 0x1FFFFFFF = none
      ∧ (s.bus 1).rxFor (cfgBit { rx1 with object := 0 }.flags 0) { rx1 with object := 0 }.id
          = some (127, { (default : RxObj) with cfg := some rx1 }, rx1)
      ∧ cfgBit { rx1 with flags := 15 }.flags 3 = true)
    ∧ (o 0x0E02 s = true ∧ txCfgOk (tx1 3) = true ∧ (tx1 3).flags < 2 ^ 9 ∧ cfgBit (tx1 3).flags 8 = false)
    ∧ (o 0x0E03 s = true ∧ tally.busOwner 1 31 ≠ some 3 ∧ s.busOwner 1 31 = some 3 ∧ s.activeOrSolo = true
      ∧ (bused 1 bus1 z).activeOrSolo = false ∧ s.driven = true ∧ s.houseId ≠ 0 ∧ (s.bus 1).estate = .active
      ∧ ((bused 1 { bus1 with en := .quiescing } s).bus 1).en = .quiescing)
    ∧ ((bused 1 { bus1 with frames := [f] } s).bus 1).frames = [f]
    ∧ (o 0x0E04 z = true ∧ 1 < z.can.length ∧ (z.bus 1).en = .disabled ∧ z.busTimingOk 1 = true
      ∧ ({ z with regs := [(rFbusNbt 1, 0)] }).busTimingOk 1 = false ∧ (s.bus 1).en = .enabled ∧ (s.bus 1).frames = [])
    ∧ (o 0x0E05 z = true ∧ ((bused 1 { bus1 with estate := .busOff } z).bus 1).estate = .busOff ∧ (z.bus 1).estate ≠ .busOff) := by decide +kernel
/-! ### Metering -/

def vcfg1 : VsetCfg := ⟨7, 1, [0, 1, 0xFF], 0, fc 230 1, 9000, 11000, 1000, 200⟩
def ccfg1 (w : Nat) : CircCfg := ⟨11, 7, 0, 0, 2, 0xFF, 31, 0xFF, w, 0⟩
def vset1 : Vset := z.freshVset vcfg1
def circ1 (e : Enable) (w : Nat) : Circ := { (z.freshCirc (ccfg1 w)) with en := e }
/-- Channels run with RUN = 1, channels 0, 1, 2 and 31 enabled, and HEAT_CTL at 1 000 ms. -/
def metered : State := (((later 60000000000 reckoned).setReg rClkCtl 0x00110100#32).setReg rChEn 0x80000007#32).setReg rHeatCtl 1000#32
def onVset (v : Vset) (c : Circ) (s : State) : State := (s.setVset 7 v).setCirc 11 c
def chanIs (n : Nat) (c : Chan) (s : State) : State := s.setChan n c
def good1 : Chan := { Chan.init with st := .locked, good := true, uncal := false, x := fc 300 1, at_ := some 60000000000 }
/-- The descriptor of heat point 63: all sources from channels 0 to 2. -/
def hdesc (cls : Nat) : List Byte :=
  let src (i : Nat) : List Byte := [1#8, 0#8] ++ leBytes 2 i ++ leBytes 4 0 ++ leBytes 4 fOne.toNat ++ leBytes 4 0
  [63#8, 0#8] ++ leBytes 2 cls ++ leBytes 4 (fc 100000 1).toNat ++ leBytes 4 0 ++ leBytes 4 0 ++ src 0 ++ src 1 ++ src 2
def point1 (e : Enable) : HeatPoint := { (z.freshPoint 63 (hdesc 6000)) with en := e, lastAt := some 59000000000, prev := some 59000000000 }
def battery (s : State) : State := { s with
  meter := { s.meter with batt := { s.meter.batt with ctl := 1#32, cals := [(7, fOne, 0)] } } }
def event1 : PqEvent := ⟨0, 2, 0, 0, false⟩
def water1 : WaterIn := ⟨fc 1000 1, fc 100 1, true⟩

theorem witness_MeteringMeasures :
    let s := onVset vset1 (circ1 .enabled 2) metered
    let ch (x : ChSt) : State := chanIs 31 { Chan.init with st := x, repeats := 3, crowded := 3 } s
    let stamped := chanIs 31 { Chan.init with at_ := some s.chanStamp } s
    let taps (ws : List TapWord) : Nat × Nat := longestRun (openTaps (s.periods 31 1024 ws))
    (s.chanRuns 31 = true ∧ 31 < s.meter.chans.length ∧ (ch .acquire).chanRuns 31 = true
      ∧ (s.chan 31).at_ ≠ some s.chanStamp ∧ s.xingStopped 0x0D = false ∧ (s.stopXing 0x0D).xingStopped 0x0D = true
      ∧ (stamped.chan 31).at_ = some stamped.chanStamp ∧ stamped.chanRuns 31 = true)
    ∧ (64 ≤ ((chanIs 31 { Chan.init with same := 64 } s).chan 31).same ∧ (s.chan 31).same < 64)
    ∧ (((ch .acquire).chan 31).st = .acquire ∧ taps [0xA82A#16] = (6, 4) ∧ (taps [0x5555#16]).2 < 4 ∧ (s.chan 31).repeats < 3
      ∧ 3 ≤ ((ch .acquire).chan 31).repeats)
    ∧ (let c := (ch .locked).chan 31
       let early (w : TapWord) : Bool := 0 < disagree ((ch .locked).periods 31 4096 [w]) c.tap (c.tap + 14)
       let late (w : TapWord) : Bool := 0 < disagree ((ch .locked).periods 31 4096 [w]) c.tap (c.tap + 2)
       c.st = .locked ∧ 3 ≤ c.crowded ∧ (early 0x4000 && !late 0x4000 && late 4 && !early 4 && early 0x4004 && late 0x4004) = true)
    ∧ (((ch .eyeClosed).chan 31).st = .eyeClosed ∧ ((ch .eyeClosed).chan 31).retryAt ≤ s.now) := by decide +kernel

theorem witness_MeteringMeasures_circuits :
    let s := onVset vset1 (circ1 .enabled 2) metered
    let clean := [0, 1, 2, 31].foldl (fun s n => chanIs n good1 s) s
    let full := onVset vset1 (circ1 .quiescing 1) metered
    let crossed (n : Nat) : Vset := { vset1 with lastEnd := 59980000000, lastCross := some 59980000000, cycles := n }
    let down (x : State) : State := placed { role1 with id := meterRole 11, st := .replacing } x
    let run : Vset := { vset1 with freeRun := true, lastEnd := 59980000000 }
    let low := [fOne, fOne]
    let high := [fc 230 1, fc 230 1]
    let sag := onVset { vset1 with sag := some event1 } (circ1 .enabled 2) metered
    (s.vset 7 = some vset1 ∧ s.circsOf 7 = [(11, circ1 .enabled 2)] ∧ s.circ 11 = some (circ1 .enabled 2)
      ∧ (circ1 .enabled 2).waitCycle = false ∧ ((crossed 0).cycles + 1) % (circ1 .enabled 2).cfg.windowN ≠ 0
      ∧ ((crossed 1).cycles + 1) % (circ1 .enabled 2).cfg.windowN = 0
      ∧ full.circsOf 7 = [(11, circ1 .quiescing 1)] ∧ (s.chan 0).goodOver 59980000000 60000000000 = false
      ∧ (vsetChans vcfg1 ++ circChans (ccfg1 2)).all
          (fun j => (clean.chan j).goodOver 59980000000 60000000000 && !(clean.chan j).uncal) = true)
    ∧ ((onVset (crossed 0) (circ1 .enabled 2) metered).vset 7 = some (crossed 0) ∧ (crossed 0).freeRun = false
      ∧ (crossed 0).lastCross = some 59980000000 ∧ s.periodOk (60000000000 - 59980000000) = true ∧ s.roleDown (meterRole 11) = false
      ∧ (down s).roleDown (meterRole 11) = true)
    ∧ ((onVset run (circ1 .enabled 2) metered).vset 7 = some run ∧ run.freeRun = true ∧ run.lastEnd + s.nominalNs ≤ s.tai)
    ∧ (vset1.lastCross.getD vset1.since + s.nominalNs * 3 / 2 ≤ s.tai ∧ vset1.freeRun = false ∧ vset1.half1 < 60000000000)
    ∧ ((s.circsOf 7).any (fun p => p.2.en == .enabled) = true ∧ vset1.sag = none
      ∧ ((vsetChans vcfg1).zip ((some low).getD (s.halfRmsOf vset1 0))).map Prod.snd = low ∧ low.all (fun x => rmsBelow vcfg1.udin x vcfg1.sag) = true
      ∧ sag.vset 7 = some { vset1 with sag := some event1 }
      ∧ high.all (fun x => !rmsBelow vcfg1.udin x (vcfg1.sag + vcfg1.hyst)) = true) := by decide +kernel

theorem witness_MeteringMeasures_heat :
    let s := onVset vset1 (circ1 .enabled 2) metered
    let clean := [0, 1, 2, 31].foldl (fun s n => chanIs n good1 s) s
    let heat := { clean with meter := { clean.meter with points := [(63, point1 .enabled)] } }
    (0 < 960000000000 / secNs / s.meter.billS * s.meter.billS ∧ (later 960000000000 s).tai = 960000000000 ∧ s.meter.lastBill = 0
      ∧ s.meter.circs = [(11, circ1 .enabled 2)] ∧ (circ1 .enabled 2).mirrored = false)
    ∧ (({ s.meter with billDue := some 0 }).billDue = some 0 ∧ (0 + s.meter.waitS) * secNs ≤ s.tai)
    ∧ (heat.point 63 = some (point1 .enabled) ∧ (point1 .enabled).mirrored = false ∧ (point1 .enabled).lastAt = some 59000000000
      ∧ (point1 .enabled).prev = some 59000000000 ∧ heat.roleDown (meterRole 63) = false ∧ (point1 .enabled).onAt ≤ 60000000000
      ∧ heat.tai / (heat.fld rHeatCtl 9 0 * msNs) * (heat.fld rHeatCtl 9 0 * msNs) = 60000000000
      ∧ (heat.heatSrc (hdesc 6000) 0x10 60000000000).2 = .good ∧ (heat.heatSrc (hdesc 6000) 0x20 60000000000).2 = .good
      ∧ (heat.heatSrc (hdesc 6000) 0x30 60000000000).2 = .good
      ∧ fBetween (fc 27315 100) (fc 42315 100) (heat.heatSrc (hdesc 6000) 0x20 60000000000).1 = true ∧ ((some water1).getD default).belowSat = true)
    ∧ ((atStep 11 s).sup.step ≠ 0 ∧ (battery (atStep 0 s)).sup.step = 0 ∧ (battery (atStep 0 s)).sup.holdUp = false
      ∧ (battery (atStep 0 s)).sup.cause = .powerOn ∧ (battery (atStep 0 s)).meter.batt.nextAt ≤ (battery (atStep 0 s)).now
      ∧ (battery (atStep 0 s)).meter.batt.ctl.toNat % 2 = 1
      ∧ alGet (battery (atStep 0 s)).meter.batt.cals 7 = some (fOne, 0)) := by decide +kernel

theorem witness_MeteringOrdersComplete :
    let o (op : Nat) (s : State) : Bool := (ordered op s).orderReady ref1 op
    let v := z.setVset 7 vset1
    let s (e : Enable) := onVset vset1 (circ1 e 2) z
    let h (e : Enable) : State := { z with meter := { z.meter with points := [(63, point1 e)] } }
    let copied := onVset vset1 { circ1 .enabled 2 with winCopy := some [1#8] } z
    let ticked : State := { z with meter := { z.meter with tickNo := 1 } }
    let sag : State := { z with meter := { z.meter with vsets := [(7, { vset1 with sag := some event1 })] } }
    let hcopied : State := { z with meter := { z.meter with points := [(63, { point1 .enabled with winCopy := some [1#8] })] } }
    (o 0x0B01 z = true ∧ z.vsetStatus vcfg1 = 0 ∧ z.vsetStatus { vcfg1 with vset := 8 } ≠ 0
      ∧ (11, circ1 .enabled 2) ∈ (s .enabled).circsOf vcfg1.vset ∧ (circ1 .enabled 2).en ≠ .disabled)
    ∧ (o 0x0B02 v = true ∧ v.circStatus (ccfg1 4096) = 0 ∧ v.circ 11 = none ∧ v.circStatus (ccfg1 4097) ≠ 0 ∧ z.vset 7 = none)
    ∧ (o 0x0B03 z = true ∧ z.point 63 = none ∧ heatCfgOk 63 (hdesc 6000) = true ∧ heatCfgOk 63 (hdesc 6001) = false)
    ∧ (o 0x0B04 z = true ∧ 86400 % 60 = 0 ∧ 61 % 60 ≠ 0)
    ∧ (o 0x0B05 (s .disabled) = true ∧ (s .disabled).circ 11 = some (circ1 .disabled 2) ∧ (s .quiescing).circ 11 = some (circ1 .quiescing 2)
      ∧ (s .enabled).circ 11 = some (circ1 .enabled 2) ∧ (circ1 .enabled 2).mirrored = false)
    ∧ (o 0x0B06 (h .enabled) = true ∧ (h .disabled).point 63 = some (point1 .disabled) ∧ (h .enabled).point 63 = some (point1 .enabled))
    ∧ (alGet sag.meter.vsets 7 = some { vset1 with sag := some event1 } ∧ (sag.circsOf 7).any (fun p => p.2.en == .enabled) = false)
    ∧ (o 0x0B07 copied = true ∧ copied.setTaken 0 (copied.meter.circs.any (fun p => p.2.winCopy.isSome)) = true
      ∧ copied.xingStopped 0x01 = false
      ∧ (List.range 1).filterMap (fun k =>
          (copied.circ (11 + k)).map (fun (c : Circ) => copied.readCopy c.mirrored (c.copyOf 0) c.block)) ≠ []
      ∧ z.setTaken 2 false = false)
    ∧ (o 0x0B08 hcopied = true ∧ hcopied.setTaken 0 (hcopied.meter.points.any (fun p => p.2.winCopy.isSome)) = true
      ∧ (List.range 1).filterMap (fun k =>
          (hcopied.point (63 + k)).map (fun (p : HeatPoint) => hcopied.readCopy p.mirrored (p.copyIn 0) p.block)) ≠ []
      ∧ z.setTaken 0 (z.meter.points.any (fun p => p.2.winCopy.isSome)) = false)
    ∧ (o 0x0B08 ticked = true ∧ ticked.setNumber 1 ≠ 0) := by decide +kernel
/-! ### The host rings -/

/-- Order ring 31 reports to report ring 31; both are enabled with 16 slots, the order ring with `n` entries. -/
def ringed (n : Nat) (s : State) : State :=
  let s : State := ((s.setReg (rRingCfg 31) 0x1F010004#32).setReg (rRingCfg 63) 0x00010004#32)
  { s with host := { s.host with
      linkUp := true
      ord := s.host.ord.set 31 { freshOrd with tail := word n }
      rpt := s.host.rpt.set 31 { (freshRpt default) with head := 0 } } }
def entry1 (op : Nat) (tag : Nat) (link : Bool) : OrderEntry := ⟨op, false, link, BitVec.ofNat 16 tag, 1, 5, 0⟩
def withLive (l : LiveOrder) (s : State) : State := { s with host := { s.host with live := [l] } }
def rpt31 (f : RptRing → RptRing) (s : State) : State := s.setRpt 31 f

theorem witness_HostRingsFetchAndReport :
    let s := ringed 16 z
    let full := rpt31 (fun g => { g with tail := 16, drops := 3 }) s
    let quiet := s.setOrd 31 (fun o => { o with en := .quiescing })
    let wait : LiveOrder := { live1 0x0601 with ring := 31, handed := false, waitSecond := true }
    let two := withLive wait s
    let timer : ReportTimer := ⟨0xD3, 1, [u16 1], false, 2, 0, 5⟩
    let timed (x : ReportTimer) : State := { (later 5 z) with host := { z.host with timers := [x] } }
    let coal := rpt31 (fun g => { g with unsignalled := 1 }) (later 2000000000 (s.setReg (rRingCfg 63) 0x00020104#32))
    let open_ (x : State) : State := { x with host := { x.host with funcMask := false, vecMask := 0, vecPend := 0x80000000#32 } }
    let cfg31 := (s.setOrd 31 (fun o => { o with en := .disabled })).setReg (rRingLo 31) 0x1000#32
    ((0x0000001F00000010#64).toNat / 2 ^ 32 = 31 ∧ s.ringEnOf 31 = .enabled ∧ s.doorbellOk 31 (word (0x0000001F00000010#64).toNat) = true
      ∧ s.doorbellOk 31 17#32 = false ∧ s.doorbellOk 31 15#32 = false)
    ∧ (full.ringEnOf 63 = .enabled ∧ full.doorbellOk 63 16#32 = true ∧ (full.rptRing 31).drops ≠ 0 ∧ s.doorbellOk 63 0#32 = true
      ∧ (s.rptRing 31).drops = 0 ∧ 1 ≤ (full.setRpt 31 (fun x => { x with head := 16#32 })).freeCount 31)
    ∧ (s.fetchable 31 = true ∧ (s.ordRing 31).orphan = false ∧ s.secondDue 31 = none ∧ (s.ordRing 31).en = .enabled
      ∧ s.tagLive 7 = false ∧ entryStatus (entry1 0x0101 7 false) = 0 ∧ entryStatus (entry1 0x0601 7 true) = 0
      ∧ entryStatus (entry1 0x0601 7 false) = 2 ∧ entryStatus (entry1 0x0103 7 false) = 1
      ∧ (withLive (live1 0x0101) s).tagLive 1 = true ∧ quiet.fetchable 31 = true ∧ (quiet.ordRing 31).en = .quiescing
      ∧ s.ringRpt 31 = 31 ∧ 31 < s.host.rpt.length)
    ∧ (two.fetchable 31 = true ∧ two.secondDue 31 = some wait)
    ∧ ((ordered 0x0101 z).findLive 1 1 = some (live1 0x0101) ∧ (live1 0x0101).handed = true ∧ (live1 0x0101).started = false
      ∧ (live1 0x0101).dead = false)
    ∧ ((coal.rptRing 31).unsignalled ≠ 0 ∧ coal.coalT 31 ≠ 0
      ∧ (coal.rptRing 31).coalSince + coal.coalT 31 * (4 * usNs) ≤ coal.now ∧ (open_ coal).host.funcMask = false
      ∧ getBit (open_ coal).host.vecMask 31 = false)
    ∧ (cfg31.host.ord.length = 32 ∧ cfg31.host.rpt.length = 32 ∧ cfg31.ringEnOf 31 = .disabled
      ∧ (cfg31.writeRingFields 31 (0x1F010004#32 ||| 0x80000000#32)).enableRefusal 31 = 0
      ∧ (cfg31.writeRingFields 31 (0x1F010003#32 ||| 0x80000000#32)).enableRefusal 31 = 1)
    ∧ (s.host.live = [] ∧ (s.ordRing 31).head ≠ (s.ordRing 31).tail ∧ ((ringed 0 z).ordRing 31).head = ((ringed 0 z).ordRing 31).tail)
    ∧ ((s.rptRing 31).en = .enabled ∧ (s.writeRingFields 63 (0x00010004#32 &&& 0x7FFFFFFF#32)).rptInUse 31 = true
      ∧ (cfg31.writeRingFields 63 (0x00010004#32 &&& 0x7FFFFFFF#32)).rptInUse 31 = false)
    ∧ (z.host.linkUp = false ∧ s.host.linkUp = true ∧ 2 < s.fab.crossings.length ∧ s.xingStopped 2 = false)
    ∧ getBit (open_ z).host.vecPend 31 = true
    ∧ ((timed timer).host.timers.find? (fun y => y.is 0xD3 1) = some timer ∧ timer.due ≤ (timed timer).now ∧ timer.held ≠ 0 ∧ timer.held2 = 0
      ∧ (timed { timer with held := 0 }).host.timers.find? (fun y => y.is 0xD3 1) = some { timer with held := 0 }) := by decide +kernel

theorem witness_HostRingsFetchAndReport_up :
    let s := ringed 16 z
    s.xingStopped 0x01 = false ∧ (rpt31 (fun g => { g with tail := 16, drops := 3 }) s).xingStopped 0x01 = false
      ∧ (later 2000000000 (s.setReg (rRingCfg 63) 0x00020104#32)).xingStopped 0x01 = false
      ∧ (ordered 0x0101 z).xingStopped 0x01 = false := by decide +kernel

theorem witness_RegisterWritesKeepTheirAccess :
    let wait : LiveOrder := { live1 0x0201 with tag := 2, handed := false }
    let s : State := { z with host := { z.host with live := [live1 0x0102, wait] } }
    (accOf 0x0000 = .ro ∧ accOf 0x7FFC = .unassigned ∧ 0x7FFE % 4 ≠ 0)
    ∧ (accOf 0x5004 = .rws ∧ 0x3000 ≤ 0x5004 ∧ 0x5004 < 0x7000 ∧ accOf rHoldCfg = .rws ∧ rHoldCfg % 4 = 0 ∧ 0x5004 ≠ rRingCfgReg ∧ 0x5004 ≠ rTimeSlew
      ∧ refusedWrite 0x5004 1#32 = false ∧ rTimeCfg % 4 = 0 ∧ refusedWrite rTimeCfg 0x00050540#32 = true ∧ refusedWrite rTimeCfg 0x00050640#32 = false
      ∧ getBit 8#32 3 = true ∧ getBit 0xFFFFFFF7#32 3 = false ∧ z.ring.bypassReleased = false
      ∧ z.setup.sealed = false ∧ ({ z.setup with sealed := true }).sealed = true)
    ∧ ((z.setReg rPaceCtl 0).fld rPaceCtl 2 2 = 0 ∧ (4#32).toNat / 4 % 2 = 1 ∧ 7 < (z.setReg rPaceCtl 0).fab.decks.length)
    ∧ ((ordered 0x0101 z).orderReady ref1 0x0101 = true ∧ s.orderReady ref1 0x0102 = true
      ∧ s.host.live.find? (fun l => l.is 3 1 && !l.dead) = none
      ∧ s.host.live.find? (fun l => l.is 1 1 && !l.dead) = some (live1 0x0102)
      ∧ s.host.live.find? (fun l => l.is 2 1 && !l.dead) = some wait ∧ wait.handed = false ∧ (1#16) ≠ (2#16)) := by decide +kernel
/-! ### The Notch Log and the ring -/

def rec1 (src : Nat) : LogRec := { (default : LogRec) with event := { (default : Event) with source := src } }
def log (f : NLog → NLog) (s : State) : State := { s with nlog := f s.nlog }
def logState (x : LogState) (s : State) : State := log (fun n => { n with state := x }) s
/-- A log of `n` written slots. -/
def filled (n : Nat) (s : State) : State := log (fun l => { l with slots := List.replicate n (rec1 1, 0) }) s
def src1 (read : Bool) (source : Nat) : NlogSrc := ⟨source, false, read, 65535, 1024, [⟨0xFFFC, 31, 1⟩]⟩

theorem filled_length (n : Nat) (s : State) : (filled n s).nlog.slots.length = n := by simp [filled, log]

theorem witness_NotchLogCommands :
    let o (op : Nat) (s : State) : Bool := (ordered op s).orderReady ref1 op
    let q := log (fun n => { n with queue := [rec1 1] }) (logState .recording z)
    let f := log (fun n => { n with freezeDue := some 0 }) (logState .frozen z)
    let d := logState .draining z
    let battOf (s : State) : State := { s with meter := { s.meter with batt := { s.meter.batt with bursts := 2 } } }
    let c := log (fun n => { n with captureDue := false }) (logState .clearing z)
    let r := logState .recording (filled 3 z)
    (q.nlog.state = .recording ∧ q.nlog.capturing = false ∧ q.nlog.queue = rec1 1 :: [] ∧ q.nlog.slots.length < 65534)
    ∧ (f.nlog.freezeDue = some 0 ∧ f.nlog.state = .frozen ∧ 0 ≤ f.now)
    ∧ (d.nlog.state = .draining ∧ d.nlog.queue = [] ∧ d.nlog.capturing = false)
    ∧ (c.nlog.state = .clearing ∧ c.nlog.captureDue = false ∧ c.nlog.queue = [])
    ∧ ((atStep 4 z).nlog.state = .starting ∧ 3 < (atStep 4 z).sup.step ∧ z.nlog.clearMark = false ∧ z.nlog.capture = []
      ∧ z.nlog.battRecs = [] ∧ z.nlog.queue = [] ∧ (battOf (atStep 4 z)).meter.batt.bursts ≠ 0 ∧ (atStep 4 z).meter.batt.bursts = 0
      ∧ (battOf (atStep 4 z)).nlog.slots.length + (battOf (atStep 4 z)).meter.batt.episodes.length
        + (battOf (atStep 4 z)).meter.batt.faults.length + 2 < 65534)
    ∧ (o 0x0F01 z = true ∧ srcOk (src1 false 0) = true ∧ srcOk (src1 true 255) = true ∧ srcOk (src1 false 0xE8) = false)
    ∧ (o 0x0F02 z = true ∧ o 0x0F03 r = true ∧ o 0x0F04 r = true ∧ r.nlog.lastCrc ≠ 1 ∧ z.nlog.state ≠ .recording ∧ z.nlog.state ≠ .full
      ∧ 2 < r.nlog.slots.length ∧ r.writeWaiting.nlog.state ≠ .full) := by decide +kernel

theorem witness_NotchLogCommands_full : (logState .recording (filled 65534 z)).nlog.slots.length = 65534 := filled_length 65534 z

def frameOf (mac seq : Nat) (d : FrameDest) : RingFrame := ⟨1528, true, mac, BitVec.ofNat 16 seq, d, false, none⟩
def ringOn (s : State) : State := { s with ring := { s.ring with en := .enabled, legsClosed := false } }

theorem witness_RingPortsAndLegs :
    let s := ringOn z
    let own : RingFrame := ⟨60, true, s.ringMac, 0, .me, true, none⟩
    let heard : State := { s with ring := { s.ring with dups := [⟨5, 7, 0⟩], nodes := [(5, 0)] } }
    let opened : State := { s with ring := { s.ring with ringOpen := true, owedA := some 5, owedB := none } }
    let missed : State := { s with ring := { s.ring with owedA := some 0, supAt := some 0 } }
    let t0 := later 6000000000 missed
    let six := s.setReg rIpv4Pfx 24#32
    let asking : RingFrame := { frameOf 5 7 .me with asks := some (six.ownIp false) }
    let ready := later 2000000 { house1 with
      ring := { house1.ring with ready := true, readyAt := 0, legsClosed := true, bypassReleased := true }
      sup := { house1.sup with step := 12 } }
    let held : State := { ready with ring := { ready.ring with bypassed := true } }
    let act : State := { z with twin := { z.twin with role := .active } }
    let o (op : Nat) (s : State) : Bool := (ordered op s).orderReady ref1 op
    let tq : TxQueue := { (default : TxQueue) with pool := ⟨32, []⟩, live := [(31, 255, 10)], entries := [⟨1, 0, 0⟩], head := 0xFFFFFFFF }
    let stamped := z.setTxQ 2 tq
    (s.ring.legsClosed = false ∧ s.ring.en ≠ .disabled ∧ (frameOf 5 7 .me).mac ≠ s.ringMac ∧ s.ring.nodes.length < nodeMax
      ∧ s.ring.dups.length < dupMax)
    ∧ (s.xingStopped 0x04 = false ∧ s.xingStopped 0x06 = false ∧ s.xingStopped 0x08 = false)
    ∧ (heard.ring.dups = [⟨5, 7, 0⟩] ∧ heard.now < 0 + 400 * msNs ∧ (frameOf 5 7 .me).seq = 7)
    ∧ (own.tagOk = true ∧ own.mac = s.ringMac ∧ own.ownSupervision = true ∧ opened.ring.ringOpen = true ∧ opened.ring.owedB = none)
    ∧ (asking.length ≤ ringFrameMax ∧ ringFrameMax < ({ asking with length := 1529 }).length ∧ asking.asks = some (six.ownIp false)
      ∧ six.familyUp false = true)
    ∧ (missed.ring.ringOpen = false ∧ t0.ring.owedA = some 0 ∧ 0 + 3 * lifeCheck ≤ t0.now ∧ t0.ring.supAt = some 0 ∧ 0 + lifeCheck ≤ t0.now
      ∧ (later 1999999999 missed).now < 0 + lifeCheck)
    ∧ (alGet heard.ring.nodes 5 = some 0 ∧ 0 + 60 * secNs ≤ (later 60000000000 heard).now)
    ∧ (ready.ring.ready = true ∧ ready.ring.readyAt + 2 * msNs ≤ ready.now ∧ ready.sup.step ≠ 6 ∧ ready.legsMustClose = false
      ∧ held.legsMustClose = true)
    ∧ (({ z.ring with senseDiff := 2 }).senseDiff = 2 ∧ z.ring.senseAt + msNs ≤ (later 1000000 z).now ∧ z.now < z.ring.senseAt + msNs)
    ∧ (o 0x0C01 z = true ∧ z.twin.role ≠ .active ∧ act.twin.role = .active ∧ ({ z.ring with bypassed := true }).bypassed = true
      ∧ ({ z.ring with legsClosed := true, portsUp := true }).portsUp = true)
    ∧ (o 0x0C02 s = true ∧ s.ring.en = .enabled ∧ s.ring.supAt = none ∧ ((ringOn z).setTxQ 2 tq |>.txQ 2).take 0 ≠ none)
    ∧ ((stamped.txQ 2).live.any (fun l => (l.1 == 31 && l.2.1 == 255) && decide (stamped.now < l.2.2)) = true
      ∧ (stamped.txQ 2).entries.length < 32
      ∧ 32 ≤ ({ tq with entries := List.replicate 32 ⟨1, 0, 0⟩ }).entries.length ∧ (stamped.txQ 2).live.any (fun l => l.1 == 30 && l.2.1 == 255) = false
      ∧ ((later 10 stamped).txQ 2).live.any (fun l => (l.1 == 31 && l.2.1 == 255) && decide (l.2.2 ≤ (later 10 stamped).now)) = true
      ∧ (stamped.txQ 2).entries[0]? = some ⟨1, 0, 0⟩
      ∧ (0#32 - word (stamped.txQ 2).head).toNat ≤ (stamped.txQ 2).entries.length) := by decide +kernel
/-! ### The time unit -/

def timed (f : TimeUnit → TimeUnit) (s : State) : State := { s with time := f s.time }
def domA1 (u : TimeUnit) : TimeUnit := { u with domA := { u.domA with qual := true, rank := [1] } }
def locked1 (s : State) : State := timed (fun u => { domA1 u with firstLock := true, st := .locked, src := .domA }) s
def announce1 : Announce := ⟨2, true, [0], 5, some 37⟩
def sync1 (o : Nat) : SyncRx := ⟨2, false, o, 0, 0, 0⟩
def outs (x : TOut) (s : State) : State := s.setTout 7 x
def tout1 : TOut := { (default : TOut) with en := .enabled, next := some 5, widthNs := 20, periodNs := 1000, periodic := true }

theorem witness_TimeUnitFollowsItsSources :
    let l := locked1 z
    let first := timed domA1 ((atStep 7 z).setReg rTwinCfg 0x0BB83205#32)
    let b := (locked1 z).setReg rTimeCfg (z.reg rTimeCfg ||| 0xC0#32)
    let onB := timed (fun u => { u with onB := true, domA := { u.domA with goodSince := some 0 } }) (later 60000000000 b)
    let h := timed (fun u => { u with st := .holdover, holdSince := some 0, firstLock := true }) (later 65535000000000 z)
    let acq := timed (fun u => { u with domA := { u.domA with qual := false } }) (later 3600000000000 first)
    let rtc : State := { (acq.setReg rTimeCfg (z.reg rTimeCfg ||| 4#32)) with sup := { acq.sup with battClock := some 5 } }
    let sl := timed (fun u => { u with slew := some ⟨-1000, 0, 500, false⟩ }) (later 2000000 z)
    (l.gmRole = false ∧ l.domQual false = true ∧ l.time.firstLock = true ∧ false = l.time.onB
      ∧ b.domQual true = false ∧ (timed (fun u => { u with domB := { u.domB with qual := true } }) b).domQual true = true
      ∧ (timed (fun u => { u with goodSyncs := 15 }) l).time.goodSyncs = 15 ∧ (l.syncOffset (sync1 0)).natAbs < 100 ∧ l.syncOffset (sync1 100) = 100
      ∧ l.ptpHeard 2 = true ∧ l.domainOf (l.fld rTimeCfg 15 8) = some false ∧ (later 5999999999 l).now < (l.dom false).announced + l.receiptTimeout false
      ∧ (l.dom false).announced + l.receiptTimeout false ≤ (later 6000000000 l).now)
    ∧ (first.time.firstLock = false ∧ first.sup.step = 7 ∧ first.twinEn = true ∧ first.sup.holdUp = false ∧ first.domQual false = true
      ∧ first.gmRole = false)
    ∧ (announce1.ptpScale = true ∧ b.bEnabled = true ∧ b.domainOf (b.fld rTimeCfg 23 16) = some true)
    ∧ ((l.dom false).qual = true ∧ l.domQual (!false) = false)
    ∧ (onB.time.domA.goodSince = some 0 ∧ onB.time.onB = true ∧ onB.time.forced = none ∧ onB.fld rTimeCfg 7 7 = 1
      ∧ 0 + 60 * secNs ≤ onB.now ∧ onB.domQual false = true)
    ∧ (h.time.st = .holdover ∧ h.time.holdSince = some 0 ∧ h.time.holdLong = false ∧ 0 + h.fld rTimeAcq 31 16 * secNs ≤ h.now)
    ∧ (acq.time.firstLock = false ∧ acq.sup.step = 7 ∧ acq.time.acqHeld = false ∧ acq.sourceQual = false ∧ rtc.sourceQual = false
      ∧ acq.time.acqStart + acq.fld rTimeAcq 15 0 * secNs ≤ acq.now ∧ acq.sup.battClock = none)
    ∧ (rtc.sup.battClock = some 5 ∧ rtc.fld rTimeCfg 2 2 = 1 ∧ rtc.twinEn = true ∧ rtc.sup.holdUp = false)
    ∧ (sl.time.slew = some ⟨-1000, 0, 500, false⟩ ∧ slewDone sl.now ⟨-1000, 0, 500, false⟩ = -1000) := by decide +kernel

theorem witness_TimeUnitFollowsItsSources_pulses :
    let l := locked1 z
    let pps := timed (fun u => { u with ppsLast := some 0, ppsQual := true }) (later 1000000000 (z.setReg rPpsCtl 1#32))
    let gm := timed (fun u => { u with firstLock := true }) (pps.setReg rTimeCfg ((z.reg rTimeCfg &&& 0xFFFFFFFC#32) ||| 1#32))
    (z.fld rPpsCtl 0 0 ≠ 1 ∧ pps.fld rPpsCtl 0 0 = 1 ∧ pps.gmRole = false ∧ pps.time.ppsLast = some 0 ∧ 0 + secNs = pps.now
      ∧ pps.xingStopped 0x0A = false ∧ (pps.stopXing 0x0A).xingStopped 0x0A = true ∧ (pps.stopXing 0x0A).fld rPpsCtl 0 0 = 1)
    ∧ (gm.time.ppsQual = true ∧ gm.gmRole = true ∧ gm.time.firstLock = true ∧ z.time.ppsQual = false
      ∧ gm.fld rPpsCtl 0 0 = 1 ∧ gm.xingStopped 0x0A = false ∧ gm.time.tod = none ∧ gm.time.edgeSec = none ∧ gm.time.ppsLast = some 0
      ∧ [0, 1, 2].all (fun p => decide (pps.time.pdelayAt.getD p 0 + secNs ≤ pps.now)) = true ∧ z.now < z.time.pdelayAt.getD 2 0 + secNs
      ∧ 0 + secNs + 10 * usNs < (later 1000010001 gm).now ∧ (ringOn gm).ptpHeard 0 = true ∧ (ringOn gm).gmRole = true
      ∧ gm.xingStopped 0x04 = false ∧ (ringOn z).ptpHeard 1 = true ∧ (ringOn z).gmRole = false ∧ z.ptpHeard 0 = false)
    ∧ (l.time.st = .locked ∧ l.sup.battClock = none)
    ∧ (((outs tout1 (later 5 z)).tout 7) = tout1 ∧ tout1.stands = none ∧ tout1.en = .enabled ∧ 5 ≤ (outs tout1 (later 5 z)).tai
      ∧ tout1.activeOnly = false ∧ tout1.late = false) := by decide +kernel

theorem witness_TimeOrdersComplete :
    let o (op : Nat) (s : State) : Bool := (ordered op s).orderReady ref1 op
    let l := locked1 z
    let set (m n : Nat) : ToutSet := ⟨7, m, false, false, 0, n, 20, 1000000000000⟩
    let b := (timed (fun u => { u with domB := { u.domB with qual := true } }) z).setReg rTimeCfg (z.reg rTimeCfg ||| 0x40#32)
    let gm := z.setReg rTimeCfg 0x00010001#32
    (o 0x0C03 l = true ∧ l.toutStatus (set 1 2000) = 0 ∧ l.tai + 2 * usNs ≤ 0 * secNs + 2000 ∧ (l.tout 7).stands = none
      ∧ (l.tout 7).next = none ∧ l.toutStatus (set 2 999999999) = 0 ∧ 7 < l.time.touts.length ∧ l.toutStatus (set 3 0) ≠ 0
      ∧ (l.tout 7).en ≠ .quiescing ∧ z.time.firstLock = false ∧ l.time.firstLock = true
      ∧ l.tai + 1000 * secNs < 1000 * secNs + 1 ∧ 1000 * secNs + 0 ≤ l.tai + 1000 * secNs)
    ∧ (o 0x0C04 b = true ∧ b.time.onB = false ∧ b.domQual true = true ∧ b.time.firstLock = false ∧ z.domQual true = false)
    ∧ (o 0x0C05 z = true ∧ z.gmRole = false ∧ gm.gmRole = true ∧ (0xFFFFFFFFFFFF#64).toNat < 2 ^ 48)
    ∧ (o 0x0C06 z = true ∧ timeCfgOk (timeCfgStored (0x00010040#32).toNat) = true ∧ 10 ≤ bits (0x000A0E10#32).toNat 31 16
      ∧ bits (0x000A0E10#32).toNat 15 0 = 3600 ∧ timeCfgOk (timeCfgStored (0x00010140#32).toNat) = false) := by decide +kernel
/-! ### Twin operation -/

/-- A tablet of house 1 in start-up step 12 with a locked clock and an open ring, in role `r` at epoch 5. -/
def twinned (r : TwinRole) (s : State) : State := { s with
  sup := { s.sup with step := 12 }
  time := { s.time with firstLock := true }
  ring := { s.ring with en := .enabled, linkA := true }
  twin := { s.twin with role := r, en := .enabled, epoch := 5 } }
def beat (r : TwinRole) (e : Nat) : Heartbeat :=
  { (default : Heartbeat) with good := true, house := 1, epoch := BitVec.ofNat 16 e, role := r, serial := 1, modelRev := 1 }
def twinIs (f : Twin → Twin) (s : State) : State := { s with twin := f s.twin }
def partner1 : Partner := { (default : Partner) with role := .standby, fit := true, lastT := some 0, modelRev := 1 }

theorem witness_TwinRolesFollowTheHeartbeats :
    let s (r : TwinRole) := twinned r running1
    let unfit (r : TwinRole) : State := { (s r) with ring := { (s r).ring with linkA := false } }
    let heard (x : State) (h : Heartbeat) : Bool := h.good && h.house.toNat == x.houseId && h.house != 0 && h.house != 0xFFFF
      && h.epoch != 0 && epochRel x.twin.accepted h.epoch != .older && decide (8 ≤ x.sup.step) && !x.phyOff
    let silent (r : TwinRole) (p : Bool) (x : State) : State := later 300000 (twinIs (fun w => { w with
      role := r, partner := some partner1, pathT := true, pathR := p }) x)
    let neg := later 65535000000 (twinIs (fun w => { w with negSince := some 0 }) (s .negotiating))
    let lost : State := twinIs (fun w => { w with partner := some partner1, pathT := true }) (later 255000000 ({ (s .active) with
      ring := { (s .active).ring with bothDownSince := some 0 } }.setReg rTwinCfg 0x0BB83205#32))
    let o (op : Nat) (x : State) : Bool := (ordered op x).orderReady ref1 op
    let off (r : TwinRole) := twinIs (fun w => { w with en := .disabled }) (s r)
    ((s .active).twin.role ≠ .solo ∧ (s .active).houseId ≠ 0 ∧ 8 ≤ (s .active).sup.step ∧ (s .active).twin.en ≠ .disabled ∧ z.houseId = 0
      ∧ (s .active).fab.beamLost = false ∧ (s .active).ring.en ≠ .disabled ∧ z.ring.en = .disabled)
    ∧ ((default : Heartbeat).good = false ∧ (beat .active 5).house.toNat ≠ z.houseId ∧ (beat .active 5).house.toNat = (s .solo).houseId)
    ∧ (epochRel (twinIs (fun w => { w with accepted := 7 }) (s .active)).twin.accepted (beat .active 5).epoch = .older
      ∧ (beat .active 0).epoch = 0 ∧ (atStep 7 (s .active)).sup.step < 8)
    ∧ (heard (s .solo) (beat .active 6) = true ∧ epochRel (s .solo).twin.epoch 6 = .newer ∧ epochRel (s .solo).twin.epoch 5 ≠ .newer
      ∧ (s .solo).twin.contestedUntil = none ∧ (s .solo).twin.adoptions = [])
    ∧ (heard (s .standby) (beat .isolated 5) = true ∧ (beat .isolated 5).role ≠ .active)
    ∧ ((s .active).fab.beamLost = false ∧ (s .active).xingStopped 0x08 = false
      ∧ ({ (s .active).fab with beamLost := true }).beamLost = true)
    ∧ (heard (s .negotiating) (beat .active 6) = true ∧ (s .negotiating).outranks (s .negotiating).negFit (beat .negotiating 6) = true
      ∧ (unfit .negotiating).outranks (unfit .negotiating).negFit { beat .negotiating 6 with fit := true } = false)
    ∧ ((s .standby).negFit = true ∧ (s .standby).twin.unsynced = false ∧ (beat .active 5).modelRev = word (s .standby).modelRev
      ∧ (beat .active 5).tallyRev = word (s .standby).tallyRev ∧ epochRel 5 (beat .active 6).epoch = .newer)
    ∧ ((s .active).twin.epoch ≠ 0 ∧ (beat .active 5).epoch = (s .active).twin.epoch
      ∧ (s .active).outranks (s .active).negFit (beat .active 5) = true
      ∧ (unfit .active).outranks (unfit .active).negFit { beat .active 5 with fit := true } = false)
    ∧ (s .isolated).twin.en = .enabled
    ∧ ((silent .active true (s .active)).twin.partner = some partner1 ∧ partner1.lastT = some 0
      ∧ 0 + 300 * usNs ≤ (silent .active true (s .active)).now
      ∧ (silent .standby false (s .standby)).twinFit = true ∧ (silent .standby false (unfit .standby)).twinFit = false)
    ∧ (neg.twin.negSince = some 0 ∧ neg.twin.partner = none ∧ 0 + neg.fld rTwinCfg 31 16 * msNs ≤ neg.now)
    ∧ (lost.ring.bothDownSince = some 0 ∧ lost.twin.role = .active ∧ lost.fld rTwinCfg 2 2 = 1 ∧ lost.partnerFit = true
      ∧ 0 + lost.fld rTwinCfg 15 8 * msNs ≤ lost.now)
    ∧ (o 0x0D01 (s .active) = true ∧ (off .solo).twin.en = .disabled ∧ 8 ≤ (off .solo).sup.step)
    ∧ (o 0x0D02 lost = true ∧ (s .active).partnerFit = false ∧ o 0x0D03 (s .isolated) = true) := by decide +kernel

theorem witness_TwinRolesFollowTheHeartbeats_period :
    let a := twinned .active running1
    (a.phyOff = false ∧ ({ a with sup := { a.sup with holdUp := true } }).phyOff = true)
    ∧ (a.twin.hbAt + 100 * usNs ≤ (later 100000 a).now ∧ a.now < a.twin.hbAt + 100 * usNs)
    ∧ (later 100000 a).beats = true := by decide +kernel

/-- The copy of a station frame of epoch 5. -/
def copied (e : Nat) : List Byte := beBytes 6 0 ++ beBytes 2 e

theorem witness_MirrorRecordsAreApplied :
    let s := twinned .standby running1
    let l := looped (loop1 0) s
    let h (e : Nat) : MirrorHdr := ⟨true, 1, BitVec.ofNat 16 e, 1, 1⟩
    let valid (x : State) (h : MirrorHdr) : Bool := h.good && h.house.toNat == x.houseId && h.house != 0 && h.house != 0xFFFF
      && h.epoch != 0 && epochRel x.twin.accepted h.epoch != .older && !x.phyOff
    let c : State := { s.setReg rIpv4Pfx 24#32 with stn := { s.stn with ctxs := [ctx9] } }
    let b := bused 1 bus1 s
    let ctxRec := beBytes 2 9 ++ beBytes 30 0
    let mtr := beBytes 2 11 ++ List.replicate 126 0#8
    let loaded : State := { s with tally := { s.tally with
      loaded := true, prog := some prog1, banks := [default, ⟨tallyImg, 0⟩], load := some ⟨ref1, [], false, .mirroring, false⟩ } }
    (({ s with sup := { s.sup with holdUp := true } }).phyOff = true ∧ valid s (h 5) = true ∧ epochRel s.twin.epoch (h 5).epoch ≠ .newer ∧ valid (twinned .active running1) (h 6) = true
      ∧ epochRel (twinned .active running1).twin.epoch (h 6).epoch = .newer ∧ valid (twinned .solo running1) (h 5) = true
      ∧ epochRel (twinIs (fun w => { w with accepted := 7 }) s).twin.accepted (h 5).epoch = .older
      ∧ ({ h 5 with house := 2 }).house.toNat ≠ s.houseId ∧ (h 4).epoch ≠ s.twin.epoch ∧ (h 5).epoch = s.twin.epoch)
    ∧ (s.twin.role = .standby ∧ s.twin.en = .enabled ∧ z.twin.role ≠ .standby ∧ s.twin.role ≠ .solo
      ∧ (twinned .solo z).twin.role = .solo)
    ∧ (l.loopOf 1 = some (loop1 0) ∧ (5#32) ≠ l.twin.mirrorRx ∧ (5#32) ≠ l.twin.mirrorRx + 1 ∧ (1#32) = l.twin.mirrorRx + 1)
    ∧ (ctx9.en ≠ .disabled ∧ ({ c with stn := { c.stn with ctxs := [{ ctx9 with en := .disabled }] } }).ctxOf 9 = some { ctx9 with en := .disabled }
      ∧ s.twin.resyncGap = false ∧ planCodesOk (List.replicate 64 0#8) = true ∧ planCodesOk (List.replicate 64 0xFF#8) = false
      ∧ rollItems [0#8, 1#8, 0#8, 0#8, 3#8] = [] ∧ netAt [0#8, 1#8, 0#8, 0#8, 3#8] 2 1 ≤ 2 ∧ netAt [0#8, 1#8, 0#8, 0#8, 3#8] 5 1 ≤ 11 ∧ netAt ctxRec 3 1 ≤ 2)
    ∧ (c.ctxOf 9 = some ctx9 ∧ c.ring.en ≠ .disabled ∧ c.familyOn ctx9.cfg = true ∧ c.xingStopped 0x04 = false ∧ c.xingStopped 0x06 = false ∧ netAt (copied 5) 6 2 = c.twin.epoch.toNat ∧ netAt (copied 4) 6 2 ≠ c.twin.epoch.toNat)
    ∧ (((b.bus 1).txObj 31).cfg = some (tx1 3) ∧ b.driven = true ∧ (b.bus 1).en = .enabled ∧ (b.bus 1).estate = .active
      ∧ b.xingStopped (busXing 1) = false ∧ (b.bus 1).frames = [])
    ∧ (3 ≤ netAt [0#8, 1#8, 0#8, 0#8, 3#8] 4 1 ∧ netAt ctxRec 2 1 ≤ 4 ∧ 9 = netAt ctxRec 0 2 ∧ ctx9.cfg.station = 9)
    ∧ (mtr.length = 128 ∧ netAt mtr 0 2 ≤ 11 ∧ s.circ (netAt mtr 0 2) = none)
    ∧ (tallyChecks tallyImg tallyImg.length s.houseId s.fuse).1 = 0
    ∧ (loaded.tally.load = some ⟨ref1, [], false, .mirroring, false⟩ ∧ loaded.tally.loaded = true
      ∧ word (u32At (loaded.tally.banks.getD loaded.spareBank default).bytes 0x0C) = 1)
    ∧ (0#32 = s.twin.mirrorRx ∧ s.twin.resyncGap = false) := by decide +kernel

/-- R505: VERSION 1, KIND 1, HOUSE 1, EPOCH 5, ROLE, FLAGS, SEQ and STAMP, the four words of the body and the CRC. -/
theorem test_heartbeat_frame :
    let p := (twinned .active running1).twinPayload 1 7 (layNet [u32 0, u32 0, u32 0, u32 0])
    p.length = 36 ∧ p.take 6 = [1, 1, 0, 1, 0, 5] ∧ (p.drop 8).take 4 = [0, 0, 0, 7]
      ∧ p.drop 32 = beBytes 4 (crc32c (p.take 32)).toNat := by decide +kernel
/-! ### The panel and the tag -/

def panelIs (f : Panel → Panel) (s : State) : State := { s with panel := f s.panel }
def panelled : State := panelIs (fun p => { p with en := .enabled, st := .running }) z
def rect1 : Rect := ⟨479, 271, 1, 1⟩
def curve1 : List Nat := List.replicate 63 0 ++ [20000]
def tagIs (f : Tag → Tag) (s : State) : State := { s with tag := f s.tag }
def upd1 : TagUpd := ⟨some (.host 2 2), 5#64, false, false⟩

/-- 16 subpixels of 256 carry 20 µA for one hour: 1/16 of 2¹⁶ units of stress (R616). -/
theorem test_panel_stress :
    ((carryLine 0 (3600 * secNs) (List.replicate 48 (fc 20000 1)) []).map State.reset.stressOf)
      = [⟨0, 0, 4096⟩, ⟨0, 1, 4096⟩, ⟨0, 2, 4096⟩] := by decide +kernel

theorem witness_PanelShowsAndProtects :
    let s := panelled
    let o (op : Nat) (x : State) : Bool := (ordered op x).orderReady ref1 op
    let cracked := panelIs (fun p => { p with st := .cracked }) s
    let dim : State := { s with sup := { s.sup with holdUp := true } }
    let noLoop := z.setReg rPanelCfg 0x011001E0#32
    ((panelIs (fun p => { p with carried := [(7, 5)] }) s).panel.held = []
      ∧ (panelIs (fun p => { p with carried := [(7, 5)] }) s).panel.carried = [(7, 5)])
    ∧ (s.panelRuns = true ∧ s.panel.sweepAt = none ∧ (panelIs (fun p => { p with dirty := [271] }) s).panel.dirty = 271 :: []
      ∧ (panelIs (fun p => { p with sweepAt := some 271 }) s).panel.dirty = [])
    ∧ (panelIs (fun p => { p with staged := [⟨ref1, rect1, []⟩] }) s).panel.staged = ⟨ref1, rect1, []⟩ :: []
    ∧ (s.panel.refreshLine < s.panelHeight ∧ s.panelHeight = 272 ∧ s.panelWidth = 480)
    ∧ (z.sup.holdUp = false ∧ dim.sup.holdUp = true)
    ∧ (noLoop.fld rPanelCfg 31 31 = 0 ∧ z.fld rPanelCfg 31 31 = 1 ∧ z.panel.crackRun = 0 ∧ z.panel.st ≠ .cracked)
    ∧ (o 0x1001 s = true ∧ s.panelRefusal ref1 true = 0 ∧ s.rectOk rect1 = true ∧ s.rectOk { rect1 with w := 2 } = false
      ∧ cracked.panel.st = .cracked ∧ o 0x1002 s = true ∧ s.panel.en = .enabled)
    ∧ (o 0x1003 s = true ∧ curveOk curve1 = true ∧ curveOk (List.replicate 63 0 ++ [20001]) = false)
    ∧ (o 0x1004 s = true ∧ (0x3FFFF#32).toNat < 2 ^ 18)
    ∧ (o 0x1005 s = true ∧ z.panel.en = .disabled ∧ s.panel.staged = []) := by decide +kernel

theorem witness_PanelShowsAndProtects_periods :
    let s := panelled
    let swept := panelIs (fun p => { p with sweepAt := some 271 }) s
    let end_ (n : Nat) := later n swept
    let blinked := panelIs (fun p => { p with blink0 := some (s.tai / (s.fld (rBlinkCtl 0) 29 16 * (5 * msNs))) }) s
    let crack (n k : Nat) := later n (panelIs (fun p => { p with crackRun := k }) z)
    (swept.panel.sweepAt ≠ none ∧ (end_ 0).now < swept.panel.lineAt + swept.lineNs
      ∧ swept.panel.lineAt + swept.lineNs ≤ (end_ 100000000).now ∧ swept.panel.dirty = [] ∧ swept.panelRuns = true)
    ∧ (s.now < s.panel.refreshAt + s.refreshNs ∧ s.panel.refreshAt + s.refreshNs ≤ (later 100000000000 s).now)
    ∧ (blinked.panel.blink0 = some (blinked.tai / (blinked.fld (rBlinkCtl 0) 29 16 * (5 * msNs))) ∧ s.panel.blink0 = none)
    ∧ (s.now < s.panel.ageAt + 60 * secNs ∧ s.panel.ageAt + 60 * secNs ≤ (later 60000000000 s).now)
    ∧ (s.now < s.panel.savedAt + 3600 * secNs ∧ s.panel.savedAt + 3600 * secNs ≤ (later 3600000000000 s).now)
    ∧ ((crack 0 0).now < z.panel.crackAt + 100 * msNs ∧ z.panel.crackAt + 100 * msNs ≤ (crack 100000000 0).now
      ∧ (crack 100000000 1).panel.crackRun = 1) := by decide +kernel

theorem witness_TagUpdatesPhaseByPhase_periods :
    let run (n : Nat) (p : TagPhase) := later n (tagIs (fun t => { t with en := .enabled, run := some upd1, phase := p, pulse := 500 }) z)
    let due (n : Nat) (p : TagPhase) : Bool := (run n p).tagPhaseOver upd1
    ([TagPhase.mark, .drive, .unmark, .rest].map (due 0) = [false, false, false, false]
      ∧ [TagPhase.check, .mark, .drive, .unmark, .rest].map (due 60000000000) = [true, true, true, true, true])
    ∧ (run 0 .check).tag.phaseAt ≤ (run 0 .check).now := by decide +kernel

theorem witness_TagUpdatesPhaseByPhase :
    let on := tagIs (fun t => { t with en := .enabled }) z
    let run (p : TagPhase) := tagIs (fun t => { t with run := some upd1, phase := p, pulse := 500 }) on
    let o (op : Nat) (x : State) : Bool := (ordered op x).orderReady ref1 op
    (o 0x1006 on = true ∧ (5#64).getLsbD 63 = false ∧ on.tag.powerFail = false ∧ on.tag.run = none ∧ on.tag.wait = none)
    ∧ ((run .mark).tag.run = some upd1 ∧ (run .mark).tag.phase = .mark ∧ upd1.full = false ∧ upd1.ref = some (.host 2 2)
      ∧ OrderRef.host 2 2 ≠ ref1)
    ∧ (tagMj 500 false + reserveMj ≤ on.usableMj (on.sensed 1 24000).2 ∧ on.usableMj (on.sensed 1 6000).2 < tagMj 500 false + reserveMj)
    ∧ (o 0x1007 on = true ∧ z.tag.en = .disabled ∧ (tagIs (fun t => { t with en := .quiescing }) z).tag.en = .quiescing
      ∧ (tagIs (fun t => { t with powerFail := true }) z).tag.powerFail = true) := by decide +kernel
/-! ### The monitor, the calibration page and firmware -/

def svcIs (f : Svc → Svc) (s : State) : State := { s with svc := f s.svc }
def atLevel (l : SvcLevel) (s : State) : State := svcIs (fun v => { v with level := l }) s
def hash1 : List Byte := List.replicate 32 7#8

theorem witness_MonitorAnswersAtItsLevel :
    let s := atLevel .service z
    let v := atLevel .view (logState .recording (filled 2 z))
    let x := svcIs (fun v => { v with xfer := some (.page, []) }) s
    let k := svcIs (fun v => { v with keyfuse := some (hash1, 5) }) s
    let c (n : Nat) := svcIs (fun v => { v with code := 9, badRun := n }) v
    (z.svc.level = .off ∧ s.svc.level ≠ .off ∧ s.svc.level = .service ∧ v.svc.level = .view)
    ∧ (s.xingStopped 0x16 = false ∧ v.xingStopped 0x16 = false ∧ (s.stopXing 0x16).xingStopped 0x16 = true)
    ∧ (0xFFFC % 4 = 0 ∧ 0x100C < 0xFFFC ∧ 0x0F0C + 4 * 64 ≤ 0x100C ∧ 0x100C ≤ 0x100C ∧ 0x100C < 0x100C + 4 * 1)
    ∧ (1 < v.nlog.slots.length ∧ v.nlog.state = .recording ∧ v.calBusy = false ∧ s.calBusy = false ∧ s.svc.xfer = none
      ∧ (5#32).toNat ≠ calCrc s.cal ∧ s.fwBusy = false)
    ∧ (x.svc.xfer = some (.page, []) ∧ (List.replicate 64 1#8).length = 64)
    ∧ ((twinned .solo s).twin.role = .solo ∧ (twinned .standby s).twin.role = .standby)
    ∧ (s.fuses.house = [] ∧ hash1.length = 32 ∧ k.svc.keyfuse = some (hash1, 5) ∧ house1.fuses.house ≠ [])
    ∧ ((c 2).svc.lockout = none ∧ (c 2).svc.code = 9 ∧ (9#32) ≠ 0 ∧ 2 ≤ (c 2).svc.badRun ∧ ¬ 2 ≤ (c 1).svc.badRun ∧ v.svc.code = 0)
    ∧ ((later 600000000000 s).svc.lastCmd + 600 * secNs ≤ (later 600000000000 s).now
      ∧ (svcIs (fun v => { v with lockout := some 0 }) z).svc.lockout = some 0) := by decide +kernel

theorem factoryPage_ok : pageOk factoryPage = true := by decide +kernel

/-- A page write in progress, from order 1. -/
def writing1 (retried : Bool) : State := { z with cal := { z.cal with
  write := some ⟨.order ref1, hash1, 1, 0, retried⟩ } }

theorem witness_CalibrationPageIsReplacedWhole :
    let o (op : Nat) (s : State) : Bool := (ordered op s).orderReady ref1 op
    let low : State := { z with sup := { z.sup with holdUp := true } }
    let other : State := { z with fuses := { z.fuses with serial := 1 } }
    let mon : State := { z with cal := { z.cal with write := some ⟨.monitor, hash1, 1, 0, false⟩ } }
    (o 0x1101 z = true ∧ z.calBusy = false ∧ (writing1 false).calBusy = true)
    ∧ (o 0x1102 z = true ∧ pageOk [] = false ∧ pageSerial factoryPage = z.fuses.serial.toNat
      ∧ pageSerial factoryPage ≠ other.fuses.serial.toNat ∧ (0#32).toNat = calCrc z.cal ∧ (1#32).toNat ≠ calCrc z.cal
      ∧ low.sup.holdUp = true ∧ z.sup.holdUp = false)
    ∧ (60 + reserveMj = 140 ∧ z.usableMj (z.sensed 1 24000).2 < 60 + reserveMj ∧ 60 + reserveMj ≤ z.usableMj (z.sensed 1 26000).2)
    ∧ o 0x1103 z = true
    ∧ ((atLevel .service z).svc.level = .service ∧ (atLevel .service z).calBusy = false
      ∧ 60 + reserveMj ≤ (atLevel .service z).usableMj ((atLevel .service z).sensed 1 26000).2
      ∧ (atLevel .service z).usableMj ((atLevel .service z).sensed 1 24000).2 < 60 + reserveMj ∧ mon.xingStopped 0x16 = false)
    ∧ ((writing1 false).cal.write = some ⟨.order ref1, hash1, 1, 0, false⟩
      ∧ (writing1 true).cal.write = some ⟨.order ref1, hash1, 1, 0, true⟩
      ∧ mon.cal.write = some ⟨.monitor, hash1, 1, 0, false⟩) := by decide +kernel

theorem deliveredFw_ok : fwChecks z.fuses.vendor deliveredFw 192 = 0 := by decide +kernel

def fwIs (f : Firmware → Firmware) (s : State) : State := { s with fw := f s.fw }
def fwLoad1 : FwLoad := ⟨.order ref1, deliveredFw, true⟩

theorem witness_FirmwareLoadsIntoTheOtherBank :
    let o (op : Nat) (s : State) : Bool := (ordered op s).orderReady ref1 op
    let run := fwIs (fun f => { f with running := some 0 }) z
    let newer := fwIs (fun f => { f with
      running := some 0, banks := [⟨deliveredFw.take 8 ++ leBytes 4 2 ++ deliveredFw.drop 12, 1, false, false⟩, default] }) z
    let load := fwIs (fun f => { f with load := some fwLoad1 }) run
    (o 0x1104 z = true ∧ z.fwBusy = false ∧ load.fwBusy = true ∧ fwChecks z.fuses.vendor [] 0 ≠ 0 ∧ deliveredFw.length = 192)
    ∧ (run.fwRevNow ≤ fwRevision deliveredFw ∧ fwRevision deliveredFw < newer.fwRevNow)
    ∧ (load.fw.load = some fwLoad1 ∧ fwLoad1.src = .order ref1 ∧ load.fw.recovery = false
      ∧ (fwIs (fun f => { f with recovery := true }) load).fw.recovery = true)
    ∧ (o 0x1105 z = true ∧ run.fw.running = some 0) := by decide +kernel
/-! ### Supplies and start-up -/

theorem witness_StartUpAndResetKeepTheirOrder :
    let at3 := atStep 3 z
    let bank (a b : FwBank) := fwIs (fun f => { f with banks := [a, b] }) at3
    let ok : FwBank := ⟨deliveredFw, 2, false, false⟩
    let bad : FwBank := ⟨[], 1, false, false⟩
    let good (s : State) (i : Nat) : Bool := let b : FwBank := s.fw.banks.getD i default
      !b.bad && fwChecks s.fuses.vendor b.bytes b.bytes.length == 0
    let held : State := { (atStep 12 z) with sup := { (atStep 12 z).sup with holdUp := true, tallyFlush := true } }
    (z.sup.step = 0 ∧ z.sup.holdUp = false ∧ at3.sup.step = 3 ∧ at3.fw.recovery = false ∧ at3.fw.running = none)
    ∧ (good (bank ok bad) 0 = true ∧ good (bank bad ok) 1 = true ∧ good (bank bad ok) 0 = false ∧ good (bank bad bad) 0 = false
      ∧ good (bank { bad with seq := 2 } { ok with seq := 1 }) 1 = true
      ∧ good (bank { ok with seq := 1 } { bad with seq := 2 }) 0 = true)
    ∧ (63 / 2 % 2 = 1 ∧ 63 / 32 % 2 = 1 ∧ 64 % 64 = 0)
    ∧ ((atStep 6 house1).houseId ≠ 0 ∧ (atStep 6 z).houseId = 0 ∧ z.sup.held6 = false ∧ z.ring.ready = false)
    ∧ (held.sup.holdUp = true ∧ held.sup.rstLow = false ∧ held.sup.tallyFlush = true
      ∧ ({ held.sup with rstLow := true }).rstLow = true) := by decide +kernel

theorem witness_PowerFailurePutsThePlantSafe :
    let s := atStep 12 (tallying (fun x => x))
    (z.sup.step = 0 ∧ s.sup.step ≠ 0 ∧ s.sup.holdUp = false ∧ s.tally.run ≠ .stopped
      ∧ (panelled.panel.st = .running) ∧ s.place.roles.all (fun r => roleKind r.id != 7) = true)
    ∧ (z.fab.beamLost = false ∧ ({ z.fab with beamLost := true }).beamLost = true) := by decide +kernel

theorem sense_one (k : Nat) : z.cal.sense.getD k fOne = fOne := by
  match k with
  | 0 => rfl
  | 1 => rfl
  | 2 => rfl
  | n + 3 => rfl

theorem witness_SupplyReadingsAreJudged :
    let s := later 5000000000 (atStep 12 z)
    (s.sup.step ≠ 0 ∧ s.sup.holdUp = false ∧ s.sup.startedAt + 5 * secNs ≤ s.now ∧ ¬ 5500 < 5500 ∧ 5499 < 5500)
    ∧ (s.sup.surge = false ∧ ({ s.sup with surge := true }).surge = true ∧ s.sup.vbatLow = false ∧ 2699 < 2700)
    ∧ (s.sup.energyAt + 10 * msNs ≤ s.now ∧ z.now < z.sup.energyAt + 10 * msNs) := by decide +kernel
def setupImg : List Byte :=
  beBytes 48 0x4f505a530100400007000100030000000001000001000000000000008000000000000000000000000000000000000000
    ++ beBytes 48 0x0d4cbe130000000000000000a6a4d06d01000000000000000000000000000000045000000432b80b0000000000000000
    ++ beBytes 48 0x00000000000000000000000000000000000000000000000000000000000000006b17d1f2e12c4247f8bce6e563a440f2
    ++ beBytes 48 0x77037d812deb33a0f4a13945d898c2964fe342e2fe1a7f9b8ee7eb4a7c0f9e162bce33576b315ececbb6406837bf51f5
    ++ beBytes 48 0x7cf27b188d034f7e8a52380304b51ac3c08969e277f21b35a60b48fc47669978557de1bde70521b4a47aac35201ed7d3
    ++ beBytes 16 0xbf94f06124aeaf39dd5ecd5c9df18a19

/-! ### Set-up and the general rules -/

def slot1 : SetupSlot := ⟨setupImg, 1⟩
def setIs (f : Setup → Setup) (s : State) : State := { s with setup := f s.setup }
def keyed (s : State) : State := { s with fuses := { s.fuses with house := sha256 vendorKey } }

theorem witness_SetUpImagesAreLoadedAndApplied :
    let o (op : Nat) (s : State) : Bool := (ordered op s).orderReady ref1 op
    let s := keyed (atStep 5 (setIs (fun x => { x with slots := [slot1, default] }) z))
    let load (r : Bool) := setIs (fun x => { x with load := some ⟨ref1, setupImg, r⟩ }) (keyed z)
    let good (i : Nat) : Bool := let y : SetupSlot := s.setup.slots.getD i default
      y.seq != 0 && (setupChecks s.fuse y.bytes y.bytes.length).status == 0
    let held : State := (atStep 6 house1)
    (o 0x0110 z = true ∧ (load false).setup.load.isSome = true ∧ z.setup.load = none ∧ (setupChecks z.fuse [] 0).status ≠ 0
      ∧ (setupChecks (keyed z).fuse setupImg 256).status = 0 ∧ setupHouse setupImg ≠ z.houseId
      ∧ ((keyed z).setupVerdict setupImg 256 true).status = 0)
    ∧ ((load true).setup.load = some ⟨ref1, setupImg, true⟩ ∧ (setIs (fun x => { x with slot := 1 }) z).setup.slot < 2 ∧ o 0x0111 z = true ∧ z.sup.step ≠ 5)
    ∧ (s.sup.step = 5 ∧ s.sup.holdUp = false ∧ good 0 = true ∧ good 1 = false ∧ (keyed z).setup.slots.all (fun y => y.seq == 0) = true)
    ∧ ((entriesOf slot1.bytes (setupCount slot1.bytes)).map (fun e => (e.opcode, e.clean, e.link, u32At e.par 0, u32At e.par 4))
        = [(1, true, false, 0x5004, 0x0BB83204)] ∧ s.setup.sealed = false ∧ accOf 0x5004 = .rws ∧ 0x5000 ≤ 0x5004)
    ∧ ((0x00005EA0#32) ≠ 0x00005EA1#32 ∧ held.sup.step = 6 ∧ held.houseId ≠ 0 ∧ ({ held.sup with held6 := true }).held6 = true)
    ∧ (setIs (fun x => { x with sealDue := some 5 }) z).setup.sealDue = some 5 := by decide +kernel

theorem witness_LogStaysAChain : LogOk { z with pending := [.nlogRecordWrite] } ∧
    ∃ t, step { z with pending := [.nlogRecordWrite] } = .next t :=
  ⟨⟨trivial, by decide, fun _ _ _ h => (List.cons_ne_nil _ _ h.symm).elim⟩, _, rfl⟩

theorem witness_FusesArePermanent : (∃ t, step (keyed { z with pending := [.hello true] }) = .next t)
    ∧ (keyed z).fuses.house ≠ [] := ⟨⟨_, rfl⟩, by decide +kernel⟩

theorem witness_OnlyAResetUnseals :
    let s := setIs (fun x => { x with sealed := true }) z
    s.setup.sealed = true ∧ z.setup.sealBy < 4 ∧ z.setup.sealed = false ∧ setupSeals setupImg = true
    ∧ (setIs (fun x => { x with sealDue := some 0 }) z).setup.sealDue = some 0 := by decide +kernel

theorem witness_EpochsStepPastZero : (0xFFFE#16) ≠ 0xFFFF#16 ∧ (0xFFFF#16) ≠ 0 := by decide

theorem witness_HoldConfigKeepsItsRanges :
    z.setup.sealed = false ∧ (setIs (fun x => { x with sealed := true }) z).setup.sealed = true := by decide +kernel

theorem witness_EventsPassTheirBucket :
    let dry : State := { z with nlog := { z.nlog with
      sources := [(0x50, { (default : SrcState) with cfg := some (0, 1), tokens := 0, updated := 0 })] } }
    let r := logState .recording z
    (ownSource 0x50 = false ∧ dry.refilled (dry.srcOf 0x50) < tokenUnit ∧ tokenUnit ≤ z.refilled (z.srcOf 0x50))
    ∧ (r.nlog.capturing = false ∧ r.nlog.state ≠ .full ∧ r.nlog.queued < 256 ∧ (logState .full z).nlog.state = .full)
    ∧ (ownSource 0xE8 = true ∧ (0xE8 : Nat) ≠ 0xD6) := by decide +kernel
/-! ### Well-formedness: for each check a command that fails it and nothing else -/

/-- A voltage set with its three channels. -/
def vset0 : VsetCfg := ⟨0, 0, [0, 0, 0], 0, 0, 0, 0, 0, 0⟩

/-- One ill-formed OrderEntry for each of its fields. -/
def badOrderEntry : List OrderEntry :=
  [{ (default : OrderEntry) with opcode := 65536 }]

theorem wf_refuses_OrderEntry : badOrderEntry.all (fun x => !x.ok) = true := by decide

/-- One ill-formed VsetCfg for each of its fields. -/
def badVsetCfg : List VsetCfg :=
  [{ vset0 with vset := 256 }, { vset0 with wiring := 256 }, { vset0 with sag := 65536 }, { vset0 with swell := 65536 },
    { vset0 with int_ := 65536 }, { vset0 with hyst := 65536 }, { vset0 with ch := [0, 0] }, { vset0 with ch := [0, 256, 0] }]

theorem wf_refuses_VsetCfg : badVsetCfg.all (fun x => !x.ok) = true := by decide

/-- One ill-formed CircCfg for each of its fields. -/
def badCircCfg : List CircCfg :=
  [{ (default : CircCfg) with circuit := 256 }, { (default : CircCfg) with vset := 256 }, { (default : CircCfg) with flags := 256 },
    { (default : CircCfg) with reserved := 256 }, { (default : CircCfg) with i1 := 256 }, { (default : CircCfg) with i2 := 256 },
    { (default : CircCfg) with i3 := 256 }, { (default : CircCfg) with in_ := 256 }, { (default : CircCfg) with windowN := 65536 },
    { (default : CircCfg) with reserved2 := 65536 }]

theorem wf_refuses_CircCfg : badCircCfg.all (fun x => !x.ok) = true := by decide

/-- One ill-formed RxCfg for each of its fields. -/
def badRxCfg : List RxCfg :=
  [{ (default : RxCfg) with bus := 256 }, { (default : RxCfg) with object := 256 }, { (default : RxCfg) with flags := 256 },
    { (default : RxCfg) with minLen := 256 }, { (default : RxCfg) with seqPos := 256 }, { (default : RxCfg) with freshMs := 65536 },
    { (default : RxCfg) with id := 4294967296 }]

theorem wf_refuses_RxCfg : badRxCfg.all (fun x => !x.ok) = true := by decide

/-- One ill-formed TxCfg for each of its fields. -/
def badTxCfg : List TxCfg :=
  [{ (default : TxCfg) with bus := 256 }, { (default : TxCfg) with object := 256 }, { (default : TxCfg) with len := 256 },
    { (default : TxCfg) with seqPos := 256 }, { (default : TxCfg) with flags := 65536 }, { (default : TxCfg) with id := 4294967296 },
    { (default : TxCfg) with periodUs := 4294967296 }, { (default : TxCfg) with deadlineUs := 4294967296 }]

theorem wf_refuses_TxCfg : badTxCfg.all (fun x => !x.ok) = true := by decide

/-- One ill-formed StnCfg for each of its fields. -/
def badStnCfg : List StnCfg :=
  [{ (default : StnCfg) with retries := 256 }, { (default : StnCfg) with noackN := 256 }, { (default : StnCfg) with dscp := 256 },
    { (default : StnCfg) with port := 65536 }, { (default : StnCfg) with staleMs := 65536 }, { (default : StnCfg) with offlineMs := 65536 },
    { (default : StnCfg) with timeoutMs := 65536 }, { (default : StnCfg) with refreshMs := 65536 }]

theorem wf_refuses_StnCfg : badStnCfg.all (fun x => !x.ok) = true := by decide

/-- One ill-formed StnCtxCfg for each of its fields. -/
def badStnCtxCfg : List StnCtxCfg :=
  [{ (default : StnCtxCfg) with qdepth := 256 }, { (default : StnCtxCfg) with reserved := 256 },
    { (default : StnCtxCfg) with station := 65536 }, { (default : StnCtxCfg) with flags := 65536 },
    { (default : StnCtxCfg) with rport := 65536 }, { (default : StnCtxCfg) with addr := (2 ^ 128) }]

theorem wf_refuses_StnCtxCfg : badStnCtxCfg.all (fun x => !x.ok) = true := by decide

/-- One ill-formed ToutSet for each of its fields. -/
def badToutSet : List ToutSet :=
  [{ (default : ToutSet) with output := 256 }, { (default : ToutSet) with mode := 256 }, { (default : ToutSet) with startNs := 4294967296 },
    { (default : ToutSet) with widthNs := 4294967296 }, { (default : ToutSet) with startS := (2 ^ 64) },
    { (default : ToutSet) with periodNs := (2 ^ 64) }]

theorem wf_refuses_ToutSet : badToutSet.all (fun x => !x.ok) = true := by decide

/-- One ill-formed Rect for each of its fields. -/
def badRect : List Rect :=
  [{ (default : Rect) with x := 65536 }, { (default : Rect) with y := 65536 }, { (default : Rect) with w := 65536 },
    { (default : Rect) with h := 65536 }]

theorem wf_refuses_Rect : badRect.all (fun x => !x.ok) = true := by decide

/-- One ill-formed PanelSet for each of its fields. -/
def badPanelSet : List PanelSet :=
  [{ (default : PanelSet) with bright := 256 }]

theorem wf_refuses_PanelSet : badPanelSet.all (fun x => !x.ok) = true := by decide

/-- One ill-formed NlogSrc for each of its fields. -/
def badNlogSrc : List NlogSrc :=
  [{ (default : NlogSrc) with source := 256 }, { (default : NlogSrc) with rate := 65536 }, { (default : NlogSrc) with burst := 65536 },
    { (default : NlogSrc) with slots := [⟨65536, 0, 0⟩] }, { (default : NlogSrc) with slots := [⟨0, 256, 0⟩] },
    { (default : NlogSrc) with slots := [⟨0, 0, 256⟩] }]

theorem wf_refuses_NlogSrc : badNlogSrc.all (fun x => !x.ok) = true := by decide

/-- One ill-formed RollCfg for each of its fields. -/
def badRollCfg : List RollCfg :=
  [{ (default : RollCfg) with reshapeMax := 256 }, { (default : RollCfg) with reshapeK := 256 },
    { (default : RollCfg) with flags := 256 }, { (default : RollCfg) with reserved := 256 }, { (default : RollCfg) with leadPlanMs := 65536 },
    { (default : RollCfg) with startLeadMs := 65536 }, { (default : RollCfg) with stageMs := 65536 },
    { (default : RollCfg) with sendAheadMs := 65536 }]

theorem wf_refuses_RollCfg : badRollCfg.all (fun x => !x.ok) = true := by decide

/-- One ill-formed RollDest for each of its fields. -/
def badRollDest : List RollDest :=
  [{ (default : RollDest) with kind := 256 }, { (default : RollDest) with index := 256 }, { (default : RollDest) with anchor := 256 },
    { (default : RollDest) with reserved := 256 }, { (default : RollDest) with out := 65536 }, { (default : RollDest) with temp := 65536 },
    { (default : RollDest) with run := 65536 }]

theorem wf_refuses_RollDest : badRollDest.all (fun x => !x.ok) = true := by decide

/-- One ill-formed OptCfg for each of its fields. -/
def badOptCfg : List OptCfg :=
  [{ (default : OptCfg) with importTable := 256 }, { (default : OptCfg) with exportTable := 256 },
    { (default : OptCfg) with importCircuit := 256 }, { (default : OptCfg) with elecProfile := 65536 },
    { (default : OptCfg) with permitBase := 4294967296 }]

theorem wf_refuses_OptCfg : badOptCfg.all (fun x => !x.ok) = true := by decide

/-- One ill-formed LaCfg for each of its fields. -/
def badLaCfg : List LaCfg :=
  [{ (default : LaCfg) with stepMs := 65536 }, { (default : LaCfg) with horizonS := 65536 },
    { (default : LaCfg) with settleS := 65536 }, { (default : LaCfg) with flags := 65536 }]

theorem wf_refuses_LaCfg : badLaCfg.all (fun x => !x.ok) = true := by decide

/-- One ill-formed ReckonCfg for each of its fields. -/
def badReckonCfg : List ReckonCfg :=
  [{ (default : ReckonCfg) with rejectMax := 65536 }, { (default : ReckonCfg) with flags := 65536 },
    { (default : ReckonCfg) with mismatchN := 65536 }, { (default : ReckonCfg) with reserved := 65536 },
    { (default : ReckonCfg) with cadenceMs := 4294967296 }]

theorem wf_refuses_ReckonCfg : badReckonCfg.all (fun x => !x.ok) = true := by decide

/-- One ill-formed LoopCoef for each of its fields. -/
def badLoopCoef : List LoopCoef :=
  [{ (default : LoopCoef) with section_ := 256 }, { (default : LoopCoef) with sflags := 256 },
    { (default : LoopCoef) with loop := 65536 }]

theorem wf_refuses_LoopCoef : badLoopCoef.all (fun x => !x.ok) = true := by decide

/-- One ill-formed TallyCfg for each of its fields. -/
def badTallyCfg : List TallyCfg :=
  [{ (default : TallyCfg) with restart := 256 }, { (default : TallyCfg) with flags := 256 },
    { (default : TallyCfg) with exchWaitMs := 65536 }]

theorem wf_refuses_TallyCfg : badTallyCfg.all (fun x => !x.ok) = true := by decide

theorem wf_refuses_Part : [Part.bead 512, .rod 64, .deck 8].all (fun x => !x.ok) = true := by decide

theorem wf_refuses_1 : (
  [.tokenArrival default .router 75, .tokenArrival default .port 512,
   .memoryAccess default 65536 0 default none none, .memoryAccess default 0 (2 ^ 32) default none none, .paceStep 8 0 0 0 default default,
   .paceStep 0 (2 ^ 32) 0 0 default default, .paceStep 0 0 1024 0 default default,
   .paceStep 0 0 0 (2 ^ 32) default default, .retentionEntry 8 default, .deckWake 0 (.token default 512 default), .deckWake 8 (.token default 0 default),
   .deckWake 0 (.access { (default : MemReq) with idx := 65536 }),
   .retentionExitDone 8 default 0, .retentionExitDone 0 default 256, .thermShed 8 0, .thermShed 0 1024,
   .thermShedEnd 8 0, .thermShedEnd 0 1024, .thermTrip 8 0, .thermTrip 0 1024, .xingTimeout ⟨23, 0⟩, .xingRestart 23,
   .islandCompletion 23 default 0, .handshakeStall (.rod 64) default default,
   .handshakeStall default (.rod 64) default, .beadFault 512 0, .beadFault 0 65536, .rodFault 64 0, .rodFault 0 65536,
   .deckFault 8 0, .deckFault 0 65536, .frameLoss 2 0, .frameLoss 0 65536] : List Instr).all (fun i => !i.wf) = true := by decide +kernel

theorem wf_refuses_2 : (
  [.roleReplaced 16 0 0 0, .roleReplaced 0 4096 0 0, .roleReplaced 0 0 512 0, .roleReplaced 0 0 0 (2 ^ 32),
   .sweepToken default 75, .placeAlloc default 65536 0 0, .placeAlloc default 0 65536 0,
   .placeAlloc default 0 0 65536, .placeShift default 256,
   .modelLoad default default (2 ^ 32) default default default, .solveLate ⟨2 ^ 32, 0⟩ 0 default,
   .solveLate ⟨0, 2 ^ 32⟩ 0 default, .solveLate ⟨0, 0⟩ 65536 default, .measPut default 65536 0 default default, .measPut default 0 256 default default,
   .reckonCfg default { (default : ReckonCfg) with rejectMax := 65536 }, .reckonCtl default 256,
   .stateQuery default (2 ^ 64) 0 0, .stateQuery default 0 (2 ^ 32) 0, .stateQuery default 0 0 (2 ^ 32),
   .laSubmit 65536, .laVerdict (2 ^ 32) default, .laOverrun (2 ^ 32), .laWithdraw (2 ^ 32),
   .laCfg default { (default : LaCfg) with stepMs := 65536 }, .laCtl default 256, .laDetail default (2 ^ 32) 0,
   .laDetail default 0 (2 ^ 64), .optCfg default { (default : OptCfg) with importTable := 256 }, .optCtl default 256,
   .tariffPut default default (2 ^ 32)] : List Instr).all (fun i => !i.wf) = true := by decide +kernel

theorem wf_refuses_3 : (
  [.forecastPut default default (2 ^ 32), .planQuery default 256 0 0, .planQuery default 0 (2 ^ 64) 0,
   .planQuery default 0 0 (2 ^ 32), .commandSend 65536, .rolloutDone 65536,
   .rollCfg default { (default : RollCfg) with reshapeMax := 256 },
   .rollDest default { (default : RollDest) with kind := 256 }, .rollHold default 256 0 0, .rollHold default 0 256 0,
   .rollHold default 0 0 256, .rollCtl default 256, .stnStaleTimeout 1024, .stnOfflineTimeout 1024,
   .txnTimeout 1024 0 0, .txnTimeout 0 65536 0, .txnTimeout 0 0 256, .sendOrderRelease 1024, .outputRefresh 1024,
   .resyncSend 1024, .stnCfg default { (default : StnCfg) with retries := 256 },
   .stnCtx default { (default : StnCtxCfg) with qdepth := 256 }, .stnSafe default 65536 (List.replicate 48 0),
   .stnSafe default 0 (List.replicate 49 0), .stnCtl default 65536 0, .stnCtl default 0 256,
   .stnQuery default 65536 0 0, .stnQuery default 0 65536 0, .stnQuery default 0 0 (2 ^ 64), .loopSample 512 default] : List Instr).all (fun i => !i.wf) = true := by decide +kernel

theorem wf_refuses_4 : (
  [.loopTriggerTimeout 512 default, .loopCfg default 65536 (List.replicate 128 0),
   .loopCfg default 0 (List.replicate 129 0), .loopCoef default { (default : LoopCoef) with section_ := 256 },
   .loopMode default 65536 0 default, .loopMode default 0 256 default, .loopSp default 65536 default 0 0,
   .loopSp default 0 default (2 ^ 32) 0, .loopSp default 0 default 0 (2 ^ 32), .loopCtl default 65536 0,
   .loopCtl default 0 256, .loopQuery default 65536 0 0, .loopQuery default 0 65536 0,
   .loopQuery default 0 0 (2 ^ 64), .loopTrace default 65536 0 0, .loopTrace default 0 65536 0,
   .loopTrace default 0 0 (2 ^ 64), .loopTable default (List.replicate 1041 0), .pwmPeriodStart 16,
   .tallyCyclicRelease 25, .tallyCycleStart 25, .tallyBudgetOverrun 25, .tPsh 16 0, .tPsh 0 (1048576), .tPshn 16 0,
   .tPshn 0 (1048576), .tAndb 16 0, .tAndb 0 (1048576), .tAndnb 16 0, .tAndnb 0 (1048576)] : List Instr).all (fun i => !i.wf) = true := by decide +kernel

theorem wf_refuses_5 : (
  [.tOrb 16 0, .tOrb 0 (1048576), .tOrnb 16 0, .tOrnb 0 (1048576), .tXorb 16 0, .tXorb 0 (1048576), .tOutb 16 0,
   .tOutb 0 (1048576), .tSetb 16 0, .tSetb 0 (1048576), .tClrb 16 0, .tClrb 0 (1048576), .tEdgr 16 0,
   .tEdgr 0 (1048576), .tEdgf 16 0, .tEdgf 0 (1048576), .tTon 16 0, .tTon 0 (1048576), .tTof 16 0, .tTof 0 (1048576),
   .tTp 16 0, .tTp 0 (1048576), .tTrst 16 0, .tTrst 0 (1048576), .tCtu 16 0, .tCtu 0 (1048576), .tCtd 16 0,
   .tCtd 0 (1048576), .tCrst 16 0, .tCrst 0 (1048576)] : List Instr).all (fun i => !i.wf) = true := by decide +kernel

theorem wf_refuses_6 : (
  [.tCadd 16 0, .tCadd 0 (1048576), .tLdw 16 0, .tLdw 0 (1048576), .tLdbu 16 0, .tLdbu 0 (1048576), .tLdhs 16 0,
   .tLdhs 0 (1048576), .tLdhu 16 0, .tLdhu 0 (1048576), .tLdq 16 0, .tLdq 0 (1048576), .tLds 16 0, .tLds 0 (1048576),
   .tStw 16 0, .tStw 0 (1048576), .tStb 16 0, .tStb 0 (1048576), .tSth 16 0, .tSth 0 (1048576), .tAdd 16 0,
   .tAdd 0 (1048576), .tSub 16 0, .tSub 0 (1048576), .tMul 16 0, .tMul 0 (1048576), .tDiv 16 0, .tDiv 0 (1048576),
   .tMod 16 0, .tMod 0 (1048576)] : List Instr).all (fun i => !i.wf) = true := by decide +kernel

theorem wf_refuses_7 : (
  [.tAndw 16 0, .tAndw 0 (1048576), .tOrw 16 0, .tOrw 0 (1048576), .tXorw 16 0, .tXorw 0 (1048576), .tShl 16 0,
   .tShl 0 (1048576), .tShr 16 0, .tShr 0 (1048576), .tAsr 16 0, .tAsr 0 (1048576), .tFadd 16 0, .tFadd 0 (1048576),
   .tFsub 16 0, .tFsub 0 (1048576), .tFmul 16 0, .tFmul 0 (1048576), .tFdiv 16 0, .tFdiv 0 (1048576), .tFmin 16 0,
   .tFmin 0 (1048576), .tFmax 16 0, .tFmax 0 (1048576), .tCeq 16 0, .tCeq 0 (1048576), .tCne 16 0, .tCne 0 (1048576),
   .tCgt 16 0, .tCgt 0 (1048576)] : List Instr).all (fun i => !i.wf) = true := by decide +kernel

theorem wf_refuses_8 : (
  [.tCge 16 0, .tCge 0 (1048576), .tClt 16 0, .tClt 0 (1048576), .tCle 16 0, .tCle 0 (1048576), .tFceq 16 0,
   .tFceq 0 (1048576), .tFcne 16 0, .tFcne 0 (1048576), .tFcgt 16 0, .tFcgt 0 (1048576), .tFcge 16 0,
   .tFcge 0 (1048576), .tFclt 16 0, .tFclt 0 (1048576), .tFcle 16 0, .tFcle 0 (1048576), .tJmp (524288),
   .tJt (524288), .tJf (524288), .tTrig (1048576), .dioEdge 32 default, .tallyLoad default default (2 ^ 32) 0,
   .tallyLoad default default 0 (2 ^ 32), .tallyRun default 256, .tallyCtl default 256, .tallyTrig default 256,
   .tallyPeek default 256 0 0 0, .tallyPeek default 0 (2 ^ 32) 0 0] : List Instr).all (fun i => !i.wf) = true := by decide +kernel

theorem wf_refuses_9 : (
  [.tallyPeek default 0 0 (2 ^ 64) 0, .tallyPeek default 0 0 0 (2 ^ 32),
   .tallyPoke default 256 0 0 (List.replicate 32 0), .tallyPoke default 0 (2 ^ 32) 0 (List.replicate 32 0),
   .tallyPoke default 0 0 (2 ^ 32) (List.replicate 32 0), .tallyPoke default 0 0 0 (List.replicate 33 0),
   .tallyCfg default { (default : TallyCfg) with restart := 256 }, .tallySafe default 256 0 0 (List.replicate 64 0),
   .tallySafe default 0 256 0 (List.replicate 64 0), .tallySafe default 0 0 256 (List.replicate 64 0),
   .tallySafe default 0 0 0 (List.replicate 65 0), .tallyQuery default (2 ^ 64), .chInactive 32,
   .meterSample [{ (default : ChanBits) with channel := 32 }],
   .chAcquireDone 32 (List.replicate 1024 0), .chAcquireDone 0 (List.replicate 1023 0), .chTrackWindow 32 (List.replicate 4096 0),
   .chTrackWindow 0 (List.replicate 4097 0), .chAcquireRetry 32, .lineCycleEnd 8 none default default default,
   .lineCycleEnd 0 (some (2 ^ 80)) default default default, .freeRunEnter 8,
   .halfCycleBoundary 8 none default, .halfCycleBoundary 0 (some (2 ^ 80)) default, .heatSample 64 default,
   .meterVset default { vset0 with vset := 256 }, .meterCirc default { (default : CircCfg) with circuit := 256 },
   .heatCfg default 256 (List.replicate 64 0), .heatCfg default 0 (List.replicate 65 0), .billCfg default (2 ^ 32) 0,
   .billCfg default 0 65536, .meterCtl default 256 0] : List Instr).all (fun i => !i.wf) = true := by decide +kernel

theorem wf_refuses_10 : (
  [.meterCtl default 0 256, .heatCtl default 256 0, .heatCtl default 0 256, .meterQuery default 256 0 0 0,
   .meterQuery default 0 256 0 0, .meterQuery default 0 0 256 0, .meterQuery default 0 0 0 (2 ^ 64),
   .heatQuery default 256 0 0 0 0, .heatQuery default 0 256 0 0 0, .heatQuery default 0 0 256 0 0,
   .heatQuery default 0 0 0 256 0, .heatQuery default 0 0 0 0 (2 ^ 64), .ringFrameRx 2 default,
   .linkChange 3 default default, .ringBypass default 256 0 0, .ringBypass default 0 256 0,
   .ringBypass default 0 0 65536, .ringSend default 256 default default,
   .ringSend default 0 default { (default : SendFrame) with addr := 2 ^ 64 }, .ringSend default 0 default { (default : SendFrame) with length := 1 },
   .ringSend default 0 default ⟨65536, 0, List.replicate 65536 0⟩, .ptpSyncRx 256 default, .ptpSyncRx 0 { (default : SyncRx) with port := 3 },
   .ptpAnnounceRx 256 default, .ptpAnnounceRx 0 { (default : Announce) with port := 3 },
   .txStampCapture 3 0 0, .txStampCapture 0 4096 0, .txStampCapture 0 0 16, .txStampExpiry 3 0 0,
   .txStampExpiry 0 4096 0, .txStampExpiry 0 0 16, .txqHeadWrite 3 default, .pdelayMeasure 3 default, .toutFire 8,
   .toutSet default { (default : ToutSet) with output := 256 }, .timeSelect default 256] : List Instr).all (fun i => !i.wf) = true := by decide +kernel

theorem wf_refuses_11 : (
  [.mirrorEmitStn default 1024 default, .mirrorEmitFbus default 2 0 0 default,
   .mirrorEmitFbus default 0 256 0 default, .mirrorEmitFbus default 0 0 65536 default, .mirrorLoopOut default 512 default default,
   .mirrorSnapshot default 65536 default 0 default, .mirrorSnapshot default 0 default 65536 default,
   .mirrorTally default 256 0 default, .mirrorTally default 0 (2 ^ 32) default, .mirrorMeter default 256 0 default,
   .mirrorMeter default 0 256 default, .mirrorImage default 3 0 0 default default,
   .mirrorImage default 0 (2 ^ 32) 0 default default, .mirrorImage default 0 0 (2 ^ 32) default default,
   .mirrorVerdict default 3 0, .mirrorVerdict default 0 256, .mirrorMark default 3 default,
   .mirrorResync default 256 0, .mirrorResync default 0 (2 ^ 32), .twinCtl default 256 0, .twinCtl default 0 (2 ^ 32),
   .doorbell 64 0 default, .doorbell 0 17 default, .orderFetch 64 default,
   .orderFetch 0 { (default : OrderEntry) with opcode := 65536 }, .coalesceTimer 32, .hostRingEnable 64 default,
   .hostRingDisable 64 default, .w1cWrite 65536 default, .registerWrite 65536 default, .pcieLinkUp 17 0] : List Instr).all (fun i => !i.wf) = true := by decide +kernel

theorem wf_refuses_12 : (
  [.pcieLinkUp 0 4, .setupLoad default default (2 ^ 32) default default, .canFrameRx 2 default,
   .fbusAttemptEnd 2 default, .fbusDeadline 2 0, .fbusDeadline 0 256, .fbusPeriod 2 0, .fbusPeriod 0 256,
   .fbusRecoveryDone 2, .fbusLockRead 2 0, .fbusLockRead 0 256, .fbusUnlockRead 2 0, .fbusUnlockRead 0 256,
   .fbusRxCfg default { (default : RxCfg) with bus := 256 }, .fbusTxCfg default { (default : TxCfg) with bus := 256 },
   .fbusSend default 256 0 (List.replicate 64 0), .fbusSend default 0 256 (List.replicate 64 0),
   .fbusSend default 0 0 (List.replicate 65 0), .fbusCtl default 256 0, .fbusCtl default 0 256,
   .fbusRecover default 256, .reportTimerExpiry 256 0, .reportTimerExpiry 0 (2 ^ 32),
   .nlogSrc default { (default : NlogSrc) with source := 256 }, .nlogFreeze default 256 0,
   .nlogFreeze default 0 65536, .nlogRead default (2 ^ 32) 0 0, .nlogRead default 0 65536 0,
   .nlogRead default 0 0 (2 ^ 64), .blinkHalfPeriod 2] : List Instr).all (fun i => !i.wf) = true := by decide +kernel

theorem wf_refuses_13 : (
  [.panelWrite default { (default : Rect) with x := 65536 } default, .panelMask default 256 default default,
   .panelMask default 0 { (default : Rect) with x := 65536 } default, .panelCurve default 256 (List.replicate 64 0),
   .panelCurve default 0 (List.replicate 65 0), .panelSet default { (default : PanelSet) with bright := 256 },
   .panelCtl default 256, .tagPhaseEnd 65536, .tagUpdate default default 256, .tagCtl default 256,
   .calc default 65536, .monitorDataLine (2 ^ 32) (List.replicate 64 0) default,
   .monitorDataLine 0 (List.replicate 65 0) default, .calExport default (2 ^ 64),
   .calImport default (List.replicate 4097 0) default default 0,
   .calImport default (List.replicate 4096 0) default default 65536, .calCapture default default 65536,
   .fwLoad default default (2 ^ 32) default default default, .beamUp 64, .powerFailWarning 65536 0 0,
   .powerFailWarning 0 65536 0, .powerFailWarning 0 0 65536, .rstNRequest 65536 0 0, .rstNRequest 0 65536 0,
   .rstNRequest 0 0 65536, .vinSurge default 65536, .holdEnergyRefresh 65536 0 0, .holdEnergyRefresh 0 65536 0,
   .holdEnergyRefresh 0 0 65536, .vbatLow 65536] : List Instr).all (fun i => !i.wf) = true := by decide +kernel

theorem wf_refuses_14 : (
  [.nodeForgetTime (2 ^ 48), .arbitrationWon 2, .busErrorRx 2 0, .busErrorRx 0 256, .beamLoss 65536] : List Instr).all (fun i => !i.wf) = true := by decide +kernel

/-! ### The spec's worked examples, and published check values -/

/-- The check value of CRC-32C and of CRC-32 over the text 123456789, and of SHA-256 over the text abc (FIPS 180-4). -/
theorem test_crc32c : crc32c (beBytes 9 0x313233343536373839) = 0xE3069283#32 := by decide +kernel
theorem test_crc32 : crc32 (beBytes 9 0x313233343536373839) = 0xCBF43926#32 := by decide +kernel
theorem test_sha256 : sha256 (beBytes 3 0x616263)
    = beBytes 32 0xba7816bf8f01cfea414140de5dae2223b00361a396177a9cb410ff61f20015ad := by decide +kernel

/-- Bytes as a dump lists them: `n` bytes, the first leftmost. -/
def dump (n v : Nat) : List Byte := beBytes n v

/-- STN_ONLINE of the worked record under R555 (spec/15_host_rings.md). -/
theorem test_event_record :
    let s := twinIs (fun t => { t with role := .active, epoch := 3#16 })
      (log (fun n => { n with seq := 0x9C41#32 }) (later (0x6A3B1F40 * 1000000000 + 500000000) z))
    (s.eventOf 0x52 0 [u16 0x117, u32 0x231C7, u32 73900]).bytes
      = dump 32 0x52010300419C0000401F3B6A0065CD1D0000000017010000C7310200AC200100 := by decide +kernel

/-- The deck of the example under R76 (spec/02_clockless_fabric.md). -/
theorem test_deck_register : deckStat { (default : Deck) with temp := 504, rail := 70, pace := 76 } = 0x01F8464C := by decide

/-- Step 3 of the look-ahead deck's example: one 5 mV step up at backlog. -/
theorem test_pace_step_up :
    (((later 65000 z).modDeck 6 (fun d => { d with rail := 42, lastStep := 15000 })).paceStep 6 40 504 40 true false).deck 6
      = { ((later 65000 z).deck 6) with rail := 43, pace := 40, temp := 504, lastStep := 65000, lastBacklog := 65000 } := by decide +kernel

/-- The feeder pipe of zone 3 (spec/04_network_model.md): 25 reaches at 10 ms. -/
theorem test_pipe_reaches :
    pipeReaches 10 (dump 32 0x200141004200000000007A430000803E17B7D1380000004000007A440000803E) = 25 := by decide +kernel

/-- Measurement 0x0203 of the worked solve (spec/05_state_reckoning.md). -/
theorem test_measurement_entry :
    layPacked (pvFlds ⟨0x439D0000#32, 0x5C3A0000, .estimated, 2, 0xE240#16, 0x3FC00000#32⟩)
      = dump 16 0x00009D4300003A5C010240E20000C03F := by decide

/-- The WORST entry of run 0x0392 (spec/06_surge_lookahead.md), and where LA_FAIL places it (R555). -/
theorem test_worst_entry :
    let b : Breach := ⟨0x471, 0xFFFF, 0, 5, 14, 3800, 0x4684D000#32⟩
    layPacked (breachFlds b) = dump 16 0x7104FFFF00050E00D80E000000D08446
    ∧ layAligned 0 [u32 0x392, u16 0x51, u16 5, breachParam (some b)]
      = dump 24 0x9203000051000500_7104FFFF00050E00D80E000000D08446 := by decide

/-- The store item of the worked day plan (spec/07_dispatch_optimiser.md). -/
theorem test_plan_item :
    layPacked (planItemFlds ⟨3, 8, 0, 0, fOfInt (-8000000) 1, 0⟩) = dump 16 0x03080000000000000024F4CA00000000 := by decide

/-- The ramps of the worked vetting and of the superseded rollout (R248): pump 6 in 4 stages, zone 7 in 80, then in 5. -/
theorem test_stages :
    stagesFor (fc 1 5) (fc 4 5) 0 = 4 ∧ stageValue 0 (fc 4 5) 1 4 = fc 1 5
    ∧ stagesFor (fc 250 1) (fc 80000 1) (fc 100000 1) = 80 ∧ stagesFor (fc 250 1) (fc 86000 1) (fc 84750 1) = 5
    ∧ stageValue (fc 85000 1) (fc 86000 1) 1 5 = fc 85200 1 := by decide +kernel

/-- The RESYNC of station 0x0117 (spec/09_station_exchange.md): its length, first 32 bytes and slot 0. -/
theorem test_resync_frame :
    let s := twinIs (fun t => { t with epoch := 3#16 }) { house1 with regs := alPut house1.regs rGlbHouse 0x2A17#32 }
    let c : Ctx := { ctx9 with cfg := { ctx9.cfg with station := 0x117 }
                               outImg := [1#8] ++ List.replicate 47 0#8 ++ beBytes 4 (fc 95000 1).toNat ++ List.replicate 12 0#8 }
    let f := s.frameBytes c 0x231C7#32 .resync (some (0x0A5E, 0x11, 0))
    f.length = 100 ∧ f.take 32 = dump 32 0x01032A1701170003000231C70000000000000000080200000A5E11000A110000
    ∧ (f.drop 0x50).take 4 = dump 4 0x47B98C00 := by decide +kernel

def looped2 (n : Nat) (l : Loop) (s : State) : State := s.setLoop n l

/-- Loop 50 of the worked example (spec/10_loop_engine.md), closed on sample T0 with set-point 0.5 due. -/
def desc50 : List Byte :=
  let img := putBytes (List.replicate 128 0#8) 0 (leBytes 2 50 ++ [0#8, 2#8] ++ leBytes 4 100 ++ [0#8, 0#8, 2#8, 0#8] ++ leBytes 2 0 ++ leBytes 2 10)
  let src := [2#8, 3#8] ++ leBytes 2 4 ++ List.replicate 4 0#8 ++ leBytes 4 (fc 1 4096).toNat ++ leBytes 4 0
  let img := putBytes (putBytes (putBytes img 0x10 src) 0x20 [8#8]) 0x30 src
  let img := putBytes img 0x40 (leBytes 2 0x8005 ++ leBytes 2 212 ++ leBytes 2 0xFFFF ++ leBytes 2 0xFFFF)
  putBytes img 0x48 (([fc 40 1, 0, fOfInt (-8) 1, fc 8 1, fc 2000 1, 0, 0, fOne, fc 1 100, fc 5 1000].flatMap
    (fun v => leBytes 4 v.toNat)) ++ leBytes 4 20000000 ++ leBytes 4 0xFFFFFFFF)
def loop50 : Loop := { (newLoop desc50 false 0) with
  en := .enabled, mode := .closed, out := fc 1 2, sp := fc 3 8, coefMissing := false
  lastAt := some 4957939800000, posPrev := some (fc 3 8, 4957939800000), lastTrig := 4957939800000
  queue := [⟨fc 1 2, 4957939863000, 0x0C40, false, 0⟩]
  sections := [⟨true, false, fc 1 5, 0, 0, fOfInt (-4) 5, 0, 0, 0⟩, ⟨true, true, fc 1002 1000, fOfInt (-1) 1, 0, fOfInt (-1) 1, 0, fc 1 80, 0⟩] }
/-- The sample instant: stamp 0x5C3F1E60 and a multiple of 100 µs. The trace record, the held section and the destination. -/
theorem test_position_loop :
    let l : Loop := loop50
    let s : State := looped2 50 l (twinned .solo (later 4957939900000 running1))
    let s : State := { s with
      tally := { s.tally with run := .running, quad := [(4, [(0, 1536)])] }
      loops := { s.loops with
        tables := [(212, ⟨0, List.replicate 95 0 ++ [fc 27 10, fc 28 10] ++ List.replicate 159 0⟩)]
        trace := some ⟨ref1, 50, 5, 0x1000, 0⟩ } }
    let t : State := s.loopTrigger 50 ⟨2600⟩
    (t.out.filterMap (fun o => match o with
        | .hostData a fs => some (a, layPacked fs)
        | _ => none)) = [(0x1000, dump 16 0x601E3F5C0000C03E3333333F04010003)]
    ∧ (t.loopOf 50).map (fun l => (l.sections.map (·.s1), l.sp, l.queue)) = some ([fMul (fc 4 5) (fMul (fc 1 5) (fc 1 8)), fc 1 80], fc 1 2, []) := by decide +kernel
/-- The snapshot of source 0x50 in the worked example (spec/17_notch_log.md): three registers, packed. -/
theorem test_log_snapshot :
    let s : State := { z with
      ring := { z.ring with en := .enabled, legsClosed := false, legsSense := false, ready := true, linkA := true, linkB := true }
      twin := { z.twin with
        role := .active, en := .enabled, pathT := true, pathR := true, fit := true, partner := some partner1 }
      time := { z.time with st := .locked, src := .domA, firstLock := true, domA := { z.time.domA with qual := true } } }
    let s : State := { s with
      twin := { s.twin with partner := some { partner1 with modelRev := 0, tallyRev := 0 } } }
    s.snapshot 0 [⟨0x4008, 20, 12⟩, ⟨0x5008, 16, 16⟩, ⟨0x3010, 20, 12⟩] = 0x4612AE648A := by decide +kernel

/-- The stamps of the example under R464 (spec/13_ring_bypass_time.md), around S = 1 000 s. -/
theorem test_stamps_extend :
    let t : Nat := 1000 * 1000000000 + 999950000
    let ref : Nat := t / 2 ^ 32 * 2 ^ 32 + 0xFFFF0000
    ((later ref z).extendStamp 0x00008000#32 = ref + 98304) ∧ ((later ref z).extendStamp 0xFFF00000#32 = ref - 983040) := by
  decide +kernel

/-- The first instructions of the pump's interlock (spec/11_logic_tally.md). -/
theorem test_interlock_words :
    [insWord 0x01 0 10, insWord 0x18 6 3, insWord 0x12 2 0x320, insWord 0x0F 0 0, insWord 0x20 4 10, insWord 0x34 9 0x300,
      insWord 0x65 11 0, insWord 0x10 2 0x1015]
    = [0x0100000A#32, 0x18600003#32, 0x12200320#32, 0x0F000000#32, 0x2040000A#32, 0x34900300#32, 0x65B00000#32, 0x10201015#32] := by
  decide

/-- T10 of the interlock: 3 410 ms have passed when the preset of 3 000 first counts; then its input falls. -/
theorem test_interlock_timer :
    let x : Timer := { (default : Timer) with preset := 5000, inPrev := false }
    let a : Timer := { (timerOn x true 0) with inPrev := true, last := some 0 }
    let b : Timer := { (timerOn a true 3400000000) with last := some 3400000000 }
    let c := timerOn { b with preset := 3000 } true 3410000000
    a.running = true ∧ a.elapsed = 0 ∧ b.q = false ∧ b.elapsed = 3400 ∧ c.q = true ∧ (timerOn c false 3420000000).elapsed = 0 := by decide

/-- PSH1 as a command: the stack takes a 1 and the task moves on by one word. -/
theorem test_tally_push_and_step :
    let s := atIns 0x09 0 0 0 { task0 with stack := [] }
    (match exec .tPsh1 s with
      | .next t => some ((t.task 0).stack, (t.task 0).pc)
      | _ => none) = some ([true], 1) := by decide +kernel

/-- Import turning to export on the grid connection (spec/12_metering.md). -/
theorem test_import_turns_to_export :
    let kJ (n : Int) : Int := n * 1000000 * lsbEnergy
    let r : EReg := { (default : EReg) with net := 8388608 }
    let r := (List.replicate 4 (kJ 40)).foldl (fun r x => r.add x lsbEnergy) r
    let r := (List.replicate 6 (kJ (-30))).foldl (fun r x => r.add x lsbEnergy) r
    r.fwd = 160000000 ∧ r.rev = 180000000 ∧ eWord r.net = 0xFF00FFFFFF4ED300 ∧ r.primary true = 340000000 := by decide +kernel

/-- The transmit registers of the bus-off example (spec/16_field_buses.md). -/
theorem test_transmit_registers :
    let x (st : TxSt) (c : Nat) (r : Bool) (n : Nat) : TxObj := { (default : TxObj) with st := st, cause := c, requeued := r, fails := n }
    (x .sent 0 true 1).statWord = 0x61000001#32 ∧ (x .stranded 7 false 1).statWord = 0xAE000001#32
    ∧ (x .sent 0 false 32).statWord = 0x60000020#32 := by decide

/-- The bit rates of the reset values, 500 kb/s and 2 Mb/s, are within R567; a data rate below the nominal one is not. -/
theorem test_bus_timing :
    z.busTimingOk 0 = true ∧ (z.setReg (rFbusDbt 0) 0xFFFFFFFF#32).busTimingOk 0 = false := by decide +kernel

/-- KIND, TAG, GEN, STATUS, RING and USER of the reports written, with their bodies. -/
def reportsOf (t : State) : List (List Nat × List Byte) :=
  t.out.filterMap (fun o => match o with
    | .report _ _ r => some ([r.kind, r.tag.toNat, r.gen.toNat, r.status, r.ring, r.user.toNat], layPacked r.body)
    | _ => none)

/-- LOOP_MODE of the control room's example (spec/15_host_rings.md): the completion's kind, fields and body. -/
theorem test_loop_mode_order :
    let s := looped2 50 loop50 (ringed 2 (twinned .solo running1))
    let s : State := withLive { (live1 0x0903) with tag := 0x41, gen := 7, ring := 2, rpt := 31, user := 0x2A } s
    (match exec (.loopMode (.host 0x41#16 7#8) 50 1 (fc 1 2)) s with
      | .next t => reportsOf t
      | _ => []) = [([0x8903, 0x41, 7, 0, 2, 0x2A], dump 4 0x32000000)] := by decide +kernel

/-- The latch of the time window counts (R465). -/
theorem test_time_latch :
    (match exec .timeLatch (later 5 z) with
      | .next t => some t.time.latchCount
      | _ => none) = some 1 := by decide +kernel

/-- Epochs step past 0xFFFF and 0 (R31). -/
theorem test_epoch_step : epochStep 0xFFFF#16 = 1#16 ∧ epochStep 3#16 = 4#16 := by decide
/-- Look-ahead at S = 40 over 20 s (spec/06_surge_lookahead.md, the worked vetting): the bound is 500 ms. -/
theorem test_look_ahead_bound : speed100 160 10 61800 = 4000 ∧ runBoundUs 160 10 61800 20000 = 500000 := by decide

/-- A point at 1 612 000 Pa against P_MAX 1 600 000 and the guard of 5 000 Pa lies 17 000 Pa beyond, kind OVER. -/
theorem test_over_pressure :
    worstExcess (excesses ⟨0, fc 1600000 1, 0, 5, fOne⟩ (fc 5000 1) 0 (fc 1612000 1)) = (0, 0x4684D000#32) := by decide +kernel

/-- Step 5 of the failover example (spec/14_twin_operation.md): both paths silent for 300 µs, a FIT standby at epoch 3 promotes. -/
theorem test_promotion :
    let s := twinIs (fun t => { t with
      epoch := 3#16, partner := some { partner1 with role := .active, lastT := some 5000, lastR := some 40000 }
      pathT := false, pathR := true }) (twinned .standby running1)
    (match exec (.pathSilent .ring) (later 340000 s) with
      | .next t => some (t.twin.role, t.twin.epoch)
      | _ => none) = some (.active, 4#16) := by decide +kernel

end Sys2Proof.Tests
end

/-! PROOF. Register writes by their access types (R16, R521, R524, R525) and the orders HQ_NOP and HQ_ABORT (R538, R552). -/

namespace Sys2Proof.Machine

open Sys2Proof

/-! ### Stored words -/

@[simp] theorem State.reg_setReg_same (s : State) (o : Nat) (v : Word) : (s.setReg o v).reg o = v := by
  unfold State.reg State.setReg
  split
  · rw [alGet_alDel, if_pos rfl, ‹v = resetOf o›]
    rfl
  · rw [alGet_alPut, if_pos rfl]
    rfl

theorem State.reg_setReg_ne {o p : Nat} (h : o ≠ p) (s : State) (v : Word) : (s.setReg o v).reg p = s.reg p := by
  unfold State.reg State.setReg
  split
  · rw [alGet_alDel, if_neg h]
  · rw [alGet_alPut, if_neg h]

theorem State.reg_congr {s t : State} (h : t.regs = s.regs) (o : Nat) : t.reg o = s.reg o := by
  unfold State.reg
  rw [h]

theorem State.fld_congr {s t : State} {o : Nat} (h : t.reg o = s.reg o) (hi lo : Nat) : t.fld o hi lo = s.fld o hi lo := by
  unfold State.fld
  rw [h]

theorem State.fld_setReg_same (s : State) (o : Nat) (v : Word) (hi lo : Nat) : (s.setReg o v).fld o hi lo = bits v.toNat hi lo := by
  unfold State.fld
  rw [State.reg_setReg_same]

/-- PACE_CTL stores RET_EN as it is written. -/
theorem normReg_pace_retEn (v : Word) : bits (normReg rPaceCtl v).toNat 2 2 = v.toNat / 4 % 2 := by
  change bits (word (bits v.toNat 2 2 * 4 + (if bits v.toNat 1 0 < 2 then bits v.toNat 1 0 else 0))).toNat 2 2 = v.toNat / 4 % 2
  have hpace : (if bits v.toNat 1 0 < 2 then bits v.toNat 1 0 else 0) < 4 := by split <;> omega
  generalize (if bits v.toNat 1 0 < 2 then bits v.toNat 1 0 else 0) = pace at hpace ⊢
  simp only [bits, word, BitVec.toNat_ofNat]
  omega

/-- RING_CFG stores BYPASS_AT_START as it is written. -/
theorem normReg_ring_bypassAtStart (v : Word) : (bits (normReg rRingCfgReg v).toNat 3 3 == 1) = getBit v 3 := by
  change (bits (word (bits v.toNat 22 20 * 2 ^ 20 + (if bits v.toNat 19 8 = 4095 then 0 else bits v.toNat 19 8) * 2 ^ 8
    + v.toNat % 2 ^ 4)).toNat 3 3 == 1) = getBit v 3
  have h : getBit v 3 = decide (v.toNat / 8 % 2 = 1) := Nat.testBit_eq_decide_div_mod_eq
  rw [h, Bool.eq_iff_iff]
  generalize (if bits v.toNat 19 8 = 4095 then 0 else bits v.toNat 19 8) = vid
  simp only [bits, word, BitVec.toNat_ofNat, beq_iff_eq, decide_eq_true_eq]
  omega

/-! ### A write by its access type -/

theorem barWrite_misaligned {o : Nat} (h : o % 4 ≠ 0) (s : State) (v : Word) : s.barWrite o v = s.hostErr 0 := if_pos h

theorem barWrite_ignored {o : Nat} (h : o % 4 = 0) (ha : accOf o = .ro ∨ accOf o = .unassigned) (s : State) (v : Word) :
    s.barWrite o v = s := by
  unfold State.barWrite
  rw [if_neg (not_not.mpr h)]
  rcases ha with ha | ha <;> rw [ha]

theorem barWrite_w1c {o : Nat} (h : o % 4 = 0) (ha : accOf o = .w1c) (s : State) (v : Word) : s.barWrite o v = s.w1cWrite o v := by
  unfold State.barWrite
  rw [if_neg (not_not.mpr h), ha]

theorem barWrite_sealed {s : State} {o : Nat} (h : o % 4 = 0) (ha : accOf o = .rws) (hs : s.setup.sealed = true) (v : Word) :
    s.barWrite o v = { s with host := { s.host with sealedWr := satInc s.host.sealedWr } } := by
  unfold State.barWrite
  rw [if_neg (not_not.mpr h), ha]
  exact if_pos hs

theorem barWrite_unsealed {s : State} {o : Nat} (h : o % 4 = 0) (ha : accOf o = .rws) (hs : s.setup.sealed = false) (v : Word) :
    s.barWrite o v = s.storeReg o v := by
  unfold State.barWrite
  rw [if_neg (not_not.mpr h), ha]
  exact if_neg (by simp [hs])

/-- Both forms of a write to a write-one-to-clear register are its clear. -/
theorem exec_w1c {o : Nat} (h : o % 4 = 0) (ha : accOf o = .w1c) (s : State) (v : Word) {c : Instr}
    (hc : c = .registerWrite o v ∨ c = .w1cWrite o v) : exec c s = .next (s.w1cWrite o v) := by
  rcases hc with rfl | rfl
  · exact congrArg Host.Outcome.next (barWrite_w1c h ha s v)
  · rfl

/-! ### What follows from a stored word -/

theorem refusedWrite_timeCfg {o : Nat} {v : Word} (h : refusedWrite o v = true) : o = rTimeCfg := by
  simp only [refusedWrite, Bool.and_eq_true, beq_iff_eq] at h
  exact h.1

theorem refusedWrite_ne {o : Nat} (h : o ≠ rTimeCfg) (v : Word) : refusedWrite o v = false := by
  simp [refusedWrite, h]

theorem storeReg_refused {s : State} {o : Nat} {v : Word} (h : refusedWrite o v = true) : s.storeReg o v = s := by
  unfold State.storeReg
  rw [if_neg (by rw [refusedWrite_timeCfg h]; decide), if_pos h]

theorem retEnWritten_same {s t : State} (h : t.fld rPaceCtl 2 2 = s.fld rPaceCtl 2 2) : s.retEnWritten t = t := by
  refine if_neg fun hc => ?_
  simp only [Bool.and_eq_true, decide_eq_true_eq] at hc
  omega

/-- A write outside PACE_CTL leaves RET_EN, so no deck's 2 ms start again. -/
theorem storeReg_eq_afterWrite {s : State} {o : Nat} {v : Word} (hr : refusedWrite o v = false) (hc : o ≠ rSvcCode) (hp : o ≠ rPaceCtl)
    (hk : ((s.setReg o (normReg o v)).afterWrite o).regs = (s.setReg o (normReg o v)).regs) :
    s.storeReg o v = (s.setReg o (normReg o v)).afterWrite o := by
  unfold State.storeReg
  rw [if_neg hc, if_neg (by simp [hr])]
  exact retEnWritten_same (State.fld_congr ((State.reg_congr hk rPaceCtl).trans (State.reg_setReg_ne hp s _)) 2 2)

/-- HOLD_CFG and, beside RING_CFG and SLEW_PPM, the registers of the TIME_, RING_, TWIN_ and FBUS_ blocks have no further effect. -/
theorem afterWrite_plain {o : Nat} (ho : (0x3000 ≤ o ∧ o < 0x7000) ∨ o = rHoldCfg) (hr : o ≠ rRingCfgReg) (ht : o ≠ rTimeSlew)
    (s : State) : s.afterWrite o = s := by
  have hb : between 0x7080 0x70FC o = false := by
    simp only [between, Bool.and_eq_false_iff, decide_eq_false_iff_not]
    simp only [rHoldCfg] at ho
    omega
  have hn : o ≠ rGlbHouse ∧ o ≠ rPlaceCtl ∧ o ≠ rClkCtl ∧ o ≠ rChEn ∧ o ≠ rChSel ∧ o ≠ rBlinkCtl 0 ∧ o ≠ rBlinkCtl 1 := by
    simp only [rGlbHouse, rPlaceCtl, rClkCtl, rChEn, rChSel, rBlinkCtl, rHoldCfg] at *
    omega
  obtain ⟨h1, h2, h3, h4, h5, h6, h7⟩ := hn
  simp [State.afterWrite, hr, ht, hb, h1, h2, h3, h4, h5, h6, h7]

theorem storeReg_plain {s : State} {o : Nat} {v : Word} (ho : (0x3000 ≤ o ∧ o < 0x7000) ∨ o = rHoldCfg) (hr : o ≠ rRingCfgReg)
    (ht : o ≠ rTimeSlew) (hv : refusedWrite o v = false) : s.storeReg o v = s.setReg o (normReg o v) := by
  have ha := afterWrite_plain ho hr ht (s.setReg o (normReg o v))
  have hn : o ≠ rSvcCode ∧ o ≠ rPaceCtl := by
    simp only [rSvcCode, rPaceCtl, rHoldCfg] at *
    omega
  rw [storeReg_eq_afterWrite hv hn.1 hn.2 (by rw [ha]), ha]

/-! ### SLEW_PPM (R466) -/

/-- A new target starts from the clock as it stands, at the rate that SLEW_PPM sets. -/
theorem retarget_only (s : State) (x : Int) : ∃ ofs big, OnlyReports { s with
    clockOfs := ofs
    time := { s.time with slew := if x = 0 then none else some ⟨x, s.now, s.slewPpm, big⟩ } } (s.retarget x) := by
  unfold State.retarget
  extract_lets was run got wasBig big u
  refine ⟨s.clockOfs + got, big, show OnlyReports u _ from ?_⟩
  split
  · exact raise_only u _ _
  · split
    · exact raise_only u _ _
    · exact .refl u

/-- A slew that goes on after SLEW_PPM was stored goes on at its rate, and no register changes. -/
theorem reslew_slew (s : State) : s.reslew.regs = s.regs ∧ ∀ w ∈ s.reslew.time.slew, w.ppm = s.slewPpm := by
  unfold State.reslew
  split
  next w hw =>
    split
    · exact ⟨rfl, fun x hx => by simp_all⟩
    · obtain ⟨ofs, big, h⟩ := retarget_only s (w.offset - slewDone s.now w)
      refine ⟨h.regs, fun x hx => ?_⟩
      rw [h.time] at hx
      simp only [Option.mem_def] at hx
      split at hx <;> cases hx
      rfl
  next hn => exact ⟨rfl, fun x hx => by simp_all⟩

/-! ### RING_CFG and the legs (R457) -/

/-- Retiring a station's frames changes the stations and the rollouts, and nothing else. -/
theorem retireFrames_only (s : State) (i : Nat) :
    s.retireFrames i = { s with stn := (s.retireFrames i).stn, roll := (s.retireFrames i).roll } := by
  have fold : ∀ (ws : List Waiting) (t : State), ∃ r, ws.foldl (fun s w => s.neverSent i w.seq .disabled) t = { t with roll := r } := by
    intro ws
    induction ws with
    | nil => exact fun t => ⟨t.roll, rfl⟩
    | cons w ws ih =>
      intro t
      obtain ⟨r, hr⟩ := ih (t.neverSent i w.seq .disabled)
      exact ⟨r, hr⟩
  unfold State.retireFrames
  split
  · rfl
  · extract_lets gone held u
    obtain ⟨r, hr⟩ := fold (gone.filter (fun w => w.frame.kind == 1)) u
    rw [hr]
    rfl

theorem retireAllFrames_only (s : State) :
    s.retireAllFrames = { s with stn := s.retireAllFrames.stn, roll := s.retireAllFrames.roll } := by
  have fold : ∀ (is : List Nat) (t : State), ∃ n r, is.foldl State.retireFrames t = { t with stn := n, roll := r } := by
    intro is
    induction is with
    | nil => exact fun t => ⟨t.stn, t.roll, rfl⟩
    | cons i is ih =>
      intro t
      obtain ⟨n, r, h⟩ := ih (t.retireFrames i)
      rw [retireFrames_only t i] at h
      exact ⟨n, r, by rw [List.foldl_cons, retireFrames_only t i, h]⟩
  obtain ⟨n, r, h⟩ := fold (s.stn.ctxs.map (·.cfg.station)) s
  unfold State.retireAllFrames
  rw [h]

/-- Closing the legs closes them and stores no register. -/
theorem closeLegs_legs (s : State) (cause waiting : Nat) :
    (s.closeLegs cause waiting).ring.legsClosed = true ∧ (s.closeLegs cause waiting).regs = s.regs := by
  unfold State.closeLegs
  extract_lets was gone u w
  have hw : w.ring = u.ring ∧ w.regs = u.regs := by
    by_cases h : was.en = .disabled
    · simp [w, h]
    · simp only [w, if_neg h, State.raise_ring, State.raise_regs]
      rw [retireAllFrames_only u]
      exact ⟨rfl, rfl⟩
  have hj : ∀ t : State, t.judgeFit.ring = t.ring ∧ t.judgeFit.regs = t.regs := fun t =>
    ⟨(judgeFit_only t).ring, (judgeFit_only t).regs⟩
  obtain ⟨hring, hregs⟩ := hw
  rw [(hj _).1, (hj _).2]
  clear_value w
  split
  · exact ⟨by rw [hring], by rw [hregs]⟩
  · exact ⟨by rw [State.raise_ring, hring], by rw [State.raise_regs, hregs]⟩

/-- What a stored RING_CFG does beside the register: BYPASS_AT_START closes legs that are open. -/
theorem afterWrite_ringCfg (s : State) :
    (s.afterWrite rRingCfgReg).regs = s.regs
      ∧ (s.bypassAtStart = true → (s.afterWrite rRingCfgReg).ring.legsClosed = true)
      ∧ (s.bypassAtStart = false → (s.afterWrite rRingCfgReg).ring = s.ring) := by
  have e : s.afterWrite rRingCfgReg = if s.bypassAtStart && !s.ring.legsClosed then s.closeLegs legAtStart 0 else s := rfl
  obtain ⟨hclosed, hregs⟩ := closeLegs_legs s legAtStart 0
  rw [e]
  split
  · exact ⟨hregs, fun _ => hclosed, fun h => by simp_all⟩
  · exact ⟨rfl, fun h => by simp_all, fun _ => rfl⟩

/-! ### RET_EN and the decks (R57) -/

@[simp] theorem State.setReg_deck (s : State) (o : Nat) (v : Word) (d : Nat) : (s.setReg o v).deck d = s.deck d := rfl

theorem stir_deck (s : State) (d k : Nat) (hk : k < s.fab.decks.length) :
    (s.stir d).deck k = if d = k then { s.deck k with idleSince := s.now } else s.deck k := by
  simp only [State.stir, State.modDeck, State.deck, List.getD_eq_getElem?_getD, List.getElem?_modify, List.getElem?_eq_getElem hk]
  split <;> rfl

theorem stir_decks_length (s : State) (d : Nat) : (s.stir d).fab.decks.length = s.fab.decks.length :=
  List.length_modify _ _ _

/-- Every deck of the list starts its 2 ms again, and no register changes. -/
theorem stirs_deck (ds : List Nat) (s : State) :
    (ds.foldl State.stir s).regs = s.regs
      ∧ ∀ k, k < s.fab.decks.length →
        (ds.foldl State.stir s).deck k = if k ∈ ds then { s.deck k with idleSince := s.now } else s.deck k := by
  induction ds generalizing s with
  | nil => exact ⟨rfl, fun k _ => rfl⟩
  | cons d ds ih =>
    obtain ⟨hregs, hdeck⟩ := ih (s.stir d)
    refine ⟨hregs, fun k hk => ?_⟩
    rw [List.foldl_cons, hdeck k (by rwa [stir_decks_length]), stir_deck s d k hk]
    by_cases hd : d = k
    · simp [hd]
    · simp [hd, Ne.symm hd]

/-- A write that sets RET_EN starts the 2 ms of each deck again. -/
theorem storeReg_retEn {s : State} {v : Word} (h0 : s.fld rPaceCtl 2 2 = 0) (h1 : v.toNat / 4 % 2 = 1) :
    s.storeReg rPaceCtl v = (List.range 8).foldl State.stir (s.setReg rPaceCtl (normReg rPaceCtl v)) := by
  have e : s.storeReg rPaceCtl v = s.retEnWritten (s.setReg rPaceCtl (normReg rPaceCtl v)) := rfl
  rw [e]
  unfold State.retEnWritten
  rw [h0, State.fld_setReg_same, normReg_pace_retEn, h1]
  rfl

/-! ### Outputs stay -/

theorem settleRing_grows (s : State) (r : Nat) : OutGrows s (s.settleRing r) := by
  unfold State.settleRing
  dsimp only
  split
  · exact (same_grows (t := s.setOrd r (fun o => { o with en := .disabled })) rfl).trans (raise_grows _ _ _)
  · exact OutGrows.refl s

theorem finish_grows (s : State) (l : LiveOrder) (kind st : Nat) (body : List Fld) : OutGrows s (s.finish l kind st body) := by
  have drop : ∀ x : State,
      OutGrows x (({ x with host := { x.host with live := eraseLive l.tag l.gen x.host.live } } : State).handOverAll.settleRing l.ring) :=
    fun x => (same_grows rfl).trans (settleRing_grows _ _)
  exact ((same_grows (t := s.setRpt l.rpt (fun g => { g with reserved := g.reserved - 1 })) rfl).trans (putReport_grows _ _ _)).trans
    (drop _)

theorem lateCompletion_grows (s : State) : OutGrows s s.lateCompletion := by
  have timed : ∀ x : State, OutGrows x (x.raiseTimed 0xD5 0 []) := by
    intro x
    unfold State.raiseTimed State.raiseTimed2
    split
    · exact same_grows rfl
    · rw [if_neg (lt_irrefl 1)]
      exact (same_grows (t := x.startTimer 0xD5 0 [] false) rfl).trans (raise_grows _ _ _)
  exact OutGrows.trans (t := { s with host := { s.host with lateCnt := satInc s.host.lateCnt } }) (same_grows rfl) (timed _)

theorem answer_grows (s : State) (ref : OrderRef) (op : Nat) (a : Answer) : OutGrows s (s.answer ref op a) := by
  cases ref with
  | host tag gen =>
    unfold State.answer
    dsimp only
    split
    · split
      · exact OutGrows.trans (t := { s with host := { s.host with live := eraseLive tag gen s.host.live } }) (same_grows rfl)
          (lateCompletion_grows _)
      · exact finish_grows _ _ _ _ _
    · exact lateCompletion_grows s
  | setup i =>
    unfold State.answer
    dsimp only
    split
    · exact OutGrows.refl s
    · exact OutGrows.trans
        (t := { s with setup := { s.setup with faults := true, refused := min (s.setup.refused + 1) 0xFFFF } }) (same_grows rfl)
        (raise_grows _ _ _)

/-! ### Live orders -/

/-- What taking the order that `ref` names makes of a live order. -/
def LiveOrder.startedBy (ref : OrderRef) (l : LiveOrder) : LiveOrder :=
  match ref with
  | .host t g => if l.is t g then { l with started := true } else l
  | .setup _ => l

theorem LiveOrder.startedBy_only (ref : OrderRef) (l : LiveOrder) : l.startedBy ref = { l with started := (l.startedBy ref).started } := by
  unfold LiveOrder.startedBy
  split
  · split <;> rfl
  · rfl

theorem markStarted_live (s : State) (ref : OrderRef) : (s.markStarted ref).host.live = s.host.live.map (LiveOrder.startedBy ref) := by
  cases ref with
  | host t g => rfl
  | setup i => exact (List.map_id _).symm

/-- Taking an order leaves which live orders stand. -/
theorem find_standing_markStarted (s : State) (ref : OrderRef) (tag : Half) (gen : Byte) :
    (s.markStarted ref).host.live.find? (fun l => l.is tag gen && !l.dead)
      = (s.host.live.find? (fun l => l.is tag gen && !l.dead)).map (LiveOrder.startedBy ref) := by
  have hp : (fun l : LiveOrder => l.is tag gen && !l.dead) ∘ LiveOrder.startedBy ref = fun l => l.is tag gen && !l.dead := by
    funext l
    rw [Function.comp_apply, LiveOrder.startedBy_only]
    rfl
  rw [markStarted_live, List.find?_map, hp]

theorem settleRing_live (s : State) (r : Nat) : (s.settleRing r).host.live = s.host.live := by
  unfold State.settleRing
  dsimp only
  split
  · exact raise_live _ _ _
  · rfl

/-- The completed order is gone from the live orders, and the others are handed over as R534 says. -/
theorem finish_live (s : State) (l : LiveOrder) (kind st : Nat) (body : List Fld) :
    (s.finish l kind st body).host.live = handOver [] [] (eraseLive l.tag l.gen s.host.live) := by
  unfold State.finish
  rw [settleRing_live]
  simp only [State.handOverAll]
  rw [putReport_live]
  rfl

theorem lateCompletion_live (s : State) : s.lateCompletion.host.live = s.host.live := raiseTimed_live _ _ _ _

theorem leaveSecond_live (s : State) (r : Nat) (b : Bool) : (s.leaveSecond r b).host.live = s.host.live := by
  unfold State.leaveSecond
  split <;> rfl

theorem leaveSecond_stopped (s : State) (r : Nat) (b : Bool) (x : Nat) : (s.leaveSecond r b).xingStopped x = s.xingStopped x := by
  unfold State.leaveSecond
  split <;> rfl

theorem find_eraseLive {g tag : Half} (hne : g ≠ tag) (h gen : Byte) (ls : List LiveOrder) :
    (eraseLive tag gen ls).find? (fun l => l.is g h) = ls.find? (fun l => l.is g h) := by
  induction ls with
  | nil => rfl
  | cons l ls ih =>
    unfold eraseLive
    split
    next hl =>
      have hg : l.is g h = false := by
        simp only [LiveOrder.is, Bool.and_eq_true, beq_iff_eq] at hl
        simp [LiveOrder.is, hl.1, Ne.symm hne]
      rw [List.find?_cons_of_neg (by simp [hg])]
    next => rw [List.find?_cons, List.find?_cons, ih]

/-- Handing orders over changes nothing of a live order but whether it has been handed over. -/
theorem find_handOver {g : Half} {h : Byte} {l : LiveOrder} (ls : List LiveOrder) (seen blocked : List Nat)
    (hf : ls.find? (fun l => l.is g h) = some l) :
    ∃ b, (handOver seen blocked ls).find? (fun l => l.is g h) = some { l with handed := b } := by
  induction ls generalizing seen blocked with
  | nil => cases hf
  | cons m ls ih =>
    unfold handOver
    extract_lets free m'
    have hm : m'.is g h = m.is g h := rfl
    rw [List.find?_cons] at hf ⊢
    rw [hm]
    split at hf
    · cases hf
      exact ⟨m'.handed, rfl⟩
    · exact ih _ _ hf

/-! ### Completions -/

/-- An order that is answered from a state with its live orders as they were taken completes. -/
theorem completes_of_answer {c : Instr} {s u : State} {ref : OrderRef} {op : Nat} {a : Answer} (hx : exec c s = .next (u.answer ref op a))
    (hu : OnlyReports s u) (hl : u.host.live = (s.markStarted ref).host.live) : Completes c s s ref op a.status a.body :=
  ⟨_, hx, hu.answers.trans (answer_only u ref op a), answer_answers hl op a⟩

/-- The answer of a live order is its completion. -/
theorem answer_reported {s : State} {tag : Half} {gen : Byte} {l : LiveOrder} (hl : s.findLive tag gen = some l) (hd : l.dead = false)
    (hx : s.xingStopped 0x01 = false) (op : Nat) (a : Answer) : Reported l op a.status a.body (s.answer (.host tag gen) op a) := by
  unfold State.answer
  simp only [hl, hd]
  exact finish_reports hx l (0x8000 + op) a.status a.body

/-- After another order has been completed, a live order is still answered. -/
theorem answer_after_finish {s u : State} {g : Half} {h : Byte} {l : LiveOrder} (hu : u.host.live = (s.markStarted (.host g h)).host.live)
    (hne : g ≠ l.tag) (kind st op : Nat) (body : List Fld) (a : Answer) :
    Answered s (.host g h) op a.status a.body ((u.finish l kind st body).answer (.host g h) op a) := by
  intro m hm hdead hrun
  rw [State.answer_xingStopped] at hrun
  have hfound : u.host.live.find? (fun l => l.is g h) = some (m.startedBy (.host g h)) := by
    rw [hu]
    exact (findLive_markStarted s g h (.host g h)).trans (congrArg _ hm)
  rw [← find_eraseLive hne h l.gen] at hfound
  obtain ⟨b, hb⟩ := find_handOver _ [] [] hfound
  rw [← finish_live u l kind st body, LiveOrder.startedBy_only] at hb
  exact answer_reported hb hdead hrun op a

/-! ### HQ_NOP and HQ_ABORT -/

theorem hqNop_completes {s : State} {ref : OrderRef} (h : s.orderReady ref 0x0101 = true) : Completes (.hqNop ref) s s ref 0x0101 0 [] :=
  completes_of_answer (a := orderDone stDone) (congrArg Host.Outcome.next (runOrder_ready _ h)) (markStarted_only s ref) rfl

theorem exec_hqAbort {s : State} {ref : OrderRef} (tag : Half) (gen : Byte) (h : s.orderReady ref 0x0102 = true) :
    exec (.hqAbort ref tag gen) s = .next ((s.markStarted ref).hqAbort ref tag gen) :=
  congrArg Host.Outcome.next (runOrder_ready _ h)

theorem hqAbort_of_none {s : State} {tag : Half} {gen : Byte} (h : s.host.live.find? (fun l => l.is tag gen && !l.dead) = none)
    (ref : OrderRef) : s.hqAbort ref tag gen = s.lateCompletion.answer ref 0x0102 (orderDone 9) := by
  unfold State.hqAbort
  rw [h]

theorem hqAbort_of_handed {s : State} {tag : Half} {gen : Byte} {l : LiveOrder}
    (h : s.host.live.find? (fun l => l.is tag gen && !l.dead) = some l) (hh : l.handed = true) (ref : OrderRef) :
    s.hqAbort ref tag gen = s.answer ref 0x0102 (orderDone 10) := by
  unfold State.hqAbort
  rw [h]
  exact if_pos hh

theorem hqAbort_of_waiting {s : State} {tag : Half} {gen : Byte} {l : LiveOrder}
    (h : s.host.live.find? (fun l => l.is tag gen && !l.dead) = some l) (hh : l.handed = false) (ref : OrderRef) :
    s.hqAbort ref tag gen
      = ((s.leaveSecond l.ring l.waitSecond).finish l (0x8000 + l.opcode) 11 []).answer ref 0x0102 (orderDone stDone) := by
  unfold State.hqAbort
  rw [h]
  exact if_neg (by simp [hh])

theorem hqAbort_completes_of_none {s : State} {ref : OrderRef} {tag : Half} {gen : Byte} (ho : s.orderReady ref 0x0102 = true)
    (h : s.host.live.find? (fun l => l.is tag gen && !l.dead) = none) : Completes (.hqAbort ref tag gen) s s ref 0x0102 9 [] := by
  have hf := find_standing_markStarted s ref tag gen
  rw [h] at hf
  exact completes_of_answer (a := orderDone 9) ((exec_hqAbort tag gen ho).trans (congrArg _ (hqAbort_of_none hf ref)))
    ((markStarted_only s ref).trans (lateCompletion_only _)) (lateCompletion_live _)

theorem hqAbort_completes_of_handed {s : State} {ref : OrderRef} {tag : Half} {gen : Byte} {l : LiveOrder} (ho : s.orderReady ref 0x0102 = true)
    (h : s.host.live.find? (fun l => l.is tag gen && !l.dead) = some l) (hh : l.handed = true) :
    Completes (.hqAbort ref tag gen) s s ref 0x0102 10 [] := by
  have hf := find_standing_markStarted s ref tag gen
  rw [h] at hf
  have hs : (l.startedBy ref).handed = true := by
    rw [LiveOrder.startedBy_only]
    exact hh
  exact completes_of_answer (a := orderDone 10) ((exec_hqAbort tag gen ho).trans (congrArg _ (hqAbort_of_handed hf hs ref)))
    (markStarted_only s ref) rfl

theorem hqAbort_ends_waiting {s : State} {g tag : Half} {h gen : Byte} {l : LiveOrder} (ho : s.orderReady (.host g h) 0x0102 = true)
    (hfind : s.host.live.find? (fun l => l.is tag gen && !l.dead) = some l) (hx : s.xingStopped 0x01 = false) (hh : l.handed = false)
    (hne : g ≠ tag) :
    ∃ t, exec (.hqAbort (.host g h) tag gen) s = .next t ∧ Reported l l.opcode 11 [] t ∧ Answered s (.host g h) 0x0102 0 [] t := by
  have htag : l.tag = tag := by
    have hp := List.find?_some hfind
    simp only [LiveOrder.is, Bool.and_eq_true, beq_iff_eq] at hp
    exact hp.1.1
  have hself : l.startedBy (.host g h) = l := if_neg (by simp [LiveOrder.is, htag, Ne.symm hne])
  have hf := find_standing_markStarted s (.host g h) tag gen
  rw [hfind, Option.map_some, hself] at hf
  refine ⟨_, (exec_hqAbort tag gen ho).trans (congrArg _ (hqAbort_of_waiting hf hh _)), ?_,
    answer_after_finish (leaveSecond_live _ _ _) (htag ▸ hne) _ _ _ _ (orderDone stDone)⟩
  have hrun : ((s.markStarted (.host g h)).leaveSecond l.ring l.waitSecond).xingStopped 0x01 = false := by
    rw [leaveSecond_stopped, State.markStarted_xingStopped, hx]
  obtain ⟨i, r, hm, hr⟩ := finish_reports hrun l (0x8000 + l.opcode) 11 []
  exact ⟨i, r, (answer_grows _ _ _ _).mem hm, hr⟩

/-! ### The registers with an effect of their own -/

theorem registerWrite_timeSlew {s : State} (hs : s.setup.sealed = false) (v : Word) :
    ∃ t, exec (.registerWrite rTimeSlew v) s = .next t ∧ t.reg rTimeSlew = normReg rTimeSlew v
      ∧ ∀ x ∈ t.time.slew, x.ppm = t.slewPpm := by
  obtain ⟨hregs, hppm⟩ := reslew_slew (s.setReg rTimeSlew (normReg rTimeSlew v))
  have e : s.barWrite rTimeSlew v = (s.setReg rTimeSlew (normReg rTimeSlew v)).reslew :=
    (barWrite_unsealed (by decide) (by decide) hs v).trans
      (storeReg_eq_afterWrite (refusedWrite_ne (by decide) v) (by decide) (by decide) hregs)
  refine ⟨_, congrArg Host.Outcome.next e, (State.reg_congr hregs _).trans (State.reg_setReg_same _ _ _), fun x hx => ?_⟩
  exact (hppm x hx).trans (State.fld_congr (State.reg_congr hregs rTimeSlew) 8 0).symm

theorem registerWrite_ringCfg {s : State} (hs : s.setup.sealed = false) (v : Word) :
    ∃ t, exec (.registerWrite rRingCfgReg v) s = .next t ∧ t.reg rRingCfgReg = normReg rRingCfgReg v
      ∧ (getBit v 3 = true → s.ring.bypassReleased = false → t.ring.legsClosed = true)
      ∧ (getBit v 3 = false → t.ring = s.ring) := by
  obtain ⟨hregs, hcloses, hstays⟩ := afterWrite_ringCfg (s.setReg rRingCfgReg (normReg rRingCfgReg v))
  have hb : (s.setReg rRingCfgReg (normReg rRingCfgReg v)).bypassAtStart = (getBit v 3 && !s.ring.bypassReleased) := by
    rw [State.bypassAtStart, State.fld_setReg_same, normReg_ring_bypassAtStart, State.setReg_ring]
  have e : s.barWrite rRingCfgReg v = (s.setReg rRingCfgReg (normReg rRingCfgReg v)).afterWrite rRingCfgReg :=
    (barWrite_unsealed (by decide) (by decide) hs v).trans
      (storeReg_eq_afterWrite (refusedWrite_ne (by decide) v) (by decide) (by decide) hregs)
  exact ⟨_, congrArg Host.Outcome.next e, (State.reg_congr hregs _).trans (State.reg_setReg_same _ _ _),
    fun h3 hr => hcloses (by rw [hb, h3, hr]; rfl), fun h3 => (hstays (by rw [hb, h3]; rfl)).trans (State.setReg_ring _ _ _)⟩

theorem registerWrite_retEn {s : State} {v : Word} (hs : s.setup.sealed = false) (h0 : s.fld rPaceCtl 2 2 = 0)
    (h1 : v.toNat / 4 % 2 = 1) :
    ∃ t, exec (.registerWrite rPaceCtl v) s = .next t ∧ t.fld rPaceCtl 2 2 = 1
      ∧ ∀ d, d < 8 → d < s.fab.decks.length → t.deck d = { s.deck d with idleSince := s.now } := by
  obtain ⟨hregs, hdeck⟩ := stirs_deck (List.range 8) (s.setReg rPaceCtl (normReg rPaceCtl v))
  refine ⟨_, congrArg Host.Outcome.next ((barWrite_unsealed (by decide) (by decide) hs v).trans (storeReg_retEn h0 h1)), ?_, ?_⟩
  · rw [State.fld_congr (State.reg_congr hregs rPaceCtl), State.fld_setReg_same, normReg_pace_retEn, h1]
  · intro d hd hlen
    rw [hdeck d hlen, if_pos (List.mem_range.mpr hd), State.setReg_deck, State.setReg_now]

/-! ### The obligation -/

/-- Settles O38: a write by the access type of its offset, each effect beside the register, and the two orders of the host queue. -/
theorem registerWritesKeepTheirAccess : Obligations.RegisterWritesKeepTheirAccess := by
  unfold Obligations.RegisterWritesKeepTheirAccess
  intro s o v ref
  have write : ∀ {t : State}, s.barWrite o v = t → exec (.registerWrite o v) s = .next t := fun h => congrArg Host.Outcome.next h
  refine ⟨fun h4 ha => write (barWrite_ignored h4 ha s v), fun h4 => write (barWrite_misaligned h4 s v), rfl,
    fun h4 ha hs => write (barWrite_sealed h4 ha hs v), ?plain, ?refused, fun hs => registerWrite_timeSlew hs v,
    fun hs => registerWrite_ringCfg hs v, fun _ => exec_w1c (by decide) (by decide) s v,
    fun _ => exec_w1c (by decide) (by decide) s v, fun _ => exec_w1c (by decide) (by decide) s v,
    fun _ => exec_w1c (by decide) (by decide) s v, rfl, registerWrite_retEn, hqNop_completes, ?abort⟩
  case plain =>
    intro h4 ha hs ho hr ht hv
    exact ⟨write ((barWrite_unsealed h4 ha hs v).trans (storeReg_plain ho hr ht hv)), State.reg_setReg_same s o _⟩
  case refused =>
    intro h4 hs hv
    have ha : accOf o = .rws := by
      rw [refusedWrite_timeCfg hv]
      decide
    exact write ((barWrite_unsealed h4 ha hs v).trans (storeReg_refused hv))
  case abort =>
    intro tag gen ho
    refine ⟨hqAbort_completes_of_none ho, fun l hl => ⟨hqAbort_completes_of_handed ho hl, ?_⟩⟩
    rintro g h hx hh rfl hne
    exact hqAbort_ends_waiting ho hl hx hh hne

end Sys2Proof.Machine

/-! PROOF. Orders that answer at once (R540): the Reckoner's (R175–R177), look-ahead's (R204–R207), the optimiser's (R239–R241,
R219, R221) and the sequencer's (R265, R272–R275). With them the step of an epoch (R32) and the values at reset. -/

namespace Sys2Proof.Machine

open Sys2Proof

/-! ### Orders at their function -/

/-- Taking an order notes so in the host interface, and nowhere else. -/
theorem markStarted_eq (s : State) (ref : OrderRef) : s.markStarted ref = { s with host := (s.markStarted ref).host } := by
  cases ref <;> rfl

/-- An order that its function answers from `u`: `base` but for reports, with the live orders as they were taken. -/
theorem completes_reporting {c : Instr} {s base : State} {ref : OrderRef} {op : Nat} {f : State → State} {a : Answer}
    (hc : exec c s = .next (s.runOrder ref op f)) (hr : s.orderReady ref op = true)
    (hf : ∀ h : HostIf, ∃ u, f { s with host := h } = u.answer ref op a ∧ OnlyReports { base with host := h } u ∧ u.host.live = h.live) :
    Completes c s base ref op a.status a.body := by
  obtain ⟨u, hfu, hu, hl⟩ := hf (s.markStarted ref).host
  rw [← markStarted_eq] at hfu
  refine ⟨_, (hc.trans (congrArg _ (runOrder_ready f hr))).trans (congrArg _ hfu), ?_, answer_answers hl op a⟩
  exact ((OnlyReports.of_eq rfl).trans hu).answers.trans (answer_only u ref op a)

/-- An order that its function answers from `base`. -/
theorem completes_at {c : Instr} {s base : State} {ref : OrderRef} {op : Nat} {f : State → State} {a : Answer}
    (hc : exec c s = .next (s.runOrder ref op f)) (hr : s.orderReady ref op = true)
    (hf : ∀ h : HostIf, f { s with host := h } = ({ base with host := h } : State).answer ref op a) :
    Completes c s base ref op a.status a.body :=
  completes_reporting hc hr fun h => ⟨_, hf h, .refl _, rfl⟩

/-- An order that raises an event before its answer. -/
theorem completes_raising {c : Instr} {s base : State} {ref : OrderRef} {op : Nat} {f : State → State} {a : Answer} {src : Nat} {ps : List Fld}
    (hc : exec c s = .next (s.runOrder ref op f)) (hr : s.orderReady ref op = true)
    (hf : ∀ h : HostIf, f { s with host := h } = (({ base with host := h } : State).raise src ps).answer ref op a) :
    Completes c s base ref op a.status a.body :=
  completes_reporting hc hr fun h => ⟨_, hf h, raise_only _ _ _, raise_live _ _ _⟩

/-- An order that delivers a block to the host before its answer. -/
theorem completes_delivering {c : Instr} {s base : State} {ref : OrderRef} {op : Nat} {f : State → State} {a : Answer} {o : Output}
    (hc : exec c s = .next (s.runOrder ref op f)) (hr : s.orderReady ref op = true)
    (hf : ∀ h : HostIf, f { s with host := h } = (({ base with host := h } : State).toHost o).answer ref op a) :
    Completes c s base ref op a.status a.body :=
  completes_reporting hc hr fun h => ⟨_, hf h, toHost_only _ _, toHost_live _ _⟩

/-- What an order delivers leaves, while crossing 0x01 runs. -/
theorem delivers {c : Instr} {s : State} {ref : OrderRef} {op : Nat} {f : State → State} {a : Answer} {o : Output}
    (hc : exec c s = .next (s.runOrder ref op f)) (hr : s.orderReady ref op = true)
    (hf : ∀ h : HostIf, ∃ u : State, f { s with host := h } = (u.toHost o).answer ref op a ∧ u.xingStopped 0x01 = false) :
    ∃ t, exec c s = .next t ∧ o ∈ t.out := by
  obtain ⟨u, hfm, hx⟩ := hf (s.markStarted ref).host
  rw [← markStarted_eq, toHost_running _ hx] at hfm
  refine ⟨_, (hc.trans (congrArg _ (runOrder_ready f hr))).trans (congrArg _ hfm), ?_⟩
  exact (answer_grows _ _ _ _).mem (List.mem_append_right _ (List.mem_singleton_self o))

/-! ### The enable of R42 to R46 -/

theorem enRequest_enable {en : Enable} (h : en ≠ .quiescing) (busy : Bool) : enRequest en true busy = (.enabled, .accepted) := by
  cases en
  case quiescing => exact absurd rfl h
  all_goals rfl

@[simp] theorem enRequest_enable_quiescing (busy : Bool) : enRequest .quiescing true busy = (.quiescing, .quiescingRefused) := rfl
@[simp] theorem enRequest_disable_idle : enRequest .enabled false false = (.disabled, .quiescedNow) := rfl
@[simp] theorem enRequest_disable_busy : enRequest .enabled false true = (.quiescing, .accepted) := rfl

/-! ### Epochs -/

theorem epochStep_ne_zero (e : Half) : epochStep e ≠ 0 := by
  unfold epochStep
  split
  · decide
  next h => bv_omega

/-- A receiver's next epoch lies 1 or, past 0x0000, 2 after its own. -/
theorem epochStep_ahead (h : Half) : (epochStep h - h).toNat = 1 ∨ (epochStep h - h).toNat = 2 := by
  unfold epochStep
  split <;> bv_omega

theorem epochRel_newer {h e : Half} (hne : e ≠ h) (ha : (e - h).toNat ≤ 32767) : epochRel h e = .newer := by
  simp only [epochRel, if_neg hne, if_pos ha, ite_self]

theorem epochRel_older {h e : Half} (h0 : h ≠ 0) (ha : 32767 < (e - h).toNat) : epochRel h e = .older := by
  have hne : e ≠ h := by
    rintro rfl
    simp at ha
  simp only [epochRel, if_neg h0, if_neg hne, if_neg (Nat.not_le.mpr ha)]

/-- Settles O57: the epoch after H lies at most two steps ahead of it, and H that many steps behind. -/
theorem epochsStepPastZero : Obligations.EpochsStepPastZero := by
  unfold Obligations.EpochsStepPastZero
  refine ⟨rfl, fun e he => if_neg he, epochStep_ne_zero, fun h _ => ?_⟩
  have ha := epochStep_ahead h
  refine ⟨epochRel_newer (by bv_omega) (by omega), epochRel_older (epochStep_ne_zero h) (by bv_omega)⟩

/-! ### Reset -/

/-- Settles O60: the state at reset is a literal, and each value is read off it. -/
theorem resetLeavesItsValues : Obligations.ResetLeavesItsValues := by
  unfold Obligations.ResetLeavesItsValues
  refine ⟨rfl, rfl, rfl, rfl, rfl, by decide, rfl, ⟨trivial, by decide, fun _ _ _ h => nomatch h⟩, ?_⟩
  decide +kernel

/-! ### The Reckoner's orders -/

/-- STATE_QUERY's operands in their ranges (R177). -/
theorem stateQuery_inRange {a o n : Nat} (ha : a % 16 = 0) (ho : o % 16 = 0) (ho' : o ≤ 0x8B6F0) (hn : 0 < n) (hn' : n ≤ 65536)
    (hon : o + 16 * n ≤ 0x8B700) :
    ¬ (a % 16 ≠ 0 || o % 16 ≠ 0 || 0x8B6F0 < o || n = 0 || 65536 < n || 0x8B700 < o + 16 * n : Bool) = true := by
  simp only [Bool.or_eq_true, decide_eq_true_eq]
  omega

/-- STATE_QUERY pins the latest set and delivers its entries. -/
theorem stateQuery_runs {s : State} {a o n : Nat} (ref : OrderRef) (ha : a % 16 = 0) (ho : o % 16 = 0) (ho' : o ≤ 0x8B6F0) (hn : 0 < n)
    (hn' : n ≤ 65536) (hon : o + 16 * n ≤ 0x8B700) (hq : s.reck.queryAt ≠ some s.now) (h : HostIf) :
    ({ s with host := h } : State).stateQuery ref a o n
      = (({ s with
            host := h
            reck := { s.reck with
              queryAt := some s.now
              pins := (s.reck.latest.map (fun i => (queryPin, i))).toList ++ s.reck.pins.filter (fun p => p.1 != queryPin) } } : State).toHost
          (.hostData a ((List.range n).map (fun i => pvFlds (s.reckEntry (o / 16 + i)))).flatten)).answer ref 0x0403
        (ownReport 0 [u8 0, u8 0, u8 0, u8 0, u32 s.latestSolve, u32 n]) := by
  unfold State.stateQuery
  dsimp only
  rw [if_neg (stateQuery_inRange ha ho ho' hn hn' hon), if_neg hq, List.map_map]
  rfl

/-- Settles O13: each order of the Reckoner by the branch that its operands and the enable select. -/
theorem reckonerOrdersComplete : Obligations.ReckonerOrdersComplete := by
  unfold Obligations.ReckonerOrdersComplete
  intro s ref
  refine ⟨?cfg, ?cfgRange, ?meas, ?measLacks, ?enable, ?disable, ?quiesce, ?quiescing, ?query, ?delivers, ?busy, ?range⟩
  case cfg => exact fun c hr hok => completes_at (a := orderDone 0) rfl hr fun _ => if_pos hok
  case cfgRange => exact fun c hr hok => completes_at (a := orderDone 3) rfl hr fun _ => if_neg (by simp [hok])
  case meas =>
    intro i q st v r hr hrec hsrc
    refine completes_at (a := orderDone 0) rfl hr fun h => ?_
    simp only [State.measPut, hrec, if_pos hsrc]
    rfl
  case measLacks =>
    intro i q st v hr hrec
    refine completes_at (a := orderDone 3) rfl hr fun h => ?_
    simp only [State.measPut, hrec]
    rfl
  case enable =>
    intro hr hen
    refine completes_at (a := stateReport 0 [u8 (enCode .enabled)]) rfl hr fun h => ?_
    simp [State.reckonCtl, enRequest_enable hen, stDone]
  case disable =>
    intro hr hen hrun
    refine completes_raising (a := stateReport 0 [u8 (enCode .disabled)]) (src := 0x35) (ps := [u32 0]) rfl hr fun h => ?_
    simp [State.reckonCtl, hen, hrun, stDone]
  case quiesce =>
    intro hr hen hrun
    refine completes_at (a := stateReport 0 [u8 (enCode .quiescing)]) rfl hr fun h => ?_
    simp [State.reckonCtl, hen, Option.isSome_iff_ne_none.mpr hrun, stDone]
  case quiescing =>
    intro hr hen
    refine completes_at (a := stateReport 6 [u8 (enCode .quiescing)]) rfl hr fun h => ?_
    simp [State.reckonCtl, hen, stQuiescing]
  case query =>
    intro a o n hr ha ho ho' hn hn' hon hq
    exact completes_delivering (a := ownReport 0 _) rfl hr (stateQuery_runs ref ha ho ho' hn hn' hon hq)
  case delivers =>
    intro a o n hr ha ho ho' hn hn' hon hq hx
    exact delivers rfl hr fun h => ⟨_, stateQuery_runs ref ha ho ho' hn hn' hon hq h, hx⟩
  case busy =>
    intro a o n hr ha ho ho' hn hn' hon hq
    refine completes_at (a := ownReport 1 [u8 1, u8 0, u8 0, u8 0, u32 0, u32 0]) rfl hr fun h => ?_
    exact (if_neg (stateQuery_inRange ha ho ho' hn hn' hon)).trans (if_pos hq)
  case range =>
    intro a o n hr hon
    refine completes_at (a := ownReport 2 [u8 2, u8 0, u8 0, u8 0, u32 0, u32 0]) rfl hr fun _ => if_pos ?_
    simp [hon]

/-! ### Look-ahead's orders -/

/-- Settles O15: each order of look-ahead by the branch that its operands, the enable and the runs select. -/
theorem lookAheadOrdersComplete : Obligations.LookAheadOrdersComplete := by
  unfold Obligations.LookAheadOrdersComplete
  intro s ref
  refine ⟨?cfg, ?cfgRange, ?enable, ?disable, ?quiesce, ?detail, ?detailUnknown, ?query⟩
  case cfg =>
    intro c hr hok hgrid
    exact completes_at (a := orderDone 0) rfl hr fun _ => if_neg (by simp [hok, hgrid])
  case cfgRange => exact fun c hr hok => completes_at (a := orderDone 3) rfl hr fun _ => if_pos (by simp [hok])
  case enable =>
    intro hr hen
    refine completes_at (a := stateReport 0 [u8 (enCode .enabled)]) rfl hr fun h => ?_
    simp [State.laCtl, enRequest_enable hen, stDone]
  case disable =>
    intro hr hen hruns hqueue
    refine completes_raising (a := stateReport 0 [u8 (enCode .disabled)]) (src := 0x3B) (ps := [u16 0, u16 0]) rfl hr fun h => ?_
    simp [State.laCtl, hen, hruns, hqueue, stDone]
  case quiesce =>
    intro hr hen hruns hqueue
    refine completes_at (a := stateReport 0 [u8 (enCode .quiescing)]) rfl hr fun h => ?_
    simp [State.laCtl, hen, List.isEmpty_eq_false_iff.mpr hruns, hqueue, stDone]
  case detail =>
    intro run a v hr ha hv
    have runs : ∀ h : HostIf, ({ s with host := h } : State).laDetail ref run a
        = (({ s with host := h } : State).toHost (.hostData a (v.entries.map breachFlds).flatten)).answer ref 0x0503
            (ownReport 0 [u8 0, u8 0, u8 0, u8 0, u32 v.entries.length]) := by
      intro h
      simp only [State.laDetail, if_neg (not_not.mpr ha), hv]
    exact ⟨completes_delivering (a := ownReport 0 _) rfl hr runs, fun hx => delivers rfl hr fun h => ⟨_, runs h, hx⟩⟩
  case detailUnknown =>
    intro run a hr ha hv
    refine completes_at (a := ownReport 1 [u8 1, u8 0, u8 0, u8 0, u32 0]) rfl hr fun h => ?_
    simp only [State.laDetail, if_neg (not_not.mpr ha), hv]
  case query => exact fun hr => completes_at (a := stateReport 0 _) rfl hr fun _ => rfl

/-! ### The optimiser's orders -/

theorem insItem_length (i : PlanItem) (is : List PlanItem) : (insItem i is).length = is.length + 1 := by
  induction is with
  | nil => rfl
  | cons j js ih =>
    unfold insItem
    split
    · rfl
    · rw [List.length_cons, ih, List.length_cons]

theorem sortItems_length (is : List PlanItem) : (sortItems is).length = is.length := by
  induction is with
  | nil => rfl
  | cons i is ih => exact (insItem_length i _).trans (congrArg (· + 1) ih)

/-- PLAN_QUERY delivers the day layer's plan in force. -/
theorem planQuery_runs {s : State} {p : Plan} (ref : OrderRef) (a k : Nat) (hp : s.opt.day.plan = some p) (hq : s.opt.queryAt ≠ some s.now)
    (h : HostIf) :
    ({ s with host := h } : State).planQuery ref 0 a k
      = (({ s with
            host := h
            opt := { s.opt with queryAt := some s.now } } : State).toHost
          (.hostData a (planBody .day p 0 ++ (((sortItems p.items).take k).map planItemFlds).flatten))).answer ref 0x0605
        (ownReport 0 [u8 0, u8 0, u8 0, u8 0, u32 (min k p.items.length)]) := by
  simp [State.planQuery, State.layer, hp, hq, sortItems_length]

/-- Settles O17: each order of the optimiser by the branch that its operands, the enable and the runs select. -/
theorem optimiserOrdersComplete : Obligations.OptimiserOrdersComplete := by
  unfold Obligations.OptimiserOrdersComplete
  intro s ref
  refine ⟨?cfg, ?cfgRange, ?enable, ?disable, ?quiesce, ?tariff, ?tariffBad, ?forecast, ?forecastBad, ?query, ?busy, ?noPlan⟩
  case cfg => exact fun c hr hok => completes_at (a := orderDone 0) rfl hr fun _ => if_pos hok
  case cfgRange => exact fun c hr hok => completes_at (a := orderDone 3) rfl hr fun _ => if_neg (ne_true_of_eq_false hok)
  case enable =>
    intro hr hen
    refine completes_at (a := stateReport 0 [u8 (enCode .enabled)]) rfl hr fun h => ?_
    simp [State.optCtl, enRequest_enable, hen, stDone]
  case disable =>
    intro hr hen hday hpressure
    refine completes_raising (a := stateReport 0 [u8 (enCode .disabled)]) (src := 0x47) (ps := [u16 0]) rfl hr fun h => ?_
    simp [State.optCtl, hen, hday, hpressure, stDone]
  case quiesce =>
    intro hr hen hruns
    have hbusy : (s.opt.day.run.isSome || s.opt.pressure.run.isSome) = true := by
      simpa [Option.isSome_iff_ne_none] using hruns
    refine completes_at (a := stateReport 0 [u8 (enCode .quiescing)]) rfl hr fun h => ?_
    simp [State.optCtl, hen, hbusy, stDone]
  case tariff =>
    intro b n hr hst hfits
    refine completes_at (a := ownReport 0 [u8 0]) rfl hr fun h => ?_
    exact (if_neg (not_not.mpr hst)).trans (if_neg (by simp only [Bool.not_eq_true']; exact ne_false_of_eq_true hfits))
  case tariffBad => exact fun b n hr hst => completes_at (a := ownReport _ [u8 (tariffStatus b n)]) rfl hr fun _ => if_pos hst
  case forecast => exact fun b n hr hst => completes_at (a := ownReport 0 [u8 0]) rfl hr fun _ => if_neg (not_not.mpr hst)
  case forecastBad => exact fun b n hr hst => completes_at (a := ownReport _ [u8 (profileStatus b n)]) rfl hr fun _ => if_pos hst
  case query =>
    intro a k p hr hp hq
    exact ⟨completes_delivering (a := ownReport 0 _) rfl hr (planQuery_runs ref a k hp hq),
      fun hx => delivers rfl hr fun h => ⟨_, planQuery_runs ref a k hp hq h, hx⟩⟩
  case busy =>
    intro a k p hr hp hq
    refine completes_at (a := ownReport 2 [u8 2, u8 0, u8 0, u8 0, u32 0]) rfl hr fun h => ?_
    simp [State.planQuery, State.layer, hp, hq]
  case noPlan =>
    intro a k hr hp
    refine completes_at (a := ownReport 1 [u8 1, u8 0, u8 0, u8 0, u32 0]) rfl hr fun h => ?_
    simp [State.planQuery, State.layer, hp]

/-! ### The sequencer's orders -/

/-- Settles O19: each order of the sequencer by the branch that its operands, the enable and the rollouts select. -/
theorem rolloutOrdersComplete : Obligations.RolloutOrdersComplete := by
  unfold Obligations.RolloutOrdersComplete
  intro s ref
  refine ⟨?cfg, ?cfgRange, ?dest, ?hold, ?letGo, ?enable, ?quiescing, ?disable⟩
  case cfg => exact fun c hr hok => completes_at (a := orderDone 0) rfl hr fun _ => if_pos hok
  case cfgRange => exact fun c hr hok => completes_at (a := orderDone 3) rfl hr fun _ => if_neg (ne_true_of_eq_false hok)
  case dest =>
    intro d hr hkind hindex hanchor hres hout htemp hrun
    have hok : ∀ x : Nat, ∀ h : HostIf, ({ s with host := h } : State).destOk x = s.destOk x := fun _ _ => rfl
    refine completes_at (a := orderDone 0) rfl hr fun h => ?_
    simp [State.rollDest, hok, hkind, hindex, hanchor, hres, hout, htemp, hrun, stDone]
  case hold =>
    intro z hr hz hfree hroll
    have hfind : s.roll.rolls.find? (fun x => x.unit == RollUnit.zone z) = none := hroll
    refine completes_at (a := orderDone 0) rfl hr fun h => ?_
    simp [State.rollHold, State.unitRoll, Nat.not_le.mpr hz, hfree, hfind, stDone]
  case letGo =>
    intro z hr hz
    refine completes_at (a := orderDone 0) rfl hr fun h => ?_
    simp [State.rollHold, Nat.not_le.mpr hz, stDone]
  case enable =>
    intro hr hen
    refine completes_at (a := stateReport 0 [u8 (enCode .enabled)]) rfl hr fun h => ?_
    simp [State.rollCtl, hen, stDone]
  case quiescing =>
    intro hr hen
    refine completes_at (a := stateReport 6 [u8 (enCode .quiescing)]) rfl hr fun h => ?_
    simp [State.rollCtl, hen, stQuiescing]
  case disable =>
    intro hr hen hrolls
    refine completes_raising (a := stateReport 0 [u8 (enCode .disabled)]) (src := 0x4F) (ps := [u16 0]) rfl hr fun h => ?_
    simp [State.rollCtl, State.retireRolls, State.settleRoll, hen, hrolls, stDone]

end Sys2Proof.Machine

/-! PROOF. Faults isolate their parts (R20, R24, R70–R72, R77, R78): what re-placing roles changes, what the loss of a part changes
beside it, and that no part which has failed works again. -/

namespace Sys2Proof.Machine

open Sys2Proof

/-! ### What losses leave alone -/

theorem OnlyPlaces.trans {s t u : State} (h : OnlyPlaces s t) (k : OnlyPlaces t u) : OnlyPlaces s u := by
  refine Eq.trans k ?_
  rw [h]

theorem OnlyReports.onlyPlaces {s t : State} (h : OnlyReports s t) : OnlyPlaces s t := by
  unfold OnlyPlaces
  rw [h.1]
  rfl

/-- A report may count a void at crossing 0x01, and changes nothing else of the fabric. -/
theorem OnlyReports.fab_crossings {s t : State} (h : OnlyReports s t) : t.fab = { s.fab with crossings := t.fab.crossings } := by
  rw [h.1]
  rfl

/-- `t` is `s` with roles re-placed: of the fabric only crossings count, and every output stays. -/
structure RolesMove (s t : State) : Prop where
  places : OnlyPlaces s t
  fab : t.fab = { s.fab with crossings := t.fab.crossings }
  out : OutGrows s t

theorem RolesMove.refl (s : State) : RolesMove s s := ⟨rfl, rfl, .refl s⟩

theorem RolesMove.trans {s t u : State} (h : RolesMove s t) (k : RolesMove t u) : RolesMove s u :=
  ⟨h.places.trans k.places, k.fab.trans (by rw [h.fab]), h.out.trans k.out⟩

theorem RolesMove.of_reports {s t : State} (h : OnlyReports s t) (k : OutGrows s t) : RolesMove s t :=
  ⟨h.onlyPlaces, h.fab_crossings, k⟩

theorem RolesMove.foldl {α : Type} {f : State → α → State} (h : ∀ s a, RolesMove s (f s a)) (l : List α) (s : State) :
    RolesMove s (l.foldl f s) := by
  induction l generalizing s with
  | nil => exact .refl s
  | cons a l ih => exact (h s a).trans (ih _)

/-! ### Reports and events -/

theorem raiseTimed_grows (s : State) (src key : Nat) (pre : List Fld) : OutGrows s (s.raiseTimed src key pre) := by
  unfold State.raiseTimed State.raiseTimed2
  split
  · exact same_grows rfl
  · rw [if_neg (lt_irrefl 1)]
    exact (same_grows (t := s.startTimer src key pre false) rfl).trans (raise_grows _ _ _)

theorem report_grows (s : State) (cls kind : Nat) (body : List Fld) : OutGrows s (s.report cls kind body) :=
  (tryReport_grows s cls kind body).trans (noteDrop_grows 3 _ _)

theorem raise_moves (s : State) (src : Nat) (ps : List Fld) : RolesMove s (s.raise src ps) :=
  .of_reports (raise_only s src ps) (raise_grows s src ps)

theorem raiseTimed_moves (s : State) (src key : Nat) (pre : List Fld) : RolesMove s (s.raiseTimed src key pre) :=
  .of_reports (raiseTimed_only s src key pre) (raiseTimed_grows s src key pre)

theorem report_moves (s : State) (cls kind : Nat) (body : List Fld) : RolesMove s (s.report cls kind body) :=
  .of_reports (report_only s cls kind body) (report_grows s cls kind body)

theorem emit_moves (s : State) (o : Output) : RolesMove s (s.emit o) := .of_reports (emit_only s o) (emit_grows s o)

theorem ackAll_moves (s : State) (a : Ack) (ts : List Token) : RolesMove s (s.ackAll a ts) := ⟨rfl, rfl, _, rfl⟩

theorem judgeFit_moves (s : State) : RolesMove s s.judgeFit := by
  unfold State.judgeFit
  split
  · exact .refl s
  · exact RolesMove.trans (t := s.fitNow) ⟨rfl, rfl, same_grows rfl⟩ (raise_moves _ _ _)

/-! ### The optimiser without beads -/

theorem settleOpt_moves (s : State) : RolesMove s s.settleOpt := by
  unfold State.settleOpt
  split
  · exact RolesMove.trans (t := { s with opt := { s.opt with en := .disabled } }) ⟨rfl, rfl, same_grows rfl⟩ (raise_moves _ _ _)
  · exact .refl s

theorem setLayer_moves (s : State) (y : Layer) (x : LayerSt) : RolesMove s (s.setLayer y x) := ⟨rfl, rfl, same_grows rfl⟩

theorem layerDrop_moves (s : State) (y : Layer) : RolesMove s (s.layerDrop y) := by
  unfold State.layerDrop
  dsimp only
  split <;> exact ⟨rfl, rfl, same_grows rfl⟩

theorem postPlan_moves (s : State) (c : OptCfg) (y : Layer) (p : Plan) (reason : Nat) : RolesMove s (s.postPlan c y p reason) := by
  unfold State.postPlan
  dsimp only
  split
  · exact (setLayer_moves s y _).trans (report_moves _ _ _ _)
  · exact .refl s

theorem layerShed_moves (s : State) (y : Layer) : RolesMove s (s.layerShed y) := by
  unfold State.layerShed
  extract_lets x p c t src u
  have h : RolesMove s u := (layerDrop_moves s y).trans (setLayer_moves _ _ _)
  clear_value u
  split
  · exact h
  · exact h.trans (postPlan_moves _ _ _ _ _)

theorem optShed_moves (s : State) : RolesMove s s.optShed :=
  ((layerShed_moves s .day).trans (layerShed_moves _ .pressure)).trans (settleOpt_moves _)

/-! ### Roles that retire, and the shed order -/

theorem modRole_moves (s : State) (id : Half) (f : Role → Role) : RolesMove s (s.modRole id f) := ⟨rfl, rfl, same_grows rfl⟩

theorem dropRetired_moves (s : State) (t : Token) : RolesMove s (s.dropRetired t) := by
  unfold State.dropRetired
  extract_lets n src u
  have h : RolesMove s u := ⟨rfl, rfl, same_grows rfl⟩
  exact (h.trans (emit_moves _ _)).trans (raiseTimed_moves _ _ _ _)

theorem retireNow_moves (s : State) (id : Half) : RolesMove s (s.retireNow id) := by
  unfold State.retireNow
  split
  · exact (modRole_moves s id _).trans (.foldl dropRetired_moves _ _)
  · exact .refl s

theorem retire_moves (s : State) (id : Half) : RolesMove s (s.retire id) := by
  unfold State.retire
  split
  · split
    · exact modRole_moves s id _
    · exact retireNow_moves s id
  · exact .refl s

theorem settleRetire_moves (s : State) : RolesMove s s.settleRetire :=
  .foldl (f := fun s (r : Role) => s.retireNow r.id) (fun s r => retireNow_moves s r.id) _ s

theorem settleShifter_moves (s : State) : RolesMove s s.settleShifter := by
  unfold State.settleShifter
  split
  · exact RolesMove.trans (t := { s with place := { s.place with shiftEn := .disabled } }) ⟨rfl, rfl, same_grows rfl⟩ (raise_moves _ _ _)
  · exact .refl s

theorem shedRoles_moves (n k : Nat) (s : State) : RolesMove s (s.shedRoles n k).1 := by
  induction n generalizing s with
  | zero => exact .refl s
  | succ n ih =>
    unfold State.shedRoles
    split
    · exact .refl s
    · split
      · exact (retire_moves s _).trans (ih _)
      · exact .refl s

theorem changeCount_moves (s : State) (k n : Nat) : RolesMove s (s.changeCount k n) := by
  have h : RolesMove s (s.setCount k n) := ⟨rfl, rfl, same_grows rfl⟩
  unfold State.changeCount
  dsimp only
  split
  · exact h.trans (raise_moves _ _ _)
  · exact h

theorem shedStep_moves (s : State) (k floor : Nat) : RolesMove s (s.shedStep k floor) := by
  unfold State.shedStep
  dsimp only
  split
  · exact .refl s
  · exact ((shedRoles_moves _ k s).trans (changeCount_moves _ _ _)).trans (raise_moves _ _ _)

theorem shed_moves (s : State) : RolesMove s s.shed := by
  have h : RolesMove s ((((s.shedStep 3 16).shedStep 2 64).shedStep 1 48).shedStep 3 0) :=
    (((shedStep_moves s 3 16).trans (shedStep_moves _ 2 64)).trans (shedStep_moves _ 1 48)).trans (shedStep_moves _ 3 0)
  unfold State.shed
  dsimp only
  split
  · exact h.trans (optShed_moves _)
  · exact h

theorem startHandover_moves (s : State) : RolesMove s s.startHandover := by
  unfold State.startHandover
  split
  · exact ⟨rfl, rfl, same_grows rfl⟩
  · exact .refl s

theorem judgeUnfit_moves (s : State) : RolesMove s s.judgeUnfit := by
  unfold State.judgeUnfit
  split
  · exact (RolesMove.trans (t := { s with place := { s.place with unfit := true } }) ⟨rfl, rfl, same_grows rfl⟩
      (raise_moves _ _ _)).trans (startHandover_moves _)
  · exact .refl s

theorem noteReserve_moves (s : State) (before : Nat) : RolesMove s (s.noteReserve before) := by
  unfold State.noteReserve
  split
  · exact raise_moves _ _ _
  · exact .refl s

/-- The loss of beads re-places their roles (R97, R100), sheds (R86) and judges fitness, and isolates nothing. -/
theorem loseBeads_moves (s : State) (dead lostDecks : List Nat) : RolesMove s (s.loseBeads dead lostDecks) := by
  unfold State.loseBeads
  extract_lets before ls gone src u v w x
  have hu : RolesMove s u := ⟨rfl, rfl, same_grows rfl⟩
  have hx : RolesMove s w :=
    (((hu.trans (ackAll_moves _ _ _)).trans (ackAll_moves _ _ _)).trans (.foldl (fun s l => raise_moves s _ _) gone v))
  exact (((((hx.trans (settleRetire_moves _)).trans (shed_moves _)).trans (judgeUnfit_moves _)).trans
    (noteReserve_moves _ before)).trans (settleShifter_moves _)).trans (judgeFit_moves _)

/-! ### Parts that fail -/

/-- `t` is `s` with parts lost: no part works again, and every output stays. -/
structure PartsFail (s t : State) : Prop where
  places : OnlyPlaces s t
  beads : s.fab.beadFail ⊆ t.fab.beadFail
  rods : s.fab.rodFail ⊆ t.fab.rodFail
  decks : s.fab.deckFail ⊆ t.fab.deckFail
  frames : s.fab.frameLost ⊆ t.fab.frameLost
  scan : t.fab.scan = s.fab.scan
  out : OutGrows s t

theorem RolesMove.fails {s t : State} (h : RolesMove s t) : PartsFail s t := by
  refine ⟨h.places, ?_, ?_, ?_, ?_, ?_, h.out⟩ <;> rw [h.fab]
  all_goals exact List.Subset.refl _

theorem PartsFail.refl (s : State) : PartsFail s s := (RolesMove.refl s).fails

theorem PartsFail.trans {s t u : State} (h : PartsFail s t) (k : PartsFail t u) : PartsFail s u :=
  ⟨h.places.trans k.places, List.Subset.trans h.beads k.beads, List.Subset.trans h.rods k.rods, List.Subset.trans h.decks k.decks,
    List.Subset.trans h.frames k.frames, k.scan.trans h.scan, h.out.trans k.out⟩

theorem PartsFail.foldl {α : Type} {f : State → α → State} (h : ∀ s a, PartsFail s (f s a)) (l : List α) (s : State) :
    PartsFail s (l.foldl f s) := by
  induction l generalizing s with
  | nil => exact .refl s
  | cons a l ih => exact (h s a).trans (ih _)

theorem beadWorks_iff (s : State) (b : Nat) : s.beadWorks b = true ↔
    b < 512 ∧ b ∉ s.fab.beadFail ∧ b / 8 ∉ s.fab.rodFail ∧ b / 64 ∉ s.fab.deckFail ∧ b / 256 ∉ s.fab.frameLost := by
  simp [State.beadWorks, and_assoc]

theorem beadWorks_false_of_bead {s : State} {b : Nat} (h : b ∈ s.fab.beadFail) : s.beadWorks b = false := by
  rw [← Bool.not_eq_true, beadWorks_iff]
  tauto

theorem beadWorks_false_of_frame {s : State} {b : Nat} (h : b / 256 ∈ s.fab.frameLost) : s.beadWorks b = false := by
  rw [← Bool.not_eq_true, beadWorks_iff]
  tauto

/-- No part that had failed works again. -/
theorem PartsFail.works {s t : State} (h : PartsFail s t) {b : Nat} (k : t.beadWorks b = true) : s.beadWorks b = true := by
  rw [beadWorks_iff] at k ⊢
  obtain ⟨hlt, hbead, hrod, hdeck, hframe⟩ := k
  exact ⟨hlt, fun x => hbead (h.beads x), fun x => hrod (h.rods x), fun x => hdeck (h.decks x), fun x => hframe (h.frames x)⟩

theorem subset_addAll_left (l m : List Nat) : l ⊆ addAll l m := List.subset_append_left _ _

theorem subset_addAll_right (l m : List Nat) : m ⊆ addAll l m := by
  intro n hn
  by_cases hl : n ∈ l <;> simp [addAll, hl, hn]

theorem modDeck_fails (s : State) (d : Nat) (f : Deck → Deck) : PartsFail s (s.modDeck d f) :=
  ⟨rfl, List.Subset.refl _, List.Subset.refl _, List.Subset.refl _, List.Subset.refl _, rfl, same_grows rfl⟩

theorem stir_fails (s : State) (d : Nat) : PartsFail s (s.stir d) := modDeck_fails s d _

theorem voidHeld_fails (s : State) (p : Part) : PartsFail s (s.voidHeld p) := by
  cases p
  case deck d => exact RolesMove.fails ⟨rfl, rfl, _, rfl⟩
  all_goals exact .refl s

theorem markFailed_fails (s : State) (p : Part) : PartsFail s (s.markFailed p) := by
  have h : ∀ ds, s.fab.deckFail ⊆ ds → PartsFail s { s with fab := { s.fab with
      beadFail := addAll s.fab.beadFail (partBeads p), rodFail := addAll s.fab.rodFail (partRods p), deckFail := ds } } :=
    fun ds hds => ⟨rfl, subset_addAll_left _ _, subset_addAll_left _ _, hds, List.Subset.refl _, rfl, same_grows rfl⟩
  cases p
  case deck d => exact (h _ (subset_addAll_left _ _)).trans (modDeck_fails _ _ _)
  all_goals exact h _ (List.Subset.refl _)

/-- A part and everything in it is marked (R71). -/
theorem markFailed_marks (s : State) (p : Part) :
    partBeads p ⊆ (s.markFailed p).fab.beadFail ∧ partRods p ⊆ (s.markFailed p).fab.rodFail
      ∧ ∀ d, p = .deck d → d ∈ (s.markFailed p).fab.deckFail := by
  refine ⟨?_, ?_, ?_⟩
  · cases p <;> exact subset_addAll_right _ _
  · cases p <;> exact subset_addAll_right _ _
  · rintro d rfl
    exact subset_addAll_right _ _ (List.mem_singleton_self d)

/-- The loss of a frame that is still there re-places its roles. -/
theorem loseFrame_moves {s : State} {fr : Nat} (h : fr ∉ s.fab.frameLost) (cause : Nat) :
    RolesMove { s with fab := { s.fab with frameLost := s.fab.frameLost ++ [fr] } } (s.loseFrame fr cause) := by
  unfold State.loseFrame
  rw [if_neg (by simpa using h)]
  exact ((raise_moves _ _ _).trans (loseBeads_moves _ _ _)).trans (startHandover_moves _)

theorem loseFrame_again {s : State} {fr : Nat} (h : fr ∈ s.fab.frameLost) (cause : Nat) : s.loseFrame fr cause = s :=
  if_pos (by simpa using h)

theorem loseFrame_fails (s : State) (fr cause : Nat) : PartsFail s (s.loseFrame fr cause) := by
  by_cases h : fr ∈ s.fab.frameLost
  · rw [loseFrame_again h]
    exact .refl s
  · refine PartsFail.trans ?_ (loseFrame_moves h cause).fails
    exact ⟨rfl, List.Subset.refl _, List.Subset.refl _, List.Subset.refl _, List.subset_append_left _ _, rfl, same_grows rfl⟩

/-- What a frame's loss changes of the fabric: the frame is lost. -/
theorem loseFrame_fab (s : State) (fr cause : Nat) :
    (s.loseFrame fr cause).fab = { s.fab with
      crossings := (s.loseFrame fr cause).fab.crossings, frameLost := (s.loseFrame fr cause).fab.frameLost }
      ∧ fr ∈ (s.loseFrame fr cause).fab.frameLost := by
  by_cases h : fr ∈ s.fab.frameLost
  · rw [loseFrame_again h]
    exact ⟨rfl, h⟩
  · rw [(loseFrame_moves h cause).fab]
    exact ⟨rfl, List.mem_append_right _ (List.mem_singleton_self fr)⟩

theorem isolate_after_mark (s : State) (p : Part) : PartsFail ((s.voidHeld p).markFailed p) (s.isolate p) := by
  unfold State.isolate
  extract_lets u lost v
  have h : PartsFail u v := (loseBeads_moves _ _ _).fails
  clear_value v
  cases p
  case deck d =>
    dsimp only
    split
    · exact h.trans (loseFrame_fails _ _ _)
    · exact h
  all_goals exact h

theorem isolate_fails (s : State) (p : Part) : PartsFail s (s.isolate p) :=
  ((voidHeld_fails s p).trans (markFailed_fails _ p)).trans (isolate_after_mark s p)

theorem faultEvent_moves (s : State) (p : Part) (check : Nat) : RolesMove s (s.faultEvent p check) := by
  cases p <;> exact raise_moves _ _ _

theorem partFault_fails (s : State) (p : Part) (check : Nat) : PartsFail s (s.partFault p check) := by
  unfold State.partFault
  split
  · exact .refl s
  · exact (faultEvent_moves s p check).fails.trans (isolate_fails _ p)

theorem partFault_of_up {s : State} {p : Part} (h : s.partDown p = false) (check : Nat) :
    s.partFault p check = (s.faultEvent p check).isolate p := by
  unfold State.partFault
  exact if_neg (by simp [h])

/-- A part that reports a fault is marked, with everything in it. -/
theorem partFault_marks {s : State} {p : Part} (h : s.partDown p = false) (check : Nat) :
    partBeads p ⊆ (s.partFault p check).fab.beadFail ∧ partRods p ⊆ (s.partFault p check).fab.rodFail
      ∧ ∀ d, p = .deck d → d ∈ (s.partFault p check).fab.deckFail := by
  rw [partFault_of_up h]
  obtain ⟨hbeads, hrods, hdeck⟩ := markFailed_marks ((s.faultEvent p check).voidHeld p) p
  have k := isolate_after_mark (s.faultEvent p check) p
  exact ⟨List.Subset.trans hbeads k.beads, List.Subset.trans hrods k.rods, fun d hd => k.decks (hdeck d hd)⟩

/-- A bead that reports a fault no longer works, whether it had failed before or not. -/
theorem partFault_bead_down (s : State) (n check : Nat) : (s.partFault (.bead n) check).beadWorks n = false := by
  cases h : s.partDown (.bead n) with
  | true =>
    unfold State.partFault
    rw [if_pos h]
    simpa [State.partDown] using h
  | false => exact beadWorks_false_of_bead ((partFault_marks h check).1 (List.mem_singleton_self n))

/-- What was held at a deck's boundary is completed void when the deck is isolated. -/
theorem isolate_voids {s : State} {d : Nat} {a : Arrival} (h : a ∈ (s.deck d).held) : Arrival.void a ∈ (s.isolate (.deck d)).out := by
  refine ((markFailed_fails _ _).trans (isolate_after_mark s (.deck d))).out.mem ?_
  exact List.mem_append_right _ (List.mem_map_of_mem h)

/-! ### Tokens and accesses that reach a part -/

theorem waitToken_moves (s : State) (id : Half) (t : Token) : RolesMove s (s.waitToken id t) := by
  unfold State.waitToken
  split
  · split
    · exact modRole_moves s id _
    · exact (modRole_moves s id _).trans (emit_moves _ _)
  · exact dropRetired_moves s t

theorem tokenMoving_moves (s : State) (r : Role) (m : Move) (t : Token) (bead : Nat) (forwarded : Bool) :
    RolesMove s (s.tokenMoving r m t bead forwarded) := by
  have put : ∀ f, RolesMove s (s.modRole r.id f) := modRole_moves s r.id
  have void : RolesMove s (s.emit (.ack t .void)) := emit_moves s _
  unfold State.tokenMoving
  dsimp only
  split
  · split
    · exact put _
    · exact void
  · split
    · split
      · exact (put _).trans (emit_moves _ _)
      · exact void
    · split
      · exact (put _).trans (emit_moves _ _)
      · split
        · exact put _
        · exact void

theorem tokenAt_moves (s : State) (r : Role) (t : Token) (bead : Nat) (forwarded : Bool) : RolesMove s (s.tokenAt r t bead forwarded) := by
  unfold State.tokenAt
  split
  · exact tokenMoving_moves _ _ _ _ _ _
  · exact emit_moves _ _

theorem tokenWaits_moves (s : State) (r : Role) (t : Token) (forwarded : Bool) : RolesMove s (s.tokenWaits r t forwarded) := by
  unfold State.tokenWaits
  split
  · split
    · exact (modRole_moves s r.id _).trans (waitToken_moves _ _ _)
    · exact waitToken_moves _ _ _
  · exact waitToken_moves _ _ _

theorem holdAtDeck_fails (s : State) (d : Nat) (a : Arrival) : PartsFail s (s.holdAtDeck d a) := modDeck_fails s d _

theorem tokenComes_fails (s : State) (t : Token) (bead : Nat) (forwarded : Bool) : PartsFail s (s.tokenComes t bead forwarded) := by
  unfold State.tokenComes
  split
  · exact (dropRetired_moves s t).fails
  · split
    · exact (dropRetired_moves s t).fails
    · split
      · exact (tokenWaits_moves _ _ _ _).fails
      · split
        · exact holdAtDeck_fails _ _ _
        · refine (stir_fails s (deckOf bead)).trans ?_
          dsimp only
          split
          · exact (tokenAt_moves _ _ _ _ _).fails
          · exact (emit_moves _ _).fails

theorem poisonReader_moves (s : State) (id : Half) : RolesMove s (s.poisonReader id) := by
  unfold State.poisonReader
  dsimp only
  split
  · split
    · exact modRole_moves s id _
    · refine RolesMove.trans ?_ ((settleRetire_moves _).trans (settleShifter_moves _))
      refine RolesMove.trans ?_ (.foldl (fun s t => waitToken_moves s id t) _ _)
      have h : RolesMove s { s with place := { s.place with abandoned := s.place.abandoned + 1 } } := ⟨rfl, rfl, same_grows rfl⟩
      exact (h.trans (modRole_moves _ id _)).trans (raise_moves _ _ _)
    · exact .refl s
  · exact .refl s

theorem eccSingle_fails (s : State) (m : MemKind) (idx addr : Nat) : PartsFail s (s.eccSingle m idx addr) := by
  refine PartsFail.trans (t := { s with fab := { s.fab with eccCe := satInc s.fab.eccCe } }) ?_ (raise_moves _ _ _).fails
  exact ⟨rfl, List.Subset.refl _, List.Subset.refl _, List.Subset.refl _, List.Subset.refl _, rfl, same_grows rfl⟩

theorem poisonCkpt_moves (s : State) (m : MemKind) (idx : Nat) (ckptOf : Option Half) : RolesMove s (s.poisonCkpt m idx ckptOf) := by
  unfold State.poisonCkpt
  split
  · exact modRole_moves s _ _
  · exact .refl s

/-- A part's memory keeps its part: what a line of it holds is no fault of the part. -/
theorem poisonLine_fails (s : State) (m : MemKind) (idx line : Nat) (ckptOf : Option Half) :
    PartsFail s (({ s with fab := { s.fab with poisoned := addLine s.fab.poisoned (m, idx, line) } } : State).poisonCkpt m idx ckptOf) := by
  refine PartsFail.trans ?_ (poisonCkpt_moves _ _ _ _).fails
  exact ⟨rfl, List.Subset.refl _, List.Subset.refl _, List.Subset.refl _, List.Subset.refl _, rfl, same_grows rfl⟩

theorem eccDouble_fails (s : State) (m : MemKind) (idx addr : Nat) (ckptOf : Option Half) :
    PartsFail s (s.eccDouble m idx addr ckptOf) := by
  unfold State.eccDouble
  extract_lets src u
  have hu : PartsFail s u := by
    refine PartsFail.trans (t := { s with fab := { s.fab with eccUe := satInc s.fab.eccUe } }) ?_ (raise_moves _ _ _).fails
    exact ⟨rfl, List.Subset.refl _, List.Subset.refl _, List.Subset.refl _, List.Subset.refl _, rfl, same_grows rfl⟩
  clear_value u
  refine hu.trans ?_
  split
  · exact partFault_fails u _ _
  · exact partFault_fails u _ _
  · exact poisonLine_fails u m idx (addr / 64) ckptOf

theorem lineWritten_fails (s : State) (m : MemKind) (idx addr : Nat) (ckptOf : Option Half) :
    PartsFail s (s.lineWritten m idx addr ckptOf) := by
  have h : ∀ ls, PartsFail s { s with fab := { s.fab with poisoned := ls } } := fun _ =>
    ⟨rfl, List.Subset.refl _, List.Subset.refl _, List.Subset.refl _, List.Subset.refl _, rfl, same_grows rfl⟩
  unfold State.lineWritten
  dsimp only
  split
  · exact (h _).trans (modRole_moves _ _ _).fails
  · exact h _

theorem lineRead_fails (s : State) (a : MemReq) : PartsFail s (s.lineRead a) := by
  unfold State.lineRead
  extract_lets t
  have h : PartsFail s t := by
    unfold t
    split
    · exact eccSingle_fails _ _ _ _
    · exact eccDouble_fails _ _ _ _ _
    · exact .refl s
  clear_value t
  refine h.trans ?_
  split
  · split
    · exact ((emit_moves t _).trans (poisonReader_moves _ _)).fails
    · exact (emit_moves t _).fails
  · exact (emit_moves t _).fails

theorem memoryAccess_fails (s : State) (a : MemReq) : PartsFail s (s.memoryAccess a) := by
  unfold State.memoryAccess
  split
  · exact (emit_moves s _).fails
  split
  · exact holdAtDeck_fails _ _ _
  split
  · refine PartsFail.trans ?_ (emit_moves _ _).fails
    exact ⟨rfl, List.Subset.refl _, List.Subset.refl _, List.Subset.refl _, List.Subset.refl _, rfl, same_grows rfl⟩
  extract_lets t
  have h : PartsFail s t := by
    unfold t
    split
    · exact stir_fails _ _
    · exact .refl s
  clear_value t
  refine h.trans ?_
  split
  · exact (lineWritten_fails _ _ _ _ _).trans (emit_moves _ _).fails
  · exact lineRead_fails _ _

theorem arrives_fails (s : State) (a : Arrival) : PartsFail s (s.arrives a) := by
  cases a
  case token t bead forwarded => exact tokenComes_fails s t bead forwarded
  case access a => exact memoryAccess_fails s a

theorem retentionExit_fails (s : State) (d : Nat) (restored : Bool) (rail : Nat) : PartsFail s (s.retentionExit d restored rail) := by
  unfold State.retentionExit
  dsimp only
  split
  · exact .refl s
  · split
    · exact (modDeck_fails s d _).trans (.foldl arrives_fails _ _)
    · exact (raise_moves _ _ _).fails

/-! ### The bead scan (R72, R77) -/

theorem wakeNow_fails (s : State) (d : Nat) : PartsFail s (s.wakeNow d) := by
  unfold State.wakeNow
  split
  · exact (modDeck_fails s d _).trans (retentionExit_fails _ _ _ _)
  · exact .refl s

theorem tellLow_moves (s : State) (k : Nat) :
    RolesMove s (if s.kindCount k < defaultCounts.getD (k - 1) 0 then s.tellBounds k (s.kindCount k) else s) := by
  split
  · exact raise_moves _ _ _
  · exact .refl s

theorem place0_fails (s : State) (ps : List Placed) : PartsFail s (s.place0 ps) := by
  unfold State.place0
  extract_lets decks u src v
  have hu : PartsFail s u :=
    .foldl (f := fun s (d : Nat) => (s.wakeNow d).stir d) (fun s d => (wakeNow_fails s d).trans (stir_fails _ d)) decks s
  clear_value u
  have hv : RolesMove u v := ⟨rfl, rfl, same_grows rfl⟩
  exact (hu.trans hv.fails).trans (RolesMove.foldl tellLow_moves _ v).fails

theorem tellLow_place (s : State) (k : Nat) :
    (if s.kindCount k < defaultCounts.getD (k - 1) 0 then s.tellBounds k (s.kindCount k) else s).place = s.place := by
  split
  · exact State.raise_place _ _ _
  · rfl

/-- The roles take the beads and checkpoint decks that the placement names. -/
theorem place0_roles (s : State) (ps : List Placed) :
    (s.place0 ps).place.roles = ps.map (fun p => ⟨p.role, p.bead, 0, .running, some p.ckptDeck, none, 0, 0, [], [], false⟩) := by
  unfold State.place0
  extract_lets decks u src v
  simp only [List.foldl_cons, List.foldl_nil, tellLow_place]
  rfl

theorem judgeFit_place (s : State) : s.judgeFit.place = s.place := (judgeFit_only s).place.trans (State.fitNow_place s)

theorem startHandover_place (s : State) : s.startHandover.place = s.place := by
  unfold State.startHandover
  split <;> rfl

theorem judgeUnfit_roles (s : State) : s.judgeUnfit.place.roles = s.place.roles := by
  unfold State.judgeUnfit
  split
  · rw [startHandover_place, State.raise_place]
  · rfl

/-- Losing frames leaves the failed beads, rods and decks as the scan found them. -/
theorem loseFrames_parts (fs : List Nat) (cause : Nat → Nat) (s : State) :
    let t := fs.foldl (fun s f => s.loseFrame f (cause f)) s
    t.fab.beadFail = s.fab.beadFail ∧ t.fab.rodFail = s.fab.rodFail ∧ t.fab.deckFail = s.fab.deckFail := by
  induction fs generalizing s with
  | nil => exact ⟨rfl, rfl, rfl⟩
  | cons f fs ih =>
    obtain ⟨hbead, hrod, hdeck⟩ := ih (s.loseFrame f (cause f))
    have h := (loseFrame_fab s f (cause f)).1
    exact ⟨hbead.trans (by rw [h]), hrod.trans (by rw [h]), hdeck.trans (by rw [h])⟩

/-- What the scan finds: no part works again, and FAB_SCAN holds the counts (R77). -/
theorem scanned_counts (s : State) (parts : List Part) (lf : List Nat) :
    OnlyPlaces s (s.scanned parts lf) ∧ (∀ b, (s.scanned parts lf).beadWorks b = true → s.beadWorks b = true)
      ∧ (s.scanned parts lf).fab.scan = scanWord (s.scanned parts lf).fab.beadFail.length
          (s.scanned parts lf).fab.rodFail.length (s.scanned parts lf).fab.deckFail.length := by
  unfold State.scanned
  extract_lets u w src v gone
  have hu : PartsFail s u := .foldl (fun s p => (voidHeld_fails s p).trans (markFailed_fails _ p)) parts s
  have hv : RolesMove { u with fab := { u.fab with scan := w } } v := raise_moves _ _ _
  have hnote : OnlyPlaces u { u with fab := { u.fab with scan := w } } := rfl
  have hw : w = scanWord u.fab.beadFail.length u.fab.rodFail.length u.fab.deckFail.length := rfl
  clear_value w v u gone
  have ht := PartsFail.foldl (f := fun s f => s.loseFrame f (if lf.contains f then 1 else 3)) (fun s f => loseFrame_fails s f _) gone v
  obtain ⟨hbead, hrod, hdeck⟩ := loseFrames_parts gone (fun f => if lf.contains f then 1 else 3) v
  refine ⟨?_, fun b hb => hu.works (hv.fails.works (ht.works hb)), ?_⟩
  · exact hu.places.trans (hnote.trans (hv.places.trans ht.places))
  · rw [ht.scan, hbead, hrod, hdeck, hv.fab]
    exact hw

/-! ### The obligation -/

theorem dropToken_fails (s : State) (t : Token) : PartsFail s (s.dropToken t) :=
  ⟨rfl, List.Subset.refl _, List.Subset.refl _, List.Subset.refl _, List.Subset.refl _, rfl, same_grows rfl⟩

theorem mem_partBeads_rod {n i : Nat} (hi : i < 8) : n * 8 + i ∈ partBeads (.rod n) :=
  List.mem_map.mpr ⟨i, List.mem_range.mpr hi, rfl⟩

theorem mem_partBeads_deck {n i : Nat} (hi : i < 64) : n * 64 + i ∈ partBeads (.deck n) :=
  List.mem_map.mpr ⟨i, List.mem_range.mpr hi, rfl⟩

/-- Settles O8: a part that fails is marked with everything in it, and what follows marks parts and re-places roles. -/
theorem faultsIsolateTheirParts : Obligations.FaultsIsolateTheirParts := by
  unfold Obligations.FaultsIsolateTheirParts
  intro s n check
  refine ⟨?bead, ?rod, ?deck, ?stall, ?frame, ?scan⟩
  case bead =>
    intro hn
    have h := partFault_fails s (.bead n) check
    obtain ⟨hbeads, -, -⟩ := partFault_marks (s := s) (p := .bead n) (by simp [State.partDown, hn]) check
    exact ⟨_, rfl, partFault_bead_down s n check, hbeads (List.mem_singleton_self n), fun b => h.works, h.places⟩
  case rod =>
    intro hlt hrod hdeck
    have h := partFault_fails s (.rod n) check
    obtain ⟨hbeads, hrods, -⟩ := partFault_marks (s := s) (p := .rod n) (by simp [State.partDown, hrod, hdeck]) check
    refine ⟨_, congrArg Host.Outcome.next (if_pos hlt), hrods (List.mem_singleton_self n), fun i hi => ?_, fun b => h.works, h.places⟩
    exact beadWorks_false_of_bead (hbeads (mem_partBeads_rod hi))
  case deck =>
    intro hlt hdeck
    have h := partFault_fails s (.deck n) check
    have hup : s.partDown (.deck n) = false := by simp [State.partDown, hdeck, hlt]
    obtain ⟨hbeads, -, hmark⟩ := partFault_marks hup check
    refine ⟨_, rfl, hmark n rfl, fun i hi => beadWorks_false_of_bead (hbeads (mem_partBeads_deck hi)), fun b => h.works, fun a ha => ?_,
      h.places⟩
    rw [partFault_of_up hup]
    refine isolate_voids ?_
    have hd : (s.faultEvent (.deck n) check).deck n = s.deck n := by
      unfold State.deck
      rw [(faultEvent_moves s (.deck n) check).fab]
    rwa [hd]
  case stall =>
    intro req tok _
    have hev := (emit_moves (s.dropToken tok) (.ack tok .void)).trans (raise_moves _ 0x1C [u16 (partCode req), u16 (partCode (.bead n))])
    have hfault := partFault_fails (((s.dropToken tok).emit (.ack tok .void)).raise 0x1C [u16 (partCode req), u16 (partCode (.bead n))])
      (.bead n) 3
    refine ⟨_, rfl, ?_, partFault_bead_down _ n 3, ((dropToken_fails s tok).trans (hev.fails.trans hfault)).places⟩
    exact hfault.out.mem ((raise_grows _ _ _).mem (List.mem_append_right _ (List.mem_singleton_self _)))
  case frame =>
    intro hlt hfr
    obtain ⟨-, hlost⟩ := loseFrame_fab s n check
    have hx : exec (.frameLoss n check) s = .next (s.loseFrame n check) := congrArg Host.Outcome.next (if_pos hlt)
    refine ⟨_, hx, hlost, fun i hi => beadWorks_false_of_frame ?_, (loseFrame_fails s n check).places⟩
    rwa [show (n * 256 + i) / 256 = n by omega]
  case scan =>
    intro parts lf ps hstep hhold hok
    obtain ⟨hplaces, hworks, hscan⟩ := scanned_counts s parts lf
    have hp := place0_fails (s.scanned parts lf) ps
    have hj := (judgeUnfit_moves ((s.scanned parts lf).place0 ps)).trans (judgeFit_moves _)
    have hfail := hp.trans hj.fails
    have hroles : (((s.scanned parts lf).place0 ps).judgeUnfit.judgeFit).place.roles
        = ps.map (fun p => ⟨p.role, p.bead, 0, .running, some p.ckptDeck, none, 0, 0, [], [], false⟩) := by
      rw [judgeFit_place, judgeUnfit_roles, place0_roles]
    have hexec : exec (.scanDone parts lf ps) s = .next { (((s.scanned parts lf).place0 ps).judgeUnfit.judgeFit) with
        sup := { (((s.scanned parts lf).place0 ps).judgeUnfit.judgeFit).sup with step := 5 } } := by
      refine congrArg Host.Outcome.next ?_
      unfold State.scanDone
      rw [if_neg (by simp [hstep, hhold])]
      exact if_pos hok
    have hall := hplaces.trans hfail.places
    have hsup : (((s.scanned parts lf).place0 ps).judgeUnfit.judgeFit).sup = s.sup := by rw [hall]
    generalize ((s.scanned parts lf).place0 ps).judgeUnfit.judgeFit = t at *
    refine ⟨_, hexec, by rw [hsup], hfail.scan.trans hscan, fun b hb => hworks b (hfail.works hb), ?_, ?_⟩
    · rw [hroles, List.map_map]
      rfl
    · unfold OnlyPlaces
      rw [hall]

end Sys2Proof.Machine

/-! PROOF. Received station frames (R280–R301): what copying to the standby and to a checkpoint leaves alone, how a context reads back
after a change, and the checks of a frame one by one. -/

namespace Sys2Proof.Machine

open Sys2Proof

/-! ### Copies: the checkpoint and the mirror -/

/-- What a role is to everyone else: its identifier, its bead and its state. -/
def Role.standing (r : Role) : Half × Nat × RoleSt := (r.id, r.bead, r.st)

/-- `t` is `s` after copies to the standby and to checkpoints: crossings and decks, the mirror's numbers, where the checkpoints lie, and
outputs. -/
structure OnlyCopies (s t : State) : Prop where
  rest : t = { s with
    fab := { s.fab with crossings := t.fab.crossings, decks := t.fab.decks }
    place := { s.place with roles := t.place.roles }
    twin := { s.twin with mirrorSeq := t.twin.mirrorSeq, mirrorRecs := t.twin.mirrorRecs }
    out := t.out }
  roles : t.place.roles.map Role.standing = s.place.roles.map Role.standing

theorem OnlyCopies.refl (s : State) : OnlyCopies s s := ⟨rfl, rfl⟩

theorem OnlyCopies.trans {s t u : State} (h : OnlyCopies s t) (k : OnlyCopies t u) : OnlyCopies s u :=
  ⟨k.rest.trans (by rw [h.rest]), k.roles.trans h.roles⟩

theorem OnlyCopies.foldl {α : Type} {f : State → α → State} (h : ∀ s a, OnlyCopies s (f s a)) (l : List α) (s : State) :
    OnlyCopies s (l.foldl f s) := by
  induction l generalizing s with
  | nil => exact .refl s
  | cons a l ih => exact (h s a).trans (ih _)

theorem crossAll_copies (s : State) (xs : List Nat) (os : List Output) : OnlyCopies s (s.crossAll xs os) := by
  have he : ∀ u o, OnlyCopies u (State.emit u o) := fun _ _ => ⟨rfl, rfl⟩
  have hv : OnlyCopies s ((xs.filter s.xingStopped).foldl State.xingVoid s) :=
    .foldl (f := State.xingVoid) (fun _ _ => ⟨rfl, rfl⟩) _ _
  unfold State.crossAll
  split
  · exact hv
  · exact hv.trans (.foldl he _ _)

theorem cross_copies (s : State) (xs : List Nat) (o : Output) : OnlyCopies s (s.cross xs o) := crossAll_copies s xs [o]

theorem mirrorAny_copies (s : State) (typ : Nat) (body : List Fld) : OnlyCopies s (s.mirrorAny typ body) := by
  unfold State.mirrorAny
  split
  · exact .refl s
  · exact OnlyCopies.trans (t := { s with twin := { s.twin with
      mirrorSeq := s.twin.mirrorSeq + word (mirrorParts body), mirrorRecs := s.twin.mirrorRecs + 1 } }) ⟨rfl, rfl⟩ (crossAll_copies _ _ _)

theorem mirror_copies (s : State) (typ : Nat) (body : List Fld) : OnlyCopies s (s.mirror typ body) := by
  unfold State.mirror
  split
  · exact mirrorAny_copies s typ body
  · exact .refl s

theorem modRole_copies (s : State) (id : Half) (ck : Option Nat) : OnlyCopies s (s.modRole id (fun r => { r with ckpt := ck })) := by
  refine ⟨rfl, ?_⟩
  simp only [State.modRole, List.map_map]
  refine List.map_congr_left fun r _ => ?_
  simp only [Function.comp, Role.standing]
  split <;> rfl

theorem checkpoint_copies (s : State) (id : Half) : OnlyCopies s (s.checkpoint id) := by
  unfold State.checkpoint
  split
  · split
    · split
      · exact (modRole_copies s id _).trans ⟨rfl, rfl⟩
      · exact .refl s
    · exact .refl s
  · exact .refl s

theorem mirrorCtx_copies (s : State) (id : Nat) : OnlyCopies s (s.mirrorCtx id) := by
  unfold State.mirrorCtx
  split
  · exact (checkpoint_copies s _).trans (mirror_copies _ _ _)
  · exact .refl s

theorem OnlyCopies.stn {s t : State} (h : OnlyCopies s t) : t.stn = s.stn := by rw [h.rest]

/-! ### Contexts -/

theorem ctxOf_congr {s t : State} (h : t.stn.ctxs = s.stn.ctxs) (id : Nat) : t.ctxOf id = s.ctxOf id := by
  unfold State.ctxOf
  rw [h]

/-- A change of a context's fields reads back as that change. -/
theorem ctxOf_setCtx {f : Ctx → Ctx} (hf : ∀ c, (f c).cfg = c.cfg) (s : State) (id : Nat) :
    (s.setCtx id f).ctxOf id = (s.ctxOf id).map f := by
  have hp : ((fun c : Ctx => c.cfg.station == id) ∘ fun c => if c.cfg.station = id then f c else c)
      = fun c : Ctx => c.cfg.station == id := by
    funext c
    simp only [Function.comp]
    split
    · rw [hf]
    · rfl
  unfold State.ctxOf State.setCtx
  rw [List.find?_map, hp]
  cases hc : s.stn.ctxs.find? (fun c => c.cfg.station == id) with
  | none => rfl
  | some c =>
    have hid : c.cfg.station = id := by simpa using List.find?_some hc
    simp [hid]

theorem ctxOf_mirrorCtx (s : State) (id k : Nat) : (s.mirrorCtx id).ctxOf k = s.ctxOf k :=
  ctxOf_congr (by rw [(mirrorCtx_copies s id).stn]) k

theorem ctxOf_raise (s : State) (src : Nat) (ps : List Fld) (k : Nat) : (s.raise src ps).ctxOf k = s.ctxOf k :=
  ctxOf_congr (by rw [State.raise_stn]) k

theorem ctxOf_noteTags (s : State) (k : Nat) : s.noteTags.ctxOf k = s.ctxOf k := by
  unfold State.noteTags
  split
  · rfl
  · split
    · split
      · exact ctxOf_raise _ _ _ _
      · rfl
    · rfl

theorem pump_of_empty {s : State} {id : Nat} {c : Ctx} (h : s.ctxOf id = some c) (ho : c.order = []) : s.pump id = s := by
  unfold State.pump
  rw [h]
  simp [ho, State.pumpN]

theorem settleStn_of_enabled {s : State} {id : Nat} {c : Ctx} (h : s.ctxOf id = some c) (he : c.en = .enabled) : s.settleStn id = s := by
  have hs : s.settleCtx id = s := by
    unfold State.settleCtx
    rw [h]
    simp [he]
  unfold State.settleStn
  rw [hs]
  exact if_pos rfl

/-! ### The checks of a frame -/

/-- A frame that is heard and passes the checks of its length, its CRC and its version. -/
structure FrameSound (s : State) (src : IpAddr) (bs : List Byte) : Prop where
  up : s.ring.en ≠ .disabled ∧ s.familyUp src.v6 = true
  size : 24 ≤ bs.length ∧ bs.length ≤ 544 ∧ bs.length % 4 = 0
  crc : netAt bs (bs.length - 4) 4 = (crc32c (bs.take (bs.length - 4))).toNat
  version : netAt bs 0 1 = 1

/-- A frame that is sound, of this house, from the address of the context it names, which is enabled. -/
structure FrameOurs (s : State) (src : IpAddr) (bs : List Byte) (x : Ctx) : Prop extends FrameSound s src bs where
  house : netAt bs 2 2 = s.houseId
  set : s.houseId ≠ 0 ∧ s.houseId ≠ 0xFFFF
  ctx : s.ctxOf (netAt bs 4 2) = some x
  addr : ctxAddrIs x.cfg src = true
  en : x.en = .enabled

section

variable {s : State} {src : IpAddr} {bs : List Byte} {x : Ctx}

theorem stationFrame_off (h : ¬ (s.ring.en ≠ .disabled ∧ s.familyUp src.v6 = true)) : s.stationFrame src bs = s := by
  refine if_pos ?_
  by_cases hr : s.ring.en = .disabled
  · simp [hr]
  · simpa [hr] using h

theorem stationFrame_badCrc (up : s.ring.en ≠ .disabled ∧ s.familyUp src.v6 = true)
    (size : 24 ≤ bs.length ∧ bs.length ≤ 544 ∧ bs.length % 4 = 0)
    (crc : netAt bs (bs.length - 4) 4 ≠ (crc32c (bs.take (bs.length - 4))).toNat) : s.stationFrame src bs = s.frameBad 2 none := by
  obtain ⟨hr, hf⟩ := up
  obtain ⟨hlo, hhi, h4⟩ := size
  simp [State.stationFrame, hr, hf, crc, h4, Nat.not_lt.mpr hlo, Nat.not_lt.mpr hhi]

theorem stationFrame_otherHouse (h : FrameSound s src bs) (k : netAt bs 2 2 ≠ s.houseId ∨ s.houseId = 0) :
    s.stationFrame src bs = s.frameBad 4 none := by
  obtain ⟨⟨hr, hf⟩, ⟨hlo, hhi, h4⟩, crc, hv⟩ := h
  have hh : (decide (netAt bs 2 2 ≠ s.houseId) || decide (s.houseId = 0) || decide (s.houseId = 0xFFFF)) = true := by
    rcases k with k | k <;> simp [k]
  simp only [State.stationFrame, hr, hf, crc, hv, h4, Nat.not_lt.mpr hlo, Nat.not_lt.mpr hhi, hh]
  simp

theorem stationFrame_noContext (h : FrameSound s src bs) (k : s.ctxOf (netAt bs 4 2) = none) :
    s.stationFrame src bs = s.frameBad 4 none ∨ s.stationFrame src bs = s.frameBad 5 none := by
  obtain ⟨⟨hr, hf⟩, ⟨hlo, hhi, h4⟩, crc, hv⟩ := h
  by_cases hh : (decide (netAt bs 2 2 ≠ s.houseId) || decide (s.houseId = 0) || decide (s.houseId = 0xFFFF)) = true
  · left
    simp only [State.stationFrame, hr, hf, crc, hv, h4, Nat.not_lt.mpr hlo, Nat.not_lt.mpr hhi, hh]
    simp
  · right
    simp only [State.stationFrame, hr, hf, crc, hv, h4, Nat.not_lt.mpr hlo, Nat.not_lt.mpr hhi, hh, k]
    simp

/-- A frame that passes every check has its records taken, with the receive window advanced. -/
theorem stationFrame_accepted (h : FrameOurs s src bs x) {rs : List (Nat × List Byte)} {w : Word × List Word}
    (kind : netAt bs 1 1 = 0x81 ∨ netAt bs 1 1 = 0x82) (hp : parseRecs 140 ((bs.take (bs.length - 4)).drop 0x14) = some rs)
    (valid : frameValid (netAt bs 1 1 == 0x82) (netAt bs 0x10 4) rs = true)
    (hw : windowStep x.rxSeq (if joinIn rs || x.st == .offline || x.st == .returning then [] else x.rxWin)
      (BitVec.ofNat 32 (netAt bs 8 4)) = some w) :
    s.stationFrame src bs
      = (s.setCtx (netAt bs 4 2) (fun c => { c with rxSeq := w.1, rxWin := w.2 })).frameIn (netAt bs 4 2) bs rs := by
  obtain ⟨⟨⟨hr, hf⟩, ⟨hlo, hhi, h4⟩, crc, hv⟩, hh, ⟨h0, hF⟩, hc, ha, he⟩ := h
  have hk : (decide (netAt bs 1 1 ≠ 0x81) && decide (netAt bs 1 1 ≠ 0x82)) = false := by
    rcases kind with k | k <;> simp [k]
  simp only [State.stationFrame, hr, hf, crc, hv, h4, Nat.not_lt.mpr hlo, Nat.not_lt.mpr hhi, hh, h0, hF, hc, ha, he, hk, hp, valid, hw]
  simp

theorem frameBad_runs (s : State) (cause : Nat) :
    OnlyReports { s with stn := { s.stn with houseDiscards := satInc s.stn.houseDiscards } } (s.frameBad cause none) :=
  raiseTimed_only _ _ _ _

end

/-! ### What an accepted frame does -/

section

variable {s : State} {id : Nat} {c : Ctx}

/-- A STATUS record without JOIN and with the boot count of before. -/
theorem statusIn_ctxOf (h : s.ctxOf id = some c) {b : List Byte} (hj : netAt b 0 2 % 2 = 0) (hb : netAt b 4 2 = c.boot) (nosync : Bool) :
    (s.statusIn id b nosync).ctxOf id
      = some { c with nosync := netAt b 0 2 / 2 % 2 == 1 || nosync, safe := netAt b 0 2 / 4 % 2 == 1, boot := netAt b 4 2 } := by
  have hs := ctxOf_setCtx (f := fun c => { c with
    nosync := netAt b 0 2 / 2 % 2 == 1 || nosync, safe := netAt b 0 2 / 4 % 2 == 1, boot := netAt b 4 2 }) (fun _ => rfl) s id
  rw [h] at hs
  unfold State.statusIn
  simp only [h, hj, ← hb, ne_eq, not_true, decide_false, Bool.or_false, Bool.false_and, Bool.false_eq_true, if_false,
    show ((0 : Nat) == 1) = false from rfl]
  split
  · exact (ctxOf_raise _ _ _ id).trans hs
  · exact hs

theorem inputIn_ctxOf (h : s.ctxOf id = some c) (ho : c.st = .online) (img status : List Byte) (at_ : Nat) :
    ∃ a, (s.inputIn id img status at_).ctxOf id
      = some { c with inImg := img, declared := qOfCode (netAt status 2 1 % 8), acq := some a } := by
  have hs := ctxOf_setCtx (f := fun c => { c with
    inImg := img, declared := qOfCode (netAt status 2 1 % 8), acq := some (if netAt status 0 2 / 2 % 2 = 1 then s.tai else at_) })
    (fun _ => rfl) s id
  rw [h] at hs
  refine ⟨if netAt status 0 2 / 2 % 2 = 1 then s.tai else at_, ?_⟩
  unfold State.inputIn
  simp only [hs, Option.map_some, ho]

theorem frameIn_input {bs st img : List Byte} (hz : netAt bs 6 2 = 0) (s : State) (id : Nat) :
    s.frameIn id bs [(5, st), (4, img)]
      = (((s.setCtx id (fun c => { c with lastRx := s.stamp32 })).statusIn id st false).inputIn id img st
          ((s.setCtx id (fun c => { c with lastRx := s.stamp32 })).extendAt (netAt bs 0xC 4) (netAt bs 0x10 4))).mirrorCtx id := by
  simp [State.frameIn, recBodies, recBody, hasRec, hz]
  rfl

/-- The acknowledge of a transaction: the transaction ends and the run of silences with it. -/
theorem ackIn_ctxOf (h : s.ctxOf id = some c) (hr : s.activeOrSolo = true) {b : List Byte} {tx : Txn} (hb : netAt b 3 1 = 0)
    (ht : c.txns.find? (fun u => u.tag == netAt b 0 2 && u.gen == netAt b 2 1) = some tx) (hf : tx.frame ≠ .resync)
    (ho : c.order = []) (he : c.en = .enabled) :
    (s.ackIn id b).ctxOf id
      = some { c with txns := c.txns.filter (fun u => !(u.tag == netAt b 0 2 && u.gen == netAt b 2 1)), order := [], noackRun := 0 } := by
  have hs := ctxOf_setCtx (f := fun c => { c with
    txns := c.txns.filter (fun u => !(u.tag == netAt b 0 2 && u.gen == netAt b 2 1)),
    order := c.order.filter (fun w => w.retry != some (netAt b 0 2, netAt b 2 1)), noackRun := 0 }) (fun _ => rfl) s id
  rw [h] at hs
  simp only [Option.map_some, ho, List.filter_nil] at hs
  unfold State.ackIn
  simp only [hr, h, ht, hb, hf, Option.bind_some, Bool.not_true, Bool.false_eq_true, if_false, if_true, decide_false, Bool.false_and]
  generalize s.setCtx id _ = u at hs ⊢
  have hn : ((u.freeTag (netAt b 0 2) (netAt b 2 1)).noteTags).ctxOf id = _ := (ctxOf_noteTags _ id).trans hs
  rw [pump_of_empty hn rfl, settleStn_of_enabled hn he]
  exact hn

theorem frameIn_ack {bs b : List Byte} (hz : netAt bs 6 2 = 0) (s : State) (id : Nat) :
    s.frameIn id bs [(9, b)] = ((s.setCtx id (fun c => { c with lastRx := s.stamp32 })).ackIn id b).mirrorCtx id := by
  simp [State.frameIn, recBodies, recBody, hasRec, hz]

end

/-! ### The obligation -/

theorem stationFrame_runs {c : Instr} {s : State} {src : IpAddr} {bs : List Byte} (hc : c = .inputFrameRx src bs ∨ c = .replyFrameRx src bs)
    {cause : Nat} (h : s.stationFrame src bs = s.frameBad cause none) :
    Runs c s { s with stn := { s.stn with houseDiscards := satInc s.stn.houseDiscards } } := by
  have hx : exec c s = .next (s.stationFrame src bs) := by rcases hc with rfl | rfl <;> rfl
  exact ⟨_, hx.trans (congrArg Host.Outcome.next h), frameBad_runs s cause⟩

/-- An INPUT frame that passes its checks gives its context the image. -/
theorem inputFrame_taken {s : State} {src : IpAddr} {bs : List Byte} {x : Ctx} (h : FrameOurs s src bs x) (hz : netAt bs 6 2 = 0)
    {w : Word × List Word} {st img : List Byte}
    (hp : parseRecs 140 ((bs.take (bs.length - 4)).drop 0x14) = some [(5, st), (4, img)])
    (hw : windowStep x.rxSeq (if joinIn [(5, st), (4, img)] || x.st == .offline || x.st == .returning then [] else x.rxWin)
      (BitVec.ofNat 32 (netAt bs 8 4)) = some w)
    (kind : netAt bs 1 1 = 0x81) (ns : netAt bs 0x10 4 ≤ 999999999) (hj : netAt st 0 2 % 2 = 0) (hb : netAt st 4 2 = x.boot)
    (ho : x.st = .online) : ∃ k, (s.stationFrame src bs).ctxOf (netAt bs 4 2) = some k ∧ k.inImg = img
      ∧ k.declared = qOfCode (netAt st 2 1 % 8) ∧ k.rxSeq = w.1 ∧ k.rxWin = w.2 ∧ k.st = .online := by
  have valid : frameValid (netAt bs 1 1 == 0x82) (netAt bs 0x10 4) [(5, st), (4, img)] = true := by
    simp [frameValid, kind, ns, shapeOk, inputShape, spanType, recBodies]
  rw [stationFrame_accepted h (.inl kind) hp valid hw, frameIn_input hz, ctxOf_mirrorCtx]
  have h1 := ctxOf_setCtx (f := fun c => { c with rxSeq := w.1, rxWin := w.2 }) (fun _ => rfl) s (netAt bs 4 2)
  rw [h.ctx] at h1
  generalize s.setCtx (netAt bs 4 2) _ = u at h1 ⊢
  have h2 := ctxOf_setCtx (f := fun c => { c with lastRx := u.stamp32 }) (fun _ => rfl) u (netAt bs 4 2)
  rw [h1] at h2
  generalize u.setCtx (netAt bs 4 2) _ = v at h2 ⊢
  obtain ⟨a, h4⟩ := inputIn_ctxOf (statusIn_ctxOf h2 hj hb false) ho img st (v.extendAt (netAt bs 0xC 4) (netAt bs 0x10 4))
  exact ⟨_, h4, rfl, rfl, rfl, rfl, ho⟩

/-- A REPLY frame that passes its checks ends the transaction it acknowledges. -/
theorem replyFrame_taken {s : State} {src : IpAddr} {bs : List Byte} {x : Ctx} (h : FrameOurs s src bs x) (hz : netAt bs 6 2 = 0)
    {w : Word × List Word} {b : List Byte} {tx : Txn} (hp : parseRecs 140 ((bs.take (bs.length - 4)).drop 0x14) = some [(9, b)])
    (hw : windowStep x.rxSeq (if joinIn [(9, b)] || x.st == .offline || x.st == .returning then [] else x.rxWin)
      (BitVec.ofNat 32 (netAt bs 8 4)) = some w)
    (kind : netAt bs 1 1 = 0x82) (ns : netAt bs 0x10 4 ≤ 999999999) (hb : netAt b 3 1 = 0) (hr : s.activeOrSolo = true)
    (ht : x.txns.find? (fun u => u.tag == netAt b 0 2 && u.gen == netAt b 2 1) = some tx) (hf : tx.frame ≠ .resync)
    (ho : x.order = []) : ∃ k, (s.stationFrame src bs).ctxOf (netAt bs 4 2) = some k
      ∧ k.txns = x.txns.filter (fun u => !(u.tag == netAt b 0 2 && u.gen == netAt b 2 1)) ∧ k.noackRun = 0
      ∧ k.rxSeq = w.1 ∧ k.rxWin = w.2 := by
  have valid : frameValid (netAt bs 1 1 == 0x82) (netAt bs 0x10 4) [(9, b)] = true := by
    simp [frameValid, kind, ns, shapeOk, replyShape, spanType, recBodies, hasRec]
  rw [stationFrame_accepted h (.inr kind) hp valid hw, frameIn_ack hz, ctxOf_mirrorCtx]
  have h1 := ctxOf_setCtx (f := fun c => { c with rxSeq := w.1, rxWin := w.2 }) (fun _ => rfl) s (netAt bs 4 2)
  rw [h.ctx] at h1
  have r1 : (s.setCtx (netAt bs 4 2) (fun c => { c with rxSeq := w.1, rxWin := w.2 })).activeOrSolo = true := hr
  generalize s.setCtx (netAt bs 4 2) _ = u at h1 r1 ⊢
  have h2 := ctxOf_setCtx (f := fun c => { c with lastRx := u.stamp32 }) (fun _ => rfl) u (netAt bs 4 2)
  rw [h1] at h2
  have r2 : (u.setCtx (netAt bs 4 2) (fun c => { c with lastRx := u.stamp32 })).activeOrSolo = true := r1
  generalize u.setCtx (netAt bs 4 2) _ = v at h2 r2 ⊢
  exact ⟨_, ackIn_ctxOf h2 r2 hb ht hf ho h.en, rfl, rfl, rfl, rfl⟩

/-- Settles O22: the checks are taken in R287's order, and each record of an accepted frame changes its own fields of the context. -/
theorem stationFramesAreChecked : Obligations.StationFramesAreChecked := by
  unfold Obligations.StationFramesAreChecked
  intro s src bs n id up sized crcOk dropped
  refine ⟨fun c hc => ⟨fun h => ?_, fun ⟨hu, hsz⟩ h => stationFrame_runs hc (stationFrame_badCrc hu hsz h),
    fun ⟨hu, hsz⟩ h hv k => stationFrame_runs hc (stationFrame_otherHouse ⟨hu, hsz, h, hv⟩ (.inl k)),
    fun ⟨hu, hsz⟩ h hv k => stationFrame_runs hc (stationFrame_otherHouse ⟨hu, hsz, h, hv⟩ (.inr k)),
    fun ⟨hu, hsz⟩ h hv _ k => ?_⟩, ?_⟩
  · rcases hc with rfl | rfl <;> exact congrArg Host.Outcome.next (stationFrame_off h)
  · rcases stationFrame_noContext ⟨hu, hsz, h, hv⟩ k with e | e <;> exact stationFrame_runs hc e
  · intro x w rs ⟨hu, hsz⟩ hcrc hv hh h0 hF hc ha he hz hp hw
    have ours : FrameOurs s src bs x := ⟨⟨hu, hsz, hcrc, hv⟩, hh, ⟨h0, hF⟩, hc, ha, he⟩
    refine ⟨fun st img kind ns hrs hj hb ho => ?_, fun b tx kind ns hrs hb hr ht hf ho => ?_⟩
    · subst hrs
      obtain ⟨k, hk⟩ := inputFrame_taken ours hz hp hw kind ns hj hb ho
      exact ⟨_, k, rfl, hk⟩
    · subst hrs
      obtain ⟨k, hk⟩ := replyFrame_taken ours hz hp hw kind ns hb hr ht hf ho
      exact ⟨_, k, rfl, hk⟩

end Sys2Proof.Machine

/-! PROOF. What reports, frames, rollouts and bus objects leave alone: the parts of a tablet that its power, its ring and its outputs
hang on. Used where the Tally stops (R379, R380) and where the supplies fail (R667). -/

namespace Sys2Proof.Machine

open Sys2Proof

/-! ### What a tablet shows outward -/

/-- The parts of a tablet that reports, frames and rollouts do not touch. -/
structure Outward where
  sup : Supply
  fuses : Fuses
  panel : Panel
  tag : Tag
  capturing : Bool
  slots : List (LogRec × Word)
  linkUp : Bool
  ringEn : Enable
  legsClosed : Bool
  linkA : Bool
  linkB : Bool
  run : TallyRun
  stopCause : Nat
  outImg : Word
  safeDio : Word
  beamLost : Bool
  role : TwinRole
  epoch : Half
  roles : List (Half × Nat × RoleSt)

def State.outward (s : State) : Outward :=
  { sup := s.sup, fuses := s.fuses, panel := s.panel, tag := s.tag, capturing := s.nlog.capturing, slots := s.nlog.slots,
    linkUp := s.host.linkUp, ringEn := s.ring.en, legsClosed := s.ring.legsClosed, linkA := s.ring.linkA, linkB := s.ring.linkB,
    run := s.tally.run, stopCause := s.tally.stopCause, outImg := s.tally.outImg, safeDio := s.tally.cfg.safeDio,
    beamLost := s.fab.beamLost, role := s.twin.role, epoch := s.twin.epoch, roles := s.place.roles.map Role.standing }

/-- `t` shows outward what `s` shows. -/
def Quiet (s t : State) : Prop := t.outward = s.outward

theorem Quiet.refl (s : State) : Quiet s s := rfl

theorem Quiet.trans {s t u : State} (h : Quiet s t) (k : Quiet t u) : Quiet s u := Eq.trans k h

theorem Quiet.foldl {α : Type} {f : State → α → State} (h : ∀ s a, Quiet s (f s a)) (l : List α) (s : State) :
    Quiet s (l.foldl f s) := by
  induction l generalizing s with
  | nil => exact .refl s
  | cons a l ih => exact (h s a).trans (ih _)

theorem Quiet.ite {s t u : State} {c : Prop} [Decidable c] (ht : Quiet s t) (hu : Quiet s u) : Quiet s (if c then t else u) := by
  split
  · exact ht
  · exact hu

/-! ### Reports and events -/

/-- The host link, and the log's slots and state of capture. -/
def State.linkAndLog (s : State) : Bool × Bool × List (LogRec × Word) := (s.host.linkUp, s.nlog.capturing, s.nlog.slots)

theorem OnlyReports.quiet {s t : State} (h : OnlyReports s t) (k : t.linkAndLog = s.linkAndLog) : Quiet s t := by
  obtain ⟨hlink, hcap, hslots⟩ : t.host.linkUp = s.host.linkUp ∧ t.nlog.capturing = s.nlog.capturing ∧ t.nlog.slots = s.nlog.slots := by
    simpa [State.linkAndLog] using k
  unfold Quiet State.outward
  rw [h.sup, h.fuses, h.panel, h.tag, h.ring, h.tally, h.twin, h.place, hlink, hcap, hslots, h.fab_crossings]

theorem toHost_linkAndLog (s : State) (o : Output) : (s.toHost o).linkAndLog = s.linkAndLog := by
  obtain ⟨-, h⟩ | ⟨-, h⟩ := toHost_cases s o <;> rw [h] <;> rfl

theorem signal_linkAndLog (s : State) (k : Nat) : (s.signal k).linkAndLog = s.linkAndLog := by
  have shadow : ∀ (x : State) (r : Nat) (i : Word), (x.writeShadow r i).linkAndLog = x.linkAndLog := by
    intro x r i
    unfold State.writeShadow
    split
    · rfl
    · exact toHost_linkAndLog _ _
  have vector : ∀ (x : State) (j : Nat), (x.fireVector j).linkAndLog = x.linkAndLog := by
    intro x j
    unfold State.fireVector
    split
    · rfl
    · exact toHost_linkAndLog _ _
  exact (vector _ _).trans (shadow _ _ _)

theorem putReport_linkAndLog (s : State) (k : Nat) (r : Report) : (s.putReport k r).linkAndLog = s.linkAndLog := by
  unfold State.putReport
  extract_lets g size idx r' t u
  have h : u.linkAndLog = s.linkAndLog := toHost_linkAndLog s (.report k idx r')
  clear_value u
  split
  · exact (signal_linkAndLog _ _).trans h
  · exact h

theorem tryReport_linkAndLog (s : State) (cls kind : Nat) (body : List Fld) : (s.tryReport cls kind body).1.linkAndLog = s.linkAndLog := by
  unfold State.tryReport
  dsimp only
  split
  · exact putReport_linkAndLog _ _ _
  · rfl

theorem logRecord_linkAndLog (s : State) (r : LogRec) : (s.logRecord r).linkAndLog = s.linkAndLog := by
  unfold State.logRecord
  dsimp only
  split
  · split <;> rfl
  · split
    · rfl
    · split <;> rfl

theorem raiseCore_linkAndLog (s : State) (src : Nat) (ps : List Fld) (logged : Bool) :
    (s.raiseCore src ps logged).1.linkAndLog = s.linkAndLog := by
  have source : ∀ (c : Bool) (x : State) (y : SrcState), (if c then x else x.setSrc src y).linkAndLog = x.linkAndLog := by
    intro c x y
    split <;> rfl
  have record : ∀ (x : State) (y : LogRec), (if logged then x.logRecord y else x).linkAndLog = x.linkAndLog := by
    intro x y
    split
    · exact logRecord_linkAndLog x y
    · rfl
  unfold State.raiseCore
  dsimp only
  split
  · exact (record _ _).trans ((tryReport_linkAndLog _ _ _ _).trans ((source _ _ _).trans rfl))
  · rfl

theorem noteDrop_linkAndLog (n : Nat) (s : State) (k : Option Nat) : (s.noteDrop n k).linkAndLog = s.linkAndLog := by
  induction n generalizing s k with
  | zero => cases k <;> rfl
  | succ n ih =>
    cases k with
    | none => rfl
    | some k =>
      unfold State.noteDrop
      split
      · rfl
      · exact (ih _ _).trans (raiseCore_linkAndLog _ _ _ _)

theorem raise_linkAndLog (s : State) (src : Nat) (ps : List Fld) : (s.raise src ps).linkAndLog = s.linkAndLog :=
  (noteDrop_linkAndLog 3 _ _).trans (raiseCore_linkAndLog s src ps true)

theorem raise_quiet (s : State) (src : Nat) (ps : List Fld) : Quiet s (s.raise src ps) :=
  (raise_only s src ps).quiet (raise_linkAndLog s src ps)

theorem raiseTimed_quiet (s : State) (src key : Nat) (pre : List Fld) : Quiet s (s.raiseTimed src key pre) := by
  unfold State.raiseTimed State.raiseTimed2
  split
  · exact .refl s
  · rw [if_neg (lt_irrefl 1)]
    exact Quiet.trans (t := s.startTimer src key pre false) rfl (raise_quiet _ _ _)

theorem report_quiet (s : State) (cls kind : Nat) (body : List Fld) : Quiet s (s.report cls kind body) :=
  (report_only s cls kind body).quiet ((noteDrop_linkAndLog 3 _ _).trans (tryReport_linkAndLog s cls kind body))

theorem settleRing_quiet (s : State) (r : Nat) : Quiet s (s.settleRing r) := by
  unfold State.settleRing
  dsimp only
  split
  · exact Quiet.trans (t := s.setOrd r (fun o => { o with en := .disabled })) rfl (raise_quiet _ _ _)
  · exact .refl s

theorem finish_quiet (s : State) (l : LiveOrder) (kind st : Nat) (body : List Fld) : Quiet s (s.finish l kind st body) := by
  have drop : ∀ x : State,
      Quiet x (({ x with host := { x.host with live := eraseLive l.tag l.gen x.host.live } } : State).handOverAll.settleRing l.ring) :=
    fun x => Quiet.trans (s := x) rfl (settleRing_quiet _ _)
  have put : ∀ (x : State) (k : Nat) (r : Report), Quiet x (x.putReport k r) :=
    fun x k r => (putReport_only x k r).quiet (putReport_linkAndLog x k r)
  exact (Quiet.trans (t := s.setRpt l.rpt (fun g => { g with reserved := g.reserved - 1 })) rfl (put _ _ _)).trans (drop _)

theorem lateCompletion_quiet (s : State) : Quiet s s.lateCompletion :=
  Quiet.trans (t := { s with host := { s.host with lateCnt := satInc s.host.lateCnt } }) rfl (raiseTimed_quiet _ _ _ _)

theorem answer_quiet (s : State) (ref : OrderRef) (op : Nat) (a : Answer) : Quiet s (s.answer ref op a) := by
  cases ref with
  | host tag gen =>
    unfold State.answer
    dsimp only
    split
    · split
      · exact Quiet.trans (t := { s with host := { s.host with live := eraseLive tag gen s.host.live } }) rfl (lateCompletion_quiet _)
      · exact finish_quiet _ _ _ _ _
    · exact lateCompletion_quiet s
  | setup i =>
    unfold State.answer
    dsimp only
    split
    · exact .refl s
    · exact Quiet.trans (t := { s with setup := { s.setup with faults := true, refused := min (s.setup.refused + 1) 0xFFFF } }) rfl
        (raise_quiet _ _ _)

/-! ### Copies and crossings -/

theorem OnlyCopies.quiet {s t : State} (h : OnlyCopies s t) : Quiet s t := by
  unfold Quiet State.outward
  rw [h.roles, h.rest]

theorem mirror_quiet (s : State) (typ : Nat) (body : List Fld) : Quiet s (s.mirror typ body) := (mirror_copies s typ body).quiet

theorem mirrorCtx_quiet (s : State) (id : Nat) : Quiet s (s.mirrorCtx id) := (mirrorCtx_copies s id).quiet

theorem cross_quiet (s : State) (xs : List Nat) (o : Output) : Quiet s (s.cross xs o) := (cross_copies s xs o).quiet

/-! ### Station frames -/

theorem noteTags_quiet (s : State) : Quiet s s.noteTags := by
  unfold State.noteTags
  split
  · exact .refl s
  · split
    · split
      · exact Quiet.trans (t := { s with stn := { s.stn with tagWaitSince := none } }) rfl (raise_quiet _ _ _)
      · exact .refl s
    · exact .refl s

theorem sendStn_quiet (s : State) (c : StnCtxCfg) (bs : List Byte) : Quiet s (s.sendStn c bs) :=
  Quiet.trans (t := { s with ring := { s.ring with hsrSeq := s.ring.hsrSeq + 1 } }) rfl (cross_quiet _ _ _)

theorem emitFrame_quiet (s : State) (c : Ctx) (seq : Word) (f : StnFrame) (txn : Option (Nat × Nat × Nat)) :
    Quiet s (s.emitFrame c seq f txn) := by
  unfold State.emitFrame
  exact (Quiet.ite (.refl s) (mirror_quiet _ _ _)).trans (sendStn_quiet _ _ _)

theorem setCtx_quiet (s : State) (id : Nat) (f : Ctx → Ctx) : Quiet s (s.setCtx id f) := rfl

theorem sendOne_quiet (s : State) (c : Ctx) (w : Waiting) (rest : List Waiting) : Quiet s (s.sendOne c w rest) := by
  unfold State.sendOne
  dsimp only
  split
  · split
    · exact (setCtx_quiet s _ _).trans (emitFrame_quiet _ _ _ _ _)
    · exact setCtx_quiet s _ _
  · split
    · split
      · rename_i pool _
        exact Quiet.trans (t := { s with stn := { s.stn with pool := pool } }) rfl
          (((setCtx_quiet _ _ _).trans (emitFrame_quiet _ _ _ _ _)).trans (noteTags_quiet _))
      · exact .refl s
    · exact (setCtx_quiet s _ _).trans (emitFrame_quiet _ _ _ _ _)

theorem pumpN_quiet (n : Nat) (s : State) (id : Nat) : Quiet s (State.pumpN n s id) := by
  induction n generalizing s with
  | zero => exact .refl s
  | succ n ih =>
    unfold State.pumpN
    split
    · split
      · exact (sendOne_quiet s _ _ _).trans (ih _)
      · exact .refl s
    · exact .refl s

theorem pump_quiet (s : State) (id : Nat) : Quiet s (s.pump id) := pumpN_quiet _ s id

theorem queueFrame_quiet (s : State) (id : Nat) (f : StnFrame) : Quiet s (s.queueFrame id f).1 := by
  unfold State.queueFrame
  split
  · exact (setCtx_quiet s _ _).trans (pump_quiet _ _)
  · exact .refl s

theorem queueOutput_quiet (s : State) (id : Nat) : Quiet s (s.queueOutput id) := by
  unfold State.queueOutput
  split
  · exact Quiet.ite (pump_quiet _ _) (queueFrame_quiet _ _ _)
  · exact .refl s

theorem stnPend_quiet (s : State) (id slot : Nat) (v : F32) : Quiet s (s.stnPend id slot v) :=
  (setCtx_quiet s _ _).trans (mirrorCtx_quiet _ _)

theorem stnCancel_quiet (s : State) (id : Nat) (seq : Word) : Quiet s (s.stnCancel id seq) := by
  unfold State.stnCancel
  split
  · exact .refl s
  · dsimp only
    refine Quiet.ite (setCtx_quiet s _ _) (Quiet.ite (.refl s) ?_)
    split
    · exact (setCtx_quiet s _ _).trans (pump_quiet _ _)
    · exact queueFrame_quiet _ _ _

theorem stnOutputs_quiet (s : State) (id : Nat) (new : List Byte) (blocked : Bool) : Quiet s (s.stnOutputs id new blocked) := by
  unfold State.stnOutputs
  split
  · exact .refl s
  · extract_lets u up v
    have hu : Quiet s u := Quiet.ite (setCtx_quiet s _ _) (.refl s)
    have hv : Quiet u v := setCtx_quiet u _ _
    clear_value u up v
    exact hu.trans (Quiet.ite (.refl u) (hv.trans ((Quiet.ite (queueOutput_quiet _ _) (.refl v)).trans (mirrorCtx_quiet _ _))))

/-- The stations' safe images (R307). -/
theorem stnSafe_quiet (s : State) : Quiet s s.stnSafe := by
  refine .foldl (fun s id => ?_) _ s
  split
  · exact Quiet.ite (Quiet.ite ((queueOutput_quiet _ _).trans (mirrorCtx_quiet _ _)) (.refl s)) (stnOutputs_quiet _ _ _ _)
  · exact .refl s

/-! ### Rollouts -/

theorem mirrorRoll_quiet (s : State) (x : Rollout) : Quiet s (s.mirrorRoll x) := mirror_quiet _ _ _

theorem putRoll_quiet (s : State) (x : Rollout) : Quiet s (s.putRoll x) := Quiet.trans (t := s.setRoll x) rfl (mirrorRoll_quiet _ _)

theorem settleRoll_quiet (s : State) : Quiet s s.settleRoll := by
  unfold State.settleRoll
  exact Quiet.ite (Quiet.trans (t := { s with roll := { s.roll with en := .disabled } }) rfl (raise_quiet _ _ _)) (.refl s)

theorem endRoll_quiet (s : State) (x : Rollout) (st : RollSt) (reason : Nat) : Quiet s (s.endRoll x st reason) := by
  unfold State.endRoll
  extract_lets y roll u v w
  have hu : Quiet s u := rfl
  have hv : Quiet u v := Quiet.ite (raise_quiet _ _ _) (.refl u)
  have hw : Quiet v w := Quiet.ite (report_quiet _ _ _ _) (.refl v)
  clear_value u v w
  exact hu.trans (hv.trans (hw.trans ((mirrorRoll_quiet _ _).trans (settleRoll_quiet _))))

theorem vet_quiet (s : State) (x : Rollout) : Quiet s (s.vet x) := by
  unfold State.vet
  exact Quiet.ite (endRoll_quiet _ _ _ _) (putRoll_quiet _ _)

theorem build_quiet (s : State) (x : Rollout) (a1 : Nat) : Quiet s (s.build x a1).1 :=
  .foldl (fun s i => stnPend_quiet s i 0 _) _ s

theorem submitRoll_quiet (s : State) (x : Rollout) : Quiet s (s.submitRoll x) := by
  unfold State.submitRoll
  exact Quiet.ite (putRoll_quiet _ _) ((build_quiet s x _).trans (vet_quiet _ _))

theorem nextOfNet_quiet (n : Nat) (s : State) (net : Nat) : Quiet s (State.nextOfNet n s net) := by
  induction n generalizing s with
  | zero => exact .refl s
  | succ n ih =>
    unfold State.nextOfNet
    refine Quiet.ite (.refl s) ?_
    split
    · exact (submitRoll_quiet s _).trans (ih _)
    · exact .refl s

theorem freeNet_quiet (s : State) (net : Nat) : Quiet s (s.freeNet net) := nextOfNet_quiet _ s net

theorem stnRestore_quiet (s : State) (id : Nat) : Quiet s (s.stnRestore id) :=
  Quiet.ite ((setCtx_quiet s _ _).trans (mirrorCtx_quiet _ _)) (.refl s)

theorem loopSpCancel_quiet (s : State) (n rollout applyAt : Nat) : Quiet s (s.loopSpCancel n rollout applyAt) := by
  unfold State.loopSpCancel
  split <;> exact .refl s

/-- A rollout that is stopped (R261). -/
theorem stopRoll_quiet (s : State) (x : Rollout) (st : RollSt) (reason successor : Nat) : Quiet s (s.stopRoll x st reason successor) := by
  unfold State.stopRoll
  extract_lets t la u goes gone cancel dead roll v w y z
  have hu : Quiet s u := by
    unfold u
    split <;> exact .refl s
  have hc : ∀ a c, Quiet a (cancel a c) := by
    intro a c
    unfold cancel
    split
    · exact (stnCancel_quiet _ _ _).trans (stnRestore_quiet _ _)
    · exact loopSpCancel_quiet _ _ _ _
    · exact .refl a
  have hv : Quiet u v := rfl
  have hw : Quiet v w := .foldl hc gone v
  have hz : Quiet w z := Quiet.ite (raise_quiet _ _ _) (.refl w)
  clear_value u v w z
  exact hu.trans (hv.trans (hw.trans (hz.trans ((endRoll_quiet _ _ _ _).trans (freeNet_quiet _ _)))))

/-- The rollouts whose permit falls with the Tally (R264). -/
theorem checkPermits_quiet (s : State) : Quiet s s.checkPermits := by
  refine .foldl (fun s x => ?_) _ s
  split
  · exact (raise_quiet _ _ _).trans (stopRoll_quiet _ _ _ _ _)
  · exact .refl s

/-! ### Bus objects -/

theorem setTx_quiet (s : State) (b o : Nat) (x : TxObj) : Quiet s (s.setTx b o x) := rfl

theorem setBus_quiet (s : State) (b : Nat) (f : Bus → Bus) : Quiet s (s.setBus b f) := rfl

theorem endFrame_quiet (s : State) (b : Nat) (f : BusFrame) (st : TxSt) (cause : Nat) : Quiet s (s.endFrame b f st cause) := by
  unfold State.endFrame
  extract_lets x u v w
  have hu : Quiet s u := setTx_quiet s _ _ _
  have hv : Quiet u v := Quiet.ite (setBus_quiet u _ _) (raiseTimed_quiet _ _ _ _)
  have hw : Quiet v w := rfl
  clear_value u v w
  refine hu.trans (hv.trans (hw.trans ?_))
  split
  · exact Quiet.ite (answer_quiet _ _ _ _) (answer_quiet _ _ _ _)
  · exact .refl w

theorem showFrame_quiet (s : State) (b o : Nat) : Quiet s (s.showFrame b o) := by
  unfold State.showFrame
  dsimp only
  split
  · exact setTx_quiet s _ _ _
  · exact .refl s

theorem queueBus_quiet (s : State) (b : Nat) (f : BusFrame) : Quiet s (s.queueBus b f) := by
  unfold State.queueBus
  extract_lets u must v
  have hv : Quiet s v := by
    unfold v
    split
    · exact (setBus_quiet s _ _).trans (endFrame_quiet _ _ _ _ _)
    · exact .refl s
  clear_value v
  refine Quiet.ite (endFrame_quiet _ _ _ _ _) (Quiet.ite ((setBus_quiet s _ _).trans (endFrame_quiet _ _ _ _ _)) ?_)
  refine Quiet.ite ((setBus_quiet s _ _).trans (endFrame_quiet _ _ _ _ _)) (Quiet.ite ?_ ?_)
  · exact Quiet.trans (t := s.xingVoid (busXing b)) rfl (endFrame_quiet _ _ _ _ _)
  · exact hv.trans ((setBus_quiet v _ _).trans (showFrame_quiet _ _ _))

theorem handOwn_quiet (s : State) (b o : Nat) (single : Bool) (ref : Option OrderRef) : Quiet s (s.handOwn b o single ref) := by
  unfold State.handOwn
  extract_lets x q u
  have hu : Quiet s u := setTx_quiet s _ _ _
  clear_value u
  split
  · exact .refl s
  · refine Quiet.ite (.refl s) ?_
    extract_lets bs v id w
    have hv : Quiet u v := Quiet.ite (.refl u) (mirror_quiet _ _ _)
    have hw : Quiet v w := setBus_quiet v _ _
    clear_value v w
    exact hu.trans (hv.trans (hw.trans (queueBus_quiet _ _ _)))

/-- The bus objects' safe data (R380). -/
theorem busSafe_quiet (s : State) : Quiet s s.busSafe := by
  unfold State.busSafe
  dsimp only
  refine .foldl (fun s b => .foldl (fun s o => ?_) _ s) _ s
  exact Quiet.ite ((setTx_quiet s _ _ _).trans (handOwn_quiet _ _ _ _ _)) (.refl s)

/-! ### The Tally stops (R380) -/

theorem driveDio_quiet (s : State) : Quiet s s.driveDio := by
  unfold State.driveDio
  exact Quiet.ite (.refl s) rfl

theorem tQuiesced_quiet (s : State) : Quiet s s.tQuiesced := by
  unfold State.tQuiesced
  split
  · exact Quiet.trans (t := { s with tally := { s.tally with en := .disabled, quiesced := 0 } }) rfl (raise_quiet _ _ _)
  · exact .refl s

theorem Quiet.run {s t : State} (h : Quiet s t) : t.tally.run = s.tally.run := congrArg Outward.run h

/-- A stopped Tally stays as it is where an exchange that waits is refused. -/
theorem refuseExchange_quiet {s : State} (h : s.tally.run = .stopped) : Quiet s s.refuseExchange := by
  unfold State.refuseExchange
  split
  · extract_lets go tally u b v
    have hu : Quiet s u := by
      have hrun : u.tally.run = s.tally.run := by simp [u, go, h]
      unfold Quiet State.outward
      rw [hrun]
    have hv : Quiet u v := Quiet.ite rfl (.refl u)
    clear_value u v
    exact hu.trans (hv.trans (answer_quiet _ _ _ _))
  · exact .refl s

/-- What a stop shows outward: the cause, and SAFE_DIO as the image. -/
theorem tStopNow_outward (s : State) (cause task index limit : Nat) :
    (s.tStopNow cause task index limit).outward
      = { s.outward with run := .stopped, stopCause := cause, outImg := s.tally.cfg.safeDio } := by
  unfold State.tStopNow
  extract_lets tally u v w
  have hu : u.outward = { s.outward with run := .stopped, stopCause := cause, outImg := s.tally.cfg.safeDio } := rfl
  have hrun : u.tally.run = .stopped := rfl
  have hv : Quiet u v := (Quiet.trans (t := u.tHalt) rfl (driveDio_quiet _)).trans (checkPermits_quiet _)
  have hw : Quiet v w := (busSafe_quiet _).trans (stnSafe_quiet _)
  have hx := (hv.trans hw).trans (raise_quiet w 0x80 [u16 cause, u16 task, u32 index, u32 limit])
  clear_value u v w
  exact Eq.trans ((hx.trans (refuseExchange_quiet (hx.run.trans hrun))).trans (tQuiesced_quiet _)) hu

theorem tStopPlain_of_stopped {s : State} (h : s.tally.run = .stopped) (cause : Nat) : s.tStopPlain cause = s := by
  unfold State.tStopPlain State.tStop
  split <;> exact if_pos h

theorem tStopPlain_outward {s : State} (h : s.tally.run ≠ .stopped) (cause : Nat) :
    (s.tStopPlain cause).outward = { s.outward with run := .stopped, stopCause := cause, outImg := s.tally.cfg.safeDio } := by
  unfold State.tStopPlain State.tStop
  split <;> rw [if_neg h] <;> exact tStopNow_outward _ _ _ _ _

end Sys2Proof.Machine

/-! PROOF. The fabric's memories (R52–R54): what an access of a line does, what an error in it does, and the scrubber. -/

namespace Sys2Proof.Machine

open Sys2Proof

/-! ### The way to a memory -/

/-- An access of deck memory starts its deck's 2 ms again. -/
def State.touched (s : State) (m : MemKind) (idx : Nat) : State := if m = .deckMemory then s.stir idx else s

theorem touched_only (s : State) (m : MemKind) (idx : Nat) :
    s.touched m idx = { s with fab := { s.fab with decks := (s.touched m idx).fab.decks } } := by
  unfold State.touched
  split <;> rfl

@[simp] theorem touched_out (s : State) (m : MemKind) (idx : Nat) : (s.touched m idx).out = s.out := by rw [touched_only]

@[simp] theorem touched_poisoned (s : State) (m : MemKind) (idx : Nat) : (s.touched m idx).fab.poisoned = s.fab.poisoned := by
  rw [touched_only]

@[simp] theorem touched_eccCe (s : State) (m : MemKind) (idx : Nat) : (s.touched m idx).fab.eccCe = s.fab.eccCe := by rw [touched_only]

@[simp] theorem touched_eccUe (s : State) (m : MemKind) (idx : Nat) : (s.touched m idx).fab.eccUe = s.fab.eccUe := by rw [touched_only]

@[simp] theorem touched_rodFail (s : State) (m : MemKind) (idx : Nat) : (s.touched m idx).fab.rodFail = s.fab.rodFail := by
  rw [touched_only]

@[simp] theorem touched_deckFail (s : State) (m : MemKind) (idx : Nat) : (s.touched m idx).fab.deckFail = s.fab.deckFail := by
  rw [touched_only]

@[simp] theorem touched_place (s : State) (m : MemKind) (idx : Nat) : (s.touched m idx).place = s.place := by rw [touched_only]

/-- An access of this memory reaches it: its part works, its deck is awake and its crossing runs. -/
structure MemReady (s : State) (m : MemKind) (idx : Nat) : Prop where
  up : s.memDown m idx = false
  fabric : m ≠ .tallyCode
  awake : s.memAsleep m idx = false
  crosses : m = .lpddr → s.xingStopped 0x14 = false

section

variable {s : State} {m : MemKind} {idx addr : Nat}

theorem access_fabric (h : m ≠ .tallyCode) (w : MemAccess) (reader ckptOf : Option Half) :
    exec (.memoryAccess m idx addr w reader ckptOf) s = .next (s.memoryAccess ⟨m, idx, addr, w, reader, ckptOf⟩) :=
  congrArg Host.Outcome.next (if_neg h)

theorem memoryAccess_ready (h : MemReady s m idx) (w : MemAccess) (reader ckptOf : Option Half) :
    s.memoryAccess ⟨m, idx, addr, w, reader, ckptOf⟩ = match w with
      | .writeLine => ((s.touched m idx).lineWritten m idx addr ckptOf).emit (.memAck .normal)
      | _ => (s.touched m idx).lineRead ⟨m, idx, addr, w, reader, ckptOf⟩ := by
  have hx : (decide (m = .lpddr) && s.xingStopped 0x14) = false := by
    by_cases hm : m = .lpddr
    · simp [hm, h.crosses hm]
    · simp [hm]
  unfold State.memoryAccess
  simp only [h.up, h.awake, hx, Bool.false_eq_true, if_false]
  cases w <;> rfl

theorem access_read (h : MemReady s m idx) {w : MemAccess} (hw : w ≠ .writeLine) (reader ckptOf : Option Half) :
    exec (.memoryAccess m idx addr w reader ckptOf) s = .next ((s.touched m idx).lineRead ⟨m, idx, addr, w, reader, ckptOf⟩) := by
  rw [access_fabric h.fabric, memoryAccess_ready h]
  cases w
  case writeLine => exact absurd rfl hw
  all_goals rfl

theorem access_write (h : MemReady s m idx) :
    exec (.memoryAccess m idx addr .writeLine none none) s
      = .next (((s.touched m idx).lineWritten m idx addr none).emit (.memAck .normal)) := by
  rw [access_fabric h.fabric, memoryAccess_ready h]

theorem access_asleep (up : s.memDown m idx = false) {d : Nat} (hd : memDeck m idx = some d) (hr : (s.deck d).st = .retention)
    (w : MemAccess) :
    exec (.memoryAccess m idx addr w none none) s = .next (s.holdAtDeck d (.access ⟨m, idx, addr, w, none, none⟩)) := by
  have hm : m ≠ .tallyCode := by
    rintro rfl
    cases hd
  have ha : s.memAsleep m idx = true := by simp [State.memAsleep, hd, State.deckAsleep, hr, DeckSt.asleep]
  rw [access_fabric hm]
  simp [State.memoryAccess, up, ha, hd]

theorem access_down (h : s.memDown m idx = true) (w : MemAccess) :
    exec (.memoryAccess m idx addr w none none) s = .next (s.emit (.memAck .void)) := by
  have hm : m ≠ .tallyCode := by
    rintro rfl
    cases h
  rw [access_fabric hm]
  exact congrArg Host.Outcome.next (if_pos h)

theorem access_stopped (h : s.xingStopped 0x14 = true) (w : MemAccess) :
    exec (.memoryAccess .lpddr idx addr w none none) s = .next ((s.xingCount 0x14).emit (.memAck .void)) := by
  rw [access_fabric (by decide)]
  simp [State.memoryAccess, State.memDown, State.memAsleep, memDeck, h]

/-! ### What a read finds -/

theorem lineRead_clean (h : (m, idx, addr / 64) ∉ s.fab.poisoned) (reader ckptOf : Option Half) :
    s.lineRead ⟨m, idx, addr, .clean, reader, ckptOf⟩ = s.emit (.memAck .normal) := by
  simp [State.lineRead, h]

theorem lineRead_poisoned (h : (m, idx, addr / 64) ∈ s.fab.poisoned) (ckptOf : Option Half) :
    s.lineRead ⟨m, idx, addr, .clean, none, ckptOf⟩ = s.emit (.memAck .poison) := by
  simp [State.lineRead, h]

/-- A running role that is answered with poison restarts (R53). -/
theorem poisonReader_running {r : Role} (h : s.role r.id = some r) (hr : r.st = .running) :
    s.poisonReader r.id = s.modRole r.id (fun x => { x with st := .replacing, failedBead := x.bead, since := s.now }) := by
  unfold State.poisonReader
  simp only [h, hr]

theorem lineRead_poisoned_by {r : Role} (h : (m, idx, addr / 64) ∈ s.fab.poisoned) (hs : s.role r.id = some r) (hr : r.st = .running)
    (ckptOf : Option Half) : s.lineRead ⟨m, idx, addr, .clean, some r.id, ckptOf⟩
      = (s.emit (.memAck .poison)).modRole r.id (fun x => { x with st := .replacing, failedBead := x.bead, since := s.now }) := by
  have k : (s.emit (.memAck .poison)).role r.id = some r := hs
  refine Eq.trans ?_ (poisonReader_running k hr)
  simp [State.lineRead, h]

theorem eccSingle_only (s : State) (m : MemKind) (idx addr : Nat) :
    OnlyReports { s with fab := { s.fab with eccCe := satInc s.fab.eccCe } } (s.eccSingle m idx addr) := raise_only _ _ _

theorem lineRead_single (h : (m, idx, addr / 64) ∉ s.fab.poisoned) :
    s.lineRead ⟨m, idx, addr, .single, none, none⟩ = (s.eccSingle m idx addr).emit (.memAck .normal) := by
  have hp : (s.eccSingle m idx addr).fab.poisoned = s.fab.poisoned := by rw [(eccSingle_only s m idx addr).fab_crossings]
  simp [State.lineRead, hp, h]

end

/-! ### Errors -/

/-- A change of the fabric beside its crossings, made before reports or after them, is the same. -/
theorem OnlyReports.fabric {s t : State} (h : OnlyReports s t) (f : Fabric → Fabric)
    (hf : ∀ x c, f { x with crossings := c } = { f x with crossings := c }) (hc : ∀ x, (f x).crossings = x.crossings) :
    OnlyReports { s with fab := f s.fab } { t with fab := f t.fab } := by
  have hv : State.hostVoid { t with fab := f t.fab } = t.hostVoid := by simp [State.hostVoid, State.xing, hc]
  have hs : State.xingStopped { s with fab := f s.fab } 0x01 = s.xingStopped 0x01 := by simp [State.xingStopped, hc]
  have hw : State.withHostVoid { s with fab := f s.fab } t.hostVoid = { s with fab := f (s.withHostVoid t.hostVoid).fab } := by
    refine congrArg (fun y => { s with fab := y }) ?_
    exact (congrArg (fun l => { f s.fab with crossings := l.modify 0x01 (fun c => { c with void := t.hostVoid }) }) (hc s.fab)).trans
      (hf s.fab _).symm
  have ht : t.fab = (s.withHostVoid t.hostVoid).fab := (congrArg State.fab h.1).trans rfl
  refine ⟨?_, fun k => congrArg f (h.2 (hs ▸ k))⟩
  rw [hv, hw, ← ht]
  exact congrArg (fun x => { x with fab := f t.fab }) h.1

theorem mem_addLine (l : List (MemKind × Nat × Nat)) (x : MemKind × Nat × Nat) : x ∈ addLine l x := by
  unfold addLine
  split
  · rwa [← List.contains_iff_mem]
  · simp

/-- Reports after a count leave room for the line that is poisoned. -/
theorem poisoned_only {s u : State} {n : Word} (h : OnlyReports { s with fab := { s.fab with eccUe := n } } u)
    (x : MemKind × Nat × Nat) :
    OnlyReports { s with fab := { s.fab with eccUe := n, poisoned := addLine s.fab.poisoned x } }
      { u with fab := { u.fab with poisoned := addLine u.fab.poisoned x } } := by
  have hp : u.fab.poisoned = s.fab.poisoned := by rw [h.fab_crossings]
  rw [hp]
  exact h.fabric (fun y => { y with poisoned := addLine s.fab.poisoned x }) (fun _ _ => rfl) (fun _ => rfl)

/-- A double-bit error in deck or LPDDR4X memory: counted, and its line is poisoned. -/
theorem eccDouble_poisons {m : MemKind} (hm : m = .deckMemory ∨ m = .lpddr) (s : State) (idx addr : Nat) :
    OnlyReports { s with fab := { s.fab with eccUe := satInc s.fab.eccUe, poisoned := addLine s.fab.poisoned (m, idx, addr / 64) } }
        (s.eccDouble m idx addr none)
      ∧ (m, idx, addr / 64) ∈ (s.eccDouble m idx addr none).fab.poisoned := by
  unfold State.eccDouble
  extract_lets src u
  have hu : OnlyReports { s with fab := { s.fab with eccUe := satInc s.fab.eccUe } } u := raise_only _ _ _
  clear_value u
  rcases hm with rfl | rfl <;> exact ⟨poisoned_only hu _, mem_addLine _ _⟩

theorem RolesMove.eccUe {s t : State} (h : RolesMove s t) : t.fab.eccUe = s.fab.eccUe := by rw [h.fab]

theorem loseFrame_eccUe (s : State) (fr cause : Nat) : (s.loseFrame fr cause).fab.eccUe = s.fab.eccUe := by
  rw [(loseFrame_fab s fr cause).1]

/-- A part's isolation counts no error. -/
theorem isolate_eccUe (s : State) (p : Part) : (s.isolate p).fab.eccUe = s.fab.eccUe := by
  unfold State.isolate
  extract_lets u lost v
  have hu : u.fab.eccUe = s.fab.eccUe := by
    unfold u
    cases p <;> rfl
  have hv : RolesMove u v := loseBeads_moves _ _ _
  clear_value u v
  have hvu := hv.eccUe.trans hu
  cases p
  case deck d =>
    dsimp only
    split
    · exact (loseFrame_eccUe _ _ _).trans hvu
    · exact hvu
  all_goals exact hvu

theorem partFault_eccUe (s : State) (p : Part) (check : Nat) : (s.partFault p check).fab.eccUe = s.fab.eccUe := by
  unfold State.partFault
  split
  · rfl
  · have h := (faultEvent_moves s p check).eccUe
    rw [isolate_eccUe, h]

theorem eccDouble_bead (s : State) (idx addr : Nat) :
    (s.eccDouble .beadStore idx addr none).beadWorks idx = false
      ∧ (s.eccDouble .beadStore idx addr none).fab.eccUe = satInc s.fab.eccUe := by
  unfold State.eccDouble
  extract_lets src u
  have hu : RolesMove { s with fab := { s.fab with eccUe := satInc s.fab.eccUe } } u := raise_moves _ _ _
  clear_value u
  exact ⟨partFault_bead_down u idx 0, (partFault_eccUe u _ 0).trans hu.eccUe⟩

theorem eccDouble_rod {s : State} {idx : Nat} (hr : idx ∉ s.fab.rodFail) (hd : idx / 8 ∉ s.fab.deckFail) (addr : Nat) :
    idx ∈ (s.eccDouble .rodScratch idx addr none).fab.rodFail
      ∧ (s.eccDouble .rodScratch idx addr none).fab.eccUe = satInc s.fab.eccUe := by
  unfold State.eccDouble
  extract_lets src u
  have hu : RolesMove { s with fab := { s.fab with eccUe := satInc s.fab.eccUe } } u := raise_moves _ _ _
  clear_value u
  have hrod : u.fab.rodFail = s.fab.rodFail := by rw [hu.fab]
  have hdeck : u.fab.deckFail = s.fab.deckFail := by rw [hu.fab]
  have hup : u.partDown (.rod idx) = false := by simp [State.partDown, hrod, hdeck, hr, hd]
  obtain ⟨-, hrods, -⟩ := partFault_marks hup 0
  exact ⟨hrods (List.mem_singleton_self idx), (partFault_eccUe u _ 0).trans hu.eccUe⟩

theorem emit_beadWorks (s : State) (o : Output) (n : Nat) : (s.emit o).beadWorks n = s.beadWorks n := rfl

theorem rod_up {s : State} {idx : Nat} (h : s.memDown .rodScratch idx = false) : idx ∉ s.fab.rodFail ∧ idx / 8 ∉ s.fab.deckFail := by
  simp only [State.memDown, Bool.or_eq_false_iff, List.contains_eq_mem, decide_eq_false_iff_not] at h
  exact h.1

/-- A read that meets a double-bit error answers, and changes nothing of what the error did. -/
theorem lineRead_double (s : State) (m : MemKind) (idx addr : Nat) :
    ∃ a, s.lineRead ⟨m, idx, addr, .double, none, none⟩ = (s.eccDouble m idx addr none).emit (.memAck a)
      ∧ ((m, idx, addr / 64) ∈ (s.eccDouble m idx addr none).fab.poisoned → a = .poison) := by
  unfold State.lineRead
  dsimp only
  split
  · exact ⟨_, rfl, fun _ => rfl⟩
  · rename_i h
    exact ⟨_, rfl, fun k => absurd (List.contains_iff_mem.mpr k) h⟩

/-! ### The scrubber (R54) -/

theorem scrubRead_clean {s : State} {m : MemKind} {idx : Nat} (h : MemReady s m idx) (w : Nat) :
    s.scrubRead m idx w .clean false none = s := by
  unfold State.scrubRead
  by_cases hm : m = .lpddr
  · simp [h.up, h.crosses hm]
  · simp [h.up, hm]

theorem scrubRead_single {s : State} {m : MemKind} {idx : Nat} (h : MemReady s m idx) (w : Nat) :
    s.scrubRead m idx w .single false none = s.eccSingle m idx (8 * w) := by
  unfold State.scrubRead
  by_cases hm : m = .lpddr
  · simp [h.up, h.crosses hm]
  · simp [h.up, hm]

/-- A word that is owed comes first, and the rest of its level stays owed. -/
theorem scrubStep_owed {s : State} {m : MemKind} {idx w : Nat} (h : MemReady s m idx) (ho : s.scrubOwes = some (m, idx, w)) :
    s.scrubStep .clean false none = { s with
      fab := { s.fab with scrubOwed := s.scrubRest m idx ++ if w + 1 < scrubWords m then [(m, idx, w + 1)] else [] } } := by
  unfold State.scrubStep
  simp only [ho, scrubRead_clean h]
  split <;> simp

theorem scrubStep_pass {s : State} {m : MemKind} {idx w : Nat} (h : MemReady s m idx) (ho : s.scrubOwes = none)
    (hi : s.fab.scrubIdle = false) (hm : s.fab.scrubMem = m) (hx : s.fab.scrubIdx = idx) (hw : s.fab.scrubWord = w)
    (hlt : w + 1 < scrubWords m) (err : MemAccess) :
    s.scrubStep err false none = (s.scrubRead m idx w err false none).scrubTo (some (m, idx, w + 1)) := by
  unfold State.scrubStep
  simp [ho, State.scrubDue, hi, hm, hx, hw, h.awake, scrubAdvance, hlt]

theorem scrubTo_clean {s : State} {m : MemKind} {idx w : Nat} (h : MemReady s m idx) (hi : s.fab.scrubIdle = false)
    (hm : s.fab.scrubMem = m) (hx : s.fab.scrubIdx = idx) :
    (s.scrubRead m idx w .clean false none).scrubTo (some (m, idx, w + 1)) = { s with fab := { s.fab with scrubWord := w + 1 } } := by
  rw [scrubRead_clean h, ← hm, ← hx]
  unfold State.scrubTo
  simp [hi]

theorem scrubTo_single {s : State} {m : MemKind} {idx w : Nat} (h : MemReady s m idx) (hi : s.fab.scrubIdle = false)
    (hm : s.fab.scrubMem = m) (hx : s.fab.scrubIdx = idx) :
    OnlyReports { s with fab := { s.fab with scrubWord := w + 1, eccCe := satInc s.fab.eccCe } }
      ((s.scrubRead m idx w .single false none).scrubTo (some (m, idx, w + 1))) := by
  rw [scrubRead_single h]
  have k := (eccSingle_only s m idx (8 * w)).fabric
    (fun x => { x with scrubMem := m, scrubIdx := idx, scrubWord := w + 1, scrubIdle := false }) (fun _ _ => rfl) (fun _ => rfl)
  have hb : ({ s.fab with
      eccCe := satInc s.fab.eccCe, scrubMem := m, scrubIdx := idx, scrubWord := w + 1, scrubIdle := false } : Fabric)
      = { s.fab with scrubWord := w + 1, eccCe := satInc s.fab.eccCe } := by simp [hm, hx, hi]
  generalize s.eccSingle m idx (8 * w) = t at k ⊢
  exact (congrArg (fun y => OnlyReports { s with fab := y } _) hb).mp k

/-- A level whose deck sleeps stays owed, and the deck sleeps on. -/
theorem scrubStep_asleep {s : State} {m : MemKind} {idx : Nat} (h : s.memAsleep m idx = true) (ho : s.scrubOwes = none)
    (hi : s.fab.scrubIdle = false) (hm : s.fab.scrubMem = m) (hx : s.fab.scrubIdx = idx) :
    (s.scrubStep .clean false none).fab.decks = s.fab.decks ∧ ((s.scrubStep .clean false none).scrubFrom m idx).isSome = true := by
  unfold State.scrubStep
  simp [ho, State.scrubDue, hi, hm, hx, h, State.scrubTo, State.scrubFrom]

/-! ### The obligation -/

theorem access_code (s : State) (idx addr : Nat) (w : MemAccess) :
    exec (.memoryAccess .tallyCode idx addr w none none) s = .next (s.codeRead idx w) := congrArg Host.Outcome.next (if_pos rfl)

/-- The Tally's code memory: an uncorrectable error in the running bank stops it with cause 6 (R379). -/
theorem codeRead_stops {s : State} {bank : Nat} (hb : bank = s.tally.bank) (hp : s.tally.prog.isSome = true)
    (hr : s.tally.run ≠ .stopped) :
    (s.codeRead bank .double).tally.run = .stopped ∧ (s.codeRead bank .double).tally.stopCause = 6
      ∧ (s.codeRead bank .double).out.getLast? = some (.memAck .void) := by
  have hc : s.codeRead bank .double = (s.tStopPlain 6).emit (.memAck .void) := by simp [State.codeRead, hb, hp]
  have h := tStopPlain_outward hr 6
  rw [hc]
  exact ⟨congrArg Outward.run h, congrArg Outward.stopCause h, List.getLast?_concat⟩

theorem OnlyReports.emit {s t : State} (h : OnlyReports s t) (o : Output) : OnlyReports s (t.emit o) := h.trans (emit_only t o)

/-- Settles O4: an access that reaches its memory reads or writes its line, and each outcome of a read is one equation. -/
theorem memoryErrorsAreCorrectedOrPoison : Obligations.MemoryErrorsAreCorrectedOrPoison := by
  unfold Obligations.MemoryErrorsAreCorrectedOrPoison
  intro s m idx addr line req access up ready u
  have isReady : ready → MemReady s m idx := fun ⟨hup, hm, ha, hx⟩ => ⟨hup, hm, ha, hx⟩
  have hu : u = s.touched m idx := rfl
  clear_value u
  subst hu
  refine ⟨?clean, ?single, ?double, ?bead, ?rod, ?poisoned, ?reader, ?write, ?asleep, ?down, ?stopped, ?code, ?owed, ?pass⟩
  case clean =>
    intro h hl
    rw [access_read (isReady h) (by decide), lineRead_clean (by simpa using hl)]
    simp [State.emit]
  case single =>
    intro h hl
    have hx := access_read (addr := addr) (isReady h) (w := .single) (by decide) none none
    rw [lineRead_single (by simpa using hl)] at hx
    have k := eccSingle_only (s.touched m idx) m idx addr
    rw [touched_eccCe] at k
    exact ⟨_, hx, k.emit _, List.getLast?_concat⟩
  case double =>
    intro h hm
    obtain ⟨a, ha, hp⟩ := lineRead_double (s.touched m idx) m idx addr
    obtain ⟨k, hmem⟩ := eccDouble_poisons hm (s.touched m idx) idx addr
    have hx := access_read (addr := addr) (isReady h) (w := .double) (by decide) none none
    rw [ha, hp hmem] at hx
    rw [touched_eccUe, touched_poisoned] at k
    exact ⟨_, hx, k.emit _, List.getLast?_concat⟩
  case bead =>
    rintro h rfl
    obtain ⟨a, ha, -⟩ := lineRead_double s .beadStore idx addr
    obtain ⟨hdown, hcount⟩ := eccDouble_bead s idx addr
    have hx := access_read (addr := addr) (isReady h) (w := .double) (by decide) none none
    have hp := (eccDouble_fails s .beadStore idx addr none).trans (emit_moves _ (.memAck a)).fails
    rw [show s.touched .beadStore idx = s from rfl, ha] at hx
    refine ⟨_, hx, (emit_beadWorks _ _ idx).trans hdown, ?_, hp.places⟩
    rw [State.emit_fab, hcount]
  case rod =>
    rintro h rfl
    obtain ⟨hrod, hdeck⟩ := rod_up (isReady h).up
    obtain ⟨a, ha, -⟩ := lineRead_double s .rodScratch idx addr
    obtain ⟨hfail, hcount⟩ := eccDouble_rod hrod hdeck addr
    have hx := access_read (addr := addr) (isReady h) (w := .double) (by decide) none none
    have hp := (eccDouble_fails s .rodScratch idx addr none).trans (emit_moves _ (.memAck a)).fails
    rw [show s.touched .rodScratch idx = s from rfl, ha] at hx
    refine ⟨_, hx, ?_, ?_, hp.places⟩
    · rwa [State.emit_fab]
    · rw [State.emit_fab, hcount]
  case poisoned =>
    intro h hl
    rw [access_read (isReady h) (by decide), lineRead_poisoned (by simpa using hl)]
    simp [State.emit]
  case reader =>
    intro r h hl hs hr
    have hrole : (s.touched m idx).role r.id = some r := by rw [touched_only]; exact hs
    have hnow : (s.touched m idx).now = s.now := by rw [touched_only]
    rw [access_read (isReady h) (by decide), lineRead_poisoned_by (by simpa using hl) hrole hr, hnow]
  case write =>
    intro h
    have hw : (s.touched m idx).lineWritten m idx addr none = { s.touched m idx with
        fab := { (s.touched m idx).fab with poisoned := (s.touched m idx).fab.poisoned.filter (fun x => x != line) } } := by
      cases m <;> rfl
    rw [access_write (isReady h), hw]
    simp [State.emit]
  case asleep => exact fun w d hup hd hr => access_asleep hup hd hr w
  case down => exact fun w h => access_down h w
  case stopped =>
    rintro w rfl h
    exact access_stopped h w
  case code =>
    rintro rfl
    exact ⟨access_code s idx addr .clean, fun hb hp hr => ⟨_, access_code s idx addr .double, codeRead_stops hb hp hr⟩⟩
  case owed => exact fun w h ho => congrArg Host.Outcome.next (scrubStep_owed (isReady h) ho)
  case pass =>
    intro w ho hi hm hx hw hlt
    refine ⟨fun h => ?_, fun h => ?_⟩
    · have hstep := scrubStep_pass (isReady h) ho hi hm hx hw hlt
      exact ⟨congrArg Host.Outcome.next ((hstep .clean).trans (scrubTo_clean (isReady h) hi hm hx)),
        _, congrArg Host.Outcome.next (hstep .single), scrubTo_single (isReady h) hi hm hx⟩
    · obtain ⟨hdecks, hfrom⟩ := scrubStep_asleep h ho hi hm hx
      exact ⟨s.scrubStep .clean false none, rfl, hdecks, hfrom⟩

end Sys2Proof.Machine

/-! PROOF. The power-fail warning and the loss of the beam (R25, R457, R620, R626, R667, R673): what each stage shows outward. -/

namespace Sys2Proof.Machine

open Sys2Proof

/-! ### Reading what is shown -/

section

variable {t : State} {o : Outward}

theorem sup_of_outward (h : t.outward = o) : t.sup = o.sup := congrArg Outward.sup h
theorem fuses_of_outward (h : t.outward = o) : t.fuses = o.fuses := congrArg Outward.fuses h
theorem panel_of_outward (h : t.outward = o) : t.panel = o.panel := congrArg Outward.panel h
theorem tag_of_outward (h : t.outward = o) : t.tag = o.tag := congrArg Outward.tag h
theorem capturing_of_outward (h : t.outward = o) : t.nlog.capturing = o.capturing := congrArg Outward.capturing h
theorem slots_of_outward (h : t.outward = o) : t.nlog.slots = o.slots := congrArg Outward.slots h
theorem linkUp_of_outward (h : t.outward = o) : t.host.linkUp = o.linkUp := congrArg Outward.linkUp h
theorem ringEn_of_outward (h : t.outward = o) : t.ring.en = o.ringEn := congrArg Outward.ringEn h
theorem legsClosed_of_outward (h : t.outward = o) : t.ring.legsClosed = o.legsClosed := congrArg Outward.legsClosed h
theorem linkA_of_outward (h : t.outward = o) : t.ring.linkA = o.linkA := congrArg Outward.linkA h
theorem linkB_of_outward (h : t.outward = o) : t.ring.linkB = o.linkB := congrArg Outward.linkB h
theorem run_of_outward (h : t.outward = o) : t.tally.run = o.run := congrArg Outward.run h
theorem stopCause_of_outward (h : t.outward = o) : t.tally.stopCause = o.stopCause := congrArg Outward.stopCause h
theorem outImg_of_outward (h : t.outward = o) : t.tally.outImg = o.outImg := congrArg Outward.outImg h
theorem safeDio_of_outward (h : t.outward = o) : t.tally.cfg.safeDio = o.safeDio := congrArg Outward.safeDio h
theorem beamLost_of_outward (h : t.outward = o) : t.fab.beamLost = o.beamLost := congrArg Outward.beamLost h
theorem role_of_outward (h : t.outward = o) : t.twin.role = o.role := congrArg Outward.role h
theorem epoch_of_outward (h : t.outward = o) : t.twin.epoch = o.epoch := congrArg Outward.epoch h
theorem roles_of_outward (h : t.outward = o) : t.place.roles.map Role.standing = o.roles := congrArg Outward.roles h

end

/-! ### Stages that show nothing -/

theorem sensed_quiet (s : State) (k raw : Nat) : Quiet s (s.sensed k raw).1 := by
  unfold Quiet
  rw [sensed_only]
  rfl

theorem judgeFit_quiet (s : State) : Quiet s s.judgeFit := by
  unfold State.judgeFit
  exact Quiet.ite (.refl s) (Quiet.trans (t := s.fitNow) rfl (raise_quiet _ _ _))

theorem alarm_quiet (s : State) (x : Nat) : Quiet s (s.alarm x) := by
  unfold State.alarm State.xingEvent
  split
  · exact .refl s
  · split <;> exact .refl s

theorem retireAllFrames_quiet (s : State) : Quiet s s.retireAllFrames := by
  unfold Quiet
  rw [retireAllFrames_only]
  rfl

theorem outputsOff_quiet (s : State) : Quiet s s.outputsOff := by
  unfold State.outputsOff
  exact Quiet.trans (.foldl (fun s p => cross_quiet s _ _) _ s) rfl

theorem xferFail_quiet (s : State) : Quiet s s.xferFail := by
  unfold State.xferFail
  split
  · exact Quiet.trans (t := { s with svc := { s.svc with xfer := none } }) rfl (cross_quiet _ _ _)
  · exact .refl s

/-! ### The ring and the host link -/

/-- The legs close and the ring is disabled (R457). -/
theorem closeLegs_outward (s : State) (cause waiting : Nat) :
    (s.closeLegs cause waiting).outward = { s.outward with ringEn := .disabled, legsClosed := true } := by
  unfold State.closeLegs
  extract_lets was gone u v
  have hu : u.outward = { s.outward with ringEn := .disabled, legsClosed := true } := rfl
  have hv : Quiet u v := Quiet.ite (.refl u) ((retireAllFrames_quiet u).trans (raise_quiet _ _ _))
  clear_value u v
  exact Eq.trans (hv.trans ((Quiet.ite (.refl v) (raise_quiet _ _ _)).trans (judgeFit_quiet _))) hu

theorem dropRings_quiet (s : State) : Quiet s s.dropRings := rfl

theorem stopXing_quiet (s : State) (x : Nat) : Quiet s (s.stopXing x) := by
  unfold State.stopXing
  exact Quiet.ite (.refl s) rfl

theorem linkDown_outward (s : State) : s.linkDown.outward = { s.outward with linkUp := false } := by
  unfold State.linkDown
  split
  · rename_i h
    have hl : s.host.linkUp = false := by simpa using h
    unfold State.outward
    rw [hl]
  · extract_lets host u ran v
    have hu : u.outward = { s.outward with linkUp := false } :=
      (alarm_quiet { s with host := { s.host with linkUp := false } } 0x02).trans (dropRings_quiet _)
    have hv : Quiet u v := .foldl stopXing_quiet ran u
    clear_value u ran v
    exact Eq.trans (hv.trans ((Quiet.foldl (fun s x => raise_quiet s _ _) ran v).trans (raise_quiet _ _ _))) hu

/-! ### The Tally, the meters, the panel and the tag -/

/-- The Tally is stopped, by this warning with cause 8 where it ran (R380, R382). -/
theorem tallyFlushNow_outward (s : State) : ∃ b c img,
    s.tallyFlushNow.outward = { s.outward with
      sup := { s.sup with tallyFlush := b }, run := .stopped, stopCause := c, outImg := img }
    ∧ (s.tally.run ≠ .stopped → c = 8 ∧ img = s.tally.cfg.safeDio) := by
  have hstop : ∃ c img, (s.tStopPlain 8).outward = { s.outward with run := .stopped, stopCause := c, outImg := img }
      ∧ (s.tally.run ≠ .stopped → c = 8 ∧ img = s.tally.cfg.safeDio) := by
    by_cases h : s.tally.run = .stopped
    · refine ⟨s.tally.stopCause, s.tally.outImg, ?_, fun k => absurd h k⟩
      rw [tStopPlain_of_stopped h]
      unfold State.outward
      rw [h]
    · exact ⟨8, s.tally.cfg.safeDio, tStopPlain_outward h 8, fun _ => ⟨rfl, rfl⟩⟩
  obtain ⟨c, img, hout, hc⟩ := hstop
  unfold State.tallyFlushNow
  extract_lets due part u cells
  have hu : u.outward = { s.outward with run := .stopped, stopCause := c, outImg := img } := hout
  clear_value u
  have hsup : u.sup = s.sup := sup_of_outward hu
  split
  · refine ⟨true, c, img, ?_, hc⟩
    have hf : ∀ r, ({ u with sup := { u.sup with tallyFlush := true }, tally := { u.tally with flash := r } } : State).outward
        = { u.outward with sup := { u.sup with tallyFlush := true } } := fun _ => rfl
    rw [hf, hsup, hu]
  · exact ⟨s.sup.tallyFlush, c, img, hu, hc⟩

theorem meterFlushNow_outward (s : State) : ∃ b,
    s.meterFlushNow.outward = { s.outward with sup := { s.sup with meterFlush := b } } := by
  unfold State.meterFlushNow
  split
  · exact ⟨s.sup.meterFlush, rfl⟩
  · exact ⟨true, rfl⟩

theorem panelDark_outward (s : State) (st : PanelSt) : ∃ p, (s.panelDark st).outward = { s.outward with panel := p }
    ∧ p.st = st ∧ p.pnlDis = true ∧ p.pnlEn = false := ⟨_, rfl, rfl, rfl, rfl⟩

/-- A running panel goes dark (R620). -/
theorem panelPowerFail_outward (s : State) : ∃ p, s.panelPowerFail.outward = { s.outward with panel := p }
    ∧ (s.panel.st = .running → p.st = .blanked ∧ p.pnlDis = true ∧ p.pnlEn = false) := by
  have off : ∀ u : State, ∃ p, (u.setPanel { u.panel with en := .disabled }).outward = { u.outward with panel := p }
      ∧ p.st = u.panel.st ∧ p.pnlDis = u.panel.pnlDis ∧ p.pnlEn = u.panel.pnlEn := fun u => ⟨_, rfl, rfl, rfl, rfl⟩
  obtain ⟨p, hp, hst, hdis, hen⟩ := panelDark_outward s .blanked
  obtain ⟨q, hq, hqst, hqdis, hqen⟩ := off (s.panelDark .blanked)
  have hpanel : (s.panelDark .blanked).panel = p := panel_of_outward hp
  rw [hpanel] at hqst hqdis hqen
  rw [hp] at hq
  have dark := And.intro (hqst.trans hst) (And.intro (hqdis.trans hdis) (hqen.trans hen))
  unfold State.panelPowerFail
  split
  · split
    · exact ⟨q, Eq.trans (raise_quiet _ _ _) hq, fun _ => dark⟩
    · exact ⟨q, hq, fun _ => dark⟩
  · rename_i h
    exact ⟨s.panel, rfl, fun k => absurd k h⟩

theorem tagAnswer_quiet (s : State) (u : TagUpd) (st : Nat) : Quiet s (s.tagAnswer u st) := by
  unfold State.tagAnswer
  split
  · exact Quiet.trans (t := { s with freeCnt := s.freeCnt + 1 }) rfl (answer_quiet _ _ _ _)
  · exact .refl s

theorem tagStart_outward (s : State) (u : TagUpd) : ∃ t, (s.tagStart u).outward = { s.outward with tag := t }
    ∧ t.powerFail = s.tag.powerFail ∧ t.wait = none := ⟨_, rfl, rfl, rfl⟩

/-- The tag takes no more updates (R626). -/
theorem tagPowerFail_outward (s : State) : ∃ t, s.tagPowerFail.outward = { s.outward with tag := t }
    ∧ t.powerFail = true ∧ t.wait.bind (fun (u : TagUpd) => u.ref) = none := by
  unfold State.tagPowerFail
  extract_lets tag u tag' v
  have hu : u.outward = { s.outward with tag := u.tag } ∧ u.tag.wait = none := by
    unfold u
    split
    · rename_i w hw
      have h := tagAnswer_quiet (s.setTag { s.tag with wait := none }) w poPowerFail
      have ht : ((s.setTag { s.tag with wait := none }).tagAnswer w poPowerFail).tag = { s.tag with wait := none } := tag_of_outward h
      rw [ht]
      exact ⟨h, rfl⟩
    · exact ⟨rfl, ‹_›⟩
  have hv : v.outward = { u.outward with tag := v.tag } ∧ v.tag.powerFail = true ∧ v.tag.wait = u.tag.wait := ⟨rfl, rfl, rfl⟩
  clear_value u v
  obtain ⟨hus, huw⟩ := hu
  obtain ⟨hvs, hvp, hvw⟩ := hv
  have hvo : v.outward = { s.outward with tag := v.tag } := by rw [hvs, hus]
  have hvn : v.tag.wait = none := hvw.trans huw
  split
  · unfold State.tagAccept
    split
    · obtain ⟨t, ht, htp, htw⟩ := tagStart_outward v { ref := none, image := 0, full := false, fail := true }
      exact ⟨t, by rw [ht, hvo], htp.trans hvp, by rw [htw]; rfl⟩
    · simp only [hvn]
      refine ⟨{ v.tag with wait := some { ref := none, image := 0, full := false, fail := true } }, ?_, hvp, rfl⟩
      have hset : ∀ t, (v.setTag t).outward = { v.outward with tag := t } := fun _ => rfl
      rw [hset, hvo]
  · exact ⟨v.tag, hvo, hvp, by rw [hvn]; rfl⟩

/-! ### The rails (R667) -/

theorem deck_modDeck (s : State) (d e : Nat) (f : Deck → Deck) :
    (s.modDeck d f).deck e = s.deck e ∨ (e = d ∧ (s.modDeck d f).deck e = f (s.deck e)) := by
  simp only [State.modDeck, State.deck, List.getD_eq_getElem?_getD, List.getElem?_modify]
  by_cases h : d = e
  · subst h
    cases s.fab.decks[d]? <;> simp
  · simp [h]

/-- A deck that is not there has no rail. -/
theorem rail_of_not_lt {s : State} {d : Nat} (h : ¬ d < s.fab.decks.length) : (s.deck d).rail = 0 := by
  unfold State.deck
  rw [List.getD_eq_default _ _ (by omega)]
  rfl

theorem railOff_quiet (s : State) (d : Nat) : Quiet s (s.railOff d) := rfl

theorem railOff_length (s : State) (d : Nat) : (s.railOff d).fab.decks.length = s.fab.decks.length := List.length_modify _ _ _

theorem railOff_self (s : State) (d : Nat) : ((s.railOff d).deck d).rail = 0 := by
  by_cases h : d < s.fab.decks.length
  · have hd : (s.railOff d).fab.decks = s.fab.decks.modify d (fun k => { k with rail := 0, held := [] }) := rfl
    simp [State.deck, hd, h]
  · exact rail_of_not_lt (by rwa [railOff_length])

theorem railOff_zero {s : State} {e : Nat} (h : (s.deck e).rail = 0) (d : Nat) : ((s.railOff d).deck e).rail = 0 := by
  have hv : (s.voidHeld (.deck d)).deck e = s.deck e := rfl
  obtain hd | ⟨-, hd⟩ := deck_modDeck (s.voidHeld (.deck d)) d e (fun k => { k with rail := 0, held := [] })
  · exact (congrArg Deck.rail (hd.trans hv)).trans h
  · exact congrArg Deck.rail hd

theorem railsOff_zero {ds : List Nat} {s : State} {d : Nat} (h : d ∈ ds ∨ (s.deck d).rail = 0) :
    ((ds.foldl State.railOff s).deck d).rail = 0 := by
  induction ds generalizing s with
  | nil => exact h.resolve_left List.not_mem_nil
  | cons e ds ih =>
    refine ih ?_
    by_cases he : d = e
    · exact .inr (he ▸ railOff_self s d)
    · exact h.imp (fun k => (List.mem_cons.mp k).resolve_left he) (fun k => railOff_zero k e)

/-- Decks without a live metering role lose their rails. -/
theorem railsOff_rail {s : State} {d : Nat} (h : ∀ r ∈ s.place.roles, roleKind r.id = 7 → r.st ≠ .retired → deckOf r.bead ≠ d) :
    (s.railsOff.deck d).rail = 0 := by
  unfold State.railsOff
  refine railsOff_zero ?_
  by_cases hd : d < s.fab.decks.length
  · refine .inl (List.mem_filter.mpr ⟨List.mem_range.mpr hd, ?_⟩)
    simpa using h
  · exact .inr (rail_of_not_lt hd)

theorem railsOff_quiet (s : State) : Quiet s s.railsOff := .foldl railOff_quiet _ s

/-! ### Power failure -/

/-- The warning is noted and raised, and records go to the capture store. -/
def State.warned (s : State) (cause vin vhold : Nat) : State :=
  let v := s.sensed 0 vin
  let h := v.1.sensed 1 vhold
  let s : State := { h.1 with
    sup := { h.1.sup with pfCnt := min (h.1.sup.pfCnt + 1) 0xFFFFFFFF, pfwLow := true, rstLow := cause == 1 }
    nlog := h.1.nlog.toCapture }
  s.raise 0x02 [u16 cause, u32 v.2, u32 (s.usableMj h.2)]

/-- Outputs, the host link and the ring's links go. -/
def State.unlinked (s : State) : State :=
  { s.outputsOff.linkDown with ring := { s.outputsOff.linkDown.ring with linkA := false, linkB := false } }

theorem warned_outward (s : State) (cause vin vhold : Nat) :
    (s.warned cause vin vhold).outward = { s.outward with
      sup := { s.sup with pfCnt := min (s.sup.pfCnt + 1) 0xFFFFFFFF, pfwLow := true, rstLow := cause == 1 }, capturing := true } := by
  have hh : ((s.sensed 0 vin).1.sensed 1 vhold).1.outward = s.outward := (sensed_quiet s 0 vin).trans (sensed_quiet _ 1 vhold)
  unfold State.warned
  extract_lets v h held sup u
  have hu : u.outward = { h.1.outward with
      sup := { h.1.sup with pfCnt := min (h.1.sup.pfCnt + 1) 0xFFFFFFFF, pfwLow := true, rstLow := cause == 1 }, capturing := true } := rfl
  have hsup : h.1.sup = s.sup := sup_of_outward hh
  clear_value u
  rw [hsup, hh] at hu
  exact Eq.trans (raise_quiet u _ _) hu

theorem unlinked_outward (s : State) : s.unlinked.outward = { s.outward with linkUp := false, linkA := false, linkB := false } := by
  have h := linkDown_outward s.outputsOff
  rw [outputsOff_quiet s] at h
  unfold State.unlinked
  generalize s.outputsOff.linkDown = u at h ⊢
  have hu : ({ u with ring := { u.ring with linkA := false, linkB := false } } : State).outward
      = { u.outward with linkA := false, linkB := false } := rfl
  rw [hu, h]

theorem powerFail_none {s : State} (h : s.sup.step = 0 ∨ s.sup.holdUp = true) (cause vin vhold waiting : Nat) :
    s.powerFail cause vin vhold waiting = s := if_pos (by simpa using h)

theorem powerFail_stages {s : State} (h0 : s.sup.step ≠ 0) (hh : s.sup.holdUp = false) (cause vin vhold waiting : Nat) :
    let u := (((s.warned cause vin vhold).closeLegs legRing waiting).tallyFlushNow.unlinked.panelPowerFail.tagPowerFail.xferFail
      ).meterFlushNow.railsOff
    s.powerFail cause vin vhold waiting = { u with sup := { u.sup with holdUp := true } } := by
  unfold State.powerFail State.warned State.unlinked
  rw [if_neg (by simp [h0, hh])]

/-- What the stages before the rails show outward. -/
theorem heldUp_outward (s : State) (cause vin vhold waiting : Nat) : ∃ flush save stop img panel tag,
    ((((s.warned cause vin vhold).closeLegs legRing waiting).tallyFlushNow.unlinked.panelPowerFail.tagPowerFail.xferFail).meterFlushNow).outward
      = { s.outward with
        sup := { s.sup with
          pfCnt := min (s.sup.pfCnt + 1) 0xFFFFFFFF, pfwLow := true, rstLow := cause == 1, tallyFlush := flush, meterFlush := save }
        capturing := true, ringEn := .disabled, legsClosed := true, linkUp := false, linkA := false, linkB := false, run := .stopped,
        stopCause := stop, outImg := img, panel := panel, tag := tag }
    ∧ (s.tally.run ≠ .stopped → stop = 8 ∧ img = s.tally.cfg.safeDio)
    ∧ (s.panel.st = .running → panel.st = .blanked ∧ panel.pnlDis = true ∧ panel.pnlEn = false)
    ∧ tag.powerFail = true ∧ tag.wait.bind (fun (u : TagUpd) => u.ref) = none := by
  have ha := closeLegs_outward (s.warned cause vin vhold) legRing waiting
  rw [warned_outward] at ha
  generalize (s.warned cause vin vhold).closeLegs legRing waiting = a at ha ⊢
  obtain ⟨flush, stop, img, hb, hstop⟩ := tallyFlushNow_outward a
  generalize a.tallyFlushNow = b at hb ⊢
  have hc := unlinked_outward b
  generalize b.unlinked = c at hc ⊢
  obtain ⟨panel, hd, hpanel⟩ := panelPowerFail_outward c
  generalize c.panelPowerFail = d at hd ⊢
  obtain ⟨tag, he, htag⟩ := tagPowerFail_outward d
  generalize d.tagPowerFail = e at he ⊢
  have hf : e.xferFail.outward = e.outward := xferFail_quiet e
  generalize e.xferFail = f at hf ⊢
  obtain ⟨save, hg⟩ := meterFlushNow_outward f
  have hrun : a.tally.run = s.tally.run := run_of_outward ha
  have hsafe : a.tally.cfg.safeDio = s.tally.cfg.safeDio := safeDio_of_outward ha
  have hasup : a.sup = { s.sup with pfCnt := min (s.sup.pfCnt + 1) 0xFFFFFFFF, pfwLow := true, rstLow := cause == 1 } :=
    sup_of_outward ha
  rw [hb, hasup, ha] at hc
  have hcpanel : c.panel = s.panel := panel_of_outward hc
  rw [hd, hc] at he
  rw [he] at hf
  rw [hf] at hg
  have hfsup : f.sup = { s.sup with
      pfCnt := min (s.sup.pfCnt + 1) 0xFFFFFFFF, pfwLow := true, rstLow := cause == 1, tallyFlush := flush } :=
    sup_of_outward hf
  rw [hrun, hsafe] at hstop
  rw [hcpanel] at hpanel
  rw [hfsup] at hg
  exact ⟨flush, save, stop, img, panel, tag, hg, hstop, hpanel, htag⟩

/-- Roles that stand as before are metering roles and live as before. -/
theorem noMeter_of_standing {s t : State} (h : t.place.roles.map Role.standing = s.place.roles.map Role.standing) {d : Nat}
    (k : ∀ r ∈ s.place.roles, roleKind r.id = 7 → r.st ≠ .retired → deckOf r.bead ≠ d) :
    ∀ r ∈ t.place.roles, roleKind r.id = 7 → r.st ≠ .retired → deckOf r.bead ≠ d := by
  intro r hr hkind hst
  have hm : r.standing ∈ s.place.roles.map Role.standing := h ▸ List.mem_map_of_mem hr
  obtain ⟨x, hx, hs⟩ := List.mem_map.mp hm
  obtain ⟨hid, hbead, hxst⟩ : x.id = r.id ∧ x.bead = r.bead ∧ x.st = r.st := by simpa [Role.standing] using hs
  rw [← hbead]
  exact k x hx (by rwa [hid]) (by rwa [hxst])

/-- The state after a power failure, by what the stages show. -/
structure PowerFailed (s t : State) (cause : Nat) : Prop where
  sup : t.sup.holdUp = true ∧ t.sup.pfCnt = min (s.sup.pfCnt + 1) 0xFFFFFFFF ∧ t.sup.pfwLow = true ∧ t.sup.rstLow = (cause == 1)
  log : t.nlog.capturing = true ∧ t.nlog.slots = s.nlog.slots
  ring : t.ring.en = .disabled ∧ t.ring.legsClosed = true ∧ t.ring.linkA = false ∧ t.ring.linkB = false
  link : t.host.linkUp = false
  tally : t.tally.run = .stopped ∧ (s.tally.run ≠ .stopped → t.tally.stopCause = 8 ∧ t.tally.outImg = s.tally.cfg.safeDio)
  panel : s.panel.st = .running → t.panel.st = .blanked ∧ t.panel.pnlDis = true ∧ t.panel.pnlEn = false
  tag : t.tag.powerFail = true ∧ t.tag.wait.bind (fun (u : TagUpd) => u.ref) = none
  rails : ∀ d, (∀ r ∈ s.place.roles, roleKind r.id = 7 → r.st ≠ .retired → deckOf r.bead ≠ d) → (t.deck d).rail = 0
  fuses : t.fuses = s.fuses

/-- Removing the rails and noting the hold-up completes the sequence. -/
theorem powerFailed_of_heldUp {s u : State} {cause : Nat} {flush save : Bool} {stop : Nat} {img : Word} {panel : Panel} {tag : Tag}
    (h : u.outward = { s.outward with
      sup := { s.sup with
        pfCnt := min (s.sup.pfCnt + 1) 0xFFFFFFFF, pfwLow := true, rstLow := cause == 1, tallyFlush := flush, meterFlush := save }
      capturing := true, ringEn := .disabled, legsClosed := true, linkUp := false, linkA := false, linkB := false, run := .stopped,
      stopCause := stop, outImg := img, panel := panel, tag := tag })
    (hstop : s.tally.run ≠ .stopped → stop = 8 ∧ img = s.tally.cfg.safeDio)
    (hpanel : s.panel.st = .running → panel.st = .blanked ∧ panel.pnlDis = true ∧ panel.pnlEn = false)
    (htag : tag.powerFail = true ∧ tag.wait.bind (fun (u : TagUpd) => u.ref) = none) :
    PowerFailed s { u.railsOff with sup := { u.railsOff.sup with holdUp := true } } cause := by
  have hrails : ∀ d, (∀ r ∈ s.place.roles, roleKind r.id = 7 → r.st ≠ .retired → deckOf r.bead ≠ d) → (u.railsOff.deck d).rail = 0 :=
    fun d hd => railsOff_rail (noMeter_of_standing (roles_of_outward h) hd)
  have hv := Eq.trans (railsOff_quiet u) h
  generalize u.railsOff = v at hv hrails ⊢
  have hsup := sup_of_outward hv
  have hp := panel_of_outward hv
  have ht := tag_of_outward hv
  have hc := stopCause_of_outward hv
  have hi := outImg_of_outward hv
  exact {
    sup := ⟨rfl, by rw [hsup], by rw [hsup], by rw [hsup]⟩
    log := ⟨capturing_of_outward hv, slots_of_outward hv⟩
    ring := ⟨ringEn_of_outward hv, legsClosed_of_outward hv, linkA_of_outward hv, linkB_of_outward hv⟩
    link := linkUp_of_outward hv
    tally := ⟨run_of_outward hv, fun k => ⟨hc.trans (hstop k).1, hi.trans (hstop k).2⟩⟩
    panel := fun k => by rw [hp]; exact hpanel k
    tag := by rw [ht]; exact htag
    rails := hrails
    fuses := fuses_of_outward hv }

theorem powerFail_failed {s : State} (h0 : s.sup.step ≠ 0) (hh : s.sup.holdUp = false) (cause vin vhold waiting : Nat) :
    PowerFailed s (s.powerFail cause vin vhold waiting) cause := by
  obtain ⟨flush, save, stop, img, panel, tag, hout, hstop, hpanel, htag⟩ := heldUp_outward s cause vin vhold waiting
  rw [powerFail_stages h0 hh]
  exact powerFailed_of_heldUp hout hstop hpanel htag

/-! ### The engines end (R203, R238, R270, R345, R393) -/

/-- `t` shows outward what `s` shows, but for the Tally's run, cause and image. -/
def QuietButTally (s t : State) : Prop := ∃ run cause img, t.outward = { s.outward with run := run, stopCause := cause, outImg := img }

theorem Quiet.butTally {s t : State} (h : Quiet s t) : QuietButTally s t := ⟨s.tally.run, s.tally.stopCause, s.tally.outImg, h⟩

theorem QuietButTally.trans {s t u : State} (h : QuietButTally s t) (k : QuietButTally t u) : QuietButTally s u := by
  obtain ⟨_, _, _, h⟩ := h
  obtain ⟨r, c, i, k⟩ := k
  exact ⟨r, c, i, by rw [k, h]⟩

theorem modelLeave_quiet (s : State) : Quiet s s.modelLeave := by
  unfold State.modelLeave
  split
  · exact Quiet.ite (.refl s) rfl
  · exact .refl s

theorem reckDrop_quiet (s : State) : Quiet s s.reckDrop := by
  unfold State.reckDrop
  split
  · unfold State.settleReck
    refine Quiet.trans (t := ({ s with reck := { s.reck with running := none } } : State).noteClear) rfl (Quiet.ite ?_ (.refl _))
    exact Quiet.trans (t := { ({ s with reck := { s.reck with running := none } } : State).noteClear with
      reck := { ({ s with reck := { s.reck with running := none } } : State).noteClear.reck with en := .disabled } }) rfl (raise_quiet _ _ _)
  · exact .refl s

theorem layerDrop_quiet (s : State) (y : Layer) : Quiet s (s.layerDrop y) := by
  unfold State.layerDrop
  exact Quiet.ite rfl rfl

theorem settleOpt_quiet (s : State) : Quiet s s.settleOpt := by
  unfold State.settleOpt
  exact Quiet.ite (Quiet.trans (t := { s with opt := { s.opt with en := .disabled } }) rfl (raise_quiet _ _ _)) (.refl s)

theorem optDrop_quiet (s : State) : Quiet s s.optDrop :=
  ((layerDrop_quiet s _).trans (layerDrop_quiet _ _)).trans (settleOpt_quiet _)

theorem settleLook_quiet (s : State) : Quiet s s.settleLook := by
  unfold State.settleLook
  exact Quiet.ite (Quiet.trans (t := { s with la := { s.la with en := .disabled } }) rfl (raise_quiet _ _ _)) (.refl s)

theorem laDrop_quiet (s : State) : Quiet s s.laDrop := by
  have runs : Quiet s (s.la.runs.foldl (fun s r => s.unpin (0x100 + r.number)) s) :=
    .foldl (f := fun s (r : LaRun) => s.unpin (0x100 + r.number)) (fun _ _ => rfl) _ s
  have clear : ∀ u : State, Quiet u { u with la := { u.la with runs := [], queue := [], withdrawals := [], delivered := [] } } := fun _ => rfl
  exact runs.trans ((clear _).trans (settleLook_quiet _))

theorem refuseChange_quiet (s : State) (c : Change) : Quiet s (s.refuseChange c) := by
  unfold State.refuseChange
  extract_lets x roll u
  have hu : Quiet s u := rfl
  clear_value u
  exact hu.trans (endRoll_quiet u x _ _)

theorem rollDrop_quiet (s : State) : Quiet s s.rollDrop := by
  have changes : Quiet s (s.roll.incoming.foldl State.refuseChange { s with roll := { s.roll with incoming := [] } }) :=
    Quiet.trans (t := { s with roll := { s.roll with incoming := [] } }) rfl (.foldl refuseChange_quiet _ _)
  have clear : ∀ u : State, Quiet u { u with roll := { u.roll with rolls := [] } } := fun _ => rfl
  have ends : ∀ (xs : List Rollout) (u : State), Quiet u (xs.foldl (fun s x => s.endRoll x .retired 6) u) :=
    fun xs u => .foldl (fun s x => endRoll_quiet s x _ _) xs u
  exact changes.trans ((clear _).trans ((ends _ _).trans (settleRoll_quiet _)))

theorem loopMode_quiet (s : State) (n : Nat) (l : Loop) (m : LoopMode) (cause : Nat) : Quiet s (s.loopMode n l m cause) := by
  unfold State.loopMode
  exact Quiet.ite rfl (Quiet.trans (t := s.setLoop n { l with mode := m }) rfl (raise_quiet _ _ _))

theorem eachLoop_quiet {f : State → Nat → Loop → State} (h : ∀ s n l, Quiet s (f s n l)) (s : State) : Quiet s (s.eachLoop f) := by
  refine .foldl (fun s n => ?_) _ s
  split
  · exact h _ _ _
  · exact .refl s

theorem endTrace_quiet (s : State) : Quiet s s.endTrace := by
  unfold State.endTrace
  split
  · exact Quiet.trans (t := { s with loops := { s.loops with trace := none } }) rfl (answer_quiet _ _ _ _)
  · exact .refl s

theorem loopsFollow_quiet (s : State) : Quiet s s.loopsFollow := by
  unfold State.loopsFollow
  extract_lets one loops u
  have hu : Quiet s u := rfl
  have hone : ∀ s n l, Quiet s (one s n l) := fun s n l => loopMode_quiet _ _ _ _ _
  clear_value u one
  exact hu.trans ((eachLoop_quiet hone u).trans (endTrace_quiet _))

theorem refuseExchange_butTally (s : State) : QuietButTally s s.refuseExchange := by
  unfold State.refuseExchange
  split
  · extract_lets go tally u b v
    have hu : QuietButTally s u := ⟨_, _, _, rfl⟩
    have hv : Quiet u v := Quiet.ite rfl (.refl u)
    clear_value u v
    exact hu.trans (hv.trans (answer_quiet _ _ _ _)).butTally
  · exact (Quiet.refl s).butTally

theorem tSettle_butTally (s : State) : QuietButTally s s.tSettle := by
  unfold State.tSettle State.tStop
  split
  · split
    · exact (tQuiesced_quiet s).butTally
    · exact ⟨_, _, _, tStopNow_outward _ _ _ _ _⟩
  · exact (Quiet.refl s).butTally

theorem tallyLeave_butTally (s : State) : QuietButTally s s.tallyLeave := by
  have halt : Quiet s s.tHalt := rfl
  exact ((halt.butTally.trans (refuseExchange_butTally _)).trans (driveDio_quiet _).butTally).trans (tSettle_butTally _)

/-- The engines' ends touch nothing outward but the Tally. -/
theorem enginesStop_butTally (s : State) : QuietButTally s s.enginesStop := by
  have plan : Quiet s s.modelLeave.reckDrop.optDrop.laDrop.rollDrop :=
    (((modelLeave_quiet s).trans (reckDrop_quiet _)).trans (optDrop_quiet _)).trans ((laDrop_quiet _).trans (rollDrop_quiet _))
  exact (plan.butTally.trans (tallyLeave_butTally _)).trans (loopsFollow_quiet _).butTally

/-! ### The obligation -/

/-- The stages of a beam's loss before its twin function and buses end. -/
theorem beamLoss_outward (s : State) (waiting : Nat) : ∃ run cause img,
    ((({ s with fab := { s.fab with beamLost := true } } : State).closeLegs legBeam waiting).linkDown.enginesStop.outputsOff).outward
      = { s.outward with
        beamLost := true, ringEn := .disabled, legsClosed := true, linkUp := false, run := run, stopCause := cause, outImg := img } := by
  have ha : ({ s with fab := { s.fab with beamLost := true } } : State).outward = { s.outward with beamLost := true } := rfl
  have hb := closeLegs_outward { s with fab := { s.fab with beamLost := true } } legBeam waiting
  rw [ha] at hb
  generalize State.closeLegs _ legBeam waiting = b at hb ⊢
  have hc := linkDown_outward b
  rw [hb] at hc
  obtain ⟨run, cause, img, hd⟩ := enginesStop_butTally b.linkDown
  rw [hc] at hd
  exact ⟨run, cause, img, Eq.trans (outputsOff_quiet _) hd⟩

theorem beamLoss_stages {s : State} (h : s.fab.beamLost = false) (waiting : Nat) :
    let u := (({ s with fab := { s.fab with beamLost := true } } : State).closeLegs legBeam waiting).linkDown.enginesStop.outputsOff
    s.beamLoss waiting = { u with
      twin := { u.twin with en := .disabled }
      can := u.can.map (fun b => { b with en := .disabled }) } := by
  unfold State.beamLoss
  rw [if_neg (by simp [h])]

theorem beamLoss_lost {s : State} (h : s.fab.beamLost = false) (waiting : Nat) :
    (s.beamLoss waiting).fab.beamLost = true ∧ (s.beamLoss waiting).ring.en = .disabled
      ∧ (s.beamLoss waiting).ring.legsClosed = true ∧ (s.beamLoss waiting).host.linkUp = false
      ∧ (s.beamLoss waiting).twin.en = .disabled ∧ ∀ b ∈ (s.beamLoss waiting).can, b.en = .disabled := by
  obtain ⟨run, cause, img, hout⟩ := beamLoss_outward s waiting
  rw [beamLoss_stages h]
  generalize State.outputsOff _ = u at hout ⊢
  refine ⟨beamLost_of_outward hout, ringEn_of_outward hout, legsClosed_of_outward hout, linkUp_of_outward hout, rfl, fun b hb => ?_⟩
  obtain ⟨x, -, rfl⟩ := List.mem_map.mp hb
  rfl

/-- The two commands of a power failure, by their causes. -/
theorem exec_powerFail {c : Instr} {vin vhold waiting : Nat} (hc : c = .powerFailWarning vin vhold waiting ∨ c = .rstNRequest vin vhold waiting) :
    ∃ cause, (∀ s, exec c s = .next (s.powerFail cause vin vhold waiting))
      ∧ ((cause == 1) = true ↔ c = .rstNRequest vin vhold waiting) := by
  rcases hc with rfl | rfl
  · exact ⟨0, fun _ => rfl, by simp⟩
  · exact ⟨1, fun _ => rfl, by simp⟩

/-- Settles O51: each stage of the sequence shows one part outward, and the stages after it leave that part alone. -/
theorem powerFailurePutsThePlantSafe : Obligations.PowerFailurePutsThePlantSafe := by
  unfold Obligations.PowerFailurePutsThePlantSafe
  intro s vin vhold waiting c
  refine ⟨fun hc => ?_, fun h => congrArg Host.Outcome.next (if_pos h), fun h => ⟨_, rfl, beamLoss_lost h waiting⟩⟩
  obtain ⟨cause, hexec, hcause⟩ := exec_powerFail hc
  refine ⟨fun h => (hexec s).trans (congrArg Host.Outcome.next (powerFail_none h cause vin vhold waiting)), fun h0 hh => ?_⟩
  have k := powerFail_failed h0 hh cause vin vhold waiting
  obtain ⟨hold, count, pfw, rst⟩ := k.sup
  obtain ⟨ring, legs, linkA, linkB⟩ := k.ring
  obtain ⟨run, stop⟩ := k.tally
  refine ⟨_, hexec s, hold, count, pfw, k.log.1, ?_, ring, legs, linkA, linkB, k.link, run, stop, k.panel, k.tag.1, k.tag.2, k.rails,
    k.fuses, k.log.2⟩
  rw [rst]
  exact hcause

end Sys2Proof.Machine

/-! PROOF. The mirror's records (R505–R508): the checks of a MIRROR frame, what a record that is taken finds, and what each record
holds. -/

namespace Sys2Proof.Machine

open Sys2Proof

/-! ### Frames (R28, R30, R31, R505) -/

/-- A MIRROR frame that is heard and passes the checks. -/
structure MirrorValid (s : State) (r : MirrorHdr) : Prop where
  heard : s.phyOff = false
  good : r.good = true
  house : r.house.toNat = s.houseId
  houseSet : r.house ≠ 0 ∧ r.house ≠ 0xFFFF
  epoch : r.epoch ≠ 0 ∧ epochRel s.twin.accepted r.epoch ≠ .older

/-- The epochs that a valid frame leaves. -/
def State.heardFrom (s : State) (r : MirrorHdr) : State :=
  { s with twin := { s.twin with
    accepted := epochMax s.twin.accepted r.epoch
    heard := epochMax s.twin.heard r.epoch
    e0 := if s.twin.role = .negotiating then epochMax s.twin.e0 r.epoch else s.twin.e0 } }

section

variable {s : State} {r : MirrorHdr} {takes : Bool} {f : State → State}

theorem mirrorFrame_off (h : s.phyOff = true) : s.mirrorFrame r takes f = s := if_pos h

theorem mirrorFrame_bad (h : s.phyOff = false) (k : r.good = false) : s.mirrorFrame r takes f = s.twinDiscard := by
  simp [State.mirrorFrame, State.twinFrame, h, k]

theorem mirrorFrame_otherHouse (h : s.phyOff = false) (k : r.good = true) (hh : r.house.toNat ≠ s.houseId) :
    s.mirrorFrame r takes f = s.twinDiscard.raise 0xCE [u16 0, u32 s.houseId, u32 r.house.toNat] := by
  simp [State.mirrorFrame, State.twinFrame, h, k, hh]

theorem mirrorFrame_reserved (h : s.phyOff = false) (k : r.good = true) (hh : r.house.toNat = s.houseId)
    (hr : r.house = 0 ∨ r.house = 0xFFFF ∨ r.epoch = 0 ∨ epochRel s.twin.accepted r.epoch = .older) :
    s.mirrorFrame r takes f = s.twinDiscard := by
  have hc : (decide (r.house = 0) || decide (r.house = 0xFFFF) || decide (r.epoch = 0)
      || decide (epochRel s.twin.accepted r.epoch = .older)) = true := by
    rcases hr with hr | hr | hr | hr <;> simp [hr]
  unfold State.mirrorFrame State.twinFrame
  simp only [h, k, hh, Bool.false_eq_true, if_false, Bool.not_true, ne_eq, not_true, hc, if_true]

/-- A valid frame goes on to the role machine. -/
theorem mirrorFrame_valid (h : MirrorValid s r) :
    s.mirrorFrame r takes f =
      if (epochRel s.twin.epoch r.epoch == .newer && s.twin.role == .solo) = true then
        ({ s with twin := { s.twin with accepted := epochMax s.twin.accepted r.epoch } } : State).soloAhead 0xFFFF r.epoch
      else if (epochRel s.twin.epoch r.epoch == .newer && s.twin.role == .active) = true then
        (s.heardFrom r).stepDown r.epoch 0 cNewerEpoch
      else if takes then f ((s.heardFrom r).mirrorTake r.first r.seq) else s.heardFrom r := by
  obtain ⟨heard, good, house, ⟨h0, hF⟩, he, ho⟩ := h
  have hc : (decide (r.house = 0) || decide (r.house = 0xFFFF) || decide (r.epoch = 0)
      || decide (epochRel s.twin.accepted r.epoch = .older)) = false := by
    simp only [ho, decide_false, Bool.or_false, Bool.or_eq_false_iff, decide_eq_false_iff_not]
    exact ⟨⟨h0, hF⟩, he⟩
  unfold State.mirrorFrame State.twinFrame
  simp only [heard, good, house, Bool.false_eq_true, if_false, Bool.not_true, ne_eq, not_true, hc]
  rfl

theorem mirrorFrame_stepDown (h : MirrorValid s r) (hr : s.twin.role = .active) (hn : epochRel s.twin.epoch r.epoch = .newer) :
    s.mirrorFrame r takes f = (s.heardFrom r).stepDown r.epoch 0 cNewerEpoch := by
  rw [mirrorFrame_valid h]
  simp [hr, hn]

theorem mirrorFrame_ignored (h : MirrorValid s r) (hn : epochRel s.twin.epoch r.epoch ≠ .newer) (ht : takes = false) :
    s.mirrorFrame r takes f = s.heardFrom r := by
  rw [mirrorFrame_valid h]
  simp [hn, ht]

theorem mirrorFrame_taken (h : MirrorValid s r) (hs : s.twin.role ≠ .solo)
    (ha : s.twin.role = .active → epochRel s.twin.epoch r.epoch ≠ .newer) (ht : takes = true) :
    s.mirrorFrame r takes f = f ((s.heardFrom r).mirrorTake r.first r.seq) := by
  have hna : ¬ (epochRel s.twin.epoch r.epoch = .newer ∧ s.twin.role = .active) := fun ⟨hn, hr⟩ => ha hr hn
  rw [mirrorFrame_valid h]
  simp [hs, ht, hna]

end

/-! ### Records by who applies them -/

/-- A record that only a STANDBY applies. -/
def StandbyRecord (r : MirrorHdr) (c : Instr) : Prop :=
  ∃ (st n o a k q : Nat) (tick : Word) (f g : F32) (bs : List Byte) (ok : Bool),
    c = .mirrorEmitStn r st bs ∨ c = .mirrorEmitFbus r n o a bs ∨ c = .mirrorLoopOut r n f g ∨ c = .mirrorSnapshot r k tick q bs
    ∨ c = .mirrorTally r a o bs ∨ c = .mirrorPlan r bs ∨ c = .mirrorRollout r bs ∨ c = .mirrorContext r bs
    ∨ c = .mirrorImage r a o n bs ok ∨ c = .mirrorResync r a n

/-- A record that either twin applies. -/
def TwinRecord (r : MirrorHdr) (c : Instr) : Prop :=
  ∃ (a b : Nat) (v : Word) (bs : List Byte), c = .mirrorMeter r a b bs ∨ c = .mirrorVerdict r a b ∨ c = .mirrorMark r a v

theorem exec_standbyRecord {r : MirrorHdr} {c : Instr} (h : StandbyRecord r c) : ∃ f, ∀ s, exec c s = .next (s.asStandby r f) := by
  obtain ⟨st, n, o, a, k, q, tick, f, g, bs, ok, h⟩ := h
  rcases h with rfl | rfl | rfl | rfl | rfl | rfl | rfl | rfl | rfl | rfl <;> exact ⟨_, fun _ => rfl⟩

theorem exec_twinRecord {r : MirrorHdr} {c : Instr} (h : TwinRecord r c) : ∃ f, ∀ s, exec c s = .next (s.asTwin r f) := by
  obtain ⟨a, b, v, bs, h⟩ := h
  rcases h with rfl | rfl | rfl <;> exact ⟨_, fun _ => rfl⟩

/-- No record of the one kind is of the other. -/
theorem not_twinRecord {r : MirrorHdr} {c : Instr} (h : StandbyRecord r c) : ¬ TwinRecord r c := by
  obtain ⟨st, n, o, a, k, q, tick, f, g, bs, ok, h⟩ := h
  rintro ⟨a', b', v', bs', k⟩
  rcases h with rfl | rfl | rfl | rfl | rfl | rfl | rfl | rfl | rfl | rfl <;> simp at k

/-- Every record is a frame's; who does not apply it does not take it. -/
theorem exec_mirrorRecord {r : MirrorHdr} {c : Instr} (h : StandbyRecord r c ∨ TwinRecord r c) (s : State) :
    ∃ takes f, exec c s = .next (s.mirrorFrame r takes f)
      ∧ ((StandbyRecord r c ∧ ¬ (s.twin.role = .standby ∧ s.twin.en = .enabled)) ∨ s.twin.role = .solo → takes = false) := by
  rcases h with h | h
  · obtain ⟨f, hf⟩ := exec_standbyRecord h
    refine ⟨_, f, hf s, ?_⟩
    rintro (⟨-, k⟩ | k)
    · simpa using fun hr => not_and.1 k hr
    · simp [k]
  · obtain ⟨f, hf⟩ := exec_twinRecord h
    refine ⟨_, f, hf s, ?_⟩
    rintro (⟨k, -⟩ | k)
    · exact absurd h (not_twinRecord k)
    · simp [k]

/-! ### A record that is taken (R505–R507) -/

/-- The tablet applies a STANDBY's records. -/
structure Follows (s : State) (r : MirrorHdr) : Prop where
  valid : MirrorValid s r
  role : s.twin.role = .standby
  en : s.twin.en = .enabled

/-- The tablet applies its twin's records. -/
structure Paired (s : State) (r : MirrorHdr) : Prop where
  valid : MirrorValid s r
  role : s.twin.role ≠ .solo
  en : s.twin.en = .enabled
  notNewer : s.twin.role = .active → epochRel s.twin.epoch r.epoch ≠ .newer

theorem Follows.paired {s : State} {r : MirrorHdr} (h : Follows s r) : Paired s r :=
  ⟨h.valid, by simp [h.role], h.en, by simp [h.role]⟩

/-- The state in which a record is applied. -/
def State.taken (s : State) (r : MirrorHdr) : State := (s.heardFrom r).mirrorTake r.first r.seq

theorem asTwin_taken {s : State} {r : MirrorHdr} (h : Paired s r) (f : State → State) : s.asTwin r f = f (s.taken r) :=
  mirrorFrame_taken h.valid h.role h.notNewer (by simp [h.role, h.en])

theorem asStandby_taken {s : State} {r : MirrorHdr} (h : Follows s r) (f : State → State) : s.asStandby r f = f (s.taken r) :=
  mirrorFrame_taken h.valid h.paired.role h.paired.notNewer (by simp [h.role, h.en])

/-- What the twin function knows when a record is applied. -/
structure TwinTook (s : State) (r : MirrorHdr) (w : Twin) : Prop where
  role : w.role = s.twin.role
  epoch : w.epoch = s.twin.epoch
  discards : w.discards = s.twin.discards
  rx : w.mirrorRx = r.seq
  last : w.lastMirror = s.now
  heard : w.heard = epochMax s.twin.heard r.epoch
  gap : s.twin.role = .standby → r.first ≠ s.twin.mirrorRx → r.first ≠ s.twin.mirrorRx + 1 → w.unsynced = true ∧ w.resyncReq = true
  inOrder : r.first = s.twin.mirrorRx ∨ r.first = s.twin.mirrorRx + 1 →
    w.unsynced = s.twin.unsynced ∧ w.resyncReq = s.twin.resyncReq ∧ w.resyncGap = s.twin.resyncGap

/-- On a STANDBY a record that skips numbers asks for a resync (R507). -/
theorem mirrorTake_gap {s : State} {first seq : Word} (hr : s.twin.role = .standby) (h0 : first ≠ s.twin.mirrorRx)
    (h1 : first ≠ s.twin.mirrorRx + 1) : s.mirrorTake first seq = { s.goUnsynced with twin := { s.goUnsynced.twin with
      resyncGap := true
      mirrorRx := seq
      lastMirror := s.now } } := by
  have hc : (s.twin.role == .standby && decide (first ≠ s.twin.mirrorRx) && decide (first ≠ s.twin.mirrorRx + 1)) = true := by
    simp only [hr, Bool.and_eq_true, decide_eq_true_eq, beq_self_eq_true]
    exact ⟨⟨trivial, h0⟩, h1⟩
  simp only [State.mirrorTake, hc, if_true]
  rfl

theorem mirrorTake_inOrder {s : State} {first seq : Word}
    (h : ¬ (s.twin.role = .standby ∧ first ≠ s.twin.mirrorRx ∧ first ≠ s.twin.mirrorRx + 1)) :
    s.mirrorTake first seq = { s with twin := { s.twin with
      mirrorRx := seq
      lastMirror := s.now } } := by
  have hc : (s.twin.role == .standby && decide (first ≠ s.twin.mirrorRx) && decide (first ≠ s.twin.mirrorRx + 1)) = false := by
    simpa using h
  simp only [State.mirrorTake, hc, Bool.false_eq_true, if_false]

/-- Taking a record changes the twin function alone. -/
theorem taken_eq (s : State) (r : MirrorHdr) : ∃ w, s.taken r = { s with twin := w } ∧ TwinTook s r w := by
  by_cases hg : s.twin.role = .standby ∧ r.first ≠ s.twin.mirrorRx ∧ r.first ≠ s.twin.mirrorRx + 1
  · obtain ⟨hr, h0, h1⟩ := hg
    exact ⟨_, mirrorTake_gap (s := s.heardFrom r) hr h0 h1,
      ⟨rfl, rfl, rfl, rfl, rfl, rfl, fun _ _ _ => ⟨rfl, rfl⟩, fun h => (h.elim h0 h1).elim⟩⟩
  · exact ⟨_, mirrorTake_inOrder (s := s.heardFrom r) hg,
      ⟨rfl, rfl, rfl, rfl, rfl, rfl, fun hr h0 h1 => absurd ⟨hr, h0, h1⟩ hg, fun _ => ⟨rfl, rfl, rfl⟩⟩⟩

/-- What a STANDBY does with a record is what the record does in the state that took it. -/
theorem Follows.took {s : State} {r : MirrorHdr} (h : Follows s r) {c : Instr} {f : State → State}
    (hc : exec c s = .next (s.asStandby r f)) : ∃ w, TwinTook s r w ∧ exec c s = .next (f { s with twin := w }) := by
  obtain ⟨w, hu, hw⟩ := taken_eq s r
  exact ⟨w, hw, by rw [hc, asStandby_taken h, hu]⟩

/-- The same for a record of either twin. -/
theorem Paired.took {s : State} {r : MirrorHdr} (h : Paired s r) {c : Instr} {f : State → State}
    (hc : exec c s = .next (s.asTwin r f)) : ∃ w, TwinTook s r w ∧ exec c s = .next (f { s with twin := w }) := by
  obtain ⟨w, hu, hw⟩ := taken_eq s r
  exact ⟨w, hw, by rw [hc, asTwin_taken h, hu]⟩

theorem Follows.next {s : State} {r : MirrorHdr} (h : Follows s r) {c : Instr} {f : State → State} {P : State → Prop}
    (hc : exec c s = .next (s.asStandby r f)) (hP : ∀ w, TwinTook s r w → P (f { s with twin := w })) :
    ∃ t, exec c s = .next t ∧ P t := by
  obtain ⟨w, hw, he⟩ := h.took hc
  exact ⟨_, he, hP w hw⟩

theorem Paired.next {s : State} {r : MirrorHdr} (h : Paired s r) {c : Instr} {f : State → State} {P : State → Prop}
    (hc : exec c s = .next (s.asTwin r f)) (hP : ∀ w, TwinTook s r w → P (f { s with twin := w })) :
    ∃ t, exec c s = .next t ∧ P t := by
  obtain ⟨w, hw, he⟩ := h.took hc
  exact ⟨_, he, hP w hw⟩

/-- A record that is discarded counts. -/
theorem TwinTook.discarded {s : State} {r : MirrorHdr} {w : Twin} (h : TwinTook s r w) {t : State}
    (ht : t = State.twinDiscard { s with twin := w }) : t.twin.discards = satInc s.twin.discards := by
  rw [ht, ← h.discards]
  rfl

/-! ### Stepping down (R502) -/

theorem setRole_quiet (s : State) (r : TwinRole) (cause : Nat) :
    Quiet { s with twin := { s.twin with role := r } } (s.setRole r cause) := by
  unfold State.setRole
  extract_lets old w m u
  exact ((raise_quiet u _ _).trans (judgeFit_quiet _)).trans rfl

theorem goUnsynced_quiet (s : State) : Quiet s s.goUnsynced := rfl

/-- An ACTIVE that steps down is STANDBY in the epoch that it heard. -/
theorem stepDown_twin (s : State) (heard : Half) (source cause : Nat) :
    (s.stepDown heard source cause).twin.role = .standby ∧ (s.stepDown heard source cause).twin.epoch = heard := by
  unfold State.stepDown
  extract_lets own u
  have hu : QuietButTally { s.setEpoch heard with twin := { (s.setEpoch heard).twin with role := .standby } } u :=
    ((setRole_quiet _ _ _).trans (goUnsynced_quiet _)).butTally.trans (enginesStop_butTally _)
  clear_value u
  obtain ⟨run, cause', img, h⟩ := hu.trans ((raise_quiet u _ _).trans (judgeFit_quiet _)).butTally
  exact ⟨role_of_outward h, epoch_of_outward h⟩

/-! ### What becomes of a frame -/

/-- A record's frame that is not applied (R30, R31, R502, R505, R506). -/
theorem mirrorRecord_checked {r : MirrorHdr} {c : Instr} (h : StandbyRecord r c ∨ TwinRecord r c) (s : State) :
    (s.phyOff = true → exec c s = .next s)
    ∧ (s.phyOff = false → r.good = false → exec c s = .next s.twinDiscard)
    ∧ (s.phyOff = false → r.good = true → r.house.toNat = s.houseId →
        r.house = 0 ∨ r.house = 0xFFFF ∨ r.epoch = 0 ∨ epochRel s.twin.accepted r.epoch = .older → exec c s = .next s.twinDiscard)
    ∧ (s.phyOff = false → r.good = true → r.house.toNat ≠ s.houseId → Runs c s s.twinDiscard)
    ∧ (MirrorValid s r → s.twin.role = .active → epochRel s.twin.epoch r.epoch = .newer →
        ∃ t, exec c s = .next t ∧ t.twin.role = .standby ∧ t.twin.epoch = r.epoch)
    ∧ (MirrorValid s r → epochRel s.twin.epoch r.epoch ≠ .newer →
        (StandbyRecord r c ∧ ¬ (s.twin.role = .standby ∧ s.twin.en = .enabled)) ∨ s.twin.role = .solo →
        exec c s = .next (s.heardFrom r)) := by
  obtain ⟨takes, f, hc, ht⟩ := exec_mirrorRecord h s
  rw [hc]
  refine ⟨fun ho => ?_, fun ho hg => ?_, fun ho hg hh hr => ?_, fun ho hg hh => ?_, fun hv hr hn => ?_, fun hv hn hi => ?_⟩
  · rw [mirrorFrame_off ho]
  · rw [mirrorFrame_bad ho hg]
  · rw [mirrorFrame_reserved ho hg hh hr]
  · exact ⟨_, hc.trans (congrArg _ (mirrorFrame_otherHouse ho hg hh)), raise_only _ _ _⟩
  · exact ⟨_, congrArg _ (mirrorFrame_stepDown hv hr hn), stepDown_twin _ _ _ _⟩
  · rw [mirrorFrame_ignored hv hn (ht hi)]

end Sys2Proof.Machine

/-! PROOF. What each record of the mirror holds in a tablet that takes it (R168, R238, R269, R323, R345, R393, R435, R506–R508). -/

namespace Sys2Proof.Machine

open Sys2Proof

/-! ### Loops, snapshots and plans (R168, R238, R345) -/

theorem loopOutIn_loopOf {s : State} {n : Nat} {l : Loop} (h : s.loopOf n = some l) (f g : F32) :
    s.loopOutIn n f g = s.setLoop n { l with track := f, sp := g }
      ∧ (s.setLoop n { l with track := f, sp := g }).loopOf n = some { l with track := f, sp := g } := by
  refine ⟨by simp only [State.loopOutIn, h], ?_⟩
  simp only [State.loopOf, State.setLoop, alGet_alPut, if_true]

theorem snapshotIn_solve (s : State) (solve : Nat) (tick : Word) (first : Nat) (bs : List Byte) :
    ∃ m, (s.snapshotIn solve tick first bs).reck.mirrorSnap = some m ∧ m.1 = solve := ⟨_, rfl, rfl⟩

theorem layer_setLayer (s : State) (y : Layer) (x : LayerSt) : (s.setLayer y x).layer y = x := by
  cases y <;> rfl

theorem planTake_discard {s : State} {bs : List Byte} (h : planCodesOk bs = false) : s.planTake bs = s.twinDiscard := by
  simp [State.planTake, h]

theorem planTake_plan {s : State} {bs : List Byte} (h : planCodesOk bs = true) :
    ((s.planTake bs).layer (if netAt bs 4 1 = 0 then .day else .pressure)).plan = some (planIn bs)
      ∧ ((s.planTake bs).layer (if netAt bs 4 1 = 0 then .day else .pressure)).coldNext = false := by
  simp only [State.planTake, h, Bool.not_true, Bool.false_eq_true, if_false, layer_setLayer]
  exact ⟨trivial, trivial⟩

/-! ### Station frames (R318, R508) -/

/-- Learning from a copy changes contexts and the commands sent alone. -/
theorem learnStn_rest (s : State) (id : Nat) (bs : List Byte) : ∃ stn roll, s.learnStn id bs = { s with stn := stn, roll := roll } := by
  unfold State.learnStn
  extract_lets seq rs known at_ first u sets zone gone dead
  split
  · exact ⟨_, _, rfl⟩
  · split
    · exact ⟨_, _, rfl⟩
    · exact ⟨_, _, rfl⟩

theorem sendStn_running {s : State} (h4 : s.xingStopped 0x04 = false) (h6 : s.xingStopped 0x06 = false) (c : StnCtxCfg) (bs : List Byte) :
    s.sendStn c bs = ({ s with ring := { s.ring with hsrSeq := s.ring.hsrSeq + 1 } } : State).emit (.stnFrame c.station (s.stnHdr c) bs) :=
  cross_running _ (by simp [txXings]) (by simpa [txXings] using ⟨h4, h6⟩)

section

variable {s : State} {id : Nat} {c : Ctx} {bs : List Byte}

theorem emitStn_discard (hc : s.ctxOf id = some c) (h : netAt bs 6 2 ≠ s.twin.epoch.toNat ∨ c.en = .disabled) :
    s.emitStn id bs = s.twinDiscard := by
  have hb : (decide (netAt bs 6 2 ≠ s.twin.epoch.toNat) || decide (s.ring.en = .disabled) || decide (s.houseId = 0)
      || !s.familyOn c.cfg || decide (c.en = .disabled)) = true := by
    rcases h with h | h <;> simp [h]
  simp only [State.emitStn, hc, hb, if_true]

theorem emitStn_sends (hc : s.ctxOf id = some c) (he : netAt bs 6 2 = s.twin.epoch.toNat) (hr : s.ring.en ≠ .disabled)
    (hh : s.houseId ≠ 0) (hf : s.familyOn c.cfg = true) (hen : c.en ≠ .disabled) :
    s.emitStn id bs = (s.emitting.sendStn c.cfg bs).learnStn id bs := by
  have hb : (decide (netAt bs 6 2 ≠ s.twin.epoch.toNat) || decide (s.ring.en = .disabled) || decide (s.houseId = 0)
      || !s.familyOn c.cfg || decide (c.en = .disabled)) = false := by
    simp [he, hr, hh, hf, hen]
  simp only [State.emitStn, hc, hb, Bool.false_eq_true, if_false]

/-- A frame that passes leaves byte for byte. -/
theorem emitStn_out (hc : s.ctxOf id = some c) (he : netAt bs 6 2 = s.twin.epoch.toNat) (hr : s.ring.en ≠ .disabled)
    (hh : s.houseId ≠ 0) (hf : s.familyOn c.cfg = true) (hen : c.en ≠ .disabled) (h4 : s.xingStopped 0x04 = false)
    (h6 : s.xingStopped 0x06 = false) :
    (s.emitStn id bs).out = s.out ++ [.stnFrame c.cfg.station (s.stnHdr c.cfg) bs] ∧ (s.emitStn id bs).twin.emitOk = true
      ∧ (s.emitStn id bs).ring.hsrSeq = s.ring.hsrSeq + 1 := by
  rw [emitStn_sends hc he hr hh hf hen, sendStn_running (s := s.emitting) h4 h6]
  obtain ⟨stn, roll, hl⟩ := learnStn_rest (({ s.emitting with ring := { s.emitting.ring with hsrSeq := s.emitting.ring.hsrSeq + 1 } } : State).emit
    (.stnFrame c.cfg.station (s.emitting.stnHdr c.cfg) bs)) id bs
  rw [hl]
  exact ⟨rfl, rfl, rfl⟩

end

/-! ### Objects of the field buses (R508) -/

theorem bus_setBus_same {s : State} {b : Nat} (h : b < s.can.length) (f : Bus → Bus) : (s.setBus b f).bus b = f (s.bus b) := by
  simp [State.bus, State.setBus, List.getD_eq_getElem?_getD, h]

theorem lt_of_txCfg {s : State} {b o : Nat} {x : TxCfg} (h : ((s.bus b).txObj o).cfg = some x) : b < s.can.length := by
  by_contra hb
  have hd : ((default : Bus).txObj o).cfg = none := rfl
  rw [State.bus, List.getD_eq_default _ _ (by omega), hd] at h
  exact nomatch h

theorem frames_setTx {s : State} {b : Nat} (h : b < s.can.length) (o : Nat) (x : TxObj) :
    ((s.setTx b o x).bus b).frames = (s.bus b).frames := by
  rw [State.setTx, bus_setBus_same h]

theorem frames_showFrame {s : State} {b : Nat} (h : b < s.can.length) (o : Nat) :
    ((s.showFrame b o).bus b).frames = (s.bus b).frames := by
  unfold State.showFrame
  extract_lets fs x
  split
  · exact frames_setTx h _ _
  · rfl

/-- A controller that may send. -/
structure BusReady (s : State) (b : Nat) : Prop where
  here : b < s.can.length
  driven : s.driven = true
  houseSet : s.houseId ≠ 0
  en : (s.bus b).en = .enabled
  estate : (s.bus b).estate = .active
  crossing : s.xingStopped (busXing b) = false

/-- A frame of an object without another one waiting is queued last. -/
theorem queueBus_frames {s : State} {b : Nat} (h : BusReady s b) {f : BusFrame} (hf : ∀ g ∈ (s.bus b).frames, g.object ≠ f.object) :
    ((s.queueBus b f).bus b).frames = (s.bus b).frames ++ [f] := by
  obtain ⟨here, driven, houseSet, en, estate, crossing⟩ := h
  have hn : (s.bus b).frames.find? (fun g => g.object == f.object && !g.onWire) = none := by
    rw [List.find?_eq_none]
    intro g hg
    simp [hf g hg]
  have hl : b < (s.setBus b (fun u => { u with frames := u.frames ++ [f] })).can.length := by simpa [State.setBus] using here
  simp only [State.queueBus, driven, houseSet, en, estate, crossing, hn, Bool.not_true, Bool.false_eq_true, decide_false, Bool.or_false,
    if_false, ne_eq, not_true, reduceCtorEq]
  rw [frames_showFrame hl, bus_setBus_same here]

theorem emitFbus_otherEpoch {s : State} {e : Half} (h : e ≠ s.twin.epoch) (b o : Nat) (bs : List Byte) :
    s.emitFbus e b o bs = s.twinDiscard := by
  unfold State.emitFbus
  split
  · simp [h]
  · rfl

/-- The state that hands a copy of an object over. -/
def State.copyHanded (s : State) (b o : Nat) (y : TxObj) : State :=
  ((s.setTx b o y).setBus b (fun u => { u with handed := u.handed + 1 })).emitting

theorem emitFbus_queues {s : State} {b o : Nat} {x : TxCfg} (hx : ((s.bus b).txObj o).cfg = some x) (hb : b < 2) (ho : o < 32)
    (bs : List Byte) : ∃ y f, s.emitFbus s.twin.epoch b o bs = (s.copyHanded b o y).queueBus b f ∧ f.object = o
      ∧ f.data = (padTo 64 bs).take x.len := by
  have hc : (decide (2 ≤ b) || decide (32 ≤ o) || decide (s.twin.epoch ≠ s.twin.epoch)) = false := by simp [hb, ho]
  simp only [State.emitFbus, hx, hc, Bool.false_eq_true, if_false]
  exact ⟨_, _, rfl, rfl, rfl⟩

theorem bus_copyHanded {s : State} {b : Nat} (h : b < s.can.length) (o : Nat) (y : TxObj) :
    (s.copyHanded b o y).bus b = { s.bus b with tx := alPut (s.bus b).tx o y, handed := (s.bus b).handed + 1 } := by
  have hl : b < (s.setTx b o y).can.length := by simpa [State.setTx, State.setBus] using h
  exact (bus_setBus_same hl _).trans (by rw [State.setTx, bus_setBus_same h])

theorem BusReady.copyHanded {s : State} {b : Nat} (h : BusReady s b) (o : Nat) (y : TxObj) : BusReady (s.copyHanded b o y) b where
  here := by simpa [State.copyHanded, State.emitting, State.setTx, State.setBus] using h.here
  driven := h.driven
  houseSet := h.houseSet
  en := by rw [bus_copyHanded h.here, h.en]
  estate := by rw [bus_copyHanded h.here, h.estate]
  crossing := h.crossing

/-- An object's copy goes to the controller as it came. -/
theorem emitFbus_frames {s : State} {b o : Nat} {x : TxCfg} (h : BusReady s b) (hx : ((s.bus b).txObj o).cfg = some x) (hb : b < 2)
    (ho : o < 32) (hf : ∀ g ∈ (s.bus b).frames, g.object ≠ o) (bs : List Byte) : ∃ g, ((s.emitFbus s.twin.epoch b o bs).bus b).frames
      = (s.bus b).frames ++ [g] ∧ g.object = o ∧ g.data = (padTo 64 bs).take x.len := by
  obtain ⟨y, f, hq, hobj, hdata⟩ := emitFbus_queues hx hb ho bs
  have hfr : ((s.copyHanded b o y).bus b).frames = (s.bus b).frames := by rw [bus_copyHanded h.here]
  refine ⟨f, ?_, hobj, hdata⟩
  rw [hq, queueBus_frames (h.copyHanded o y) (by rwa [hfr, hobj]), hfr]

/-! ### Rollouts (R269) -/

/-- The change leaves the mirrored rollouts. -/
def KeepsMirror (s t : State) : Prop := t.roll.mirror = s.roll.mirror

theorem KeepsMirror.foldl {α : Type} {f : State → α → State} (h : ∀ s a, KeepsMirror s (f s a)) (l : List α) (s : State) :
    KeepsMirror s (l.foldl f s) := by
  induction l generalizing s with
  | nil => rfl
  | cons a l ih => exact (ih (f s a)).trans (h s a)

theorem noteBase_mirror (s : State) (r : Receiver) (v : F32) : KeepsMirror s (s.noteBase r v) := by
  unfold State.noteBase
  split <;> rfl

theorem knowSent_mirror (s : State) (x : Rollout) (c : RollCmd) : KeepsMirror s (s.knowSent x c) := rfl

/-- The same rollout in the same state. -/
def SameRoll (x y : Rollout) : Prop := y.id = x.id ∧ y.st = x.st

theorem mirroredSchedule_same (s : State) (x : Rollout) (lasts : List (RollItem × F32)) (a1 m : Nat) :
    SameRoll x (s.mirroredSchedule x lasts a1 m) := by
  unfold State.mirroredSchedule
  extract_lets same y
  have hy : SameRoll x y := by
    unfold y
    split <;> exact ⟨rfl, rfl⟩
  exact hy

theorem markCmds_same (f : RollCmd → RollCmd) (l : List Nat) (x : Rollout) :
    SameRoll x (l.foldl (fun x i => x.markCmd i f) x) := by
  induction l generalizing x with
  | nil => exact ⟨rfl, rfl⟩
  | cons i l ih => exact ih (x.markCmd i f)

/-- What reading a ROLLOUT record can do: the mirrored rollouts stay, and the rollout has the record's id and state. -/
theorem rolloutIn_spec (s : State) (bs : List Byte) (st : RollSt) :
    KeepsMirror s (s.rolloutIn bs st).1 ∧ (s.rolloutIn bs st).2.id = netAt bs 0 2 ∧ (s.rolloutIn bs st).2.st = st := by
  unfold State.rolloutIn
  extract_lets kind obj unit its fl a1 a2 stagger m new x up y put u z sentIdx sent v
  have hu : KeepsMirror s u := .foldl (f := put) (fun t q => noteBase_mirror t q.1 q.2) _ _
  have hz : SameRoll y z := by
    unfold z
    split
    · exact ⟨rfl, rfl⟩
    · exact mirroredSchedule_same _ _ _ _ _
  have hs : SameRoll z sent := markCmds_same _ _ _
  exact ⟨(KeepsMirror.foldl (f := fun t c => t.knowSent sent c) (fun t c => knowSent_mirror t sent c) _ u).trans hu,
    hs.1.trans hz.1, hs.2.trans hz.2⟩

/-- The codes of a ROLLOUT record's unit, reason and items are known (R276). -/
def RolloutKnown (bs : List Byte) : Prop := netAt bs 2 1 ≤ 2 ∧ netAt bs 5 1 ≤ 11 ∧ ∀ p ∈ rollItems bs, p.1.kind ≤ 10

theorem rolloutKnown_iff (bs : List Byte) : RolloutKnown bs ↔
    (decide (2 < netAt bs 2 1) || decide (11 < netAt bs 5 1) || (rollItems bs).any (fun p => decide (10 < p.1.kind))) = false := by
  simp only [RolloutKnown, Bool.or_eq_false_iff, decide_eq_false_iff_not, Nat.not_lt, List.any_eq_false, decide_eq_true_eq, and_assoc]

theorem rollStOf_none {n : Nat} (h : 6 < n) : rollStOf n = none := by
  unfold rollStOf
  split
  case h_8 => rfl
  all_goals omega

/-- The states from 3 on are those of a rollout that has ended. -/
theorem rollStOf_ended {n : Nat} (h : 3 ≤ n) (k : n ≤ 6) : ∃ st, rollStOf n = some st ∧ st ≠ .queued ∧ st ≠ .vetting ∧ st ≠ .released := by
  interval_cases n <;> exact ⟨_, rfl, by decide⟩

theorem rolloutTake_discard {s : State} {bs : List Byte} (h : 6 < netAt bs 4 1 ∨ ¬ RolloutKnown bs) : s.rolloutTake bs = s.twinDiscard := by
  unfold State.rolloutTake
  split
  · rfl
  · rename_i st hst
    have hk : ¬ RolloutKnown bs := h.resolve_left fun hc => by rw [rollStOf_none hc] at hst; exact nomatch hst
    rw [rolloutKnown_iff, Bool.not_eq_false] at hk
    exact if_pos hk

/-- A rollout that has ended leaves the mirror. -/
theorem rolloutTake_ended {s : State} {bs : List Byte} (h3 : 3 ≤ netAt bs 4 1) (h6 : netAt bs 4 1 ≤ 6) (hk : RolloutKnown bs) :
    (s.rolloutTake bs).roll.mirror = s.roll.mirror.filter (fun x => x.id != netAt bs 0 2) := by
  obtain ⟨st, hst, hq, hv, hr⟩ := rollStOf_ended h3 h6
  obtain ⟨hmirror, hid, hrst⟩ := rolloutIn_spec s bs st
  unfold State.rolloutTake
  simp only [hst, (rolloutKnown_iff bs).1 hk, Bool.false_eq_true, if_false, hrst, hid, beq_false_of_ne hq, beq_false_of_ne hv,
    beq_false_of_ne hr, Bool.or_false, Bool.not_false, if_true]
  rw [hmirror]

end Sys2Proof.Machine

/-! PROOF. Contexts, the Tally, metering blocks, images, verdicts, marks and the resync among the mirror's records, and the obligation
(R323, R393, R435, R506–R508). -/

namespace Sys2Proof.Machine

open Sys2Proof

/-! ### Contexts (R323, R506) -/

theorem ctxStOf_isSome {n : Nat} (h : n ≤ 4) : ∃ st, ctxStOf n = some st := by
  interval_cases n <;> exact ⟨_, rfl⟩

theorem ctxStOf_none {n : Nat} (h : 4 < n) : ctxStOf n = none := by
  unfold ctxStOf
  split
  case h_6 => rfl
  all_goals omega

theorem enOfCode_isSome {n : Nat} (h : n ≤ 2) : ∃ en, enOfCode n = some en := by
  interval_cases n <;> exact ⟨_, rfl⟩

theorem enOfCode_none {n : Nat} (h : 2 < n) : enOfCode n = none := by
  unfold enOfCode
  split
  case h_4 => rfl
  all_goals omega

theorem contextTake_discard {s : State} {bs : List Byte} (h : 4 < netAt bs 2 1 ∨ 2 < netAt bs 3 1) : s.contextTake bs = s.twinDiscard := by
  unfold State.contextTake
  extract_lets id fl w32
  split
  · rename_i hst hen
    rcases h with h | h
    · exact nomatch (ctxStOf_none h).symm.trans hst
    · exact nomatch (enOfCode_none h).symm.trans hen
  · rfl

/-- A context's record becomes the context's entry and output image. -/
theorem contextTake_ctxOf {s : State} {bs : List Byte} {c : Ctx} (hc : s.ctxOf (netAt bs 0 2) = some c) (h2 : netAt bs 2 1 ≤ 4)
    (h3 : netAt bs 3 1 ≤ 2) : ∃ k, (s.contextTake bs).ctxOf (netAt bs 0 2) = some k
      ∧ enOfCode (netAt bs 3 1) = some k.en ∧ ctxStOf (netAt bs 2 1) = some k.st ∧ k.outImg = padTo 64 (bs.drop 32)
      ∧ k.rxSeq = BitVec.ofNat 32 (netAt bs 0xC 4)
      ∧ (BitVec.ofNat 32 (netAt bs 8 4) ≠ 0 → k.txSeq = some (BitVec.ofNat 32 (netAt bs 8 4))) := by
  obtain ⟨st, hst⟩ := ctxStOf_isSome h2
  obtain ⟨en, hen⟩ := enOfCode_isSome h3
  simp only [State.contextTake, hc, hst, hen]
  rw [ctxOf_congr (congrArg StnX.ctxs (checkpoint_copies _ _).stn), ctxOf_setCtx (by exact fun _ => rfl), hc]
  exact ⟨_, rfl, rfl, rfl, rfl, rfl, fun h => if_neg (by simp only [h, decide_false, Bool.false_and, Bool.false_eq_true, not_false_eq_true])⟩

/-! ### The Tally (R393) -/

theorem tallyIn_words (s : State) (start : Nat) (bs : List Byte) :
    (s.tallyIn 3 start bs).tally.words = Mem.writes s.tally.words start bs
      ∧ (s.tallyIn 3 start bs).tally.pubWords = Mem.writes s.tally.pubWords start bs
      ∧ (s.tallyIn 3 start bs).tally.markers = s.tally.markers := ⟨rfl, rfl, rfl⟩

theorem tallyIn_markers (s : State) (start : Nat) (bs : List Byte) :
    (s.tallyIn 2 start bs).tally.markers = Mem.writes s.tally.markers start bs
      ∧ (s.tallyIn 2 start bs).tally.words = s.tally.words := ⟨rfl, rfl⟩

/-- A record of no mirrored area is discarded. -/
theorem tallyIn_discards {area : Nat} (h : area = 0 ∨ area = 7 ∨ (9 < area ∧ area ≠ 0xFF)) (s : State) (start : Nat) (bs : List Byte) :
    (s.tallyIn area start bs).twin.discards = satInc s.twin.discards := by
  unfold State.tallyIn
  extract_lets u t over_
  split
  case h_10 => rfl
  all_goals omega

theorem tallyVerdict_writes {s : State} {l : TallyLoad} (h : s.tally.load = some l) (hs : l.stage = .mirroring) :
    (s.tallyVerdict 0).tally.load = some { l with stage := .writing } := by
  simp [State.tallyVerdict, h, hs]

theorem activateBank_bank (s : State) : s.activateBank.tally.bank = s.spareBank ∧ s.activateBank.tally.loaded = false := ⟨rfl, rfl⟩

theorem markIn_activates {s : State} {v : Word} (hr : s.twin.role = .standby) (hl : s.tally.loaded = true)
    (hv : word (u32At (s.tally.banks.getD s.spareBank default).bytes 0x0C) = v) : s.markIn 1 v = s.activateBank := by
  have hc : (decide (s.twin.role = .standby) && s.tally.loaded
      && decide (word (u32At (s.tally.banks.getD s.spareBank default).bytes 0x0C) = v)) = true := by
    simp only [hr, hl, hv, decide_true, Bool.and_self]
  simp only [State.markIn, hc, if_true]
  rfl

/-! ### Metering (R435) -/

theorem swapFields_length (ns : List Nat) (bs : List Byte) : (swapFields ns bs).length = bs.length := by
  induction ns generalizing bs with
  | nil => rfl
  | cons n ns ih =>
    rw [swapFields, List.length_append, List.length_reverse, ih, ← List.length_append, List.take_append_drop]

/-- The first field of a block, in the host's byte order after the swap. -/
theorem swapFields_first {n : Nat} {bs : List Byte} (h : n ≤ bs.length) (ns : List Nat) :
    leAt n (swapFields (n :: ns) bs) 0 = netAt bs 0 n := by
  have hl : (bs.take n).reverse.length = n := by simp [h]
  rw [swapFields, leAt, netAt, ordNat, List.drop_zero, List.take_left' hl, List.reverse_reverse]
  rfl

theorem circ_setCirc (s : State) (n : Nat) (y : Circ) : (s.setCirc n y).circ n = some y := by
  simp only [State.circ, State.setCirc, alGet_alPut, if_true]

/-- A block of a circuit that this tablet does not measure is held as the twin's. -/
theorem mirrorMeterRx_circ {s : State} {bs : List Byte} (hl : bs.length = 128) (hid : netAt bs 0 2 ≤ 11)
    (hc : s.circ (netAt bs 0 2) = none) (set : Nat) :
    ∃ y, s.mirrorMeterRx 0 set bs = s.setCirc (netAt bs 0 2) y ∧ y.mirrored = true := by
  have hfirst : u16At (swapFields (meterSizes 0) bs) 0 = netAt bs 0 2 := swapFields_first (by omega) _
  have hlen : (swapFields (meterSizes 0) bs).length = 128 := (swapFields_length _ _).trans hl
  have hcond : (decide (11 < netAt bs 0 2) || decide ((swapFields (meterSizes 0) bs).length ≠ 128)
      || ((none : Option Circ).map (fun c => !c.mirrored)).getD false) = false := by
    simp [hid, hlen]
  simp only [State.mirrorMeterRx, hfirst, hcond, if_true, Bool.false_eq_true, if_false, hc, Option.getD_none]
  refine ⟨_, rfl, ?_⟩
  rcases set with _ | _ | _ <;> rfl

/-! ### Images (R136, R137, R393) -/

theorem imageIn_unknown {image : Nat} (h : 1 < image) (s : State) (o n : Nat) (bs : List Byte) (ok : Bool) :
    s.imageIn image o n bs ok = s.twinDiscard := by
  simp only [State.imageIn, h, if_true]

/-- The first part of a longer model image is held. -/
theorem imageIn_part {total : Nat} {bs : List Byte} (h : bs.length < total) (s : State) (ok : Bool) :
    (s.imageIn 0 0 total bs ok).model.mirrorIn = bs := by
  simp [State.imageIn, Nat.ne_of_lt h]

theorem mirrorTwin_copies (s : State) (typ : Nat) (body : List Fld) : OnlyCopies s (s.mirrorTwin typ body) := by
  unfold State.mirrorTwin
  split
  · exact OnlyCopies.refl s
  · exact mirrorAny_copies s typ body

theorem mirrorTwin_tally (s : State) (typ : Nat) (body : List Fld) : (s.mirrorTwin typ body).tally = s.tally := by
  rw [(mirrorTwin_copies s typ body).rest]

theorem tallyImageIn_loads {s : State} {bs : List Byte} (h : (tallyChecks bs bs.length s.houseId s.fuse).1 = 0) :
    (s.tallyImageIn bs true).tally.loaded = true ∧ (s.tallyImageIn bs true).tally.banks = s.tally.banks.set s.spareBank ⟨bs, 0⟩ := by
  simp only [State.tallyImageIn, h, ne_eq, not_true, if_false, if_true, mirrorTwin_tally]
  exact ⟨trivial, rfl⟩

/-- A program image that comes whole is checked at once. -/
theorem imageIn_whole (s : State) (bs : List Byte) (ok : Bool) :
    s.imageIn 1 0 bs.length bs ok = ({ s with tally := { s.tally with mirrorIn := [] } } : State).tallyImageIn bs ok := by
  simp only [State.imageIn, Nat.zero_add, decide_true, Bool.and_self, if_true, Nat.one_ne_zero, if_false, Nat.lt_irrefl]

/-! ### Resync (R507) -/

theorem resyncIn_start (s : State) (n : Nat) : (s.resyncIn 0 n).twin.resyncGap = false ∧ (s.resyncIn 0 n).twin.resyncSince = some s.now := by
  simp only [State.resyncIn, Nat.not_lt_zero, if_false, if_true, State.raise_twin, and_self]

theorem judgeFit_asks (s : State) : s.judgeFit.twin.unsynced = s.twin.unsynced ∧ s.judgeFit.twin.resyncReq = s.twin.resyncReq := by
  rw [(judgeFit_only s).twin]
  exact ⟨rfl, rfl⟩

/-- A resync that ends without a gap clears UNSYNCED. -/
theorem resyncIn_end {s : State} (h : s.twin.resyncGap = false) (n : Nat) :
    (s.resyncIn 1 n).twin.unsynced = false ∧ (s.resyncIn 1 n).twin.resyncReq = false := by
  simp only [State.resyncIn, Nat.lt_irrefl, if_false, Nat.one_ne_zero, h, Bool.false_eq_true, (judgeFit_asks _).1, (judgeFit_asks _).2,
    State.raise_twin, and_self]

/-! ### The obligation -/

/-- A record that a STANDBY takes and that is discarded counts. -/
theorem Follows.discards {s : State} {r : MirrorHdr} (h : Follows s r) {c : Instr} {f : State → State}
    (hc : exec c s = .next (s.asStandby r f)) (hf : ∀ w, TwinTook s r w → f { s with twin := w } = State.twinDiscard { s with twin := w }) :
    ∃ t, exec c s = .next t ∧ t.twin.discards = satInc s.twin.discards :=
  h.next hc fun w hw => hw.discarded (hf w hw)

theorem Paired.discards {s : State} {r : MirrorHdr} (h : Paired s r) {c : Instr} {f : State → State}
    (hc : exec c s = .next (s.asTwin r f)) (hf : ∀ w, TwinTook s r w → f { s with twin := w } = State.twinDiscard { s with twin := w }) :
    ∃ t, exec c s = .next t ∧ t.twin.discards = satInc s.twin.discards :=
  h.next hc fun w hw => hw.discarded (hf w hw)

/-- The house of a valid frame is this tablet's, so the tablet has one. -/
theorem MirrorValid.houseId {s : State} {r : MirrorHdr} (h : MirrorValid s r) : s.houseId ≠ 0 := by
  intro h0
  exact h.houseSet.1 (BitVec.eq_of_toNat_eq (by rw [h.house, h0]; rfl))

section

variable {s : State} {r : MirrorHdr}

theorem mirrorLoopOut_taken (h : Follows s r) {n : Nat} {l : Loop} (hl : s.loopOf n = some l) (f g : F32) :
    ∃ t, exec (.mirrorLoopOut r n f g) s = .next t ∧ t.loopOf n = some { l with track := f, sp := g } ∧ TwinTook s r t.twin :=
  h.next (f := fun s => s.loopOutIn n f g) rfl fun u hu => by
    obtain ⟨hin, hget⟩ := loopOutIn_loopOf (s := { s with twin := u }) hl f g
    rw [hin]
    exact ⟨hget, hu⟩

theorem mirrorEmitStn_leaves (h : Follows s r) {id : Nat} {c : Ctx} {bs : List Byte} (hc : s.ctxOf id = some c) (hid : c.cfg.station = id)
    (hr : s.ring.en ≠ .disabled) (hf : s.familyOn c.cfg = true) (he : c.en ≠ .disabled) (hepoch : netAt bs 6 2 = s.twin.epoch.toNat)
    (h4 : s.xingStopped 0x04 = false) (h6 : s.xingStopped 0x06 = false) :
    ∃ t, exec (.mirrorEmitStn r id bs) s = .next t ∧ t.out = s.out ++ [.stnFrame id (s.stnHdr c.cfg) bs] ∧ t.twin.emitOk = true
      ∧ t.ring.hsrSeq = s.ring.hsrSeq + 1 :=
  h.next (f := fun s => s.emitStn id bs) rfl fun u hu => by
    have hout := emitStn_out (s := { s with twin := u }) hc (hepoch.trans (congrArg BitVec.toNat hu.epoch.symm)) hr h.valid.houseId hf
      he h4 h6
    rwa [hid] at hout

theorem mirrorEmitStn_discarded (h : Follows s r) {id : Nat} {c : Ctx} {bs : List Byte} (hc : s.ctxOf id = some c)
    (hd : netAt bs 6 2 ≠ s.twin.epoch.toNat ∨ c.en = .disabled) :
    ∃ t, exec (.mirrorEmitStn r id bs) s = .next t ∧ t.out = s.out ∧ t.twin.discards = satInc s.twin.discards :=
  h.next (f := fun s => s.emitStn id bs) rfl fun u hu => by
    rw [emitStn_discard (s := { s with twin := u }) hc (by rwa [hu.epoch])]
    exact ⟨rfl, hu.discarded rfl⟩

theorem mirrorEmitFbus_queued (h : Follows s r) {b o : Nat} {x : TxCfg} (hx : ((s.bus b).txObj o).cfg = some x) (hb : b < 2) (ho : o < 32)
    (he : r.epoch = s.twin.epoch) (hdr : s.driven = true) (hen : (s.bus b).en = .enabled) (hest : (s.bus b).estate = .active)
    (hxs : s.xingStopped (busXing b) = false) (hfr : ∀ g ∈ (s.bus b).frames, g.object ≠ o) (z : Nat) (bs : List Byte) :
    ∃ t, exec (.mirrorEmitFbus r b o z bs) s = .next t ∧ ∃ g, (t.bus b).frames = (s.bus b).frames ++ [g] ∧ g.object = o
      ∧ g.data = (padTo 64 bs).take x.len :=
  h.next (f := fun s => s.emitFbus r.epoch b o bs) rfl fun u hu => by
    have hready : BusReady { s with twin := u } b := ⟨lt_of_txCfg hx, hdr, h.valid.houseId, hen, hest, hxs⟩
    rw [he.trans hu.epoch.symm]
    exact emitFbus_frames hready hx hb ho hfr bs

theorem mirrorEmitFbus_discarded (h : Follows s r) (he : r.epoch ≠ s.twin.epoch) (b o z : Nat) (bs : List Byte) :
    ∃ t, exec (.mirrorEmitFbus r b o z bs) s = .next t ∧ t.twin.discards = satInc s.twin.discards :=
  h.discards (f := fun s => s.emitFbus r.epoch b o bs) rfl fun u hu => emitFbus_otherEpoch (by rwa [hu.epoch]) b o bs

theorem mirrorSnapshot_held (h : Follows s r) (solve : Nat) (tick : Word) (first : Nat) (bs : List Byte) :
    ∃ t, exec (.mirrorSnapshot r solve tick first bs) s = .next t ∧ ∃ m, t.reck.mirrorSnap = some m ∧ m.1 = solve :=
  h.next (f := fun s => s.snapshotIn solve tick first bs) rfl fun _ _ => snapshotIn_solve _ solve tick first bs

theorem mirrorContext_held (h : Follows s r) {bs : List Byte} {c : Ctx} (hc : s.ctxOf (netAt bs 0 2) = some c) (h2 : netAt bs 2 1 ≤ 4)
    (h3 : netAt bs 3 1 ≤ 2) : ∃ t, exec (.mirrorContext r bs) s = .next t ∧ ∃ k, t.ctxOf (netAt bs 0 2) = some k
      ∧ enOfCode (netAt bs 3 1) = some k.en ∧ ctxStOf (netAt bs 2 1) = some k.st ∧ k.outImg = padTo 64 (bs.drop 32)
      ∧ k.rxSeq = BitVec.ofNat 32 (netAt bs 0xC 4)
      ∧ (BitVec.ofNat 32 (netAt bs 8 4) ≠ 0 → k.txSeq = some (BitVec.ofNat 32 (netAt bs 8 4))) :=
  h.next (f := fun s => s.contextTake bs) rfl fun u _ => contextTake_ctxOf (s := { s with twin := u }) hc h2 h3

theorem mirrorContext_discarded (h : Follows s r) {bs : List Byte} (hk : 4 < netAt bs 2 1 ∨ 2 < netAt bs 3 1) :
    ∃ t, exec (.mirrorContext r bs) s = .next t ∧ t.twin.discards = satInc s.twin.discards :=
  h.discards (f := fun s => s.contextTake bs) rfl fun _ _ => contextTake_discard hk

theorem mirrorMeter_held (h : Paired s r) {set : Nat} {bs : List Byte} (hset : set ≤ 2) (hlen : bs.length = 128) (hid : netAt bs 0 2 ≤ 11)
    (hc : s.circ (netAt bs 0 2) = none) :
    ∃ t, exec (.mirrorMeter r 0 set bs) s = .next t ∧ ∃ y, t.circ (netAt bs 0 2) = some y ∧ y.mirrored = true :=
  h.next (f := fun s => if 1 < 0 || 2 < set then s.twinDiscard else s.mirrorMeterRx 0 set bs) rfl fun u _ => by
    obtain ⟨y, hy, hm⟩ := mirrorMeterRx_circ (s := { s with twin := u }) hlen hid hc set
    have hk : ¬ (decide (1 < 0) || decide (2 < set)) = true := by simp [hset]
    rw [if_neg hk, hy]
    exact ⟨y, circ_setCirc _ _ _, hm⟩

theorem mirrorMeter_discarded (h : Paired s r) {kind set : Nat} (hk : 1 < kind ∨ 2 < set) (bs : List Byte) :
    ∃ t, exec (.mirrorMeter r kind set bs) s = .next t ∧ t.twin.discards = satInc s.twin.discards :=
  h.discards (f := fun s => if 1 < kind || 2 < set then s.twinDiscard else s.mirrorMeterRx kind set bs) rfl fun _ _ => if_pos (by simpa using hk)

theorem mirrorTally_words (h : Follows s r) (start : Nat) (bs : List Byte) : ∃ t, exec (.mirrorTally r 3 start bs) s = .next t
    ∧ t.tally.words = Mem.writes s.tally.words start bs ∧ t.tally.pubWords = Mem.writes s.tally.pubWords start bs
    ∧ t.tally.markers = s.tally.markers :=
  h.next (f := fun s => s.tallyIn 3 start bs) rfl fun u _ => tallyIn_words { s with twin := u } start bs

theorem mirrorTally_markers (h : Follows s r) (start : Nat) (bs : List Byte) : ∃ t, exec (.mirrorTally r 2 start bs) s = .next t
    ∧ t.tally.markers = Mem.writes s.tally.markers start bs ∧ t.tally.words = s.tally.words :=
  h.next (f := fun s => s.tallyIn 2 start bs) rfl fun u _ => tallyIn_markers { s with twin := u } start bs

theorem mirrorTally_discarded (h : Follows s r) {area : Nat} (ha : area = 0 ∨ area = 7 ∨ (9 < area ∧ area ≠ 0xFF)) (start : Nat)
    (bs : List Byte) : ∃ t, exec (.mirrorTally r area start bs) s = .next t ∧ t.twin.discards = satInc s.twin.discards :=
  h.next (f := fun s => s.tallyIn area start bs) rfl fun u hu =>
    (tallyIn_discards ha { s with twin := u } start bs).trans (congrArg satInc hu.discards)

theorem mirrorPlan_held (h : Follows s r) {bs : List Byte} (hk : planCodesOk bs = true) : ∃ t, exec (.mirrorPlan r bs) s = .next t
    ∧ (t.layer (if netAt bs 4 1 = 0 then .day else .pressure)).plan = some (planIn bs)
    ∧ (t.layer (if netAt bs 4 1 = 0 then .day else .pressure)).coldNext = false :=
  h.next (f := fun s => s.planTake bs) rfl fun u _ => planTake_plan (s := { s with twin := u }) hk

theorem mirrorPlan_discarded (h : Follows s r) {bs : List Byte} (hk : planCodesOk bs = false) :
    ∃ t, exec (.mirrorPlan r bs) s = .next t ∧ t.twin.discards = satInc s.twin.discards :=
  h.discards (f := fun s => s.planTake bs) rfl fun _ _ => planTake_discard hk

theorem mirrorRollout_ended (h : Follows s r) {bs : List Byte} (h3 : 3 ≤ netAt bs 4 1) (h6 : netAt bs 4 1 ≤ 6) (hk : RolloutKnown bs) :
    ∃ t, exec (.mirrorRollout r bs) s = .next t ∧ t.roll.mirror = s.roll.mirror.filter (fun x => x.id != netAt bs 0 2) :=
  h.next (f := fun s => s.rolloutTake bs) rfl fun u _ => rolloutTake_ended (s := { s with twin := u }) h3 h6 hk

theorem mirrorRollout_discarded (h : Follows s r) {bs : List Byte} (hk : 6 < netAt bs 4 1 ∨ ¬ RolloutKnown bs) :
    ∃ t, exec (.mirrorRollout r bs) s = .next t ∧ t.twin.discards = satInc s.twin.discards :=
  h.discards (f := fun s => s.rolloutTake bs) rfl fun _ _ => rolloutTake_discard hk

theorem mirrorImage_held (h : Follows s r) {total : Nat} {bs : List Byte} (hl : bs.length < total) (ok : Bool) :
    ∃ t, exec (.mirrorImage r 0 0 total bs ok) s = .next t ∧ t.model.mirrorIn = bs :=
  h.next (f := fun s => s.imageIn 0 0 total bs ok) rfl fun u _ => imageIn_part hl { s with twin := u } ok

theorem mirrorImage_loaded (h : Follows s r) {bs : List Byte} (hk : (tallyChecks bs bs.length s.houseId s.fuse).1 = 0) :
    ∃ t, exec (.mirrorImage r 1 0 bs.length bs true) s = .next t ∧ t.tally.loaded = true
      ∧ t.tally.banks = s.tally.banks.set s.spareBank ⟨bs, 0⟩ :=
  h.next (f := fun s => s.imageIn 1 0 bs.length bs true) rfl fun u _ => by
    rw [imageIn_whole]
    exact tallyImageIn_loads hk

theorem mirrorImage_discarded (h : Follows s r) {image : Nat} (hi : 1 < image) (o n : Nat) (bs : List Byte) (ok : Bool) :
    ∃ t, exec (.mirrorImage r image o n bs ok) s = .next t ∧ t.twin.discards = satInc s.twin.discards :=
  h.discards (f := fun s => s.imageIn image o n bs ok) rfl fun _ _ => imageIn_unknown hi _ o n bs ok

theorem mirrorVerdict_goesOn (h : Paired s r) {l : TallyLoad} (hl : s.tally.load = some l) (hs : l.stage = .mirroring) :
    ∃ t, exec (.mirrorVerdict r 1 0) s = .next t ∧ t.tally.load = some { l with stage := .writing } :=
  h.next (f := fun s => s.verdictIn 1 0) rfl fun u _ => tallyVerdict_writes (s := { s with twin := u }) hl hs

theorem mirrorMark_activates (h : Follows s r) {v : Word} (hl : s.tally.loaded = true)
    (hv : word (u32At (s.tally.banks.getD s.spareBank default).bytes 0x0C) = v) :
    ∃ t, exec (.mirrorMark r 1 v) s = .next t ∧ t.tally.bank = s.spareBank ∧ t.tally.loaded = false :=
  h.paired.next (f := fun s => s.markIn 1 v) rfl fun u hu => by
    rw [markIn_activates (s := { s with twin := u }) (hu.role.trans h.role) hl hv]
    exact activateBank_bank _

theorem mirrorResync_starts (h : Follows s r) (n : Nat) :
    ∃ t, exec (.mirrorResync r 0 n) s = .next t ∧ t.twin.resyncGap = false ∧ t.twin.resyncSince = some s.now := by
  obtain ⟨u, -, hu⟩ := h.took (c := .mirrorResync r 0 n) (f := fun s => s.resyncIn 0 n) rfl
  exact ⟨State.resyncIn { s with twin := u } 0 n, hu, resyncIn_start _ n⟩

theorem mirrorResync_clears (h : Follows s r) (hf : r.first = s.twin.mirrorRx ∨ r.first = s.twin.mirrorRx + 1)
    (hg : s.twin.resyncGap = false) (n : Nat) :
    ∃ t, exec (.mirrorResync r 1 n) s = .next t ∧ t.twin.unsynced = false ∧ t.twin.resyncReq = false := by
  obtain ⟨u, hw, hu⟩ := h.took (c := .mirrorResync r 1 n) (f := fun s => s.resyncIn 1 n) rfl
  exact ⟨State.resyncIn { s with twin := u } 1 n, hu, resyncIn_end ((hw.inOrder hf).2.2.trans hg) n⟩

end

/-- Settles O44. A frame's checks are `mirrorRecord_checked`; a record that is taken is applied in the state of `taken_eq`, where one
lemma for each kind of record says what it holds. -/
theorem mirrorRecordsAreApplied : Obligations.MirrorRecordsAreApplied := by
  unfold Obligations.MirrorRecordsAreApplied
  intro s r w seq first valid follows paired standbyRecord twinRecord discards
  have hvalid : valid → MirrorValid s r := fun ⟨heard, good, house, h0, hF, he, ho⟩ => ⟨heard, good, house, ⟨h0, hF⟩, he, ho⟩
  have hfollows : follows → Follows s r := fun ⟨hv, hr, he⟩ => ⟨hvalid hv, hr, he⟩
  have hpaired : paired → Paired s r := fun ⟨hv, hr, he, hn⟩ => ⟨hvalid hv, hr, he, hn⟩
  refine ⟨?checks, ?loop, ?station, ?bus, ?busEpoch, ?snapshot, ?words, ?markers, ?area, ?plan, ?rollout, ?context, ?meter, ?meterCode,
    ?imagePart, ?imageCode, ?image, ?verdict, ?mark, ?resync⟩
  case checks =>
    intro c hc
    obtain ⟨off, bad, reserved, otherHouse, newer, ignored⟩ := mirrorRecord_checked (r := r) hc s
    exact ⟨off, bad, reserved, otherHouse, fun hv => newer (hvalid hv), fun hv => ignored (hvalid hv)⟩
  case loop =>
    intro n l f g h hl
    obtain ⟨t, ht, hk, hu⟩ := mirrorLoopOut_taken (hfollows h) hl f g
    exact ⟨t, _, ht, hk, rfl, rfl, rfl, hu.rx, hu.last, hu.heard, hu.gap h.2.1, fun h1 =>
      ⟨(hu.inOrder (.inr h1)).1, (hu.inOrder (.inr h1)).2.1⟩⟩
  case station =>
    intro id c bs h hc hid hr hf
    refine ⟨fun hd => ?_, fun hd => ⟨mirrorEmitStn_leaves (hfollows h) hc hid hr hf hd, fun he => ?_⟩⟩
    · obtain ⟨t, ht, -, hdis⟩ := mirrorEmitStn_discarded (bs := bs) (hfollows h) hc (.inr hd)
      exact ⟨t, ht, hdis⟩
    · exact mirrorEmitStn_discarded (hfollows h) hc (.inl he)
  case bus =>
    intro b o z x bs h hx hb ho he hdr hen hest hxs hfr
    obtain ⟨t, ht, g, hg⟩ := mirrorEmitFbus_queued (hfollows h) hx hb ho he hdr hen hest hxs hfr z bs
    exact ⟨t, g, ht, hg⟩
  case busEpoch => exact fun b o z bs h he => mirrorEmitFbus_discarded (hfollows h) he b o z bs
  case snapshot =>
    intro solve tick first bs h
    obtain ⟨t, ht, m, hm⟩ := mirrorSnapshot_held (hfollows h) solve tick first bs
    exact ⟨t, m, ht, hm⟩
  case words => exact fun start bs h => mirrorTally_words (hfollows h) start bs
  case markers => exact fun start bs h => mirrorTally_markers (hfollows h) start bs
  case area => exact fun area start bs h ha => mirrorTally_discarded (hfollows h) ha start bs
  case plan => exact fun bs h => ⟨mirrorPlan_held (hfollows h), mirrorPlan_discarded (hfollows h)⟩
  case rollout => exact fun bs h => ⟨mirrorRollout_ended (hfollows h), mirrorRollout_discarded (hfollows h)⟩
  case context =>
    rintro id c bs h rfl hc -
    refine ⟨fun h2 h3 => ?_, mirrorContext_discarded (hfollows h)⟩
    obtain ⟨t, ht, k, hk⟩ := mirrorContext_held (hfollows h) hc h2 h3
    exact ⟨t, k, ht, hk⟩
  case meter =>
    intro set bs h hset hlen hid hc
    obtain ⟨t, ht, y, hy⟩ := mirrorMeter_held (hpaired h) hset hlen hid hc
    exact ⟨t, y, ht, hy⟩
  case meterCode => exact fun kind set bs h hk => mirrorMeter_discarded (hpaired h) hk bs
  case imagePart => exact fun total bs ok h hl => mirrorImage_held (hfollows h) hl ok
  case imageCode => exact fun image o n bs ok h hi => mirrorImage_discarded (hfollows h) hi o n bs ok
  case image => exact fun bs h hk => mirrorImage_loaded (hfollows h) hk
  case verdict => exact fun l h hl hs => mirrorVerdict_goesOn (hpaired h) hl hs
  case mark => exact fun v h hl hv => mirrorMark_activates (hfollows h) hl hv
  case resync =>
    exact fun n h hf => ⟨mirrorResync_starts (hfollows h) n, fun hg => mirrorResync_clears (hfollows h) hf hg n⟩

end Sys2Proof.Machine

/-! PROOF. Tokens (R48, R59, R82, R95, R96, R98, R101): where a token goes that arrives at a bead, by the state of its role. -/

namespace Sys2Proof.Machine

open Sys2Proof

/-! ### The role of a token -/

theorem State.role_id {s : State} {id : Half} {r : Role} (h : s.role id = some r) : r.id = id := by
  simpa using List.find?_some h

/-- The token names its role in force: not a retired one, and not one of another incarnation (R98). -/
def Role.owns (r : Role) (t : Token) : Prop := r.st ≠ .retired ∧ incarnation t.epoch = incarnation r.epoch

/-- A bead that works, in a deck that is awake. -/
def State.beadAwake (s : State) (bead : Nat) : Prop := s.deckAsleep (deckOf bead) = false ∧ s.beadWorks bead = true

/-! ### Where a token goes -/

section

variable {s : State} {t : Token} {r : Role} {bead : Nat}

theorem tokenComes_foreign (hr : s.role t.role = some r) (h : ¬ r.owns t) (fwd : Bool) : s.tokenComes t bead fwd = s.dropRetired t := by
  unfold State.tokenComes
  rw [hr]
  exact if_pos (by simpa [Role.owns, Classical.or_iff_not_imp_left] using h)

theorem tokenComes_own (hr : s.role t.role = some r) (h : r.owns t) (fwd : Bool) : s.tokenComes t bead fwd =
    if r.st = .replacing then s.tokenWaits r t fwd
    else if s.deckAsleep (deckOf bead) then s.holdAtDeck (deckOf bead) (.token t bead fwd)
    else if (s.stir (deckOf bead)).beadWorks bead then (s.stir (deckOf bead)).tokenAt r t bead fwd
    else (s.stir (deckOf bead)).emit (.ack t .void) := by
  unfold State.tokenComes
  rw [hr]
  exact if_neg (by simpa [Role.owns] using h)

theorem deckAsleep_retention {d : Nat} (h : (s.deck d).st = .retention) : s.deckAsleep d = true := by
  rw [State.deckAsleep, h]
  rfl

theorem tokenComes_asleep (hr : s.role t.role = some r) (h : r.owns t) (hst : r.st ≠ .replacing)
    (hd : (s.deck (deckOf bead)).st = .retention) (fwd : Bool) :
    s.tokenComes t bead fwd = s.holdAtDeck (deckOf bead) (.token t bead fwd) := by
  rw [tokenComes_own hr h, if_neg hst, if_pos (deckAsleep_retention hd)]

theorem tokenComes_awake (hr : s.role t.role = some r) (h : r.owns t) (ha : s.beadAwake bead) (hst : r.st ≠ .replacing) (fwd : Bool) :
    s.tokenComes t bead fwd = (s.stir (deckOf bead)).tokenAt r t bead fwd := by
  rw [tokenComes_own hr h, if_neg hst, if_neg (by simp [ha.1])]
  exact if_pos ha.2

/-- A role that waits for a new bead holds its tokens at the routers (R101). -/
theorem tokenComes_replacing (hr : s.role t.role = some r) (h : r.owns t) (hst : r.st = .replacing) (hm : r.move = none) (fwd : Bool) :
    s.tokenComes t bead fwd = s.waitToken r.id t := by
  rw [tokenComes_own hr h, if_pos hst]
  unfold State.tokenWaits
  rw [hm]

theorem waitToken_held (hr : s.role r.id = some r) (h : r.waiting.length < 32) :
    s.waitToken r.id t = s.modRole r.id (fun x => { x with waiting := x.waiting ++ [t] }) := by
  unfold State.waitToken
  rw [hr]
  exact if_pos h

theorem waitToken_full (hr : s.role r.id = some r) (h : 32 ≤ r.waiting.length) :
    s.waitToken r.id t = (s.modRole r.id (fun x => { x with resend := x.resend ++ [t] })).emit (.ack t .void) := by
  unfold State.waitToken
  rw [hr]
  exact if_neg (by omega)

/-! ### At the bead -/

theorem tokenAt_still (hm : r.move = none) (hb : bead = r.bead) (fwd : Bool) : s.tokenAt r t bead fwd = s.emit (.ack t .normal) := by
  unfold State.tokenAt
  rw [hm]
  exact congrArg (fun a => s.emit (.ack t a)) (if_pos hb)

variable {m : Move}

theorem tokenAt_moving (hm : r.move = some m) (fwd : Bool) : s.tokenAt r t bead fwd = s.tokenMoving r m t bead fwd := by
  unfold State.tokenAt
  rw [hm]

theorem tokenMoving_frozen (hc : m.committed = false) (hb : bead = r.bead) (fwd : Bool) :
    s.tokenMoving r m t bead fwd = s.modRole r.id (fun x => { x with move := some { m with queued := m.queued ++ [t] } }) := by
  simp [State.tokenMoving, hc, hb]

theorem tokenMoving_stub (hc : m.committed = true) (hb : bead = m.from_) : s.tokenMoving r m t bead false =
    (s.modRole r.id (fun x => { x with move := some { m with forwarding := m.forwarding ++ [t] } })).emit (.forward t r.bead) := by
  simp [State.tokenMoving, hc, hb]

theorem tokenMoving_direct (hc : m.committed = true) (hb : bead = r.bead) (hf : r.bead ≠ m.from_) :
    s.tokenMoving r m t bead false = s.modRole r.id (fun x => { x with move := some (m.hold [t]) }) := by
  simp [State.tokenMoving, hc, hb, hf]

theorem tokenMoving_forwarded (hc : m.committed = true) (hb : bead = r.bead) (hf : t ∈ m.forwarding) : s.tokenMoving r m t bead true =
    (s.modRole r.id (fun x => { x with move := some { m with forwarding := m.forwarding.erase t } })).emit (.ack t .normal) := by
  simp [State.tokenMoving, hc, hb, hf]

/-- What is held at the new bead and in the senders is what was held and the new tokens, in order (R96). -/
theorem hold_tokens (m : Move) (ts : List Token) :
    (m.hold ts).held ++ (m.hold ts).withheld = m.held ++ m.withheld ++ ts ∧ (m.hold ts).held.length ≤ 32 :=
  ⟨List.take_append_drop _ _, List.length_take_le _ _⟩

/-- A dropped token is acknowledged void and counted, for the tablet and for its role id (R98). -/
theorem dropRetired_counts (s : State) (t : Token) : Output.ack t .void ∈ (s.dropRetired t).out ∧ OnlyReports { s with
    place := { s.place with
      retiredDrop := satInc s.place.retiredDrop
      drops := alPut s.place.drops t.role.toNat ((alGet s.place.drops t.role.toNat).getD 0 + 1) } } (s.dropRetired t) := by
  unfold State.dropRetired
  exact ⟨(raiseTimed_grows _ _ _ _).mem (List.mem_append_right _ (List.mem_singleton_self _)),
    (emit_only _ _).trans (raiseTimed_only _ _ _ _)⟩

/-! ### By the command -/

theorem exec_tokenArrival_port (s : State) (t : Token) (bead : Nat) :
    exec (.tokenArrival t .port bead) s = .next (s.tokenComes t bead false) := rfl

theorem exec_tokenArrival_router (hr : s.role t.role = some r) (n : Nat) :
    exec (.tokenArrival t .router n) s = .next (s.tokenComes t (r.cachedBead n) false) := by
  change Host.Outcome.next (s.tokenArrival t .router n) = _
  unfold State.tokenArrival
  rw [hr]

theorem exec_tokenArrival_stub (hr : s.role t.role = some r) (n : Nat) :
    exec (.tokenArrival t .stub n) s = .next (s.tokenComes t r.bead true) := by
  change Host.Outcome.next (s.tokenArrival t .stub n) = _
  unfold State.tokenArrival
  rw [hr]

/-- A token of a role that runs or moves, at its port in an awake deck. -/
theorem exec_tokenArrival_awake (hr : s.role t.role = some r) (h : r.owns t) (ha : s.beadAwake bead) (hst : r.st ≠ .replacing) :
    exec (.tokenArrival t .port bead) s = .next ((s.stir (deckOf bead)).tokenAt r t bead false) := by
  rw [exec_tokenArrival_port, tokenComes_awake hr h ha hst]

end

/-- Settles O3: the state of the role, of its deck and of its move each select one branch of a token's arrival. -/
theorem tokensHaveOneAcknowledge : Obligations.TokensHaveOneAcknowledge := by
  unfold Obligations.TokensHaveOneAcknowledge
  intro s t bead r hr u awake mine
  have hid : s.role r.id = some r := by rw [State.role_id hr, hr]
  have port := fun (h : mine) (ha : awake) (hst : r.st ≠ .replacing) => exec_tokenArrival_awake hr h ha hst
  refine ⟨fun n => exec_tokenArrival_router hr n, ?running, ?foreign, ?asleep, ?waits, ?full, ?frozen, ?stub, ?direct, ?forwarded⟩
  case running =>
    intro h ha hst hm hb
    rw [port h ha (by simp [hst]), tokenAt_still hm hb]
    rfl
  case foreign =>
    intro h
    obtain ⟨hack, honly⟩ := dropRetired_counts s t
    exact ⟨_, (exec_tokenArrival_port s t bead).trans (congrArg _ (tokenComes_foreign hr h false)), hack, honly⟩
  case asleep =>
    intro h hst hd
    rw [exec_tokenArrival_port, tokenComes_asleep hr h hst hd]
  case waits =>
    intro h hst hm hw
    rw [exec_tokenArrival_port, tokenComes_replacing hr h hst hm, waitToken_held hid hw]
  case full =>
    intro h hst hm hw
    rw [exec_tokenArrival_port, tokenComes_replacing hr h hst hm, waitToken_full hid hw]
  case frozen =>
    intro m h ha hst hm hc hb
    rw [port h ha (by simp [hst]), tokenAt_moving hm, tokenMoving_frozen hc hb]
  case stub =>
    intro m h ha hst hm hc hb
    rw [port h ha (by simp [hst]), tokenAt_moving hm, tokenMoving_stub hc hb]
  case direct =>
    intro m h ha hst hm hc hb hf
    refine ⟨?_, hold_tokens m [t]⟩
    rw [port h ha (by simp [hst]), tokenAt_moving hm, tokenMoving_direct hc hb hf]
  case forwarded =>
    intro m n h ha hst hm hc hb hf
    subst hb
    rw [exec_tokenArrival_stub hr, tokenComes_awake hr h ha (by simp [hst]), tokenAt_moving hm, tokenMoving_forwarded hc rfl hf]

end Sys2Proof.Machine

/-! PROOF. Decks (R55–R63): their rails and pace, their sleep, and what heat does to them. -/

namespace Sys2Proof.Machine

open Sys2Proof

/-! ### Decks under updates -/

theorem deck_modDeck_same {s : State} {d : Nat} (h : d < s.fab.decks.length) (f : Deck → Deck) :
    (s.modDeck d f).deck d = f (s.deck d) := by
  simp [State.modDeck, State.deck, List.getD_eq_getElem?_getD, List.getElem?_eq_getElem h]

theorem deck_modDeck_ne {d e : Nat} (h : e ≠ d) (s : State) (f : Deck → Deck) : (s.modDeck d f).deck e = s.deck e :=
  (deck_modDeck s d e f).resolve_right fun k => h k.1

theorem OnlyReports.decks {s t : State} (h : OnlyReports s t) : t.fab.decks = s.fab.decks := by rw [h.fab_crossings]

theorem State.deck_congr {s t : State} (h : t.fab.decks = s.fab.decks) (d : Nat) : t.deck d = s.deck d := by
  unfold State.deck
  rw [h]

/-! ### The pace step (R55, R56) -/

section

variable {k : Deck} {now rate floor : Nat} {backlog full hot : Bool}

theorem paceRule_floor (hr : k.rail ≤ railMax hot) (h : rate < paceFloor hot) :
    paceRule k now rate floor backlog full hot = stepUp hot k.rail := by
  unfold paceRule
  rw [if_neg (by omega), if_pos h]

theorem paceRule_backlog (hr : k.rail ≤ railMax hot) (h : ¬ rate < paceFloor hot) (hk : k.hot = false) :
    paceRule k now rate floor true full hot = stepUp hot k.rail := by
  unfold paceRule
  rw [if_neg (by omega), if_neg h, hk]
  simp

theorem paceRule_rested (hr : k.rail ≤ railMax hot) (h : ¬ rate < paceFloor hot) (hk : k.hot = false) (hb : k.lastBacklog + msNs ≤ now) :
    paceRule k now rate floor false false hot = stepDown floor k.rail := by
  unfold paceRule
  rw [if_neg (by omega), if_neg h, hk]
  simp [hb]

end

/-- What a pace step writes of a deck: the rail that it chose and what was measured. -/
def Deck.paced (k : Deck) (now rate temp rail : Nat) (backlog : Bool) : Deck :=
  let atTop := decide (rail = 90) && backlog
  { k with
    rail := rail, pace := rate, temp := temp, lastStep := now, lastBacklog := if backlog then now else k.lastBacklog,
    ceiling := atTop, ceilingAt := if atTop && !k.ceiling then some now else k.ceilingAt }

/-- The ambient that the step found, and the free values that its reading of the temperature took. -/
def State.ambient (s : State) (hot : Bool) (n : Nat) : State := { s with fab := { s.fab with hot := hot }, freeCnt := n }

/-- A reading of a deck's temperature takes free values at most. -/
theorem deckTemp_reads (s : State) (d raw : Nat) : ∃ n temp, s.deckTemp d raw = ({ s with freeCnt := n }, temp) :=
  ⟨_, _, Prod.ext (deckTemp_only s d raw) rfl⟩

/-- A pace step of an awake deck writes its rail and what was measured, and reports at most. -/
theorem paceStep_steps {s : State} {d : Nat} (h8 : d < 8) (ha : (s.deck d).st.awake = true) (ht : (s.deck d).lastStep + 50 * usNs ≤ s.now)
    (rate raw floor : Nat) (backlog hot : Bool) : ∃ n temp, OnlyReports ((s.ambient hot n).modDeck d (fun k =>
        k.paced s.now rate temp (paceRule (s.deck d) s.now rate floor backlog (s.fld rPaceCtl 1 0 == 1) hot) backlog))
      (s.paceStep d rate raw floor backlog hot) := by
  obtain ⟨n, temp, hn⟩ := deckTemp_reads s d raw
  refine ⟨n, temp, ?_⟩
  unfold State.paceStep
  rw [if_pos (by simp [h8, ha, ht]), hn]
  dsimp only
  generalize paceRule (s.deck d) s.now rate floor backlog (s.fld rPaceCtl 1 0 == 1) hot = rail
  split
  · exact raise_only _ _ _
  · exact .refl _

/-! ### Retention (R57–R60) -/

theorem retentionEntry_sleeps {s : State} {d q : Nat} (h8 : d < 8) (ha : s.deckAwake d = true) (hq : 2 * msNs ≤ q)
    (hi : (s.deck d).idleSince + 2 * msNs ≤ s.now) (he : s.fld rPaceCtl 2 2 = 1) (hp : s.deckHoldsPinned d = false)
    (hm : s.deckMoves d = false) :
    s.retentionEntry d q = s.modDeck d (fun k => { k with st := .retention, lastRail := k.rail, rail := 0 }) := by
  have ha' : (s.deck d).st.awake = true := ha
  exact if_pos (by simp [h8, ha', hq, hi, he, hp, hm])

theorem exec_deckWake {s : State} {d : Nat} {a : Arrival} (h : Arrival.deck a = some d) :
    exec (.deckWake d a) s = .next (s.arrives a) :=
  congrArg Host.Outcome.next (if_pos h)

/-- What reaches a deck in retention is held there, and the deck wakes. -/
theorem holdAtDeck_wakes {s : State} {d : Nat} (hd : d < s.fab.decks.length) (h : (s.deck d).st = .retention) (a : Arrival) :
    ((s.holdAtDeck d a).deck d).st = .waking ∧ ((s.holdAtDeck d a).deck d).held = (s.deck d).held ++ [a] := by
  unfold State.holdAtDeck
  rw [deck_modDeck_same hd]
  exact ⟨if_pos h, rfl⟩

theorem memoryAccess_asleep {s : State} {a : MemReq} {d : Nat} (hd : memDeck a.mem a.idx = some d) (up : s.memDown a.mem a.idx = false)
    (h : (s.deck d).st = .retention) : s.memoryAccess a = s.holdAtDeck d (.access a) := by
  have ha : s.memAsleep a.mem a.idx = true := by
    rw [State.memAsleep, hd]
    exact deckAsleep_retention h
  unfold State.memoryAccess
  rw [if_neg (by simp [up]), if_pos ha, hd]
  rfl

theorem retentionExit_restored {s : State} {d : Nat} (h : (s.deck d).st = .waking) (hh : (s.deck d).held = []) (raw : Nat) :
    s.retentionExit d true raw = s.modDeck d (fun k => { k with
      st := if k.hot then .shedding else .active, rail := k.lastRail, idleSince := s.now, held := [] }) := by
  unfold State.retentionExit
  simp [h, hh]

theorem retentionExit_failed {s : State} {d : Nat} (h : (s.deck d).st = .waking) (raw : Nat) :
    s.retentionExit d false raw = s.raise 0x1D [u16 d, u16 raw] := by
  unfold State.retentionExit
  simp [h]

/-- Settles O5: the pace rules of `paceRule`, and a deck's sleep by what reaches it and what its rail does. -/
theorem decksPaceAndSleep : Obligations.DecksPaceAndSleep := by
  unfold Obligations.DecksPaceAndSleep
  intro s d rate raw floor backlog hot hd h8
  refine ⟨?pace, ?sleeps, ?token, ?held, ?access, fun h hh => congrArg Host.Outcome.next (retentionExit_restored h hh raw),
    fun h => congrArg Host.Outcome.next (retentionExit_failed h raw)⟩
  case pace =>
    intro hst hhot hstep hrail
    obtain ⟨n, temp, hr⟩ := paceStep_steps h8 (by rw [hst]; rfl) hstep rate raw floor backlog hot
    refine ⟨s.paceStep d rate raw floor backlog hot, rfl, ?_⟩
    generalize s.paceStep d rate raw floor backlog hot = t at hr ⊢
    have hdeck := State.deck_congr hr.decks
    rw [(hdeck d).trans (deck_modDeck_same hd _)]
    refine ⟨rfl, rfl, hst, paceRule_floor hrail, fun h _ hb => ?_, fun h hp hb hl => ?_, ?_,
      fun e he => (hdeck e).trans (deck_modDeck_ne he _ _)⟩
    · exact hb ▸ paceRule_backlog hrail h hhot
    · exact hb ▸ beq_false_of_ne hp ▸ paceRule_rested hrail h hhot hl
    · rw [hr.decks, hr.freeCnt]
      exact hr
  case sleeps => exact fun q ha hq hi he hp hm => congrArg Host.Outcome.next (retentionEntry_sleeps h8 ha hq hi he hp hm)
  case token =>
    intro tok b hb
    exact exec_deckWake (congrArg some hb)
  case held =>
    intro tok b fwd r hr hret hrep hinc hb hst
    subst hb
    refine ⟨_, exec_deckWake (a := .token tok b fwd) rfl, ?_⟩
    rw [State.arrives, tokenComes_asleep hr ⟨hret, hinc⟩ hrep hst]
    exact holdAtDeck_wakes hd hst _
  case access =>
    intro a ha up hst
    refine ⟨_, exec_deckWake (a := .access a) ha, ?_⟩
    rw [State.arrives, memoryAccess_asleep ha up hst]
    exact holdAtDeck_wakes hd hst _

/-! ### Heat (R61–R63) -/

/-- With an offset of 0.0 a deck's temperature is the sensor's reading (R646). -/
theorem deckTemp_exact {s : State} {d raw : Nat} (h : s.cal.tofs.getD d 0 = 0#32) (hr : raw ≤ 1023) : s.deckTemp d raw = (s, raw) := by
  have hz : fInt 0#32 = 0 := by decide
  unfold State.deckTemp
  rw [h, hz]
  simp [State.openRound, hr]

/-- Isolating a part leaves the decks as marking it left them. -/
theorem isolate_decks (s : State) (p : Part) : (s.isolate p).fab.decks = ((s.voidHeld p).markFailed p).fab.decks := by
  unfold State.isolate
  extract_lets u lost v
  have h : v.fab.decks = u.fab.decks := by rw [(loseBeads_moves _ _ _).fab]
  clear_value v
  cases p
  case deck d =>
    dsimp only
    split
    · rw [(loseFrame_fab v (d / 4) 3).1, h]
    · exact h
  all_goals exact h

/-- A tripped deck that is isolated stays tripped (R63). -/
theorem isolate_tripped {s : State} {d : Nat} (hd : d < s.fab.decks.length) (h : (s.deck d).st = .tripped) :
    ((s.isolate (.deck d)).deck d).st = .tripped := by
  rw [State.deck_congr (isolate_decks s (.deck d)) d]
  exact (congrArg Deck.st (deck_modDeck_same hd _)).trans (if_pos h)

/-- A deck that is isolated is marked, and its beads no longer work (R71). -/
theorem isolate_deck_fails (s : State) (d : Nat) :
    d ∈ (s.isolate (.deck d)).fab.deckFail ∧ ∀ i, i < 64 → (s.isolate (.deck d)).beadWorks (d * 64 + i) = false := by
  obtain ⟨hbeads, -, hdeck⟩ := markFailed_marks (s.voidHeld (.deck d)) (.deck d)
  have k := isolate_after_mark s (.deck d)
  exact ⟨k.decks (hdeck d rfl), fun i hi => beadWorks_false_of_bead (k.beads (hbeads (mem_partBeads_deck hi)))⟩

section

variable {s : State} {d raw : Nat}

theorem thermShed_starts (h8 : d < 8) (ht : s.deckTemp d raw = (s, raw)) (hf : d ∉ s.fab.deckFail) (hk : (s.deck d).hot = false)
    (h : tempOf s.shedC < raw) : exec (.thermShed d raw) s =
      .next ((s.modDeck d (fun k => { k with
        st := if k.st = .active then .shedding else k.st, hot := true, temp := if k.st.awake then raw else k.temp,
        shedSince := s.now })).raise 0x16 [u16 d, u16 raw]) := by
  change execThermShed d raw s = _
  unfold execThermShed
  rw [ht]
  exact congrArg Host.Outcome.next (if_pos (by simp [h8, hf, hk, h]))

theorem thermShedEnd_ends (h8 : d < 8) (ht : s.deckTemp d raw = (s, raw)) (hf : d ∉ s.fab.deckFail) (hk : (s.deck d).hot = true)
    (h : raw ≤ tempOf (s.shedC - 3)) : exec (.thermShedEnd d raw) s =
      .next ((s.modDeck d (fun k => { k with
        st := if k.st = .shedding then .active else k.st, hot := false, temp := if k.st.awake then raw else k.temp })).raise 0x17
        [u16 d, u16 raw, u32 ((s.now - (s.deck d).shedSince) / usNs)]) := by
  change execThermShedEnd d raw s = _
  unfold execThermShedEnd
  rw [ht]
  exact congrArg Host.Outcome.next (if_pos (by simp [h8, hf, hk, h]))

theorem thermTrip_trips (h8 : d < 8) (ht : s.deckTemp d raw = (s, raw)) (hf : d ∉ s.fab.deckFail) (h : tempOf 125 < raw) :
    exec (.thermTrip d raw) s =
      .next (((s.modDeck d (fun k => { k with st := .tripped, temp := raw })).raise 0x18 [u16 d, u16 raw]).isolate (.deck d)) := by
  change execThermTrip d raw s = _
  unfold execThermTrip
  rw [ht]
  exact congrArg Host.Outcome.next (if_pos (by simp [h8, hf, h]))

end

/-- Settles O6: with an exact temperature each command takes its branch, and a trip is an isolation that leaves the deck tripped. -/
theorem heatShedsAndTrips : Obligations.HeatShedsAndTrips := by
  unfold Obligations.HeatShedsAndTrips
  intro s d raw h8 hlen htofs hraw hfail
  have ht := deckTemp_exact htofs hraw
  refine ⟨thermShed_starts h8 ht hfail, thermShedEnd_ends h8 ht hfail, fun h => ⟨_, thermTrip_trips h8 ht hfail h, ?_⟩⟩
  have hd : d < s.fab.decks.length := by omega
  generalize hu : s.modDeck d (fun k => { k with st := .tripped, temp := raw }) = u
  have hst : (u.deck d).st = .tripped := by rw [← hu, deck_modDeck_same hd]
  have hmoves := raise_moves u 0x18 [u16 d, u16 raw]
  have hdecks : (u.raise 0x18 [u16 d, u16 raw]).fab.decks = u.fab.decks := by rw [hmoves.fab]
  obtain ⟨hmark, hbeads⟩ := isolate_deck_fails (u.raise 0x18 [u16 d, u16 raw]) d
  refine ⟨isolate_tripped ?_ ?_, hmark, hbeads, ?_⟩
  · rw [hdecks, ← hu]
    exact hd.trans_eq (List.length_modify _ _ _).symm
  · rw [State.deck_congr hdecks, hst]
  · exact ((hu ▸ modDeck_fails s d _).trans (hmoves.fails.trans (isolate_fails _ _))).places

end Sys2Proof.Machine

/-! PROOF. Crossings (R64–R68, R79): a request's timeout, the restart, and what crosses or merges. -/

namespace Sys2Proof.Machine

open Sys2Proof

/-! ### Crossings under updates -/

theorem xing_modXing_same {s : State} {x : Nat} (h : x < s.fab.crossings.length) (f : Crossing → Crossing) :
    (s.modXing x f).xing x = f (s.xing x) := by
  simp [State.modXing, State.xing, List.getD_eq_getElem?_getD, List.getElem?_eq_getElem h]

theorem xing_modXing_ne {x y : Nat} (h : y ≠ x) (s : State) (f : Crossing → Crossing) : (s.modXing x f).xing y = s.xing y := by
  simp [State.modXing, State.xing, List.getD_eq_getElem?_getD, Ne.symm h]

/-- A change of one crossing keeps in every other field what the change keeps. -/
theorem xing_modXing_congr {α : Type} (g : Crossing → α) {f : Crossing → Crossing} (hf : ∀ c, g (f c) = g c) (s : State) (x y : Nat) :
    g ((s.modXing x f).xing y) = g (s.xing y) := by
  simp only [State.modXing, State.xing, List.getD_eq_getElem?_getD, List.getElem?_modify]
  cases s.fab.crossings[y]? with
  | none => rfl
  | some c => by_cases h : x = y <;> simp [h, hf]

theorem xingStopped_modXing {f : Crossing → Crossing} (hf : ∀ c, (f c).stopped = c.stopped) (s : State) (x y : Nat) :
    (s.modXing x f).xingStopped y = s.xingStopped y :=
  xing_modXing_congr Crossing.stopped hf s x y

theorem State.xing_congr {s t : State} (h : t.fab.crossings = s.fab.crossings) (x : Nat) : t.xing x = s.xing x := by
  unfold State.xing
  rw [h]

theorem OnlyReports.crossing {s t : State} (h : OnlyReports s t) (y : Nat) :
    t.xing y = (s.modXing 0x01 (fun c => { c with void := t.hostVoid })).xing y :=
  State.xing_congr (congrArg (fun u => u.fab.crossings) h.1) y

/-- Reports count voids at crossing 0x01, and change nothing else of a crossing. -/
theorem OnlyReports.xing {s t : State} (h : OnlyReports s t) (y : Nat) : t.xing y = { s.xing y with void := (t.xing y).void } := by
  have hc := xing_modXing_congr (fun c : Crossing => { c with void := 0 }) (f := fun c => { c with void := t.hostVoid }) (fun _ => rfl) s 0x01 y
  rw [← h.crossing] at hc
  exact congrArg (fun c : Crossing => { c with void := (t.xing y).void }) hc

theorem OnlyReports.xing_void {s t : State} (h : OnlyReports s t) {y : Nat} (hy : y ≠ 0x01) : (t.xing y).void = (s.xing y).void := by
  rw [h.crossing, xing_modXing_ne hy]

/-- What reports left of a change of the fabric and an output before them is again such a change, the fabric's taken as they left it. -/
theorem OnlyReports.fab_after {s u t : State} (h : OnlyReports u t) (hu : u = { s with fab := u.fab, out := u.out }) :
    OnlyReports { s with fab := t.fab } t := by
  refine .of_eq ?_
  have k : t = { u with fab := t.fab, host := t.host, nlog := t.nlog, out := t.out } := by
    have e := congrArg State.fab h.1
    refine h.1.trans ?_
    rw [e]
    rfl
  rw [hu] at k
  exact k

/-! ### The timeout (R67, R68) -/

/-- A crossing as its first unanswered request leaves it: stopped, its counts noted, the request completed. -/
def Crossing.timedOut (c : Crossing) (req : Nat) : Crossing :=
  { c with stopped := true, voidAtStop := c.void, lateAtStop := c.late, done := max c.done (req + 1) }

/-- The state before the event of a timeout that stops its crossing. -/
def State.timedOut (s : State) (x req : Nat) : State :=
  { s with
    fab := { s.fab with crossings := s.fab.crossings.modify x (fun c => c.timedOut req), xingTo := setBit s.fab.xingTo x }
    out := s.out ++ [.xingAck x .void] }

section

variable {s : State} {x req : Nat}

theorem xingTimeout_stops (hx : x < 23) (hr : (s.xing x).stopped = false) (hd : (s.xing x).done ≤ req) :
    s.xingTimeout x req = (s.timedOut x req).raise 0x19 [u16 x, u16 (xingDir x)] := by
  have hs : (s.modXing x (fun c => { c with done := max c.done (req + 1) })).xingStopped x = false :=
    (xingStopped_modXing (f := fun c => { c with done := max c.done (req + 1) }) (fun _ => rfl) s x x).trans hr
  have hstop : ((s.modXing x (fun c => { c with done := max c.done (req + 1) })).stopXing x).emit (.xingAck x .void) = s.timedOut x req := by
    unfold State.stopXing
    rw [if_neg (by simp [hs])]
    simp only [State.modXing, List.modify_modify_eq]
    rfl
  unfold State.xingTimeout
  rw [if_neg (by omega)]
  dsimp only
  rw [if_neg (by simp [hr]), if_neg (by omega), hstop]

theorem xingTimeout_answered (hx : x < 23) (hr : (s.xing x).stopped = false) (hd : req < (s.xing x).done) : s.xingTimeout x req = s := by
  unfold State.xingTimeout
  rw [if_neg (by omega)]
  dsimp only
  rw [if_neg (by simp [hr]), if_pos hd]

theorem xingTimeout_stopped (hx : x < 23) (hr : (s.xing x).stopped = true) :
    s.xingTimeout x req = (s.modXing x (fun c => { c with done := max c.done (req + 1) })).xingVoid x := by
  unfold State.xingTimeout
  rw [if_neg (by omega)]
  exact if_pos hr

theorem xing_timedOut (h : x < s.fab.crossings.length) : (s.timedOut x req).xing x = (s.xing x).timedOut req :=
  xing_modXing_same h _

theorem xing_timedOut_ne {y : Nat} (h : y ≠ x) : (s.timedOut x req).xing y = s.xing y := xing_modXing_ne h s _

theorem xing_timedOut_void (y : Nat) : ((s.timedOut x req).xing y).void = (s.xing y).void :=
  xing_modXing_congr Crossing.void (f := fun c => c.timedOut req) (fun _ => rfl) s x y

/-! ### The restart, completions, events and items (R64–R68) -/

theorem exec_xingRestart (hx : x < 23) (hr : (s.xing x).stopped = true) :
    exec (.xingRestart x) s = .next ((s.modXing x (fun c => { c with stopped := false })).raise 0x1A
      [u16 x, u32 ((s.xing x).void - (s.xing x).voidAtStop).toNat, u32 ((s.xing x).late - (s.xing x).lateAtStop).toNat]) :=
  congrArg Host.Outcome.next (if_pos (by simp [hx, hr]))

theorem islandCompletion_late (hx : x < 23) (h : req < (s.xing x).done) :
    s.islandCompletion x .answer req = s.modXing x (fun c => { c with late := satInc c.late }) := by
  unfold State.islandCompletion
  rw [if_neg (by omega)]
  exact if_pos h

theorem islandCompletion_delivered (hx : x < 23) (h : (s.xing x).done ≤ req) :
    s.islandCompletion x .answer req = (s.modXing x (fun c => { c with done := req + 1 })).emit (.crossed x) := by
  unfold State.islandCompletion
  rw [if_neg (by omega)]
  exact if_neg (by omega)

theorem islandCompletion_event (hx : x < 23) (hm : xingMerging x = true) (n : Nat) :
    s.islandCompletion x .event n = s.xingEvent x (n != 0) := by
  unfold State.islandCompletion
  rw [if_neg (by omega)]
  exact if_pos hm

theorem islandCompletion_item (hx : x < 23) (hm : xingMerging x = false) (room : Nat) :
    s.islandCompletion x .item room = s.xingItems x ((s.xing x).waiting + 1) room := by
  unfold State.islandCompletion
  rw [if_neg (by omega)]
  exact if_neg (by simp [hm])

theorem islandCompletion_room (hx : x < 23) (room : Nat) : s.islandCompletion x .room room = s.xingItems x (s.xing x).waiting room := by
  unfold State.islandCompletion
  exact if_neg (by omega)

theorem xingEvent_merges {inside : Bool} (h : (s.xing x).carries x s.now inside = true) : s.xingEvent x inside = { s with
    fab := { s.fab with
      crossings := s.fab.crossings.modify x (fun c => { c with merges := satInc c.merges })
      xingMrg := setBit s.fab.xingMrg x } } :=
  if_pos h

theorem xingEvent_crosses {inside : Bool} (h : (s.xing x).carries x s.now inside = false) :
    s.xingEvent x inside = (s.modXing x (fun c => { c with tookAt := some s.now })).emit (.crossed x) :=
  if_neg (by simp [h])

/-- Of the items at a counting crossing, those that find room cross and the others wait: none is lost (R65). -/
theorem xingItems_keeps (h : x < s.fab.crossings.length) (n room : Nat) :
    (s.xingItems x n room).out = s.out ++ List.replicate (min n room) (.crossed x)
      ∧ ((s.xingItems x n room).xing x).waiting + min n room = n := by
  have hw : ((s.xingItems x n room).xing x).waiting = n - min n room := congrArg Crossing.waiting (xing_modXing_same h _)
  exact ⟨rfl, by omega⟩

end

/-- Settles O7: a request's timeout by the crossing's state and its completion, and each island item by its kind. -/
theorem crossingsStopAndRestart : Obligations.CrossingsStopAndRestart := by
  unfold Obligations.CrossingsStopAndRestart
  intro s x req hx hlen
  have next : ∀ {c : Instr} {u v : State}, exec c s = .next u → u = v → exec c s = .next v := fun h k => k ▸ h
  refine ⟨?stops, fun hr hd => next rfl (xingTimeout_answered hx hr hd), fun hr => next rfl (xingTimeout_stopped hx hr),
    exec_xingRestart hx, fun h => next rfl (islandCompletion_late hx h), fun h => next rfl (islandCompletion_delivered hx h),
    fun n hm hc => next rfl ((islandCompletion_event hx hm n).trans (xingEvent_merges hc)),
    fun n hm hc => next rfl ((islandCompletion_event hx hm n).trans (xingEvent_crosses hc)),
    fun room hm => ⟨_, next rfl (islandCompletion_item hx hm room), xingItems_keeps hlen _ room⟩,
    fun n => ⟨_, next rfl (islandCompletion_room hx n), xingItems_keeps hlen _ n⟩⟩
  case stops =>
    intro hr hd
    refine ⟨_, next rfl (xingTimeout_stops hx hr hd), ?_⟩
    have honly := raise_only (s.timedOut x req) 0x19 [u16 x, u16 (xingDir x)]
    have hgrows := raise_grows (s.timedOut x req) 0x19 [u16 x, u16 (xingDir x)]
    generalize (s.timedOut x req).raise 0x19 [u16 x, u16 (xingDir x)] = t at honly hgrows ⊢
    refine ⟨?_, ?_, hgrows.mem (List.mem_append_right _ (List.mem_singleton_self _)), honly.fab_after rfl, fun y hy => ?_, fun y hy => ?_⟩
    · refine (honly.xing x).trans ?_
      rw [xing_timedOut hlen]
      rfl
    · exact honly.fab_crossings
    · refine (honly.xing y).trans ?_
      rw [xing_timedOut_ne hy]
    · rw [honly.xing_void hy, xing_timedOut_void]

end Sys2Proof.Machine

/-! PROOF. What the output of a loop's sample may change beside the loops (R330, R343, R353, R509): the buses, copies and reports. -/

namespace Sys2Proof.Machine

open Sys2Proof

/-- `t` is `s` but for what handing an output over may change: crossings and decks, places of checkpoints, the mirror's numbers, the
buses, the rollouts' sent commands, the engine's duty values, trace and takeover counts, answers and reports. No loop changes. -/
def OnlyIssues (s t : State) : Prop :=
  t = { s with
    fab := { s.fab with crossings := t.fab.crossings, decks := t.fab.decks }
    place := { s.place with roles := t.place.roles }
    twin := { s.twin with mirrorSeq := t.twin.mirrorSeq, mirrorRecs := t.twin.mirrorRecs }
    can := t.can, roll := t.roll, loops := { t.loops with loops := s.loops.loops }
    host := t.host, nlog := t.nlog, setup := t.setup, out := t.out }

theorem OnlyIssues.refl (s : State) : OnlyIssues s s := rfl

theorem OnlyIssues.trans {s t u : State} (h : OnlyIssues s t) (k : OnlyIssues t u) : OnlyIssues s u := by
  refine Eq.trans k ?_
  rw [h]

theorem OnlyIssues.ite {s t u : State} {c : Prop} [Decidable c] (ht : OnlyIssues s t) (hu : OnlyIssues s u) :
    OnlyIssues s (if c then t else u) := by
  split
  · exact ht
  · exact hu

theorem OnlyReports.issues {s t : State} (h : OnlyReports s t) : OnlyIssues s t := by
  unfold OnlyIssues
  rw [h.1]
  rfl

theorem OnlyAnswers.issues {s t : State} (h : OnlyAnswers s t) : OnlyIssues s t :=
  OnlyIssues.trans (t := { s with setup := t.setup }) rfl (OnlyReports.issues h)

theorem OnlyCopies.issues {s t : State} (h : OnlyCopies s t) : OnlyIssues s t := by
  unfold OnlyIssues
  rw [h.rest]

/-! ### A transmit object's frame (R574–R580) -/

theorem endFrame_issues (s : State) (b : Nat) (f : BusFrame) (st : TxSt) (cause : Nat) : OnlyIssues s (s.endFrame b f st cause) := by
  unfold State.endFrame
  extract_lets x u v w
  have hv : OnlyIssues u v := .ite rfl (raiseTimed_only _ _ _ _).issues
  have hw : OnlyIssues s w := (show OnlyIssues s u from rfl).trans (hv.trans rfl)
  clear_value u v w
  split
  · exact hw.trans (.ite (answer_only _ _ _ _).issues (answer_only _ _ _ _).issues)
  · exact hw

theorem showFrame_issues (s : State) (b o : Nat) : OnlyIssues s (s.showFrame b o) := by
  unfold State.showFrame
  dsimp only
  split <;> rfl

theorem queueBus_issues (s : State) (b : Nat) (f : BusFrame) : OnlyIssues s (s.queueBus b f) := by
  have ended : ∀ {t : State} (f : BusFrame) (st : TxSt) (cause : Nat), OnlyIssues s t → OnlyIssues s (t.endFrame b f st cause) :=
    fun f st cause h => h.trans (endFrame_issues _ _ _ _ _)
  unfold State.queueBus
  extract_lets u must v
  have hv : OnlyIssues s v := by
    unfold v
    split
    · exact ended _ _ _ rfl
    · exact .refl s
  clear_value v
  refine .ite (ended _ _ _ rfl) (.ite (ended _ _ _ rfl) (.ite (ended _ _ _ rfl) (.ite (ended _ _ _ rfl) ?_)))
  exact hv.trans (OnlyIssues.trans (t := v.setBus b _) rfl (showFrame_issues _ _ _))

theorem handOwn_issues (s : State) (b o : Nat) (single : Bool) (ref : Option OrderRef) : OnlyIssues s (s.handOwn b o single ref) := by
  unfold State.handOwn
  extract_lets x q u
  have hu : OnlyIssues s u := rfl
  clear_value u
  split
  · exact .refl s
  · refine .ite (.refl s) ?_
    extract_lets bs v id w
    have hv : OnlyIssues u v := .ite (.refl u) (mirror_copies _ _ _).issues
    have hw : OnlyIssues v w := rfl
    clear_value v w
    exact hu.trans (hv.trans (hw.trans (queueBus_issues _ _ _)))

/-! ### Destination and trace (R330, R352) -/

theorem loopDrive_issues (s : State) (l : Loop) (v : F32) : OnlyIssues s (s.loopDrive l v) := by
  unfold State.loopDrive
  dsimp only
  refine .ite (.refl s) (.ite ?_ (.ite rfl (.refl s)))
  exact OnlyIssues.trans (t := s.loadTx (l.dest / 32 % 2) (l.dest % 32) _) rfl (handOwn_issues _ _ _ _ _)

theorem endTrace_issues (s : State) : OnlyIssues s s.endTrace := by
  unfold State.endTrace
  split
  · exact OnlyIssues.trans (t := { s with loops := { s.loops with trace := none } }) rfl (answer_only _ _ _ _).issues
  · exact .refl s

theorem traceSample_issues (s : State) (n : Nat) (l : Loop) (o : SampleOut) : OnlyIssues s (s.traceSample n l o) := by
  unfold State.traceSample
  split
  · refine .ite (.refl s) ?_
    extract_lets u e v
    have hv : OnlyIssues s v := (toHost_only s _).issues.trans (u := v) rfl
    clear_value v
    exact .ite (hv.trans (endTrace_issues v)) hv
  · exact .refl s

theorem settleTakeover_issues (s : State) : OnlyIssues s s.settleTakeover := by
  unfold State.settleTakeover
  exact .ite (OnlyIssues.trans (t := { s with loops := { s.loops with taking := false } }) rfl (raise_only _ _ _).issues) (.refl s)

end Sys2Proof.Machine

/-! PROOF. A loop's sample (R325, R326, R331–R336, R342, R344, R345, R347): the loop before and after its output. -/

namespace Sys2Proof.Machine

open Sys2Proof

/-! ### The loop in the course of its sample -/

/-- `t` is the tablet `s` in the course of a sample of loop `n`, which stands at `l`: the clock and the fitness are those of `s`. -/
structure AtLoop (s : State) (n : Nat) (l : Loop) (t : State) : Prop where
  loop : t.loopOf n = some l
  tai : t.tai = s.tai
  unfit : t.unfitSolo = s.unfitSolo

theorem State.tai_congr {s t : State} (hn : t.now = s.now) (hc : t.clockOfs = s.clockOfs) (ht : t.time = s.time) : t.tai = s.tai := by
  unfold State.tai
  rw [hn, hc, ht]

theorem State.unfitSolo_congr {s t : State} (hp : t.place.unfit = s.place.unfit) (hr : t.twin.role = s.twin.role) :
    t.unfitSolo = s.unfitSolo := by
  unfold State.unfitSolo
  rw [hp, hr]

theorem loopOf_congr {s t : State} (h : t.loops.loops = s.loops.loops) (n : Nat) : t.loopOf n = s.loopOf n := by
  unfold State.loopOf
  rw [h]

theorem loopOf_setLoop (s : State) (n : Nat) (l : Loop) : (s.setLoop n l).loopOf n = some l := by
  simp only [State.loopOf, State.setLoop, alGet_alPut, if_true]

section

variable {s t u : State} {n : Nat} {l : Loop}

theorem AtLoop.issues (h : AtLoop s n l t) (k : OnlyIssues t u) : AtLoop s n l u where
  loop := (loopOf_congr (by rw [k]) n).trans h.loop
  tai := (State.tai_congr (by rw [k]) (by rw [k]) (by rw [k])).trans h.tai
  unfit := (State.unfitSolo_congr (by rw [k]) (by rw [k])).trans h.unfit

theorem AtLoop.set (h : AtLoop s n l t) (m : Loop) : AtLoop s n m (t.setLoop n m) :=
  ⟨loopOf_setLoop t n m, h.tai, h.unfit⟩

theorem AtLoop.start (h : s.loopOf n = some l) : AtLoop s n l s := ⟨h, rfl, rfl⟩

theorem AtLoop.mode (h : AtLoop s n l t) (k : Loop) (m : LoopMode) (cause : Nat) :
    AtLoop s n { k with mode := m } (t.loopMode n k m cause) := by
  unfold State.loopMode
  dsimp only
  split
  · exact h.set _
  · exact (h.set _).issues (raise_only _ _ _).issues

end

/-! ### The output (R330, R343, R353) -/

/-- A loop `k` that has issued `v` for the instant `at_`, as it stood at `l`. -/
structure Loop.Issued (l : Loop) (v : F32) (at_ : Nat) (k : Loop) : Prop where
  out : k.out = v
  lastAt : k.lastAt = some at_
  samples : k.samples = l.samples + 1
  mode : k.mode = l.mode
  badCount : k.badCount = l.badCount
  en : k.en = l.en
  later : k.later = l.later

/-- An unfit SOLO tablet issues the last output again, any other what it has computed (R88). -/
theorem loopIssue_issued {s t : State} {n : Nat} {l₀ : Loop} (h : AtLoop s n l₀ t) (l : Loop) (o : SampleOut) :
    ∃ k, AtLoop s n k (t.loopIssue n l o) ∧ l.Issued (if s.unfitSolo then l.out else o.out) o.inst k := by
  unfold State.loopIssue
  extract_lets o' late m u v w
  have ho : o'.out = (if s.unfitSolo then l.out else o.out) ∧ o'.inst = o.inst := by
    rw [← h.unfit]
    unfold o'
    split <;> exact ⟨rfl, rfl⟩
  have hu : AtLoop s n { m with pv := m.entries o' } u := h.set _
  have hv : AtLoop s n { m with pv := m.entries o' } v := hu.issues (.ite (raiseTimed2_only _ _ _ _ _ _ _).issues (.refl u))
  have hw : AtLoop s n { m with pv := m.entries o' } w := hv.issues (mirror_copies _ _ _).issues
  refine ⟨_, hw.issues ((loopDrive_issues _ _ _).trans (traceSample_issues _ _ _ _)), ?_⟩
  exact ⟨ho.1, congrArg some ho.2, rfl, rfl, rfl, rfl, rfl⟩

/-! ### The first sample after promotion (R345) -/

/-- What the first sample after promotion makes of a loop. -/
def Loop.taken (l : Loop) (forced : Bool) : Loop :=
  if l.first then
    { l with
      promote := false, first := false, closing := l.closing || (l.promote && !forced)
      mode := if l.promote && !forced then .closed else l.mode }
  else l

section

variable {s t : State} {n : Nat} {l : Loop}

theorem loopTake_again (h : t.loopOf n = some l) (hf : l.first = false) (usable forced : Bool) : t.loopTake n usable forced = t := by
  unfold State.loopTake
  rw [h]
  exact if_pos (by simp [hf])

theorem loopTake_first (h : t.loopOf n = some l) (hf : l.first = true) (usable forced : Bool) :
    OnlyIssues (if l.promote && !forced then t.loopMode n { l with promote := false, first := false, closing := true } .closed 4
      else t.setLoop n { l with promote := false, first := false }) (t.loopTake n usable forced) := by
  unfold State.loopTake
  rw [h]
  refine Eq.subst (motive := OnlyIssues _) (if_neg (by simp [hf])).symm ?_
  extract_lets m u e closed
  refine OnlyIssues.trans ?_ (settleTakeover_issues _)
  rfl

theorem loopTake_taken (h : AtLoop s n l t) (usable forced : Bool) : AtLoop s n (l.taken forced) (t.loopTake n usable forced) := by
  unfold Loop.taken
  cases hf : l.first with
  | false =>
    rw [loopTake_again h.loop hf]
    exact h
  | true =>
    refine AtLoop.issues ?_ (loopTake_first h.loop hf usable forced)
    by_cases hp : (l.promote && !forced) = true
    · rw [if_pos rfl, if_pos hp, if_pos hp, hp, Bool.or_true]
      exact h.mode { l with promote := false, first := false, closing := true } .closed 4
    · rw [if_pos rfl, if_neg hp, if_neg hp, Bool.eq_false_iff.mpr hp, Bool.or_false]
      exact h.set _

end

/-! ### The three kinds of samples (R331, R333, R335) -/

section

variable {s t : State} {n : Nat} {l : Loop}

/-- A forced sample issues SAFE_OUT and opens the loop. -/
theorem loopForced_issued (h : AtLoop s n l t) (cause : Nat) (o : SampleOut) : ∃ k, AtLoop s n k (t.loopForced n l cause o)
    ∧ { l with mode := .opened }.Issued (if s.unfitSolo then l.out else l.safeOut) o.inst k := by
  unfold State.loopForced
  extract_lets u v
  have hu : AtLoop s n l u := h.issues (.ite (.refl t) (raise_only _ _ _).issues)
  have hv := hu.mode { l with forcedOpen := true, outMan := l.safeOut, closing := false, startClose := false } .opened cause
  obtain ⟨k, hk, hi⟩ := loopIssue_issued hv _ { o with out := l.safeOut }
  rw [show v.loopOf n = _ from hv.loop]
  exact ⟨k, hk, hi.out, hi.lastAt, hi.samples, hi.mode, hi.badCount, hi.en, hi.later⟩

/-- A sample with an unusable PV counts it, and issues the last output again unless it opens a CLOSED loop at the PV_BAD_N-th. -/
theorem loopBad_issued (h : AtLoop s n l t) (o : SampleOut) : ∃ m v k, AtLoop s n k (t.loopBad n l o)
    ∧ { l with mode := m, badCount := l.badCount + 1 }.Issued v o.inst k
    ∧ (l.mode ≠ .closed ∨ l.badCount + 1 < l.pvBadN → m = l.mode ∧ v = l.out) := by
  unfold State.loopBad
  extract_lets bad l' o' out u v
  have hopens : (decide (l'.mode = .closed) && decide (l'.pvBadN ≤ bad)) = true ↔ l.mode = .closed ∧ l.pvBadN ≤ l.badCount + 1 := by
    rw [Bool.and_eq_true, decide_eq_true_iff, decide_eq_true_iff]
    exact Iff.rfl
  by_cases hb : l.mode = .closed ∧ l.pvBadN ≤ l.badCount + 1
  · rw [if_pos (hopens.mpr hb)]
    have hv := (h.issues (raise_only t 0x71 _).issues : AtLoop s n l u).mode { l' with outMan := out, closing := false } .opened 2
    rw [show v.loopOf n = _ from hv.loop]
    obtain ⟨k, hk, hi⟩ := loopIssue_issued hv { l' with outMan := out, closing := false, mode := .opened } { o' with out := out }
    refine ⟨.opened, _, k, hk, ⟨hi.out, hi.lastAt, hi.samples, hi.mode, hi.badCount, hi.en, hi.later⟩, fun hc => ?_⟩
    exact absurd hb fun hb => hc.elim (fun hc => hc hb.1) (fun hc => absurd hb.2 (by omega))
  · rw [if_neg (mt hopens.mp hb)]
    obtain ⟨k, hk, hi⟩ := loopIssue_issued h l' o'
    refine ⟨l.mode, l.out, k, hk, ⟨?_, hi.lastAt, hi.samples, hi.mode, hi.badCount, hi.en, hi.later⟩, fun _ => ⟨rfl, rfl⟩⟩
    exact hi.out.trans (ite_self _)

/-- A computed sample issues what its state asks for; an OPEN loop without a rate limit its manual output within its limits. -/
theorem loopCompute_issued (h : AtLoop s n l t) (o : SampleOut) : ∃ v k, AtLoop s n k (t.loopCompute n l o)
    ∧ { l with badCount := 0 }.Issued (if s.unfitSolo then l.out else v) o.inst k
    ∧ (l.mode = .opened → fLt 0 l.rate = false → v = fClamp l.outMin l.outMax l.outMan) := by
  unfold State.loopCompute
  extract_lets spu sp posOk p tNs e cog fric spFf ff xl secs r u c step ulim limited held secs' secs'' l'
  obtain ⟨k, hk, hi⟩ := loopIssue_issued h l' { o with
    e := e, out := ulim,
    flags := o.flags + b01 limited + 2 * b01 held + 16 * b01 spu.2 + 32 * b01 (l.srcKind oPos != 0 && !posOk) }
  refine ⟨ulim, k, hk, ⟨hi.out, hi.lastAt, hi.samples, hi.mode, hi.badCount, hi.en, hi.later⟩, fun hm hr => ?_⟩
  have hu : u = l.outMan := by
    unfold u
    rw [hm]
  have hl : ulim = c := if_neg (Bool.eq_false_iff.mp hr)
  rw [hl, ← hu]

end

/-! ### One sample (R331) -/

/-- A loop whose trigger for an instant is taken: what was accepted by then is in force (R341, R342). -/
def Loop.triggered (l : Loop) (inst : Nat) : Loop :=
  { ((l.settleLater inst).takeSp inst).1 with lastTrig := inst, trig := false, due := none }

theorem takeSp_only (l : Loop) (inst : Nat) :
    (l.takeSp inst).1 = { l with sp := (l.takeSp inst).1.sp, queue := (l.takeSp inst).1.queue } := by
  unfold Loop.takeSp
  dsimp only
  split <;> rfl

/-- A start-up close takes effect (R346). -/
def Loop.started (l : Loop) (go : Bool) : Loop :=
  if go then { l with startClose := false, closing := true, mode := .closed } else l

section

variable {s : State} {n : Nat} {l : Loop} {inst : Nat} {noPv : Bool}

/-- The PV of a sample may be used. -/
def State.pvTaken (s : State) (n : Nat) (l : Loop) (inst : Nat) (noPv : Bool) : Bool :=
  !noPv && l.pvUsable ((s.setLoop n l).loopSrc l oPv inst) inst

/-- The tablet whose loop has taken its trigger, and its first sample after promotion where it is that. -/
def State.sampling (s : State) (n : Nat) (l : Loop) (inst : Nat) (noPv forced : Bool) : State :=
  (s.setLoop n l).loopTake n (s.pvTaken n l inst noPv) forced

theorem sampling_taken (h : s.loopOf n = some l) (m : Loop) (forced : Bool) :
    AtLoop s n (m.taken forced) (s.sampling n m inst noPv forced) :=
  loopTake_taken ((AtLoop.start h).set m) _ forced

/-- What a sample reads. -/
def State.reading (s : State) (n : Nat) (l : Loop) (inst : Nat) (late : Bool) (x : LoopIn) : SampleOut :=
  ⟨inst, x.latencyNs, (s.setLoop n l).loopSrc l oPv inst, (s.setLoop n l).loopSrc l oPos inst, 0, 0, 8 * b01 late⟩

theorem loopRun_forced (h : s.loopOf n = some l) (noPv : Bool) (x : LoopIn) {c : Nat}
    (hf : (s.setLoop n (l.triggered inst)).loopForce (l.triggered inst) = some c) :
    ∃ late, s.loopRun n inst noPv x = (s.sampling n (l.triggered inst) inst noPv true).loopForced n ((l.triggered inst).taken true) c
      (s.reading n (l.triggered inst) inst late x) := by
  have hw := (sampling_taken (inst := inst) (noPv := noPv) h (l.triggered inst) true).loop
  refine ⟨((l.settleLater inst).takeSp inst).2, ?_⟩
  unfold State.loopRun
  split
  next hn => simp [h] at hn
  next m hm =>
    obtain rfl : l = m := Option.some.inj (h.symm.trans hm)
    extract_lets t v m u pv pos usable o force w
    have hforce : force = some c := hf
    have ht : w = s.sampling n (l.triggered inst) inst noPv true := by
      unfold w
      rw [hforce]
      rfl
    rw [ht, hw, hforce]
    rfl

theorem loopRun_free (h : s.loopOf n = some l) (noPv : Bool) (x : LoopIn)
    (hf : (s.setLoop n (l.triggered inst)).loopForce (l.triggered inst) = none) :
    ∃ late go w, AtLoop s n (((l.triggered inst).taken false).started go) w
      ∧ (go = true → ((l.triggered inst).taken false).startClose = true ∧ s.pvTaken n (l.triggered inst) inst noPv = true)
      ∧ s.loopRun n inst noPv x = if s.pvTaken n (l.triggered inst) inst noPv
        then w.loopCompute n (((l.triggered inst).taken false).started go) (s.reading n (l.triggered inst) inst late x)
        else w.loopBad n (((l.triggered inst).taken false).started go) (s.reading n (l.triggered inst) inst late x) := by
  have hv := sampling_taken (inst := inst) (noPv := noPv) h (l.triggered inst) false
  generalize hgo : (((l.triggered inst).taken false).startClose && s.pvTaken n (l.triggered inst) inst noPv
    && (s.sampling n (l.triggered inst) inst noPv false).activeOrSolo && (s.sampling n (l.triggered inst) inst noPv false).driven
    && !((l.triggered inst).taken false).coefMissing) = go
  have hw : AtLoop s n (((l.triggered inst).taken false).started go) (if go then (s.sampling n (l.triggered inst) inst noPv false).loopMode n
      { (l.triggered inst).taken false with startClose := false, closing := true } .closed 5
      else s.sampling n (l.triggered inst) inst noPv false) := by
    cases go with
    | false =>
      rw [if_neg Bool.false_ne_true]
      exact hv
    | true =>
      rw [if_pos rfl]
      exact hv.mode { (l.triggered inst).taken false with startClose := false, closing := true } .closed 5
  refine ⟨((l.settleLater inst).takeSp inst).2, go, _, hw, fun hg => ?_, ?_⟩
  · simp only [hg, Bool.and_eq_true] at hgo
    obtain ⟨⟨⟨hcloses, -⟩, -⟩, -⟩ := hgo
    exact hcloses
  · unfold State.loopRun
    split
    next hn => simp [h] at hn
    next m hm =>
      obtain rfl : l = m := Option.some.inj (h.symm.trans hm)
      extract_lets t v m u pv pos usable o force w
      have hforce : force = none := hf
      have ht : w = s.sampling n (l.triggered inst) inst noPv false := by
        unfold w
        rw [hforce]
        rfl
      rw [ht, hv.loop, hforce]
      dsimp only
      rw [show (((l.triggered inst).taken false).startClose && usable
        && (s.sampling n (l.triggered inst) inst noPv false).activeOrSolo && (s.sampling n (l.triggered inst) inst noPv false).driven
        && !((l.triggered inst).taken false).coefMissing) = go from hgo, hw.loop]
      rfl

end

end Sys2Proof.Machine

/-! PROOF. What a loop's sample leaves, by what forces it, its PV, its state and the tablet's fitness, and the triggers that take it (R88,
R326, R331, R333, R335, R342, R344–R347). With them the PWM periods (R330). -/

namespace Sys2Proof.Machine

open Sys2Proof

/-! ### What a sample reads of its loop -/

/-- `m` has of `l` what a sample's output and its counts come from. -/
structure Loop.Same (l m : Loop) : Prop where
  desc : m.desc = l.desc
  out : m.out = l.out
  outMan : m.outMan = l.outMan
  samples : m.samples = l.samples
  badCount : m.badCount = l.badCount
  en : m.en = l.en
  later : m.later = l.later
  startClose : m.startClose = l.startClose

theorem Loop.Same.trans {l m k : Loop} (h : l.Same m) (g : m.Same k) : l.Same k :=
  ⟨g.desc.trans h.desc, g.out.trans h.out, g.outMan.trans h.outMan, g.samples.trans h.samples, g.badCount.trans h.badCount,
    g.en.trans h.en, g.later.trans h.later, g.startClose.trans h.startClose⟩

theorem triggered_eq (l : Loop) (inst : Nat) : ∃ sp queue, l.triggered inst = { l.settleLater inst with
    sp := sp, queue := queue, lastTrig := inst, trig := false, due := none } := by
  unfold Loop.triggered
  rw [takeSp_only]
  exact ⟨_, _, rfl⟩

theorem triggered_same (l : Loop) (inst : Nat) : (l.settleLater inst).Same (l.triggered inst)
    ∧ (l.triggered inst).mode = (l.settleLater inst).mode ∧ (l.triggered inst).promote = (l.settleLater inst).promote := by
  obtain ⟨sp, queue, h⟩ := triggered_eq l inst
  rw [h]
  exact ⟨⟨rfl, rfl, rfl, rfl, rfl, rfl, rfl, rfl⟩, rfl, rfl⟩

theorem taken_same (l : Loop) (forced : Bool) : l.Same (l.taken forced) := by
  unfold Loop.taken
  split <;> exact ⟨rfl, rfl, rfl, rfl, rfl, rfl, rfl, rfl⟩

theorem taken_mode {l : Loop} (h : l.promote = false) (forced : Bool) : (l.taken forced).mode = l.mode := by
  unfold Loop.taken
  rw [h]
  split <;> rfl

theorem ordered_keeps (l : Loop) (m : LoopMode) (v : F32) :
    (l.ordered m v).samples = l.samples ∧ (l.ordered m v).en = l.en ∧ (l.ordered m v).mode = m ∧ (l.ordered m v).later = none := by
  cases m <;> exact ⟨rfl, rfl, rfl, rfl⟩

theorem settleLater_keeps (l : Loop) (inst : Nat) : (l.settleLater inst).samples = l.samples ∧ (l.settleLater inst).en = l.en := by
  unfold Loop.settleLater
  split
  · split
    · exact ⟨(ordered_keeps l _ _).1, (ordered_keeps l _ _).2.1⟩
    · exact ⟨rfl, rfl⟩
  · exact ⟨rfl, rfl⟩

theorem settleLater_none {l : Loop} (h : l.later = none) (inst : Nat) : l.settleLater inst = l := by
  unfold Loop.settleLater
  rw [h]

theorem settleLater_before {l : Loop} {o : LoopOrder} (h : l.later = some o) {inst : Nat} (hi : inst < o.since) : l.settleLater inst = l := by
  unfold Loop.settleLater
  rw [h]
  exact if_neg (by omega)

theorem settleLater_after {l : Loop} {o : LoopOrder} (h : l.later = some o) {inst : Nat} (hi : o.since ≤ inst) :
    l.settleLater inst = l.ordered o.mode o.outMan := by
  unfold Loop.settleLater
  rw [h]
  exact if_pos hi

theorem started_keeps (l : Loop) (go : Bool) :
    (l.started go).samples = l.samples ∧ (l.started go).en = l.en ∧ (l.started go).later = l.later := by
  cases go <;> exact ⟨rfl, rfl, rfl⟩

theorem loopForce_congr {s : State} {l m : Loop} (h : m.desc = l.desc) (n : Nat) (k : Loop) : (s.setLoop n k).loopForce m = s.loopForce l := by
  unfold State.loopForce Loop.forceBit Loop.flag
  rw [h]
  rfl

/-! ### What a sample leaves -/

section

variable {s : State} {n : Nat} {l : Loop} {inst : Nat} {noPv : Bool} {x : LoopIn}

/-- Every sample counts once, and leaves the enable and an order that waits. -/
theorem loopRun_samples (h : s.loopOf n = some l) (inst : Nat) (noPv : Bool) (x : LoopIn) :
    ∃ k, AtLoop s n k (s.loopRun n inst noPv x) ∧ k.samples = l.samples + 1 ∧ k.en = l.en ∧ k.later = (l.settleLater inst).later := by
  obtain ⟨ksamples, ken⟩ := settleLater_keeps l inst
  have same := fun forced => (triggered_same l inst).1.trans (taken_same (l.triggered inst) forced)
  cases hf : (s.setLoop n (l.triggered inst)).loopForce (l.triggered inst) with
  | some c =>
    obtain ⟨late, hx⟩ := loopRun_forced h noPv x hf
    obtain ⟨k, hk, hi⟩ := loopForced_issued (sampling_taken h (l.triggered inst) true) c (s.reading n (l.triggered inst) inst late x)
    refine ⟨k, hx ▸ hk, hi.samples.trans ?_, hi.en.trans ?_, hi.later.trans (same true).later⟩
    · rw [← ksamples, ← (same true).samples]
    · rw [← ken, ← (same true).en]
  | none =>
    obtain ⟨late, go, w, hw, -, hx⟩ := loopRun_free h noPv x hf
    obtain ⟨gsamples, gen, glater⟩ := started_keeps ((l.triggered inst).taken false) go
    have hs := gsamples.trans ((same false).samples.trans ksamples)
    have he := gen.trans ((same false).en.trans ken)
    have hl := glater.trans (same false).later
    rw [hx]
    split
    · obtain ⟨v, k, hk, hi, -⟩ := loopCompute_issued hw (s.reading n (l.triggered inst) inst late x)
      exact ⟨k, hk, hi.samples.trans (congrArg (· + 1) hs), hi.en.trans he, hi.later.trans hl⟩
    · obtain ⟨m, v, k, hk, hi, -⟩ := loopBad_issued hw (s.reading n (l.triggered inst) inst late x)
      exact ⟨k, hk, hi.samples.trans (congrArg (· + 1) hs), hi.en.trans he, hi.later.trans hl⟩

/-- A forced sample opens the loop at SAFE_OUT (R335). -/
theorem loopRun_safe (h : s.loopOf n = some l) (hl : l.settleLater inst = l) (hu : s.unfitSolo = false) {c : Nat}
    (hf : s.loopForce l = some c) : ∃ k, AtLoop s n k (s.loopRun n inst noPv x)
      ∧ k.out = l.safeOut ∧ k.mode = .opened ∧ k.samples = l.samples + 1 ∧ k.lastAt = some inst := by
  have same := (triggered_same l inst).1.trans (taken_same (l.triggered inst) true)
  have hdesc := (triggered_same l inst).1.desc
  rw [hl] at same hdesc
  obtain ⟨late, hx⟩ := loopRun_forced h noPv x ((loopForce_congr hdesc n _).trans hf)
  obtain ⟨k, hk, hi⟩ := loopForced_issued (sampling_taken h (l.triggered inst) true) c (s.reading n (l.triggered inst) inst late x)
  have hout := hi.out
  rw [hu, if_neg Bool.false_ne_true, Loop.safeOut, same.desc] at hout
  exact ⟨k, hx ▸ hk, hout, hi.mode, hi.samples.trans (congrArg (· + 1) same.samples), hi.lastAt⟩

/-- A sample that nothing forces, of a loop that neither a promotion nor the start-up closes: the loop computes, or its PV is bad. -/
theorem loopRun_plain (h : s.loopOf n = some l) (hl : l.settleLater inst = l) (hf : s.loopForce l = none) (hp : l.promote = false)
    (hs : l.startClose = false ∨ s.pvTaken n (l.triggered inst) inst noPv = false) (x : LoopIn) :
    ∃ m w o, AtLoop s n m w ∧ l.Same m ∧ m.mode = l.mode ∧ o.inst = inst ∧ s.loopRun n inst noPv x =
      if s.pvTaken n (l.triggered inst) inst noPv then w.loopCompute n m o else w.loopBad n m o := by
  obtain ⟨tsame, tmode, tpromote⟩ := triggered_same l inst
  rw [hl] at tsame tmode tpromote
  have same := tsame.trans (taken_same (l.triggered inst) false)
  obtain ⟨late, go, w, hw, hgo, hx⟩ := loopRun_free h noPv x ((loopForce_congr tsame.desc n _).trans hf)
  have hno : go = false := by
    rw [← Bool.not_eq_true]
    intro hg
    obtain ⟨hstart, husable⟩ := hgo hg
    rw [same.startClose] at hstart
    rcases hs with hs | hs
    · exact absurd (hstart.symm.trans hs) (by decide)
    · exact absurd (husable.symm.trans hs) (by decide)
  subst hno
  exact ⟨_, w, _, hw, same, (taken_mode (tpromote.trans hp) false).trans tmode, rfl, hx⟩

/-- An OPEN loop with a usable PV and no rate limit issues its manual output within its limits (R331). -/
theorem loopRun_manual (h : s.loopOf n = some l) (hl : l.settleLater inst = l) (hu : s.unfitSolo = false) (hf : s.loopForce l = none)
    (hp : l.promote = false) (hs : l.startClose = false) (hm : l.mode = .opened) (hpv : s.pvTaken n (l.triggered inst) inst noPv = true)
    (hr : fLt 0 l.rate = false) (x : LoopIn) : ∃ k, AtLoop s n k (s.loopRun n inst noPv x)
      ∧ k.out = fClamp l.outMin l.outMax l.outMan ∧ k.mode = .opened ∧ k.samples = l.samples + 1 ∧ k.lastAt = some inst := by
  obtain ⟨m, w, o, hw, same, mmode, ho, hx⟩ := loopRun_plain h hl hf hp (.inl hs) x
  obtain ⟨v, k, hk, hi, hv⟩ := loopCompute_issued hw o
  have hout := hi.out
  rw [hu, if_neg Bool.false_ne_true, hv (mmode.trans hm) (by rw [Loop.rate, same.desc]; exact hr), Loop.outMin, Loop.outMax, same.desc,
    same.outMan] at hout
  rw [hx, hpv, if_pos rfl]
  exact ⟨k, hk, hout, hi.mode.trans (mmode.trans hm), hi.samples.trans (congrArg (· + 1) same.samples), hi.lastAt.trans (congrArg some ho)⟩

/-- With an unusable PV a loop issues its last output again, unless this sample opens it (R333). -/
theorem loopRun_held (h : s.loopOf n = some l) (hl : l.settleLater inst = l) (hf : s.loopForce l = none) (hp : l.promote = false)
    (hpv : s.pvTaken n (l.triggered inst) inst noPv = false) (hb : l.mode ≠ .closed ∨ l.badCount + 1 < l.pvBadN) (x : LoopIn) :
    ∃ k, AtLoop s n k (s.loopRun n inst noPv x) ∧ k.out = l.out ∧ k.mode = l.mode ∧ k.badCount = l.badCount + 1
      ∧ k.samples = l.samples + 1 ∧ k.lastAt = some inst := by
  obtain ⟨m, w, o, hw, same, mmode, ho, hx⟩ := loopRun_plain h hl hf hp (.inr hpv) x
  obtain ⟨m', v, k, hk, hi, hv⟩ := loopBad_issued hw o
  obtain ⟨rfl, rfl⟩ := hv (by rwa [mmode, same.badCount, Loop.pvBadN, same.desc])
  rw [hx, hpv, if_neg Bool.false_ne_true]
  exact ⟨k, hk, hi.out.trans same.out, hi.mode.trans mmode, hi.badCount.trans (congrArg (· + 1) same.badCount),
    hi.samples.trans (congrArg (· + 1) same.samples), hi.lastAt.trans (congrArg some ho)⟩

/-- An unfit SOLO tablet holds the last output of an OPEN loop, whatever its PV (R88). -/
theorem loopRun_unfit (h : s.loopOf n = some l) (hl : l.settleLater inst = l) (hu : s.unfitSolo = true) (hf : s.loopForce l = none)
    (hp : l.promote = false) (hs : l.startClose = false) (hm : l.mode = .opened) (noPv : Bool) (x : LoopIn) :
    ∃ k, AtLoop s n k (s.loopRun n inst noPv x) ∧ k.out = l.out ∧ k.samples = l.samples + 1 := by
  cases hpv : s.pvTaken n (l.triggered inst) inst noPv with
  | false =>
    obtain ⟨k, hk, hout, -, -, hsamples, -⟩ := loopRun_held h hl hf hp hpv (.inl (by simp [hm])) x
    exact ⟨k, hk, hout, hsamples⟩
  | true =>
    obtain ⟨m, w, o, hw, same, -, -, hx⟩ := loopRun_plain h hl hf hp (.inl hs) x
    obtain ⟨v, k, hk, hi, -⟩ := loopCompute_issued hw o
    have hout := hi.out
    rw [hu, if_pos rfl, same.out] at hout
    rw [hx, hpv, if_pos rfl]
    exact ⟨k, hk, hout, hi.samples.trans (congrArg (· + 1) same.samples)⟩

/-! ### After the output (R342, R347) -/

/-- A loop that runs on and for which no order waits stands after its sample as its output left it. -/
theorem loopSample_plain (h : s.loopOf n = some l) (he : l.en = .enabled) (hl : l.later = none) :
    s.loopSample n inst noPv x = s.loopRun n inst noPv x := by
  obtain ⟨k, hk, -, ken, klater⟩ := loopRun_samples h inst noPv x
  rw [settleLater_none hl, hl] at klater
  unfold State.loopSample
  dsimp only
  rw [hk.loop]
  dsimp only
  rw [if_neg (by simp [ken, he]), if_neg (by simp [klater])]

/-- A mode order that came after the instant takes effect once the output has been issued. -/
theorem loopSample_later (h : s.loopOf n = some l) (he : l.en = .enabled) {o : LoopOrder} (hl : l.later = some o) (hi : inst < o.since)
    (ho : o.since ≤ s.tai) : ∃ k, AtLoop s n k (s.loopSample n inst noPv x) ∧ k.mode = o.mode ∧ k.later = none
      ∧ k.samples = l.samples + 1 := by
  obtain ⟨k, hk, ksamples, ken, klater⟩ := loopRun_samples h inst noPv x
  rw [settleLater_before hl hi, hl] at klater
  obtain ⟨osamples, -, omode, olater⟩ := ordered_keeps k o.mode o.outMan
  have hx : s.loopSample n inst noPv x = (s.loopRun n inst noPv x).setLoop n (k.ordered o.mode o.outMan) := by
    unfold State.loopSample
    dsimp only
    rw [hk.loop]
    dsimp only
    rw [if_neg (by simp [ken, he]), if_pos (by simp [klater]), settleLater_after klater (ho.trans_eq hk.tai.symm)]
  exact ⟨_, hx ▸ hk.set _, omode, olater, osamples.trans ksamples⟩

theorem loopOff_disabled {t : State} (h : AtLoop s n l t) (m : Loop) :
    ∃ k, AtLoop s n k (t.loopOff n m) ∧ k.en = .disabled ∧ k.samples = m.samples := by
  unfold State.loopOff
  extract_lets u
  have hu : AtLoop s n l u := by
    unfold u
    split
    · exact h.issues (.ite (endTrace_issues t) (.refl t))
    · exact h
  exact ⟨_, ((hu.set _).issues (raise_only _ _ _).issues).issues (settleTakeover_issues _), rfl, rfl⟩

/-- A QUIESCING loop is DISABLED once its sample's output has been issued. -/
theorem loopSample_quiesced (h : s.loopOf n = some l) (he : l.en = .quiescing) : ∃ k, AtLoop s n k (s.loopSample n inst noPv x)
    ∧ k.en = .disabled ∧ k.samples = l.samples + 1 := by
  obtain ⟨k, hk, ksamples, ken, -⟩ := loopRun_samples h inst noPv x
  have hx : s.loopSample n inst noPv x
      = (s.loopRun n inst noPv x).loopOff n (k.settleLater (s.loopRun n inst noPv x).tai) := by
    unfold State.loopSample
    dsimp only
    rw [hk.loop]
    exact if_pos (ken.trans he)
  obtain ⟨k', hk', ken', ksamples'⟩ := loopOff_disabled hk (k.settleLater (s.loopRun n inst noPv x).tai)
  exact ⟨k', hx ▸ hk', ken', ksamples'.trans ((settleLater_keeps k _).1.trans ksamples)⟩

end

/-! ### The triggers (R325, R326, R344) -/

section

variable {s : State} {n : Nat} {l : Loop} {at_ : Nat} {x : LoopIn}

theorem loopTrigger_takes (h : s.loopOf n = some l) (he : l.en ≠ .disabled) (hd : s.loopDue l = some at_) (hr : s.loopRoleDown n = false)
    (ht : s.loopTurn n at_ = true) : s.loopTrigger n x = (s.loopSample n at_ false x).checkpoint (loopRole n) := by
  unfold State.loopTrigger
  rw [h]
  dsimp only
  rw [if_neg he, hd]
  dsimp only
  rw [if_neg (by simp [hr]), if_pos ht]

theorem loopTrigger_waits (h : s.loopOf n = some l) (he : l.en ≠ .disabled) (hd : s.loopDue l = some at_) (hr : s.loopRoleDown n = false)
    (ht : s.loopTurn n at_ = false) : s.loopTrigger n x = s := by
  unfold State.loopTrigger
  rw [h]
  dsimp only
  rw [if_neg he, hd]
  dsimp only
  rw [if_neg (by simp [hr]), if_neg (by simp [ht])]

theorem loopTrigger_down (h : s.loopOf n = some l) (he : l.en ≠ .disabled) (hd : s.loopDue l = some at_) (hr : s.loopRoleDown n = true) :
    s.loopTrigger n x = s.loopCatchUp n l (s.downFor (loopRole n)) := by
  unfold State.loopTrigger
  rw [h]
  dsimp only
  rw [if_neg he, hd]
  exact if_pos hr

/-- Missed triggers of a loop that runs on are counted and reported, and nothing else changes (R344). -/
theorem loopMiss_only (he : l.en = .enabled) (inst count : Nat) : OnlyReports (s.setLoop n { l.settleLater s.tai with
    missed := satAdd l.missed count, lastTrig := inst, trig := false, due := none }) (s.loopMiss n l inst count) := by
  have ken := (settleLater_keeps l s.tai).2.trans he
  unfold State.loopMiss
  dsimp only
  rw [if_neg (by simp [ken])]
  exact raiseTimed2_only _ _ _ _ _ _ _

theorem loopCatchUp_misses (hd : s.loopDue l = some at_) (he : l.en = .enabled) (downNs : Nat) :
    s.loopCatchUp n l downNs = s.loopMiss n l at_ (if l.trigger = 0
      then at_ / (l.periodUs * usNs) - max l.lastTrig ((s.tai - downNs) / (l.periodUs * usNs) * (l.periodUs * usNs) - 1) / (l.periodUs * usNs)
      else 1) := by
  unfold State.loopCatchUp
  rw [hd]
  simp only [he]
  by_cases ht : l.trigger = 0 <;> simp [ht]

theorem loopTimeout_samples (h : s.loopOf n = some l) (he : l.en = .enabled) (ht : l.trigger = 2) (hg : l.trig = false)
    (hp : l.lastTrig + l.periodUs * usNs ≤ s.tai) (hr : s.loopRoleDown n = false) :
    s.loopTimeout n x = (s.loopSample n s.tai true x).checkpoint (loopRole n) := by
  unfold State.loopTimeout
  rw [h]
  dsimp only
  rw [if_neg (by simp [he, ht, hg, hp]), if_neg (by simp [hr])]

/-- The checkpoint that ends a sample leaves the loops alone (R83). -/
theorem checkpoint_loopOf {t : State} {P : Loop → Prop} (h : ∃ k, AtLoop s n k t ∧ P k) (id : Half) :
    ∃ k, (t.checkpoint id).loopOf n = some k ∧ P k := by
  obtain ⟨k, hk, hp⟩ := h
  exact ⟨k, (hk.issues (checkpoint_copies t id).issues).loop, hp⟩

/-- What holds of a loop after its sample holds after the command that takes it. -/
theorem exec_loopSample_takes {P : Loop → Prop} (h : s.loopOf n = some l) (he : l.en ≠ .disabled) (hd : s.loopDue l = some at_)
    (hr : s.loopRoleDown n = false) (ht : s.loopTurn n at_ = true) (hk : ∃ k, AtLoop s n k (s.loopSample n at_ false x) ∧ P k) :
    ∃ t k, exec (.loopSample n x) s = .next t ∧ t.loopOf n = some k ∧ P k := by
  obtain ⟨k, hk⟩ := checkpoint_loopOf hk (loopRole n)
  exact ⟨_, k, congrArg Host.Outcome.next (loopTrigger_takes h he hd hr ht), hk⟩

end

/-! ### PWM (R330, R345) -/

theorem alarm_loops (s : State) (x : Nat) : (s.alarm x).loops = s.loops := by
  unfold State.alarm State.xingEvent
  split
  · rfl
  · split <;> rfl

/-- An event of a merging crossing stops and starts no crossing. -/
theorem alarm_xingStopped (s : State) (x y : Nat) : (s.alarm x).xingStopped y = s.xingStopped y := by
  unfold State.alarm State.xingEvent
  split
  · rfl
  · split
    · exact xingStopped_modXing (f := fun c => { c with merges := satInc c.merges }) (fun _ => rfl) s x y
    · exact xingStopped_modXing (f := fun c => { c with tookAt := some s.now }) (fun _ => rfl) s x y

section

variable {s : State} {n : Nat} {v : F32}

/-- A period of a tablet that drives its outputs takes the latest duty value, which leaves by crossing 0x0A. -/
theorem pwmStart_duty (hn : n < 16) (hd : s.driven = true) (ha : s.activeOrSolo = true) (hv : alGet s.loops.pwmNext n = some v) :
    s.pwmStart n = ({ s.alarm 0x0C with loops := { s.loops with pwm := alPut s.loops.pwm n v } } : State).cross [0x0A] (.pwm n v) := by
  unfold State.pwmStart
  dsimp only
  rw [if_neg (by omega), if_neg (by simp [hd, ha]), hv]
  dsimp only
  rw [alarm_loops]

theorem pwmStart_still (hn : n < 16) (h : s.driven = false ∨ s.activeOrSolo = false) : s.pwmStart n = s.alarm 0x0C := by
  unfold State.pwmStart
  dsimp only
  rw [if_neg (by omega), if_pos (by rcases h with h | h <;> simp [h])]

end

/-- Settles O20: the trigger's way to its sample, and the sample by what forces it, its PV, its state and the tablet's fitness. -/
theorem loopsSampleAtTheirTriggers : Obligations.LoopsSampleAtTheirTriggers := by
  unfold Obligations.LoopsSampleAtTheirTriggers
  intro s n x
  refine ⟨?samples, ?instants, ?timeout, ?pwmStopped, ?pwmRuns, ?pwmStill⟩
  case samples =>
    intro l at_ h he hl hd ht m u usable
    have hnow := settleLater_none hl at_
    have hm : m = l.triggered at_ := by
      unfold Loop.triggered
      rw [hnow]
    have hpv : s.pvTaken n (l.triggered at_) at_ false = usable := by
      rw [← hm]
      rfl
    have done : ∀ {P : Loop → Prop}, s.loopRoleDown n = false → (∃ k, AtLoop s n k (s.loopRun n at_ false x) ∧ P k) →
        ∃ t k, exec (.loopSample n x) s = .next t ∧ t.loopOf n = some k ∧ P k := by
      intro P hr hk
      rw [← loopSample_plain h he hl] at hk
      exact exec_loopSample_takes h (by simp [he]) hd hr ht hk
    clear_value m usable
    refine ⟨fun c hr hu hf => done hr (loopRun_safe h hnow hu hf), fun hr hu hf hp hs hm hv hrate => ?_, fun hr hf hp hv hb => ?_,
      fun hr hu hf hp hs hm => done hr (loopRun_unfit h hnow hu hf hp hs hm false x)⟩
    · exact done hr (loopRun_manual h hnow hu hf hp hs hm (hpv.trans hv) hrate x)
    · obtain ⟨k, hk, hout, hmode, hbad, hsamples, -⟩ := loopRun_held h hnow hf hp (hpv.trans hv) hb x
      exact done hr ⟨k, hk, hout, hmode, hbad, hsamples⟩
  case instants =>
    intro l at_ h he hd
    refine ⟨fun hr ht => congrArg Host.Outcome.next (loopTrigger_waits h he hd hr ht),
      fun o hr ht hen hl hi ho => exec_loopSample_takes h he hd hr ht (loopSample_later h hen hl hi ho),
      fun hr ht hen => exec_loopSample_takes h he hd hr ht (loopSample_quiesced h hen), fun hr hen => ?_⟩
    refine ⟨_, congrArg Host.Outcome.next (loopTrigger_down h he hd hr), ?_⟩
    rw [loopCatchUp_misses hd hen]
    exact loopMiss_only hen _ _
  case timeout =>
    intro l h he hl ht hg hp hr hf hpr hb
    have hk : ∃ k, AtLoop s n k (s.loopSample n s.tai true x) ∧ k.out = l.out ∧ k.badCount = l.badCount + 1 ∧ k.lastAt = some s.tai := by
      obtain ⟨k, hk, hout, -, hbad, -, hat⟩ := loopRun_held h (settleLater_none hl s.tai) hf hpr (noPv := true) rfl hb x
      exact ⟨k, loopSample_plain h he hl ▸ hk, hout, hbad, hat⟩
    obtain ⟨k, hk⟩ := checkpoint_loopOf hk (loopRole n)
    exact ⟨_, k, congrArg Host.Outcome.next (loopTimeout_samples h he ht hg hp hr), hk⟩
  case pwmStopped =>
    intro v hn hd ha hv hx
    refine congrArg Host.Outcome.next ((pwmStart_duty hn hd ha hv).trans (cross_stopped _ fun y hy => ?_))
    rw [List.mem_singleton.mp hy]
    exact (alarm_xingStopped s 0x0C 0x0A).trans hx
  case pwmRuns =>
    intro v hn hd ha hv hx
    refine congrArg Host.Outcome.next ((pwmStart_duty hn hd ha hv).trans (cross_running _ (by simp) fun y hy => ?_))
    rw [List.mem_singleton.mp hy]
    exact (alarm_xingStopped s 0x0C 0x0A).trans hx
  case pwmStill => exact fun hn h => congrArg Host.Outcome.next (pwmStart_still hn h)

end Sys2Proof.Machine

/-! PROOF. The start of a move (R92, R94), and a directory in which it goes otherwise than the statement says. -/

namespace Sys2Proof.Machine

open Sys2Proof

/-- What the start of a move makes of its role: frozen on its own bead. -/
def Role.startsMove (r : Role) (p : MovePlan) (now : Nat) : Role :=
  { r with
    st := .moving
    move := some ⟨r.bead, p.target, p.cause, now, false, [], [], [], [], []⟩ }

theorem noteReserve_place (s : State) (before : Nat) : (s.noteReserve before).place = s.place := by
  unfold State.noteReserve
  split
  · exact State.raise_place _ _ _
  · rfl

/-- The start of a move freezes every entry of the directory that has the role's id, each on the bead of its own. -/
theorem startMove_roles {s : State} {p : MovePlan} (h : s.moveOk p = true) :
    (s.startMove p).place.roles = s.place.roles.map (fun r => if r.id == p.role then r.startsMove p s.now else r) := by
  unfold State.startMove
  rw [if_pos h, noteReserve_place]
  rfl

theorem shifterEvaluation_one {s : State} (he : s.place.shiftEn = .enabled) (ht : s.place.lastEval + 10 * msNs ≤ s.now) (p : MovePlan) :
    s.shifterEvaluation [p] = ({ s with place := { s.place with lastEval := s.now } } : State).startMove p :=
  if_pos (by simp [he, ht])

/-- An evaluation that is due, of an enabled Shifter, starts the one move that it is given. -/
theorem shifterEvaluation_roles {s : State} {p : MovePlan} (he : s.place.shiftEn = .enabled)
    (ht : s.place.lastEval + 10 * msNs ≤ s.now) (hok : s.moveOk p = true) :
    (s.shifterEvaluation [p]).place.roles = s.place.roles.map (fun r => if r.id == p.role then r.startsMove p s.now else r) := by
  rw [shifterEvaluation_one he ht]
  exact startMove_roles hok

/-- A running role of the Reckoner on bead 3. -/
def doubledRole : Role := ⟨0x1001#16, 3, 0x0100#16, .running, some 2, none, 0, 0, [], [], false⟩

/-- A tablet whose directory has a second entry of that role, on bead 4 of the same deck, which is hot enough to be left. -/
def State.doubleEntry : State :=
  let z := State.reset
  { z with
    now := 10000000
    regs := [(rPlaceCtl, 0x50F#32)]
    place := { z.place with
      shiftEn := .enabled
      roles := [doubledRole, { doubledRole with bead := 4 }] }
    fab := { z.fab with decks := z.fab.decks.set 0 { z.deck 0 with temp := 676 } } }

/-- A move for heat of the role with two entries, to bead 70. -/
def doubleEntryMove : MovePlan := ⟨0x1001#16, 70, .heat, 0, 0, true⟩

theorem doubleEntry_moveOk : State.doubleEntry.moveOk doubleEntryMove = true := by decide

/-- Refutes O9: the directory of the statement's state may have a second entry of the role's id. The start of a move freezes both, and
each entry's move leaves the bead of its own (here 3 and 4), where the statement has every one leave the bead of the first. (Where ids
are unique the two agree.) -/
theorem not_movesFreezeCommitAndFence : ¬ Obligations.MovesFreezeCommitAndFence := by
  unfold Obligations.MovesFreezeCommitAndFence
  intro h
  obtain ⟨starts, -⟩ := h .doubleEntry doubledRole rfl
  have hs := congrArg (fun t : State => t.place.roles)
    (Host.Outcome.next.inj (starts doubleEntryMove rfl rfl (by decide) doubleEntry_moveOk))
  dsimp only at hs
  rw [noteReserve_place] at hs
  exact absurd ((shifterEvaluation_roles rfl (by decide) doubleEntry_moveOk).symm.trans hs) (by decide)

end Sys2Proof.Machine

/-! PROOF. A command whose bus does not take it (R248, R578), and with it the statement on rollouts. -/

namespace Sys2Proof.Machine

open Sys2Proof

/-- A command to bus object 3 that is due at once. -/
def dueCommand : RollCmd := ⟨1, 0, .bus 0 3, 0x3F800000#32, 0, 0, .new, false⟩

/-- A released rollout of zone 0 with that command alone. -/
def busRollout : Rollout :=
  { (default : Rollout) with id := 1, unit := .zone 0, cfg := RollCfg.init, st := .released, cmds := [dueCommand] }

/-- An ACTIVE tablet before start-up step 11, whose outputs are not driven yet, with bus object 3 configured and the rollout released. -/
def State.undrivenSender : State :=
  let z := State.reset
  let u : State := { z with
    twin := { z.twin with role := .active }
    roll := { z.roll with rolls := [busRollout] } }
  u.setTx 0 3 { (u.bus 0).txObj 3 with cfg := some ⟨0, 3, 0, 0, 8, 0, 0, 0⟩ }

theorem undrivenSender_hist : (State.undrivenSender.commandSend 1).roll.hist.map SentCmd.alive = [false] := rfl

/-- Refutes O18: the outputs of a tablet in start-up are not driven, so the bus ends the hand-over of the command FAILED at once, and a
command that was never on the bus does not stand as the last commanded value (R248, R578): it is recorded with `alive` false, where the
statement has it true. -/
theorem not_rolloutsVetReleaseAndEnd : ¬ Obligations.RolloutsVetReleaseAndEnd := by
  unfold Obligations.RolloutsVetReleaseAndEnd
  intro h
  obtain ⟨-, -, -, sends, -, -⟩ := h .undrivenSender
  obtain ⟨toBus, -, -⟩ := sends busRollout 0 dueCommand (by decide) rfl (by decide) (by decide) (by decide) (by decide)
  obtain ⟨t, ht, hist, -⟩ := toBus 0 3 rfl
  obtain rfl : State.undrivenSender.commandSend 1 = t := Host.Outcome.next.inj ht
  have hl := undrivenSender_hist
  rw [hist] at hl
  exact absurd hl (by decide)

end Sys2Proof.Machine

/-! PROOF. What a model swap leaves alone (R141, R142): runs, layer solves and rollouts end or stop, and of the model, the registers, the
queue of commands and the directory nothing changes but where checkpoints lie. -/

namespace Sys2Proof.Machine

open Sys2Proof

/-! ### What the engines' ends do not touch -/

/-- A role but for the place of its checkpoint. -/
def Role.apart (r : Role) : Role := { r with ckpt := none }

/-- The directory but for the places of the checkpoints. -/
def Placement.apart (p : Placement) : Placement := { p with roles := p.roles.map Role.apart }

/-- The parts of a tablet that the ends of runs, solves and rollouts do not touch. -/
structure Base where
  model : ModelSt
  regs : List (Nat × Word)
  pending : List Instr
  place : Placement

def State.base (s : State) : Base := ⟨s.model, s.regs, s.pending, s.place.apart⟩

/-- `t` has the base of `s`. -/
def Rests (s t : State) : Prop := t.base = s.base

theorem Rests.refl (s : State) : Rests s s := rfl

theorem Rests.trans {s t u : State} (h : Rests s t) (k : Rests t u) : Rests s u := Eq.trans k h

theorem Rests.ite {s t u : State} {c : Prop} [Decidable c] (ht : Rests s t) (hu : Rests s u) : Rests s (if c then t else u) := by
  split
  · exact ht
  · exact hu

theorem Rests.foldl {α : Type} {f : State → α → State} (h : ∀ s a, Rests s (f s a)) (l : List α) (s : State) :
    Rests s (l.foldl f s) := by
  induction l generalizing s with
  | nil => exact .refl s
  | cons a l ih => exact (h s a).trans (ih _)

theorem sameRoles_of_apart {s t : State} (h : t.place.apart = s.place.apart) : SameRoles s t :=
  ⟨congrArg (fun p => { p with roles := t.place.roles }) h, congrArg Placement.roles h⟩

theorem OnlyReports.rests {s t : State} (h : OnlyReports s t) : Rests s t := by
  unfold Rests State.base
  rw [h.model, h.regs, h.pending, h.place]

theorem raise_rests (s : State) (src : Nat) (ps : List Fld) : Rests s (s.raise src ps) := (raise_only s src ps).rests

theorem report_rests (s : State) (cls kind : Nat) (body : List Fld) : Rests s (s.report cls kind body) :=
  (report_only s cls kind body).rests

/-! ### Copies and station frames (R83, R292, R305, R506) -/

theorem crossAll_rests (s : State) (xs : List Nat) (os : List Output) : Rests s (s.crossAll xs os) := by
  have voids : Rests s ((xs.filter s.xingStopped).foldl State.xingVoid s) := .foldl (f := State.xingVoid) (fun _ _ => rfl) _ s
  unfold State.crossAll
  exact .ite voids (voids.trans (.foldl (f := State.emit) (fun _ _ => rfl) os _))

theorem cross_rests (s : State) (xs : List Nat) (o : Output) : Rests s (s.cross xs o) := crossAll_rests s xs [o]

theorem mirror_rests (s : State) (typ : Nat) (body : List Fld) : Rests s (s.mirror typ body) := by
  unfold State.mirror State.mirrorAny
  refine .ite (.ite (.refl s) ?_) (.refl s)
  exact Rests.trans (t := { s with twin := { s.twin with
    mirrorSeq := s.twin.mirrorSeq + word (mirrorParts body), mirrorRecs := s.twin.mirrorRecs + 1 } }) rfl (crossAll_rests _ _ _)

/-- Where a role's checkpoint lies is no part of the base. -/
theorem modRole_ckpt_rests (s : State) (id : Half) (ck : Option Nat) : Rests s (s.modRole id (fun r => { r with ckpt := ck })) := by
  have h : (s.modRole id (fun r => { r with ckpt := ck })).place.roles.map Role.apart = s.place.roles.map Role.apart := by
    simp only [State.modRole, List.map_map]
    refine List.map_congr_left fun r _ => ?_
    simp only [Function.comp, Role.apart]
    split <;> rfl
  unfold Rests State.base Placement.apart
  rw [h]
  rfl

theorem checkpoint_rests (s : State) (id : Half) : Rests s (s.checkpoint id) := by
  unfold State.checkpoint
  split
  · split
    · split
      · exact (modRole_ckpt_rests s id _).trans rfl
      · exact .refl s
    · exact .refl s
  · exact .refl s

theorem mirrorCtx_rests (s : State) (id : Nat) : Rests s (s.mirrorCtx id) := by
  unfold State.mirrorCtx
  split
  · exact (checkpoint_rests s _).trans (mirror_rests _ _ _)
  · exact .refl s

theorem setCtx_rests (s : State) (id : Nat) (f : Ctx → Ctx) : Rests s (s.setCtx id f) := rfl

theorem noteTags_rests (s : State) : Rests s s.noteTags := by
  unfold State.noteTags
  refine .ite rfl ?_
  split
  · exact .ite (Rests.trans (t := { s with stn := { s.stn with tagWaitSince := none } }) rfl (raise_rests _ _ _)) (.refl s)
  · exact .refl s

theorem emitFrame_rests (s : State) (c : Ctx) (seq : Word) (f : StnFrame) (txn : Option (Nat × Nat × Nat)) :
    Rests s (s.emitFrame c seq f txn) := by
  have ring : ∀ (u : State) (bs : List Byte), Rests u (u.sendStn c.cfg bs) := fun u _ =>
    Rests.trans (t := { u with ring := { u.ring with hsrSeq := u.ring.hsrSeq + 1 } }) rfl (cross_rests _ _ _)
  unfold State.emitFrame
  exact (Rests.ite (.refl s) (mirror_rests _ _ _)).trans (ring _ _)

theorem sendOne_rests (s : State) (c : Ctx) (w : Waiting) (rest : List Waiting) : Rests s (s.sendOne c w rest) := by
  unfold State.sendOne
  dsimp only
  split
  · split
    · exact (setCtx_rests s _ _).trans (emitFrame_rests _ _ _ _ _)
    · exact setCtx_rests s _ _
  · refine .ite ?_ ((setCtx_rests s _ _).trans (emitFrame_rests _ _ _ _ _))
    split
    · rename_i pool _
      exact Rests.trans (t := { s with stn := { s.stn with pool := pool } }) rfl
        (((setCtx_rests _ _ _).trans (emitFrame_rests _ _ _ _ _)).trans (noteTags_rests _))
    · exact .refl s

theorem pump_rests (s : State) (id : Nat) : Rests s (s.pump id) := by
  have sends : ∀ (n : Nat) (u : State), Rests u (State.pumpN n u id) := by
    intro n
    induction n with
    | zero => exact .refl
    | succ n ih =>
      intro u
      unfold State.pumpN
      split
      · split
        · exact (sendOne_rests u _ _ _).trans (ih _)
        · exact .refl u
      · exact .refl u
  exact sends _ s

theorem queueFrame_rests (s : State) (id : Nat) (f : StnFrame) : Rests s (s.queueFrame id f).1 := by
  unfold State.queueFrame
  split
  · exact (setCtx_rests s _ _).trans (pump_rests _ _)
  · exact .refl s

theorem stnPend_rests (s : State) (id slot : Nat) (v : F32) : Rests s (s.stnPend id slot v) :=
  (setCtx_rests s _ _).trans (mirrorCtx_rests _ _)

theorem stnCancel_rests (s : State) (id : Nat) (seq : Word) : Rests s (s.stnCancel id seq) := by
  unfold State.stnCancel
  split
  · exact .refl s
  · dsimp only
    refine .ite (setCtx_rests s _ _) (.ite (.refl s) ?_)
    split
    · exact (setCtx_rests s _ _).trans (pump_rests _ _)
    · exact queueFrame_rests _ _ _

theorem stnRestore_rests (s : State) (id : Nat) : Rests s (s.stnRestore id) :=
  .ite ((setCtx_rests s _ _).trans (mirrorCtx_rests _ _)) (.refl s)

/-! ### Rollouts that stop (R255, R259–R261, R266) -/

theorem loopSpCancel_rests (s : State) (n rollout applyAt : Nat) : Rests s (s.loopSpCancel n rollout applyAt) := by
  unfold State.loopSpCancel
  split <;> rfl

theorem putRoll_rests (s : State) (x : Rollout) : Rests s (s.putRoll x) := Rests.trans (t := s.setRoll x) rfl (mirror_rests _ _ _)

theorem settleRoll_rests (s : State) : Rests s s.settleRoll := by
  unfold State.settleRoll
  exact .ite (Rests.trans (t := { s with roll := { s.roll with en := .disabled } }) rfl (raise_rests _ _ _)) (.refl s)

theorem endRoll_rests (s : State) (x : Rollout) (st : RollSt) (reason : Nat) : Rests s (s.endRoll x st reason) := by
  unfold State.endRoll
  extract_lets y roll u v w
  have hu : Rests s u := rfl
  have hv : Rests u v := .ite (raise_rests _ _ _) (.refl u)
  have hw : Rests v w := .ite (report_rests _ _ _ _) (.refl v)
  clear_value u v w
  exact hu.trans (hv.trans (hw.trans ((mirror_rests _ _ _).trans (settleRoll_rests _))))

theorem submitRoll_rests (s : State) (x : Rollout) : Rests s (s.submitRoll x) := by
  have vets : ∀ (u : State) (y : Rollout), Rests u (u.vet y) := fun u y => .ite (endRoll_rests u _ _ _) (putRoll_rests u _)
  have pends : Rests s (s.build x (s.firstApply x)).1 := .foldl (fun s i => stnPend_rests s i 0 _) _ s
  exact .ite (putRoll_rests s _) (pends.trans (vets _ _))

theorem freeNet_rests (s : State) (net : Nat) : Rests s (s.freeNet net) := by
  have frees : ∀ (n : Nat) (u : State), Rests u (State.nextOfNet n u net) := by
    intro n
    induction n with
    | zero => exact .refl
    | succ n ih =>
      intro u
      unfold State.nextOfNet
      refine .ite (.refl u) ?_
      split
      · exact (submitRoll_rests u _).trans (ih _)
      · exact .refl u
  exact frees _ s

theorem stopRoll_rests (s : State) (x : Rollout) (st : RollSt) (reason successor : Nat) :
    Rests s (s.stopRoll x st reason successor) := by
  unfold State.stopRoll
  extract_lets t la u goes gone cancel dead roll v w y z
  have hu : Rests s u := by
    unfold u
    split <;> rfl
  have cancels : ∀ a c, Rests a (cancel a c) := by
    intro a c
    unfold cancel
    split
    · exact (stnCancel_rests _ _ _).trans (stnRestore_rests _ _)
    · exact loopSpCancel_rests _ _ _ _
    · exact .refl a
  have hv : Rests u v := rfl
  have hw : Rests v w := .foldl cancels gone v
  have hz : Rests w z := .ite (raise_rests _ _ _) (.refl w)
  clear_value u v w z
  exact hu.trans (hv.trans (hw.trans (hz.trans ((endRoll_rests _ _ _ _).trans (freeNet_rests _ _)))))

theorem rollSwap_rests (s : State) (old new : List Byte) : Rests s (s.rollSwap old new) := by
  refine .foldl (fun s x => ?_) _ s
  split
  · exact stopRoll_rests _ _ _ _ _
  · exact .refl s

/-! ### Runs and layer solves that end (R142, R181) -/

theorem giveVerdict_rests (s : State) (v : Verdict) (report : Bool) (trust : F32) : Rests s (s.giveVerdict v report trust) := by
  unfold State.giveVerdict
  extract_lets la u w
  have hw : Rests s w := Rests.trans (t := u) rfl (.ite (report_rests _ _ _ _) (.refl u))
  clear_value w
  refine hw.trans ?_
  split
  · exact .refl w
  · exact raise_rests _ _ _
  · exact raise_rests _ _ _
  · refine .ite ?_ (raise_rests _ _ _)
    exact Rests.trans (t := { w with la := { w.la with superseded := w.la.superseded + 1 } }) rfl (raiseReportOnly_only _ _ _).rests

theorem refuseRun_rests (s : State) (r : LaRun) (reason flags : Nat) : Rests s (s.refuseRun r reason flags) :=
  Rests.trans (t := ({ s with la := { s.la with runs := s.la.runs.filter (fun x => x.number != r.number) } } : State).unpin
    (0x100 + r.number)) rfl (giveVerdict_rests _ _ _ _)

theorem settleLook_rests (s : State) : Rests s s.settleLook := by
  unfold State.settleLook
  exact .ite (Rests.trans (t := { s with la := { s.la with en := .disabled } }) rfl (raise_rests _ _ _)) (.refl s)

theorem laSwap_rests (s : State) : Rests s s.laSwap := by
  have runs : Rests s (s.la.runs.foldl (fun s r => s.refuseRun r 0x14 0) s) := .foldl (fun s r => refuseRun_rests s r _ _) _ s
  have rebuilds : ∀ u : State, Rests u { u with la := { u.la with rebuilding := some 0 } } := fun _ => rfl
  exact runs.trans ((rebuilds _).trans (settleLook_rests _))

theorem setLayer_rests (s : State) (y : Layer) (x : LayerSt) : Rests s (s.setLayer y x) := rfl

theorem endUnpublished_rests (s : State) (y : Layer) (r : LayerRun) (status : Nat) (p : Plan) :
    Rests s (s.endUnpublished y r status p) := by
  unfold State.endUnpublished
  extract_lets x fails c u p opt v
  have hv : Rests s v := Rests.trans (t := u) rfl (.ite rfl (.refl u))
  clear_value v
  have posts : Rests v (v.postPlan c y p 0) := by
    unfold State.postPlan
    exact .ite ((setLayer_rests v y _).trans (report_rests _ _ _ _)) (.refl v)
  have settles : ∀ w : State, Rests w w.settleOpt := fun w => by
    unfold State.settleOpt
    exact .ite (Rests.trans (t := { w with opt := { w.opt with en := .disabled } }) rfl (raise_rests _ _ _)) (.refl w)
  exact hv.trans (posts.trans (settles _))

theorem optSwap_rests (s : State) (img : List Byte) : Rests s (s.optSwap img) := by
  unfold State.optSwap
  extract_lets one
  have hone : ∀ s y, Rests s (one s y) := by
    intro s y
    unfold one
    extract_lets u x b
    have hu : Rests s u := by
      unfold u
      split
      · exact endUnpublished_rests _ _ _ _ _
      · exact .refl s
    clear_value u
    exact hu.trans (setLayer_rests _ _ _)
  exact (hone s .day).trans (hone _ .pressure)

theorem pvSwap_rests (s : State) (img : List Byte) : Rests s (s.pvSwap img) := by
  unfold State.pvSwap
  split <;> rfl

theorem judgeFit_rests (s : State) : Rests s s.judgeFit := Rests.trans (t := s.fitNow) rfl (judgeFit_only s).rests

/-! ### The swap (R141, R142) -/

theorem modelSwap_waits {s : State} (h : s.swapOk = false) : s.modelSwap = s := by
  unfold State.modelSwap
  exact if_pos (by simp [h])

/-- A swap makes the marked slot the running model, and leaves the rest of the base. -/
theorem modelSwap_base {s : State} (h : s.swapOk = true) : ∃ load cold, s.modelSwap.base = { s.base with
    model := { s.model with
      swapDue := false, firstDue := true, load := load, coldNext := cold
      runSlot := some s.markedSlot, run := (s.model.slots.getD s.markedSlot default).bytes } } := by
  unfold State.modelSwap
  rw [if_neg (by simp [h])]
  extract_lets i old new load u model v w runs x reck y z
  have hu : u.base = s.base := pvSwap_rests s new
  have hw : w.base = v.base := laSwap_rests v
  have ht : (z.rollSwap old new).judgeFit.base = y.base :=
    ((optSwap_rests y new).trans (rollSwap_rests z old new)).trans (judgeFit_rests _)
  have hv : v.base = { u.base with model := v.model } := rfl
  have hy : y.base = { w.base with model := { w.base.model with runSlot := some i, run := new } } := rfl
  have hm : v.model = { u.base.model with
    swapDue := false, firstDue := true, load := load, coldNext := u.model.coldNext || u.model.runSlot.isNone } := rfl
  refine ⟨load, u.model.coldNext || u.model.runSlot.isNone, ?_⟩
  clear_value z y x w v u
  rw [ht, hy, hw, hv, hm, hu]
  rfl

end Sys2Proof.Machine

/-! PROOF. ROLE_REPLACED (R97, R100, R101): a role under updates of the directory, and its restart on a bead. -/

namespace Sys2Proof.Machine

open Sys2Proof

/-! ### Roles under updates -/

theorem State.role_congr {s t : State} (h : t.place.roles = s.place.roles) (id : Half) : t.role id = s.role id := by
  unfold State.role
  rw [h]

/-- A role that is changed reads back changed. -/
theorem role_modRole {f : Role → Role} (hf : ∀ r, (f r).id = r.id) (s : State) (id : Half) :
    (s.modRole id f).role id = (s.role id).map f := by
  have hp : ((fun r : Role => r.id == id) ∘ fun r => if r.id == id then f r else r) = fun r => r.id == id := by
    funext r
    simp only [Function.comp]
    split
    · rw [hf]
    · rfl
  have hi : ∀ r, s.role id = some r → (if r.id == id then f r else r) = f r := fun r h => if_pos (by simp [State.role_id h])
  unfold State.role at *
  rw [State.modRole, List.find?_map, hp]
  cases h : s.place.roles.find? (fun r => r.id == id) with
  | none => rfl
  | some r => exact congrArg some (hi r h)

theorem modRole_role {s : State} {r : Role} (h : s.role r.id = some r) {f : Role → Role} (hf : ∀ r, (f r).id = r.id) :
    (s.modRole r.id f).role r.id = some (f r) := by
  rw [role_modRole hf, h]
  rfl

/-! ### Roles and decks alone -/

/-- `s` with the roles and the decks of `t`. -/
def State.withRoles (s t : State) : State :=
  { s with
    place := { s.place with roles := t.place.roles }
    fab := { s.fab with decks := t.fab.decks } }

/-- `t` is `s` but for its roles, its decks and reports. -/
def OnlyRoles (s t : State) : Prop := OnlyReports (s.withRoles t) t

theorem OnlyReports.withRoles {s t : State} (h : OnlyReports s t) (u : State) : OnlyReports (s.withRoles u) (t.withRoles u) :=
  ⟨congrArg (fun x => State.withRoles x u) h.1, fun hs => congrArg (fun x => { x with decks := u.fab.decks }) (h.2 hs)⟩

theorem OnlyRoles.trans {s t u : State} (h : OnlyRoles s t) (k : OnlyRoles t u) : OnlyRoles s u :=
  OnlyReports.trans (OnlyReports.withRoles h u) k

theorem OnlyReports.onlyRoles {s t : State} (h : OnlyReports s t) : OnlyRoles s t := by
  unfold OnlyRoles State.withRoles
  rw [h.place, h.decks]
  exact h

theorem modRole_onlyRoles (s : State) (id : Half) (f : Role → Role) : OnlyRoles s (s.modRole id f) := OnlyReports.refl _

theorem stir_onlyRoles (s : State) (d : Nat) : OnlyRoles s (s.stir d) := OnlyReports.refl _

theorem ackAll_only (s : State) (a : Ack) (ts : List Token) : OnlyReports s (s.ackAll a ts) := .of_eq rfl

theorem ackAll_mem {ts : List Token} {t : Token} (h : t ∈ ts) (s : State) (a : Ack) : Output.ack t a ∈ (s.ackAll a ts).out :=
  List.mem_append_right _ (List.mem_map_of_mem h)

theorem noteReserve_only (s : State) (before : Nat) : OnlyReports s (s.noteReserve before) := by
  unfold State.noteReserve
  split
  · exact raise_only _ _ _
  · exact .refl s

/-! ### The restart of a role (R100, R101) -/

/-- A role as it runs again on a bead: the tokens that waited for it are taken. -/
def Role.resumed (r : Role) (bead : Nat) : Role :=
  { r with
    bead := bead
    epoch := if bead = r.bead then r.epoch else epochMoved r.epoch
    st := .running
    waiting := [] }

/-- A role as it has restarted: the tokens answered void for it are taken too. -/
def Role.restarted (r : Role) (bead : Nat) : Role := { r.resumed bead with resend := [] }

/-- Tokens that were answered void for a role are taken again (R97). -/
theorem resendAll_eq {s : State} {id : Half} {r : Role} (h : s.role id = some r) :
    s.resendAll id = (s.modRole id (fun x => { x with resend := [] })).ackAll .normal r.resend := by
  unfold State.resendAll
  rw [h]

/-- A role that may restart on the bead runs there, its tokens are taken, and nothing but roles, decks and reports changes. -/
theorem roleReplaced_restarts {s : State} {r : Role} {bead : Nat} (hr : s.role r.id = some r) (h : s.mayRestart r bead = true) :
    OnlyRoles s (s.roleReplaced r.id bead) ∧ (s.roleReplaced r.id bead).role r.id = some (r.restarted bead)
      ∧ ∀ tok ∈ r.waiting ++ r.resend, Output.ack tok .normal ∈ (s.roleReplaced r.id bead).out := by
  unfold State.roleReplaced
  split
  case h_2 hn => exact nomatch hr.symm.trans hn
  rename_i q hq
  obtain rfl : r = q := Option.some.inj (hr.symm.trans hq)
  rw [if_pos h]
  extract_lets before e u v w x y
  have hu : u.role r.id = some (r.resumed bead) := modRole_role hr fun _ => rfl
  have moved : OnlyRoles s v := (modRole_onlyRoles _ _ _).trans ((stir_onlyRoles _ _).trans (stir_onlyRoles _ _))
  have taken : ∀ tok ∈ r.waiting, Output.ack tok .normal ∈ w.out := fun tok ht => ackAll_mem ht v _
  obtain ⟨lost, lostGrows⟩ : OnlyReports x y ∧ OutGrows x y := by
    unfold y
    split
    · exact ⟨raise_only _ _ _, raise_grows _ _ _⟩
    · exact ⟨.refl x, .refl x⟩
  have told : OnlyReports v y := (ackAll_only v _ _).trans ((raise_only w _ _).trans lost)
  have grows : OutGrows w y := (raise_grows w _ _).trans lostGrows
  have hy : y.role r.id = some (r.resumed bead) := (State.role_congr (congrArg Placement.roles told.place) r.id).trans hu
  clear_value u v w x y
  rw [resendAll_eq hy]
  have ends : RolesMove y (((y.modRole r.id (fun q => { q with resend := [] })).ackAll .normal r.resend).noteReserve before) :=
    ((modRole_moves y _ _).trans (ackAll_moves _ _ _)).trans (noteReserve_moves _ _)
  refine ⟨?_, ?_, fun tok ht => ?_⟩
  · exact moved.trans (told.onlyRoles.trans ((modRole_onlyRoles y _ _).trans
      ((ackAll_only _ _ _).trans (noteReserve_only _ _)).onlyRoles))
  · rw [State.role_congr (congrArg Placement.roles (noteReserve_place _ _))]
    exact modRole_role (r := r.resumed bead) hy fun _ => rfl
  · rcases List.mem_append.mp ht with ht | ht
    · exact ends.out.mem (grows.mem (taken tok ht))
    · exact (noteReserve_moves _ _).out.mem (ackAll_mem ht _ _)

end Sys2Proof.Machine

/-! PROOF. The restart of an engine's own work with its role (R91, R141, R167, R201, R229, R344, R352): what it changes. -/

namespace Sys2Proof.Machine

open Sys2Proof

/-! ### What a restart may change -/

/-- `s` with what the restart of a role may change, as it stands in `t`. -/
def State.withRestart (s t : State) : State :=
  { s with
    place := { s.place with roles := t.place.roles }
    fab := { s.fab with decks := t.fab.decks }
    model := { s.model with clearAt := t.model.clearAt }
    la := { s.la with runs := t.la.runs }
    reck := { s.reck with pins := t.reck.pins }
    opt := t.opt
    loops := t.loops
    meter := t.meter }

/-- `t` is `s` but for those, answers and reports. -/
def OnlyRestarts (s t : State) : Prop := OnlyAnswers (s.withRestart t) t

theorem OnlyAnswers.withRestart {s t : State} (h : OnlyAnswers s t) (u : State) : OnlyAnswers (s.withRestart u) (t.withRestart u) :=
  ⟨congrArg (fun x => State.withRestart x u) h.1, fun hs => congrArg (fun x => { x with decks := u.fab.decks }) (h.2 hs)⟩

theorem OnlyRestarts.trans {s t u : State} (h : OnlyRestarts s t) (k : OnlyRestarts t u) : OnlyRestarts s u :=
  OnlyAnswers.trans (OnlyAnswers.withRestart h u) k

theorem OnlyAnswers.restarts {s t : State} (h : OnlyAnswers s t) : OnlyRestarts s t := by
  unfold OnlyRestarts State.withRestart
  rw [h.place, h.model, h.la, h.reck, h.opt, h.loops, h.meter, OnlyReports.decks h]
  exact h

theorem OnlyRoles.restarts {s t : State} (h : OnlyRoles s t) : OnlyRestarts s t :=
  OnlyRestarts.trans (t := s.withRoles t) (OnlyAnswers.refl _) (OnlyReports.answers h).restarts

/-! ### Loops (R344, R347, R352) -/

/-- `t` is `s` but for loops of the role `id`, their trace and takeover, answers and reports. -/
structure LoopsRestart (id : Half) (s t : State) : Prop where
  only : OnlyAnswers { s with loops := t.loops } t
  others : ∀ n, loopRole n ≠ id → t.loopOf n = s.loopOf n
  out : OutGrows s t

section

variable {id : Half} {s t u : State}

theorem LoopsRestart.refl (s : State) : LoopsRestart id s s := ⟨.refl s, fun _ _ => rfl, .refl s⟩

theorem LoopsRestart.trans (h : LoopsRestart id s t) (k : LoopsRestart id t u) : LoopsRestart id s u := by
  refine ⟨OnlyAnswers.trans (t := { t with loops := u.loops }) ⟨?_, h.only.2⟩ k.only,
    fun n hn => (k.others n hn).trans (h.others n hn), h.out.trans k.out⟩
  exact congrArg (fun x : State => { x with loops := u.loops }) h.only.1

theorem LoopsRestart.foldl {α : Type} {f : State → α → State} (h : ∀ s a, LoopsRestart id s (f s a)) (l : List α) (s : State) :
    LoopsRestart id s (l.foldl f s) := by
  induction l generalizing s with
  | nil => exact .refl s
  | cons a l ih => exact (h s a).trans (ih _)

theorem LoopsRestart.of_answers (h : OnlyAnswers s t) (k : OutGrows s t) : LoopsRestart id s t :=
  ⟨by rw [h.loops]; exact h, fun n _ => loopOf_congr (by rw [h.loops]) n, k⟩

theorem LoopsRestart.setLoop {n : Nat} (h : loopRole n = id) (s : State) (l : Loop) : LoopsRestart id s (s.setLoop n l) := by
  refine ⟨OnlyAnswers.refl _, fun k hk => ?_, same_grows rfl⟩
  have hne : n ≠ k := fun e => hk (e ▸ h)
  simp only [State.loopOf, State.setLoop, alGet_alPut, if_neg hne]

theorem LoopsRestart.raise (s : State) (src : Nat) (ps : List Fld) : LoopsRestart id s (s.raise src ps) :=
  .of_answers (raise_only s src ps).answers (raise_grows s src ps)

/-- The engine's trace and takeover are no loop's. -/
theorem LoopsRestart.engine (h : t = { s with loops := t.loops }) (k : t.loops.loops = s.loops.loops) : LoopsRestart id s t := by
  refine ⟨?_, fun n _ => loopOf_congr k n, ?_⟩ <;> rw [h]
  · exact .refl _
  · exact .refl s

end

theorem raiseTimed2_grows (s : State) (src key : Nat) (pre : List Fld) (two : Bool) (n m : Nat) :
    OutGrows s (s.raiseTimed2 src key pre two n m) := by
  unfold State.raiseTimed2
  extract_lets u
  have hu : OutGrows s u := (same_grows (t := s.startTimer src key pre two) rfl).trans (raise_grows _ _ _)
  clear_value u
  split
  · exact same_grows rfl
  · split
    · exact hu.trans (same_grows rfl)
    · exact hu

section

variable {id : Half} {n : Nat}

theorem endTrace_restart (s : State) : LoopsRestart id s s.endTrace := by
  unfold State.endTrace
  split
  · exact LoopsRestart.trans (t := { s with loops := { s.loops with trace := none } }) (.engine rfl rfl)
      (.of_answers (answer_only _ _ _ _) (answer_grows _ _ _ _))
  · exact .refl s

theorem settleTakeover_restart (s : State) : LoopsRestart id s s.settleTakeover := by
  unfold State.settleTakeover
  split
  · exact LoopsRestart.trans (t := { s with loops := { s.loops with taking := false } }) (.engine rfl rfl) (.raise _ _ _)
  · exact .refl s

theorem loopOff_restart (h : loopRole n = id) (s : State) (l : Loop) : LoopsRestart id s (s.loopOff n l) := by
  unfold State.loopOff
  extract_lets u
  have hu : LoopsRestart id s u := by
    unfold u
    split
    · split
      · exact endTrace_restart s
      · exact .refl s
    · exact .refl s
  clear_value u
  exact hu.trans ((LoopsRestart.setLoop h u _).trans ((LoopsRestart.raise _ _ _).trans (settleTakeover_restart _)))

/-- What a loop of the role misses is counted, and a quiescing one is DISABLED (R344, R347). -/
theorem loopCatchUp_restart (h : loopRole n = id) (s : State) (l : Loop) (downNs : Nat) : LoopsRestart id s (s.loopCatchUp n l downNs) := by
  have misses : ∀ at_ count, LoopsRestart id s (s.loopMiss n l at_ count) := by
    intro at_ count
    unfold State.loopMiss
    extract_lets now k u
    have hu : LoopsRestart id s u :=
      (LoopsRestart.setLoop h s k).trans (.of_answers (raiseTimed2_only _ _ _ _ _ _ _).answers (raiseTimed2_grows _ _ _ _ _ _ _))
    clear_value u
    split
    · exact hu.trans (loopOff_restart h u k)
    · exact hu
  unfold State.loopCatchUp
  split
  · exact .refl s
  · exact misses _ _

theorem eachLoop_restart {f : State → Nat → Loop → State} (h : ∀ s n l, LoopsRestart id s (f s n l)) (s : State) :
    LoopsRestart id s (s.eachLoop f) := by
  refine .foldl (fun s n => ?_) _ s
  split
  · exact h _ _ _
  · exact .refl s

theorem loopsRestart_restart (s : State) (downNs : Nat) : LoopsRestart id s (s.loopsRestart id downNs) := by
  unfold State.loopsRestart
  extract_lets u
  have hu : LoopsRestart id s u := by
    unfold u
    split
    · split
      · exact endTrace_restart s
      · exact .refl s
    · exact .refl s
  clear_value u
  refine hu.trans (eachLoop_restart (fun v n l => ?_) u)
  split
  · next hn => exact loopCatchUp_restart (of_decide_eq_true (Bool.and_eq_true_iff.mp hn).1) v l downNs
  · exact .refl v

theorem loopsInitial_restart (s : State) : LoopsRestart id s (s.loopsInitial id) := by
  refine eachLoop_restart (fun v n l => ?_) s
  split
  · next hn => exact .setLoop hn v _
  · exact .refl v

end

/-! ### By the kind of the role -/

/-- `t` is `s` with the work of the role `id` restarted, `run` being the look-ahead run whose share it holds. -/
structure EngineRestarts (id : Half) (run : Nat) (s t : State) : Prop where
  only : OnlyRestarts s t
  place : t.place = s.place
  out : OutGrows s t
  opt : roleKind id ≠ 3 → t.opt = s.opt
  loops : roleKind id ≠ 4 → t.loops = s.loops ∧ t.setup = s.setup
  meter : roleKind id ≠ 7 → t.meter = s.meter
  others : ∀ n, loopRole n ≠ id → t.loopOf n = s.loopOf n
  runs : roleKind id = 2 → ∀ x ∈ t.la.runs, x.number = run → x.restarted = true ∧ x.startedAt = s.now
  la : roleKind id ≠ 2 → t.la = s.la

section

variable {id : Half} {run : Nat} {s t : State}

theorem EngineRestarts.still (h : roleKind id ≠ 2) : EngineRestarts id run s s where
  only := (OnlyAnswers.refl s).restarts
  place := rfl
  out := .refl s
  opt _ := rfl
  loops _ := ⟨rfl, rfl⟩
  meter _ := rfl
  others _ _ := rfl
  runs k := absurd k h
  la _ := rfl

theorem noteClear_restarts (h : roleKind id ≠ 2) (s : State) : EngineRestarts id run s s.noteClear where
  only := OnlyAnswers.refl _
  place := rfl
  out := .refl s
  opt _ := rfl
  loops _ := ⟨rfl, rfl⟩
  meter _ := rfl
  others _ _ := rfl
  runs k := absurd k h
  la _ := rfl

/-! ### Look-ahead, the optimiser and metering (R91, R201, R229) -/

theorem pinLatest_fields (s : State) (owner : Nat) :
    s.pinLatest owner = { s with reck := { s.reck with pins := (s.pinLatest owner).reck.pins } } := by
  unfold State.pinLatest
  split <;> rfl

theorem repin_fields (s : State) (owner : Nat) : (s.unpin owner).pinLatest owner
    = { s with reck := { s.reck with pins := ((s.unpin owner).pinLatest owner).reck.pins } } := by
  rw [pinLatest_fields]
  rfl

theorem laRestart_fields (s : State) (lost : Bool) : s.laRestart run lost = { s with
    la := { s.la with runs := (s.laRestart run lost).la.runs }
    reck := { s.reck with pins := (s.laRestart run lost).reck.pins } } := by
  unfold State.laRestart
  extract_lets tick anew again runs u
  split
  · rw [repin_fields]
  · rfl

/-- The run whose share the role holds starts again now (R201). -/
theorem laRestart_runs (s : State) (lost : Bool) :
    ∀ x ∈ (s.laRestart run lost).la.runs, x.number = run → x.restarted = true ∧ x.startedAt = s.now := by
  unfold State.laRestart
  extract_lets tick anew again runs la u
  have hruns : ∀ x ∈ s.la.runs.map again, x.number = run → x.restarted = true ∧ x.startedAt = s.now := by
    intro x hx hn
    obtain ⟨r, -, rfl⟩ := List.mem_map.mp hx
    unfold again at hn ⊢
    split at hn
    · next h => simp [h]
    · next h => exact absurd hn h
  split
  · rw [repin_fields]
    exact hruns
  · exact hruns

theorem laRestart_restarts (h : roleKind id = 2) (s : State) (lost : Bool) : EngineRestarts id run s (s.laRestart run lost) := by
  have hf := laRestart_fields (run := run) s lost
  have runs := laRestart_runs (run := run) s lost
  generalize s.laRestart run lost = t at hf runs ⊢
  refine ⟨?_, by rw [hf], same_grows (by rw [hf]), fun _ => by rw [hf], fun _ => by rw [hf]; exact ⟨rfl, rfl⟩, fun _ => by rw [hf],
    fun n _ => loopOf_congr (by rw [hf]) n, fun _ => runs, fun k => absurd h k⟩
  rw [hf]
  exact OnlyAnswers.refl _

theorem optRestart_fields (s : State) :
    s.optRestart = { s with opt := s.optRestart.opt, reck := { s.reck with pins := s.optRestart.reck.pins } } := by
  unfold State.optRestart
  extract_lets again
  have hagain : ∀ u y, again u y = { u with opt := (again u y).opt, reck := { u.reck with pins := (again u y).reck.pins } } := by
    intro u y
    unfold again
    split
    · rw [repin_fields]
      rfl
    · rfl
  rw [hagain (again s .day), hagain s .day]

theorem optRestart_restarts (h : roleKind id = 3) (s : State) : EngineRestarts id run s s.optRestart := by
  have hf := optRestart_fields s
  generalize s.optRestart = t at hf ⊢
  refine ⟨?_, by rw [hf], same_grows (by rw [hf]), fun k => absurd h k, fun _ => by rw [hf]; exact ⟨rfl, rfl⟩, fun _ => by rw [hf],
    fun n _ => loopOf_congr (by rw [hf]) n, fun k => absurd (h.symm.trans k) (by decide), fun _ => by rw [hf]⟩
  rw [hf]
  exact OnlyAnswers.refl _

theorem meterRestart_restarts (h : roleKind id = 7) (s : State) : EngineRestarts id run s (s.meterRestart id) where
  only := OnlyAnswers.refl _
  place := rfl
  out := .refl s
  opt _ := rfl
  loops _ := ⟨rfl, rfl⟩
  meter k := absurd h k
  others _ _ := rfl
  runs k := absurd (h.symm.trans k) (by decide)
  la _ := rfl

theorem LoopsRestart.engineRestarts (h : LoopsRestart id s t) (k : roleKind id = 4) : EngineRestarts id run s t where
  only := OnlyRestarts.trans (t := { s with loops := t.loops }) (OnlyAnswers.refl _) h.only.restarts
  place := h.only.place
  out := h.out
  opt _ := h.only.opt
  loops e := absurd k e
  meter _ := h.only.meter
  others := h.others
  runs e := absurd (k.symm.trans e) (by decide)
  la _ := h.only.la

end

/-- The restart of a role, but for the sequencer's and for stations' without a checkpoint, restarts its engine's work. -/
theorem roleRestarts_engine {s : State} {r : Role} {bead : Nat} (hr : s.role r.id = some r) (h : s.mayRestart r bead = true)
    (h6 : roleKind r.id ≠ 6) (h5 : roleKind r.id = 5 → r.ckpt ≠ none) (run : Nat) :
    EngineRestarts r.id run (s.roleReplaced r.id bead) (s.roleRestarts r.id bead run) := by
  obtain ⟨-, hrole, -⟩ := roleReplaced_restarts hr h
  have hst : r.st = .replacing := by
    unfold State.mayRestart at h
    simp only [Bool.and_eq_true, beq_iff_eq] at h
    exact h.1.1.1
  unfold State.roleRestarts
  extract_lets was u lost down v
  change EngineRestarts r.id run u _
  have hwas : was.map (·.st) = some .replacing := by simp only [was, hr, Option.map_some, hst]
  have hnow : (u.role r.id).map (·.st) = some .running := by rw [hrole]; rfl
  have hlost : lost = r.ckpt.isNone := by simp only [lost, was, hr, Option.bind_some]
  rw [if_pos (by simp only [hwas, hnow, decide_true, Bool.and_self])]
  clear_value u lost down
  split
  case h_1 hk => exact noteClear_restarts (by simp [hk]) u
  case h_2 hk => exact laRestart_restarts hk u lost
  case h_3 hk =>
    split
    · exact optRestart_restarts hk u
    · exact .still (by simp [hk])
  case h_4 hk =>
    have hv : LoopsRestart r.id u v := loopsRestart_restart u down
    split
    · exact (hv.trans (loopsInitial_restart v)).engineRestarts hk
    · exact hv.engineRestarts hk
  case h_5 hk =>
    rw [if_neg (by simp [hlost, h5 hk])]
    exact .still (by simp [hk])
  case h_6 hk => exact absurd hk h6
  case h_7 hk =>
    split
    · exact meterRestart_restarts hk u
    · exact .still (by simp [hk])
  case h_8 h2 _ _ _ _ _ => exact .still h2

/-- Settles O11: a swap by what its engines' ends leave of a tablet's base; a restart by the role's entry of the directory, then by the
work of its kind's engine. -/
theorem swapAndReplacementRestart : Obligations.SwapAndReplacementRestart := by
  unfold Obligations.SwapAndReplacementRestart
  intro s
  refine ⟨?swap, fun h => congrArg Host.Outcome.next (modelSwap_waits h), ?restart⟩
  case swap =>
    intro h
    obtain ⟨load, cold, hbase⟩ := modelSwap_base h
    have hmodel : s.modelSwap.model = { s.model with
        swapDue := false, firstDue := true, load := load, coldNext := cold
        runSlot := some s.markedSlot, run := (s.model.slots.getD s.markedSlot default).bytes } := congrArg Base.model hbase
    refine ⟨s.modelSwap, rfl, ?_, ?_, ?_, ?_, ?_, sameRoles_of_apart (congrArg Base.place hbase), congrArg Base.regs hbase,
      congrArg Base.pending hbase⟩ <;> rw [hmodel]
  case restart =>
    intro r kind index bead run hid hr hmay h6 h5
    obtain ⟨moved, hrole, hacks⟩ := roleReplaced_restarts hr hmay
    have work := roleRestarts_engine hr hmay h6 h5 run
    refine ⟨s.roleRestarts r.id bead run, by rw [hid]; rfl, ?_, moved.restarts.trans work.only, fun k => (work.opt k).trans moved.opt,
      fun k => ⟨(work.loops k).1.trans moved.loops, (work.loops k).2.trans moved.setup⟩, fun k => (work.meter k).trans moved.meter,
      fun n hn => ?_, fun tok ht => work.out.mem (hacks tok ht), fun k x hx hn => ?_, fun k => (work.la k).trans moved.la⟩
    · exact (State.role_congr (congrArg Placement.roles work.place) r.id).trans hrole
    · exact (work.others n hn).trans (loopOf_congr (congrArg LoopEngine.loops moved.loops) n)
    · obtain ⟨hrestarted, hat⟩ := work.runs k x hx hn
      exact ⟨hrestarted, hat.trans moved.now⟩

end Sys2Proof.Machine

/-! PROOF. The load sequence of the network model (R134–R138) and MODEL_QUERY (R135): what each stage does, and the completions of the
orders that it answers. -/

namespace Sys2Proof.Machine

open Sys2Proof

/-! ### Completions by a step that is not the order's own -/

/-- An order is answered from any state with its live orders, whichever order has been taken meanwhile. -/
theorem answered_after_taking {s u : State} {taken : OrderRef} (hu : u.host.live = (s.markStarted taken).host.live) (ref : OrderRef) (op : Nat)
    (a : Answer) : Answered s ref op a.status a.body (u.answer ref op a) := by
  cases ref with
  | setup i => trivial
  | host tag gen =>
    intro l hl hdead hrun
    rw [State.answer_xingStopped] at hrun
    have hfound : u.findLive tag gen = some (l.startedBy taken) := by
      unfold State.findLive
      rw [hu]
      exact (findLive_markStarted s tag gen taken).trans (congrArg _ hl)
    rw [LiveOrder.startedBy_only] at hfound
    exact answer_reported hfound hdead hrun op a

/-- A completion stays written. -/
theorem Answered.grows {s t u : State} {ref : OrderRef} {op st : Nat} {body : List Fld} (h : Answered s ref op st body t) (k : OutGrows t u)
    (hx : u.xingStopped 0x01 = t.xingStopped 0x01) : Answered s ref op st body u := by
  cases ref with
  | setup i => trivial
  | host tag gen =>
    intro l hl hdead hrun
    obtain ⟨i, r, hm, hr⟩ := h l hl hdead (hx.symm.trans hrun)
    exact ⟨i, r, k.mem hm, hr⟩

/-! ### The end of a load -/

/-- MODEL_RESULT depends on the running model alone. -/
theorem modelResult_congr {s u : State} (h : u.model.run = s.model.run) (c : CheckRes) (img : List Byte) :
    u.modelResult c img = s.modelResult c img := by
  simp only [State.modelResult, State.modelRev, h]

/-- A load's end answers its order, after MODEL_REJECTED where the status is not OK. -/
theorem endLoad_eq_answer (s : State) (ref : OrderRef) (c : CheckRes) (img : List Byte) :
    ∃ u, s.endLoad ref c img = u.answer ref 0x0301 (ownReport c.status (s.modelResult c img)) ∧ OnlyReports s u
      ∧ u.host.live = s.host.live := by
  unfold State.endLoad
  split
  · exact ⟨s, rfl, .refl s, rfl⟩
  · have hr := raise_only s 0x3D [u16 c.status, u16 c.section_, u32 c.record]
    exact ⟨_, by dsimp only; rw [modelResult_congr (congrArg ModelSt.run hr.model)], hr, raise_live _ _ _⟩

theorem endLoad_only (s : State) (ref : OrderRef) (c : CheckRes) (img : List Byte) : OnlyAnswers s (s.endLoad ref c img) := by
  obtain ⟨u, e, hu, -⟩ := endLoad_eq_answer s ref c img
  rw [e]
  exact hu.answers.trans (answer_only _ _ _ _)

/-- The end of a load completes its order with MODEL_RESULT. -/
theorem endLoad_answered {s u : State} {taken : OrderRef} (hu : u.host.live = (s.markStarted taken).host.live) (ref : OrderRef) (c : CheckRes)
    (img : List Byte) : Answered s ref 0x0301 0 (u.modelResult c img) (u.endLoad ref c img) := by
  obtain ⟨v, e, -, hlive⟩ := endLoad_eq_answer u ref c img
  rw [e]
  exact answered_after_taking (hlive.trans hu) ref 0x0301 (ownReport c.status _)

/-- A step that ends a load completes the load's order. -/
theorem completes_endLoad {i : Instr} {s base : State} {ref : OrderRef} {c : CheckRes} {img : List Byte}
    (hx : exec i s = .next (base.endLoad ref c img)) (hb : base.host = s.host) :
    Completes i s base ref 0x0301 0 (base.modelResult c img) :=
  ⟨_, hx, endLoad_only base ref c img, endLoad_answered (taken := .setup 0) (by rw [hb]; rfl) ref c img⟩

/-! ### MODEL_LOAD and its checks (R134, R136, R138) -/

section
variable {s : State} {ref : OrderRef} {img : List Byte} {len : Nat} {vo ao ft : Bool} {l : ModelLoad}

theorem modelLoad_begins (h : s.model.load = none) :
    s.modelLoad ref img len vo ao ft = s.setLoad ⟨ref, img, len, vo, ao, ft, .checking, s.spareSlot, false, false, false, 0⟩ := by
  unfold State.modelLoad
  rw [h]

theorem modelLoad_busy (h : s.model.load ≠ none) : s.modelLoad ref img len vo ao ft = s.endLoad ref (bareRes 0x10) img := by
  obtain ⟨l, hl⟩ := Option.ne_none_iff_exists'.mp h
  unfold State.modelLoad
  rw [hl]

/-- What the checks of a load find. -/
def State.checksOf (s : State) (l : ModelLoad) : CheckRes :=
  modelChecks (s.checkEnv (some l.length) (s.model.runSlot.map (fun _ => s.modelRev)) l.allowOlder) l.bytes

theorem modelChecked_checking (hl : s.model.load = some l) (hst : l.stage = .checking) :
    s.modelChecked = if (s.checksOf l).status ≠ 0 || l.validateOnly then s.dropLoad.endLoad l.ref (s.checksOf l) l.bytes
      else s.setLoad { l with stage := .writing } := by
  have hrev : (if s.model.runSlot.isNone then none else some s.modelRev) = s.model.runSlot.map (fun _ => s.modelRev) := by
    cases s.model.runSlot <;> rfl
  simp only [State.modelChecked, hl, hst, hrev, ne_eq, not_true_eq_false, if_false, State.checksOf]
  rfl

/-! ### The slot (R136, step 3) -/

theorem modelSlotWritten_ready (hl : s.model.load = some l) (hst : l.stage = .writing) (halone : s.standbyThere = false) :
    s.modelSlotWritten true = (s.setSlot l.slot ⟨l.bytes, 0⟩).setLoad { l with stage := .ready, readyAt := s.tai } := by
  have h : (s.setSlot l.slot ⟨l.bytes, 0⟩).standbyThere = false := halone
  simp only [State.modelSlotWritten, hl, hst, h]
  rfl

theorem modelSlotWritten_retries (hl : s.model.load = some l) (hst : l.stage = .writing) (hfirst : l.retried = false) :
    s.modelSlotWritten false = s.setLoad { l with retried := true } := by
  simp [State.modelSlotWritten, hl, hst, hfirst]

theorem modelSlotWritten_fails (hl : s.model.load = some l) (hst : l.stage = .writing) (hsecond : l.retried = true) :
    s.modelSlotWritten false = (s.setSlot l.slot ⟨[], 0⟩).dropLoad.endLoad l.ref (bareRes 0x13) l.bytes := by
  simp [State.modelSlotWritten, hl, hst, hsecond]

/-! ### The commit and its tick (R137, R138) -/

/-- `s` with the load `l` committed: its slot has the next activation sequence, and the swap is due. -/
def State.withCommit (s : State) (l : ModelLoad) : State :=
  { s with model := { s.model with
      load := some { l with stage := .committed }
      slots := s.model.slots.set l.slot ⟨l.bytes, s.nextSlotSeq⟩
      swapDue := true } }

theorem commitDue_of_ready (hst : l.stage = .ready) : s.commitDue l = decide (l.readyAt ≤ s.tickNow) := by
  simp [State.commitDue, hst]

/-- Without a twin function a mark has no copy. -/
theorem markSlot_alone (hen : s.twin.en = .disabled) (i : Nat) (bytes : List Byte) : s.markSlot i bytes = { s with
    model := { s.model with
      slots := s.model.slots.set i ⟨bytes, s.nextSlotSeq⟩
      swapDue := true } } := by
  have h : (s.setSlot i ⟨bytes, s.nextSlotSeq⟩).twin.en = .disabled := hen
  simp only [State.markSlot, State.mirrorTwin, h, decide_true, Bool.true_or, if_true]
  rfl

theorem modelCommit_commits (hl : s.model.load = some l) (hst : l.stage = .ready) (hdue : l.readyAt ≤ s.tickNow) (hok : l.twinOk = false)
    (hen : s.twin.en = .disabled) : s.modelCommit = s.withCommit l := by
  have hgo : ¬(!s.commitDue l || s.markAwaited l) = true := by
    simp [commitDue_of_ready hst, hdue, State.markAwaited, hok]
  simp only [State.modelCommit, hl]
  rw [if_neg hgo]
  exact markSlot_alone (s := s.setLoad { l with stage := .committed }) hen l.slot l.bytes

theorem modelCommit_waits (hl : s.model.load = some l) (hst : l.stage = .ready) (hdue : s.tickNow < l.readyAt) : s.modelCommit = s := by
  simp [State.modelCommit, hl, commitDue_of_ready hst, hdue]

/-! ### MODEL_ABORT (R137, R138) -/

theorem modelAbort_idle (hl : s.model.load = none) :
    s.modelAbort ref = s.answer ref 0x0302 (ownReport 0x15 (s.modelResult (bareRes 0x15) [])) := by
  unfold State.modelAbort
  rw [hl]

/-- An abort from the tick of the commit on is taken after the commit. -/
theorem modelAbort_commits (hl : s.model.load = some l) (hst : l.stage = .ready) (hdue : l.readyAt ≤ s.tickNow) :
    s.modelAbort ref = s.modelCommit.answer ref 0x0302 (ownReport 0x14 (s.modelCommit.modelResult (bareRes 0x14) l.bytes)) := by
  simp only [State.modelAbort, hl]
  exact if_pos (by simp [hst, commitDue_of_ready hst, hdue])

/-- An abort before that tick ends the load, then has its own answer. -/
theorem modelAbort_ends (hl : s.model.load = some l) (hc : l.stage ≠ .committed) (hf : l.stage ≠ .firstSolve)
    (hdue : l.stage = .ready → s.tickNow < l.readyAt) : ∃ a, s.modelAbort ref
      = (s.dropLoad.endLoad l.ref (bareRes 0x12) l.bytes).answer ref 0x0302 a := by
  simp only [State.modelAbort, hl]
  refine ⟨_, if_neg ?_⟩
  simp only [Bool.or_eq_true, Bool.and_eq_true, decide_eq_true_eq, hc, hf, false_or, not_and]
  intro hst
  simp [commitDue_of_ready hst, hdue hst]

end

/-! ### The orders -/

/-- MODEL_LOAD begins a load where none runs. -/
theorem modelLoad_runs {s : State} {ref : OrderRef} (hr : s.orderReady ref 0x0301 = true) (hl : s.model.load = none) (img : List Byte)
    (len : Nat) (vo ao ft : Bool) : Runs (.modelLoad ref img len vo ao ft) s { s with
      model := { s.model with
        load := some ⟨ref, img, len, vo, ao, ft, .checking, s.spareSlot, false, false, false, 0⟩ } } := by
  have hf := runOrder_ready (fun s => s.modelLoad ref img len vo ao ft) hr
  rw [markStarted_eq] at hf
  exact ⟨_, congrArg Host.Outcome.next (hf.trans (modelLoad_begins hl)), .of_eq rfl⟩

/-- An abort before the commit's tick ends the load, whose order completes with MODEL_RESULT. -/
theorem modelAbort_completes {s : State} {ref : OrderRef} {l : ModelLoad} (hr : s.orderReady ref 0x0302 = true) (hl : s.model.load = some l)
    (hc : l.stage ≠ .committed) (hf : l.stage ≠ .firstSolve) (hdue : l.stage = .ready → s.tickNow < l.readyAt) :
    Completes (.modelAbort ref) s s.dropLoad l.ref 0x0301 0 (s.modelResult (bareRes 0x12) l.bytes) := by
  have hrun := runOrder_ready (fun s => s.modelAbort ref) hr
  obtain ⟨a, ha⟩ := modelAbort_ends (s := { s with host := (s.markStarted ref).host }) (ref := ref) hl hc hf hdue
  rw [← markStarted_eq] at ha
  have hended : OnlyAnswers s.dropLoad ((s.markStarted ref).dropLoad.endLoad l.ref (bareRes 0x12) l.bytes) := by
    refine OnlyAnswers.trans ?_ (endLoad_only _ _ _ _)
    rw [markStarted_eq]
    exact (OnlyReports.of_eq rfl).answers
  have hanswered := endLoad_answered (s := s) (u := (s.markStarted ref).dropLoad) rfl l.ref (bareRes 0x12) l.bytes
  have hrunning : (s.markStarted ref).model.run = s.model.run := congrArg ModelSt.run (markStarted_only s ref).model
  rw [modelResult_congr (u := (s.markStarted ref).dropLoad) hrunning] at hanswered
  exact ⟨_, congrArg Host.Outcome.next (hrun.trans ha), hended.trans (answer_only _ _ _ _),
    hanswered.grows (answer_grows _ _ _ _) ((answer_only _ _ _ _).stopped 0x01)⟩

/-- Settles O10: each stage of a load by its equation, and each order by what it answers from. -/
theorem modelLoadsStageByStage : Obligations.ModelLoadsStageByStage := by
  unfold Obligations.ModelLoadsStageByStage
  intro s ref img len vo ao ft
  refine ⟨?begins, ?busy, ?checked, ?written, ?commit, ?abortLate, ?wait, ?noLoad, ?abort, ?query⟩
  case begins => exact fun hr hl => modelLoad_runs hr hl img len vo ao ft
  case busy =>
    intro hr hl
    refine completes_reporting (a := ownReport 0x10 _) rfl hr fun h => ?_
    obtain ⟨u, e, hu⟩ := endLoad_eq_answer { s with host := h } ref (bareRes 0x10) img
    exact ⟨u, (modelLoad_busy (s := { s with host := h }) hl).trans e, hu⟩
  case checked =>
    intro l hl hst
    have hc := modelChecked_checking hl hst
    refine ⟨fun hok hvo => ?_, fun hbad => ?_⟩
    · rw [if_neg (by simp [hvo, show (s.checksOf l).status = 0 from hok])] at hc
      exact congrArg Host.Outcome.next hc
    · have hbad : (s.checksOf l).status ≠ 0 ∨ l.validateOnly = true := hbad
      rw [if_pos (by simpa using hbad)] at hc
      exact completes_endLoad (congrArg Host.Outcome.next hc) rfl
  case written =>
    intro l hl hst
    exact ⟨fun halone => congrArg Host.Outcome.next (modelSlotWritten_ready hl hst halone),
      fun hfirst => congrArg Host.Outcome.next (modelSlotWritten_retries hl hst hfirst),
      fun hsecond => completes_endLoad (congrArg Host.Outcome.next (modelSlotWritten_fails hl hst hsecond)) rfl⟩
  case commit => exact fun l hl hst hdue hok hen => congrArg Host.Outcome.next (modelCommit_commits hl hst hdue hok hen)
  case abortLate =>
    intro l hr hl hst hdue hok hen
    refine completes_at (a := ownReport 0x14 _) (base := s.withCommit l) rfl hr fun h => ?_
    rw [modelAbort_commits (s := { s with host := h }) hl hst hdue, modelCommit_commits (s := { s with host := h }) hl hst hdue hok hen]
    rfl
  case wait => exact fun l hl hst hdue => congrArg Host.Outcome.next (modelCommit_waits hl hst hdue)
  case noLoad => exact fun hr hl => completes_at (a := ownReport 0x15 _) rfl hr fun _ => modelAbort_idle hl
  case abort => exact fun l hr hl hc hf hdue => modelAbort_completes hr hl hc hf hdue
  case query => exact fun hr => completes_at (a := stateReport stDone _) rfl hr fun _ => rfl

end Sys2Proof.Machine

/-! PROOF. The Reckoner's solves (R146, R153, R163–R166, R169, R170): what a tick does, and how a solve ends. -/

namespace Sys2Proof.Machine

open Sys2Proof

/-! ### What a tick's other work leaves alone -/

/-- What a solve starts from: the Reckoner, the model and the time. -/
def State.solveView (s : State) : Reckoner × ModelSt × Nat := (s.reck, s.model, s.now)

/-- `t` has the Reckoner, the model and the time of `s`. -/
def KeepsSolves (s t : State) : Prop := t.solveView = s.solveView

theorem KeepsSolves.refl (s : State) : KeepsSolves s s := rfl

theorem KeepsSolves.trans {s t u : State} (h : KeepsSolves s t) (k : KeepsSolves t u) : KeepsSolves s u := Eq.trans k h

theorem KeepsSolves.foldl {α : Type} {f : State → α → State} (h : ∀ s a, KeepsSolves s (f s a)) (l : List α) (s : State) :
    KeepsSolves s (l.foldl f s) := by
  induction l generalizing s with
  | nil => exact .refl s
  | cons a l ih => exact (h s a).trans (ih _)

theorem KeepsSolves.reck {s t : State} (h : KeepsSolves s t) : t.reck = s.reck := congrArg Prod.fst h
theorem KeepsSolves.model {s t : State} (h : KeepsSolves s t) : t.model = s.model := congrArg (·.2.1) h
theorem KeepsSolves.now {s t : State} (h : KeepsSolves s t) : t.now = s.now := congrArg (·.2.2) h

theorem OnlyReports.keepsSolves {s t : State} (h : OnlyReports s t) : KeepsSolves s t := by
  unfold KeepsSolves State.solveView
  rw [h.reck, h.model, h.now]

theorem OnlyCopies.keepsSolves {s t : State} (h : OnlyCopies s t) : KeepsSolves s t := by
  unfold KeepsSolves
  rw [h.rest]
  rfl

theorem raise_keepsSolves (s : State) (src : Nat) (ps : List Fld) : KeepsSolves s (s.raise src ps) := (raise_only s src ps).keepsSolves

/-! ### The metering's tick copies (R421) -/

theorem mirrorMeter_keepsSolves (s : State) (kind set : Nat) (block : List Byte) : KeepsSolves s (s.mirrorMeter kind set block) :=
  (mirrorTwin_copies s _ _).keepsSolves

theorem copyAll_keepsSolves (s : State) (set : Nat) : KeepsSolves s (s.copyAll set) := by
  have circ : ∀ (u : State) (p : Nat × Circ), KeepsSolves u (if p.2.mirrored then u else u.copyCirc set p.1 p.2) := by
    intro u p
    split
    · exact .refl u
    · exact mirrorMeter_keepsSolves (u.setCirc p.1 _) 0 set _
  have point : ∀ (u : State) (p : Nat × HeatPoint), KeepsSolves u (if p.2.mirrored then u else u.copyPoint set p.1 p.2) := by
    intro u p
    split
    · exact .refl u
    · exact mirrorMeter_keepsSolves (u.setPoint p.1 _) 1 set _
  exact (KeepsSolves.foldl circ _ s).trans (.foldl point _ _)

theorem meterTick_keepsSolves (s : State) : KeepsSolves s s.meterTick := by
  unfold State.meterTick
  extract_lets one u
  have hu : KeepsSolves s u := (copyAll_keepsSolves s 1).trans (.foldl (f := one) (fun _ _ => rfl) _ _)
  exact hu.trans rfl

/-! ### The allocation of the Reckoner's kind (R85, R87) -/

theorem dropRetired_keepsSolves (s : State) (t : Token) : KeepsSolves s (s.dropRetired t) := by
  unfold State.dropRetired
  extract_lets n src u
  have hu : KeepsSolves s (u.emit (.ack t .void)) := rfl
  exact hu.trans (raiseTimed_only _ _ _ _).keepsSolves

theorem retireNow_keepsSolves (s : State) (id : Half) : KeepsSolves s (s.retireNow id) := by
  unfold State.retireNow
  split
  · exact KeepsSolves.trans (t := s.modRole id _) rfl (.foldl dropRetired_keepsSolves _ _)
  · exact .refl s

theorem retire_keepsSolves (s : State) (id : Half) : KeepsSolves s (s.retire id) := by
  unfold State.retire
  split
  · split
    · rfl
    · exact retireNow_keepsSolves s id
  · exact .refl s

theorem retireN_keepsSolves (n k : Nat) (s : State) : KeepsSolves s (State.retireN n k s) := by
  induction n generalizing s with
  | zero => exact .refl s
  | succ n ih =>
    unfold State.retireN
    split
    · exact (retire_keepsSolves s _).trans (ih _)
    · exact .refl s

theorem createRole_keepsSolves (s : State) (id : Half) (bead : Nat) (ck : Option Nat) : KeepsSolves s (s.createRole id bead ck) := by
  unfold State.createRole
  split
  · exact rfl
  · exact rfl

/-- By the recursion's own functional: Lean makes an equation of `addRoles` only by running its search over the 512 beads. -/
theorem addRoles_keepsSolves (n k : Nat) (s : State) : KeepsSolves s (State.addRoles n k s) := by
  delta State.addRoles
  induction n generalizing s with
  | zero => exact .refl s
  | succ n ih =>
    dsimp only [State.addRoles._f]
    split
    · exact (createRole_keepsSolves s _ _ _).trans (ih _)
    · exact .refl s

theorem changeCount_keepsSolves (s : State) (k n : Nat) : KeepsSolves s (s.changeCount k n) := by
  unfold State.changeCount
  dsimp only
  split
  · exact KeepsSolves.trans (t := s.setCount k n) rfl (raise_keepsSolves _ _ _)
  · rfl

theorem noteReserve_keepsSolves (s : State) (before : Nat) : KeepsSolves s (s.noteReserve before) := (noteReserve_only s before).keepsSolves

theorem applyAlloc_keepsSolves (s : State) (k : Nat) : KeepsSolves s (s.applyAlloc k) := by
  unfold State.applyAlloc
  split
  · exact .refl s
  next n _ =>
    extract_lets before count live u got src v w
    have hu : KeepsSolves s u := by
      unfold u
      split
      · exact retireN_keepsSolves _ k s
      · exact addRoles_keepsSolves _ k s
    have hv : KeepsSolves s v := by
      refine hu.trans ?_
      unfold v
      split <;> rfl
    have hw : KeepsSolves s w := (hv.trans (changeCount_keepsSolves v k got)).trans (noteReserve_keepsSolves _ before)
    split
    · exact hw.trans (raise_keepsSolves _ _ _)
    · exact hw

theorem checkpointKind_keepsSolves (s : State) (k : Nat) : KeepsSolves s (s.checkpointKind k) :=
  .foldl (f := fun u (r : Role) => u.checkpoint r.id) (fun u r => (checkpoint_copies u r.id).keepsSolves) _ s

theorem tickLayers_keepsSolves (s : State) (solve : Option Nat) : KeepsSolves s (s.tickLayers solve) := rfl

/-! ### A tick (R146, R164, R165, R175) -/

/-- The Reckoner at a new tick: the settings that waited are in force. -/
def Reckoner.ticked (k : Reckoner) (tai : Nat) : Reckoner :=
  { k with lastTick := tickOf (k.pendingCfg.getD k.cfg) tai, cfg := k.pendingCfg.getD k.cfg, pendingCfg := none }

/-- The Reckoner after a tick that starts solve `r`. -/
def Reckoner.started (k : Reckoner) (tai : Nat) (r : Solve) : Reckoner :=
  { k.ticked tai with solves := k.solves + 1, running := some r }

/-- The Reckoner after a tick that falls while a solve runs. -/
def Reckoner.skipped (k : Reckoner) (tai : Nat) : Reckoner := { k.ticked tai with skippedSince := true, skips := k.skips + 1 }

section

variable {s : State} (hm : s.model.runSlot ≠ none) (ht : s.reck.lastTick < tickOf (s.reck.pendingCfg.getD s.reck.cfg) s.tai)
include hm ht

/-- An idle Reckoner starts the next solve. -/
theorem reckonTick_starts (he : s.reck.en = .enabled) (hr : s.reck.running = none) : ∃ r : Solve,
    s.reckonTick.reck = s.reck.started s.tai r
      ∧ r.number = s.reck.solves + 1 ∧ r.tickTai = tickOf (s.reck.pendingCfg.getD s.reck.cfg) s.tai ∧ r.tickAt = s.now
      ∧ r.cfg = s.reck.pendingCfg.getD s.reck.cfg ∧ r.cold = (s.model.coldNext || decide (3 ≤ s.reck.failRun)) := by
  unfold State.reckonTick
  extract_lets +onlyGivenNames cfg tick
  rw [if_neg (by simp [he, hm]), if_neg (Nat.not_le.mpr ht)]
  extract_lets +onlyGivenNames src prev ticked u
  have hu : KeepsSolves ticked u := meterTick_keepsSolves ticked
  have hrun : u.reck.running = none := by rw [hu.reck]; exact hr
  split
  next r h => simp [hrun] at h
  next =>
    extract_lets +onlyGivenNames v n snap cold r model reck w x
    have hv : KeepsSolves ticked v := hu.trans (applyAlloc_keepsSolves u 1)
    have hx : KeepsSolves w (x.checkpointKind 1) := (mirror_copies w _ _).keepsSolves.trans (checkpointKind_keepsSolves x 1)
    have hend : KeepsSolves w ((x.checkpointKind 1).tickLayers (some n)) := hx.trans (tickLayers_keepsSolves _ _)
    have hn : n = s.reck.solves + 1 := by unfold n; rw [hv.reck]
    refine ⟨r, hend.reck.trans ?_, hn, rfl, hv.now, rfl, ?_⟩
    · change { v.reck with solves := n, running := some r } = _
      rw [hv.reck, hn]
      rfl
    · change (v.model.coldNext || decide (3 ≤ v.reck.failRun)) = _
      rw [hv.reck, hv.model]

/-- Where a solve runs, in QUIESCING too, the tick is skipped and counted. -/
theorem reckonTick_skips {r : Solve} (hr : s.reck.running = some r) :
    s.reckonTick.reck = s.reck.skipped s.tai := by
  unfold State.reckonTick
  extract_lets +onlyGivenNames cfg tick
  rw [if_neg (by simp [hr, hm]), if_neg (Nat.not_le.mpr ht)]
  extract_lets +onlyGivenNames src prev ticked u
  have hu : KeepsSolves ticked u := meterTick_keepsSolves ticked
  have hrun : u.reck.running = some r := by rw [hu.reck]; exact hr
  split
  next =>
    rw [(tickLayers_keepsSolves _ _).reck, (raise_only _ _ _).reck, hu.reck]
    rfl
  next h => simp [hrun] at h

end

/-! ### After a solve (R43, R166, R178, R671) -/

/-- The enable of a Reckoner whose solve has ended. -/
def settledEn (en : Enable) : Enable := if en = .quiescing then .disabled else en

theorem settledEn_of_ne {en : Enable} (h : en ≠ .quiescing) : settledEn en = en := if_neg h

/-- `s` with the Reckoner `k`. -/
def State.withReck (s : State) (k : Reckoner) : State := { s with reck := k }

theorem OnlyReports.withReck {s t : State} (h : OnlyReports s t) (k : Reckoner) : OnlyReports (s.withReck k) (t.withReck k) :=
  ⟨congrArg (fun x : State => x.withReck k) h.1, h.2⟩

/-- Where reports come first, and then a change `f` of the Reckoner with reports of its own, the whole is the change `f` with reports. -/
theorem OnlyReports.reckAfter {s t u : State} (h : OnlyReports s t) {f : Reckoner → Reckoner} (k : OnlyReports (t.withReck (f t.reck)) u) :
    OnlyReports (s.withReck (f s.reck)) u := by
  rw [← h.reck]
  exact (h.withReck _).trans k

theorem settleReck_idle {s : State} (h : s.reck.running = none) (retired : Nat) :
    OnlyReports (s.withReck { s.reck with en := settledEn s.reck.en }) (s.settleReck retired) := by
  unfold State.settleReck settledEn
  by_cases hq : s.reck.en = .quiescing
  · simp only [hq, h, Option.isNone_none, decide_true, Bool.and_self, if_true]
    exact raise_only _ _ _
  · simp only [hq, decide_false, Bool.false_and, Bool.false_eq_true, if_false]
    exact .refl s

theorem postSummary_only (s : State) (r : Solve) (status steps iters : Nat) (merge : Bool) (acc ex rej sub : Nat) (j : F32)
    (worst : Option (Nat × F32)) : ∃ skipped, OnlyReports (s.withReck { s.reck with skippedSince := skipped })
      (s.postSummary r status steps iters merge acc ex rej sub j worst) := by
  unfold State.postSummary
  split
  · exact ⟨false, report_only _ _ _ _⟩
  · exact ⟨s.reck.skippedSince, .refl s⟩

theorem raiseRejected_only (s : State) (r : Solve) (gone : List (Nat × F32)) : OnlyReports s (s.raiseRejected r gone) := by
  unfold State.raiseRejected
  induction gone generalizing s with
  | nil => exact .refl s
  | cons m gone ih => exact (raise_only s _ _).trans (ih _)

theorem endStep10_past {s : State} (h : s.sup.step ≠ 10) : s.endStep10 = s := if_neg h

/-! ### A solve that publishes nothing (R163, R164, R166, R168) -/

/-- The Reckoner after a solve that has published nothing: every set stays. -/
def Reckoner.unpublished (k : Reckoner) (status : Nat) (block : List PvEntry) (skipped : Bool) : Reckoner :=
  { k with
    running := none, en := settledEn k.en, failRun := if status = 4 then k.failRun else k.failRun + 1
    status := block, lastStatus := some status, skippedSince := skipped }

/-- `t` is `s` after a solve that has ended with this status and published nothing. -/
def EndsUnpublished (s : State) (status : Nat) (t : State) : Prop := ∃ block skipped, OnlyReports { s with
  reck := s.reck.unpublished status block skipped
  model := { s.model with clearAt := s.tai } } t

theorem solveUnpublished_ends {s : State} (h : s.sup.step ≠ 10) (r : Solve) (status iters steps worst : Nat) (gone : List (Nat × F32)) :
    EndsUnpublished s status (s.solveUnpublished r status iters steps worst gone) := by
  unfold State.solveUnpublished
  extract_lets dur ex rejected accepted fails block src ended u v w
  have hv : OnlyReports ended.noteClear v := by
    have hu := raiseRejected_only ended.noteClear r gone
    unfold v
    split
    · exact hu
    · exact hu.trans (raise_only u _ _)
  obtain ⟨skipped, hw⟩ := postSummary_only v r status steps iters false accepted ex rejected 0 0 none
  have hw : OnlyReports (ended.noteClear.withReck { ended.reck with skippedSince := skipped }) w :=
    hv.reckAfter (f := fun k => { k with skippedSince := skipped }) hw
  have hidle : w.reck.running = none := by rw [hw.reck]; rfl
  have hend := hw.reckAfter (f := fun k => { k with en := settledEn k.en })
    (settleReck_idle hidle (if status = 4 then r.number else 0))
  rw [endStep10_past (by rw [hend.sup]; exact h)]
  exact ⟨block, skipped, hend⟩

namespace EndsUnpublished

variable {s t : State} {status : Nat} (h : EndsUnpublished s status t)
include h

theorem running : t.reck.running = none := by
  obtain ⟨_, _, h⟩ := h
  rw [h.reck]
  rfl

theorem failRun (hs : status ≠ 4) : t.reck.failRun = s.reck.failRun + 1 := by
  obtain ⟨_, _, h⟩ := h
  rw [h.reck]
  exact if_neg hs

theorem lastStatus : t.reck.lastStatus = some status := by
  obtain ⟨_, _, h⟩ := h
  rw [h.reck]
  rfl

theorem sets : t.reck.sets = s.reck.sets := by
  obtain ⟨_, _, h⟩ := h
  rw [h.reck]
  rfl

theorem latest : t.reck.latest = s.reck.latest := by
  obtain ⟨_, _, h⟩ := h
  rw [h.reck]
  rfl

theorem disabled (hq : s.reck.en = .quiescing) : t.reck.en = .disabled := by
  obtain ⟨_, _, h⟩ := h
  rw [h.reck]
  exact if_pos hq

theorem only : OnlyReports { s with
    reck := t.reck
    model := { s.model with clearAt := t.model.clearAt } } t := by
  obtain ⟨_, _, h⟩ := h
  rw [h.reck, h.model]
  exact h

end EndsUnpublished

/-! ### A solve that publishes (R169, R170) -/

theorem judgeZone_only (s : State) (r : Solve) (res : SolveResult) (z : List Byte) :
    ∃ runs, OnlyReports (s.withReck { s.reck with zoneRuns := runs }) (s.judgeZone r res z) := by
  unfold State.judgeZone
  extract_lets src k old rho new u
  refine ⟨alPut s.reck.zoneRuns k new, ?_⟩
  split
  · exact .refl u
  · exact raise_only u _ _

theorem judgeZones_only (r : Solve) (res : SolveResult) (zs : List (List Byte)) (s : State) :
    ∃ runs, OnlyReports (s.withReck { s.reck with zoneRuns := runs }) (zs.foldl (fun s z => s.judgeZone r res z) s) := by
  induction zs generalizing s with
  | nil => exact ⟨s.reck.zoneRuns, .refl s⟩
  | cons z zs ih =>
    obtain ⟨_, hz⟩ := judgeZone_only s r res z
    obtain ⟨runs, hzs⟩ := ih (s.judgeZone r res z)
    exact ⟨runs, hz.reckAfter (f := fun k => { k with zoneRuns := runs }) hzs⟩

theorem firstPublished_keeps (s : State) : s.firstPublished.reck = s.reck ∧ s.firstPublished.sup = s.sup := by
  cases hdue : s.model.firstDue with
  | false => simp only [State.firstPublished, hdue, Bool.not_false, if_true, and_self]
  | true =>
    simp only [State.firstPublished, hdue, Bool.not_true, Bool.false_eq_true, if_false, State.raise_reck, State.raise_sup]
    split
    · split
      · exact ⟨(endLoad_only _ _ _ _).reck, (endLoad_only _ _ _ _).sup⟩
      · exact ⟨rfl, rfl⟩
    · exact ⟨rfl, rfl⟩

/-- The Reckoner after a solve that has published set `x` as number `i`. -/
def Reckoner.published (k : Reckoner) (num : RecNum) (i : Nat) (x : StateSet) (block : List PvEntry) (runs : List (Nat × ZoneRun))
    (skipped : Bool) : Reckoner :=
  { k with
    running := none, en := settledEn k.en, num := num, failRun := 0, status := block, lastStatus := some x.status
    sets := k.sets.set i (some x), latest := some i, zoneRuns := runs, skippedSince := skipped }

theorem publishSolve_reck {s : State} (h : s.sup.step ≠ 10) (r : Solve) (res : SolveResult) (num : RecNum) : ∃ x block runs skipped,
    (s.publishSolve r res num).reck = s.reck.published num (s.freeSet.getD 0) x block runs skipped
      ∧ x.number = r.number ∧ x.tickTai = r.tickTai ∧ x.revision = s.modelRev := by
  unfold State.publishSolve
  extract_lets img cfg bd rejected accepted least low degraded status goodIdx goodPts resid noResid entries substituted dur block x i
    src ended u v w y
  have hv : OnlyReports ended.noteClear v := by
    have hu : OnlyReports ended.noteClear u := raiseRejected_only ended.noteClear r bd.1
    unfold v
    split
    · exact hu.trans (raise_only u _ _)
    · exact hu
  obtain ⟨runs, hw⟩ := judgeZones_only r res (zones img) v
  obtain ⟨skipped, hy⟩ := postSummary_only w r status res.steps res.iters res.poolMerge accepted.length (excludedOf r.snapshot)
    rejected.length substituted res.jNorm (worstZone res.zoneResid)
  have hw : OnlyReports (ended.noteClear.withReck { ended.reck with zoneRuns := runs }) w :=
    hv.reckAfter (f := fun k => { k with zoneRuns := runs }) hw
  have hy : OnlyReports (ended.noteClear.withReck { ended.reck with zoneRuns := runs, skippedSince := skipped }) y :=
    hw.reckAfter (f := fun k => { k with skippedSince := skipped }) hy
  obtain ⟨hreck, hsup⟩ := firstPublished_keeps y
  have hidle : y.firstPublished.reck.running = none := by rw [hreck, hy.reck]; rfl
  have hend := settleReck_idle hidle 0
  rw [endStep10_past (by rw [hend.sup]; exact (congrArg Supply.step (hsup.trans hy.sup)).trans_ne h)]
  refine ⟨x, block, runs, skipped, ?_, rfl, rfl, rfl⟩
  rw [hend.reck]
  change { y.firstPublished.reck with en := settledEn y.firstPublished.reck.en } = _
  rw [hreck, hy.reck]
  rfl

/-! ### The branches of an end (R153, R164) -/

section

variable {s : State} {r : Solve} (h : s.sup.step ≠ 10) (hr : s.reck.running = some r)
include h hr

theorem solveEnd_quiescing (hq : s.reck.en = .quiescing) (given : Option SolveResult) : EndsUnpublished s 4 (s.solveEnd given) := by
  simp only [State.solveEnd, hr, if_pos hq]
  exact solveUnpublished_ends h r 4 _ _ _ _

theorem solveEnd_pastDue (hq : s.reck.en ≠ .quiescing) (hp : s.pastDue r = true) (given : Option SolveResult) :
    EndsUnpublished s 3 (s.solveEnd given) := by
  simp only [State.solveEnd, hr, if_neg hq, if_pos hp]
  exact solveUnpublished_ends h r 3 _ _ _ _

theorem solveEnd_diverged (hq : s.reck.en ≠ .quiescing) (hp : s.pastDue r = false) {given : Option SolveResult}
    (hc : (s.solveNumbers r given).1.converged = false) : EndsUnpublished s 2 (s.solveEnd given) := by
  simp only [State.solveEnd, hr, if_neg hq, hp, hc, Bool.false_eq_true, if_false, Bool.not_false, if_true]
  exact solveUnpublished_ends h r 2 _ _ _ _

theorem solveLate_pastDue (hp : s.pastDue r = true) (iters steps worst : Nat) (passes : List ResidualPass) :
    EndsUnpublished s 3 (s.solveLate iters steps worst passes) := by
  simp only [State.solveLate, hr, if_pos hp]
  exact solveUnpublished_ends h r 3 _ _ _ _

omit h in
theorem solveEnd_converged (hq : s.reck.en ≠ .quiescing) (hp : s.pastDue r = false) {given : Option SolveResult}
    (hc : (s.solveNumbers r given).1.converged = true) :
    s.solveEnd given = s.publishSolve r (s.solveNumbers r given).1 (s.solveNumbers r given).2 := by
  simp only [State.solveEnd, hr, if_neg hq, hp, hc, Bool.false_eq_true, if_false, Bool.not_true]

end

/-- Settles O12: a tick by whether a solve runs, and a solve's end by the enable, the time since its tick and whether it
converged, by the numbers of its laws or those that the command names (log entry 14). -/
theorem reckonerSolvesTickByTick : Obligations.ReckonerSolvesTickByTick := by
  unfold Obligations.ReckonerSolvesTickByTick
  intro s h
  refine ⟨?starts, ?skips, ?publishes, ?fails, ?quiesces, ?endsLate, ?late⟩
  case starts =>
    intro he hm hr c ht
    obtain ⟨r, hreck, hsolve⟩ := reckonTick_starts hm ht he hr
    exact ⟨s.reckonTick, r, rfl, congrArg Reckoner.running hreck, hreck, hsolve⟩
  case skips =>
    intro r _ hm hr ht
    have hreck := reckonTick_skips hm ht hr
    exact ⟨s.reckonTick, rfl, (congrArg Reckoner.running hreck).trans hr, congrArg (·.skippedSince) hreck,
      congrArg (·.solves) hreck, congrArg (·.skips) hreck⟩
  case publishes =>
    intro r given hr hq hp hc
    obtain ⟨x, block, runs, skipped, hreck, hx⟩ := publishSolve_reck h r (s.solveNumbers r given).1 (s.solveNumbers r given).2
    rw [← solveEnd_converged hr hq hp hc] at hreck
    obtain ⟨hnumber, htick, hrev⟩ := hx
    exact ⟨s.solveEnd given, x, rfl, congrArg Reckoner.running hreck, congrArg Reckoner.failRun hreck, congrArg Reckoner.num hreck,
      congrArg Reckoner.latest hreck, congrArg Reckoner.sets hreck, hnumber, htick, hrev,
      (congrArg Reckoner.en hreck).trans (settledEn_of_ne hq)⟩
  case fails =>
    intro r given hr hq hp hc
    have hend := solveEnd_diverged h hr hq hp hc
    exact ⟨_, rfl, hend.running, hend.failRun (by decide), hend.lastStatus, hend.sets, hend.latest, hend.only⟩
  case quiesces =>
    intro r given hr hq
    have hend := solveEnd_quiescing h hr hq given
    exact ⟨_, rfl, hend.running, hend.disabled hq, hend.lastStatus, hend.sets, hend.latest, hend.only⟩
  case endsLate =>
    intro r given hr hq hp
    have hend := solveEnd_pastDue h hr hq hp given
    exact ⟨_, rfl, hend.running, hend.failRun (by decide), hend.lastStatus, hend.sets, hend.latest⟩
  case late =>
    intro r work n ps hr hp
    have hend := solveLate_pastDue h hr (decide_eq_true hp) work.iters work.steps n ps
    exact ⟨_, rfl, hend.running, hend.failRun (by decide), hend.lastStatus, hend.sets, hend.latest⟩

end Sys2Proof.Machine

/-! PROOF. Surge look-ahead (R181, R188, R192, R195–R201): how a submission becomes a run, and how runs and submissions end. -/

namespace Sys2Proof.Machine

open Sys2Proof

/-! ### Verdicts (R197, R201) -/

/-- Look-ahead after verdict `v`, with the count of superseded runs. -/
def LookAhead.judged (k : LookAhead) (v : Verdict) (superseded : Nat) : LookAhead :=
  { k with recent := (v :: k.recent).take 16, delivered := k.delivered ++ [v], superseded := superseded }

@[simp] theorem LookAhead.judged_head (k : LookAhead) (v : Verdict) (n : Nat) : (k.judged v n).recent.head? = some v := rfl

/-- Look-ahead after the end of the run with this number. -/
def LookAhead.ended (k : LookAhead) (number : Nat) : LookAhead := { k with runs := k.runs.filter (fun x => x.number != number) }

theorem giveVerdict_la (s : State) (v : Verdict) (report : Bool) (trust : F32) :
    ∃ n, (s.giveVerdict v report trust).la = s.la.judged v n := by
  unfold State.giveVerdict
  extract_lets la u w
  have hw : w.la = s.la.judged v s.la.superseded := by
    unfold w
    split
    · exact (report_only u _ _ _).la
    · rfl
  clear_value w
  have raised : ∀ src ps, (w.raise src ps).la = s.la.judged v s.la.superseded := fun src ps => (State.raise_la ..).trans hw
  split
  · exact ⟨_, hw⟩
  · exact ⟨_, raised _ _⟩
  · exact ⟨_, raised _ _⟩
  · split
    · refine ⟨w.la.superseded + 1, (raiseReportOnly_only _ _ _).la.trans ?_⟩
      change { w.la with superseded := w.la.superseded + 1 } = _
      rw [hw]
      rfl
    · exact ⟨_, raised _ _⟩

theorem refuseSubmission_la (s : State) (w : LaWaiting) (reason : Nat) : ∃ v n, (s.refuseSubmission w reason).la = s.la.judged v n
    ∧ v.run = w.run ∧ v.verdict = 3 ∧ v.reason = reason := by
  obtain ⟨n, h⟩ := giveVerdict_la s _ _ _
  exact ⟨_, n, h, rfl, rfl, rfl⟩

theorem refuseRun_la (s : State) (r : LaRun) (reason flags : Nat) : ∃ v n,
    (s.refuseRun r reason flags).la = (s.la.ended r.number).judged v n
      ∧ v.run = r.number ∧ v.verdict = 3 ∧ v.reason = reason := by
  obtain ⟨n, h⟩ := giveVerdict_la _ _ _ _
  exact ⟨_, n, h, rfl, rfl, rfl⟩

theorem settleLook_enabled {s : State} (h : s.la.en = .enabled) : s.settleLook = s := if_neg (by simp [h])

/-! ### Submissions (R188, R200, R201) -/

theorem rollOf_setRoll {s : State} {n : Nat} {x y : Rollout} (hx : s.rollOf n = some x) (hy : y.id = n) :
    (s.setRoll y).rollOf n = some y := by
  have hid : x.id = n := by simpa using List.find?_some hx
  have hp : ((fun z : Rollout => z.id == n) ∘ fun z => if z.id = y.id then y else z) = fun z => z.id == n := by
    funext z
    simp only [Function.comp]
    split
    · next h => rw [h]
    · rfl
  unfold State.rollOf at hx ⊢
  rw [State.setRoll, List.find?_map, hp, hx, Option.map_some, if_pos (hid.trans hy.symm)]

theorem checkpointKind_copies (s : State) (k : Nat) : OnlyCopies s (s.checkpointKind k) :=
  .foldl (f := fun u (r : Role) => u.checkpoint r.id) (fun u r => checkpoint_copies u r.id) _ s

theorem OnlyCopies.la {s t : State} (h : OnlyCopies s t) : t.la = s.la := by rw [h.rest]

theorem applyAlloc_settled {s : State} {k : Nat} (h : alGet s.place.pendingAlloc k = none) : s.applyAlloc k = s := by
  simp only [State.applyAlloc, h]

theorem pinLatest_pins {s : State} {i : Nat} (h : s.reck.latest = some i) (owner : Nat) :
    (owner, i) ∈ (s.pinLatest owner).reck.pins := by
  simp [State.pinLatest, h]

/-- The submissions that wait once `n` runs are going: with all four slots taken, for a slot. -/
def queuedAt (n : Nat) (q : List LaWaiting) : List LaWaiting := if 4 ≤ n then q.map (fun w => { w with queued := true }) else q

theorem markQueued_eq (s : State) : s.markQueued = { s with la := { s.la with queue := queuedAt s.la.runs.length s.la.queue } } := by
  unfold State.markQueued queuedAt
  split <;> rfl

/-- Look-ahead after the start of run `r`. -/
def LookAhead.started (k : LookAhead) (r : LaRun) : LookAhead :=
  { k with runs := k.runs ++ [r], queue := queuedAt (k.runs.length + 1) k.queue }

/-- `r` is the run of the submission `w` in `s`, from the latest reckoned state. -/
structure LaRun.Begins (r : LaRun) (s : State) (w : LaWaiting) : Prop where
  number : r.number = w.run
  rollout : r.rollout = w.rollout
  solve : r.solve = s.latestSolve
  startedAt : r.startedAt = s.now

/-- A run that has started pins its state, and its slot counts for the submissions that wait. -/
theorem runPinned_fields (s : State) (owner : Nat) :
    ((s.pinLatest owner).markQueued.checkpointKind 2).la = { s.la with queue := queuedAt s.la.runs.length s.la.queue }
      ∧ ((s.pinLatest owner).markQueued.checkpointKind 2).reck = (s.pinLatest owner).reck := by
  have hend := checkpointKind_copies (s.pinLatest owner).markQueued 2
  refine ⟨hend.la.trans ?_, hend.keepsSolves.reck.trans ?_⟩
  · rw [markQueued_eq, pinLatest_fields]
  · rw [markQueued_eq]

theorem startRun_starts {s : State} {w : LaWaiting} {x : Rollout} (hx : s.rollOf w.rollout = some x)
    (ha : alGet s.place.pendingAlloc 2 = none) (hw : w.run ∉ s.la.withdrawals)
    (hr : s.startRefusal x (horizonMs s.la.cfg ((s.latestSet.map (·.tickTai)).getD 0) x.lastApply) = 0) :
    ∃ r : LaRun, (s.startRun w).la = s.la.started r ∧ r.Begins s w
      ∧ ∀ i, s.reck.latest = some i → (0x100 + w.run, i) ∈ (s.startRun w).reck.pins := by
  unfold State.startRun
  simp only [hx, List.contains_iff_mem, hw, if_false, applyAlloc_settled ha, hr, if_true]
  generalize hrun : LaRun.mk .. = r
  have hb : r.Begins s w := by subst hrun; exact ⟨rfl, rfl, rfl, rfl⟩
  obtain ⟨hla, hreck⟩ := runPinned_fields { s with la := { s.la with runs := s.la.runs ++ [r] } } (0x100 + w.run)
  refine ⟨r, hla.trans ?_, hb, fun i hi => ?_⟩
  · simp only [LookAhead.started, List.length_append, List.length_singleton]
  · rw [hreck]
    exact pinLatest_pins (by exact hi) _

theorem startRun_withdrawn {s : State} {w : LaWaiting} (h : s.rollOf w.rollout = none ∨ w.run ∈ s.la.withdrawals) :
    s.startRun w = s.laWithdrawn w := by
  unfold State.startRun
  split
  · rfl
  next x hx =>
    have hw : w.run ∈ s.la.withdrawals := h.resolve_left (by simp [hx])
    exact if_pos (List.contains_iff_mem.mpr hw)

/-- `s` after the submission of `x` has taken the next number. -/
def State.numbered (s : State) (x : Rollout) : State :=
  ({ s with la := { s.la with count := s.la.count + 1 } } : State).setRoll { x with submitted := false, pend := some (s.la.count + 1) }

/-- The submission of rollout `n`, which is `x`, with the number it takes. -/
def State.submission (s : State) (n : Nat) (x : Rollout) : LaWaiting :=
  ⟨s.la.count + 1, n, x.zone, x.net, s.now, 4 ≤ s.la.runs.length⟩

theorem laSubmit_enabled {s : State} {n : Nat} {x : Rollout} (hx : s.rollOf n = some x) (hsub : x.submitted = true)
    (hact : s.activeOrSolo = true) (hen : s.la.en = .enabled) : s.laSubmit n =
      if s.la.runs.length < 4 ∧ s.la.rebuilding = none ∧ s.la.queue = [] then (s.numbered x).startRun (s.submission n x)
      else if 8 ≤ s.la.queue.length then (s.numbered x).refuseSubmission { s.submission n x with queued := false } 0x15
      else { s.numbered x with la := { s.la with count := s.la.count + 1, queue := s.la.queue ++ [s.submission n x] } } := by
  simp only [State.laSubmit, hx, hsub, hact, Bool.not_true, Bool.false_eq_true, if_false]
  rw [if_neg (by simp [hen])]
  congr 1
  simp only [State.setRoll_la, Bool.and_eq_true, Bool.not_eq_true', Option.isNone_iff_eq_none, List.isEmpty_iff, and_assoc]
  exact propext (and_congr_left' (decide_eq_false_iff_not.trans not_le))

theorem laDequeue_starts {s : State} {w : LaWaiting} {ws : List LaWaiting} (hq : s.la.queue = w :: ws) (hn : s.la.runs.length < 4)
    (hg : s.la.rebuilding = none) (he : s.la.en = .enabled) :
    s.laDequeue = ({ s with la := { s.la with queue := ws } } : State).startRun w := by
  simp only [State.laDequeue, hq, hn, hg, he, Option.isNone_none, decide_true, Bool.and_self, if_true]

/-! ### Verdicts on a trace (R192, R195–R198) -/

theorem insBreach_length (b : Breach) (bs : List Breach) : (insBreach b bs).length = bs.length + 1 := by
  induction bs with
  | nil => rfl
  | cons x xs ih =>
    unfold insBreach
    split
    · rfl
    · rw [List.length_cons, ih, List.length_cons]

theorem sortBreaches_length (bs : List Breach) : (bs.foldr insBreach []).length = bs.length := by
  induction bs with
  | nil => rfl
  | cons b bs ih => exact (insBreach_length b _).trans (congrArg (· + 1) ih)

/-- The reason that a run's state cannot be trusted for its zone (R195), 0 for none. -/
def LaRun.slowReason (r : LaRun) (trust : F32) : Nat :=
  if r.degraded then 3 else match r.resid with
    | none => 2
    | some v => if fLt trust v then 1 else 0

theorem LaRun.slowReason_ne_zero (r : LaRun) (trust : F32) :
    r.slowReason trust ≠ 0 ↔ r.degraded = true ∨ r.resid = none ∨ ∃ x, r.resid = some x ∧ fLt trust x = true := by
  unfold LaRun.slowReason
  cases r.degraded <;> cases r.resid <;> simp

/-- The code of a verdict that is not a refusal. -/
def verdictCode (slow breaches : Nat) : Nat := if slow ≠ 0 then 2 else if breaches = 0 then 0 else 1

theorem verdictCode_slow (slow breaches : Nat) : verdictCode slow breaches = 2 ↔ slow ≠ 0 := by
  unfold verdictCode
  split_ifs <;> simp_all

theorem verdictCode_checked {slow breaches : Nat} (h : verdictCode slow breaches ≠ 2) :
    verdictCode slow breaches = if breaches = 0 then 0 else 1 :=
  if_neg (mt (verdictCode_slow slow breaches).mpr h)

section

variable {s : State} {r : LaRun} (hr : s.la.runs.find? (fun x => x.number == r.number) = some r)
include hr

theorem laVerdict_diverged (he : s.la.en = .enabled) {given : Option RunTrace} (hd : (runOutcome s.model.run r given).diverged = true) :
    ∃ flags, s.laVerdict r.number given = s.refuseRun r 0x19 flags := by
  simp only [State.laVerdict, hr, he, hd, ne_eq, not_true_eq_false, if_false, if_true]
  exact ⟨_, rfl⟩

/-- A run that does not diverge ends with the verdict on its checked points. -/
theorem laVerdict_judged (he : s.la.en = .enabled) {given : Option RunTrace} (hd : (runOutcome s.model.run r given).diverged = false) :
    ∃ v n, (s.laVerdict r.number given).la = (s.la.ended r.number).judged v n ∧ v.run = r.number ∧ v.rollout = r.rollout
      ∧ (r.stopFirst = false → v.breaches =
          ((runOutcome s.model.run r given).points.filterMap (fun p => (checkPoint s.model.run r.cfg p p.steps).entry)).length)
      ∧ v.verdict = verdictCode (r.slowReason (fieldAt ((recByKey s.model.run 10 r.zone).getD []) 8)) v.breaches := by
  simp -zeta only [State.laVerdict, hr]
  rw [if_neg (not_not.mpr he)]
  extract_lets img t stop cut rs bs zone trust slow most fl v la u
  rw [if_neg (by simp [t, img, hd])]
  obtain ⟨n, hla⟩ := giveVerdict_la u v (laReports r.cfg) trust
  refine ⟨v, n, hla, rfl, rfl, fun hstop => ?_, ?_⟩
  · have hcut : ∀ l, cut l = l := fun l => by simp [cut, stop, hstop]
    change bs.length = _
    simp only [bs, sortBreaches_length, rs, List.filterMap_map, Function.comp_def, hcut, t, img]
  · have hslow : slow = r.slowReason trust := rfl
    change (if slow ≠ 0 then 2 else if bs.isEmpty then 0 else 1) = verdictCode (r.slowReason trust) bs.length
    simp only [verdictCode, hslow, List.isEmpty_iff_length_eq_zero]

theorem laOverrun_raises (ho : r.overrun = false) (hb : r.startedAt + s.derateTime (runBoundUs (s.kindCount 2) r.cfg.stepMs
      (reachOfNet r.cfg.stepMs r.network s.model.run) r.horizonMs) * usNs < s.now) :
    s.laOverrun r.number = ({ s with la := { s.la with
        runs := s.la.runs.map (fun (x : LaRun) => if x.number = r.number then { x with overrun := true } else x) } } : State).raise 0x39
      [u32 r.number, u32 ((s.now - r.startedAt) / usNs), u32 (s.derateTime (runBoundUs (s.kindCount 2) r.cfg.stepMs
        (reachOfNet r.cfg.stepMs r.network s.model.run) r.horizonMs)), u16 (b01 r.restarted)] := by
  simp -zeta only [State.laOverrun, hr]
  extract_lets bound mark
  rw [if_neg (by simp [bound, ho, hb])]

/-- A run that the sequencer withdraws ends SUPERSEDED. -/
theorem laWithdraw_superseded (he : s.la.en = .enabled) (hw : r.number ∈ s.la.withdrawals) : ∃ v n, (s.laWithdraw r.number).la
      = ({ s.la with withdrawals := s.la.withdrawals.filter (fun n => n != r.number) }.ended r.number).judged v n
    ∧ v.run = r.number ∧ v.verdict = 3 ∧ v.reason = 0x17 := by
  simp only [State.laWithdraw, List.contains_iff_mem.mpr hw, Bool.not_true, Bool.false_eq_true, if_false, hr]
  obtain ⟨v, n, hla, hv⟩ := refuseRun_la { s with la := { s.la with
    withdrawals := s.la.withdrawals.filter (fun n => n != r.number) } } r 0x17 0
  refine ⟨v, n, ?_, hv⟩
  rw [settleLook_enabled (by rw [hla]; exact he), hla]

end

theorem laGrid_runs {s : State} {c : Nat} (h : s.la.rebuilding = some c) :
    OnlyReports { s with la := { s.la with rebuilding := none } } s.laGrid := by
  simp only [State.laGrid, h]
  exact raise_only _ _ _

/-! ### The obligation -/

/-- Settles O14: a submission by the slots and the queue, then a run's end by its trace (its laws' or the command's, log entry 14), its
bound and the sequencer's withdrawals. -/
theorem lookAheadRunsAndVerdicts : Obligations.LookAheadRunsAndVerdicts := by
  unfold Obligations.LookAheadRunsAndVerdicts
  intro s
  refine ⟨?submits, ?dequeues, ?supersedes, ?ends, fun c hc => ⟨_, rfl, laGrid_runs hc⟩⟩
  case submits =>
    intro n x hx hsub hact hen
    have hsubmit := laSubmit_enabled hx hsub hact hen
    refine ⟨fun hn hg hq ha hw hr => ?_, fun hn hq => ⟨s.laSubmit n, rfl, ?_⟩⟩
    · rw [if_pos ⟨hn, hg, hq⟩] at hsubmit
      have hid : x.id = n := by simpa using List.find?_some hx
      have hnumbered : (s.numbered x).rollOf n = some _ := rollOf_setRoll (s := { s with la := _ }) hx hid
      obtain ⟨r, hla, hbegins, hpins⟩ := startRun_starts (s := s.numbered x) (w := s.submission n x) hnumbered ha hw hr
      rw [← hsubmit] at hla hpins
      refine ⟨s.laSubmit n, r, rfl, hla.trans ?_, hbegins.number, hbegins.rollout, hbegins.solve, hbegins.startedAt, hpins⟩
      simp [LookAhead.started, queuedAt, State.numbered, hq]
    · rw [hsubmit, if_neg (by omega), if_neg (by omega)]
      simp [State.submission, hn]
  case dequeues =>
    intro w ws x hq hn hg he hx ha hw hr
    obtain ⟨r, hla, hbegins, -⟩ := startRun_starts (s := { s with la := { s.la with queue := ws } }) hx ha hw hr
    rw [← laDequeue_starts hq hn hg he] at hla
    refine ⟨s.laDequeue, r, rfl, hbegins.number, hla.trans ?_⟩
    simp only [LookAhead.started, queuedAt, Nat.reduceLeDiff]
  case supersedes =>
    intro w ws hq hn hg he hw
    obtain ⟨v, m, hla, hrun, hverdict, hreason⟩ := refuseSubmission_la { s with la := { s.la with
      queue := ws, withdrawals := s.la.withdrawals.filter (fun n => n != w.run) } } w 0x17
    have hend : s.laDequeue = _ := (laDequeue_starts hq hn hg he).trans (startRun_withdrawn hw)
    refine ⟨s.laDequeue, v, rfl, ?_, ?_, ?_, hrun, hverdict, hreason⟩ <;> rw [hend, State.laWithdrawn, hla] <;> rfl
  case ends =>
    intro r given hr he
    refine ⟨fun hd => ?_, fun hd => ?_, fun ho hb => congrArg Host.Outcome.next (laOverrun_raises hr ho hb), fun hw => ?_⟩
    · obtain ⟨v, n, hla, hrun, hroll, hbreaches, hverdict⟩ := laVerdict_judged hr he hd
      refine ⟨s.laVerdict r.number given, v, rfl, ?_, ?_, ?_, hrun, hroll, hbreaches, ?_, ?_⟩
      · rw [hla, LookAhead.judged_head]
      · rw [hla]; rfl
      · rw [hla]; rfl
      · rw [hverdict, verdictCode_slow, LaRun.slowReason_ne_zero]
      · rw [hverdict]; exact verdictCode_checked
    · obtain ⟨flags, hend⟩ := laVerdict_diverged hr he hd
      obtain ⟨v, n, hla, hv⟩ := refuseRun_la s r 0x19 flags
      refine ⟨s.laVerdict r.number given, v, rfl, ?_, hv⟩
      rw [hend, hla, LookAhead.judged_head]
    · obtain ⟨v, n, hla, hrun, hverdict, hreason⟩ := laWithdraw_superseded hr he hw
      refine ⟨s.laWithdraw r.number, v, rfl, ?_, hrun, hverdict, hreason, ?_⟩
      · rw [hla, LookAhead.judged_head]
      · rw [hla]; rfl

end Sys2Proof.Machine

/-! PROOF. The optimiser's layers (R209–R213, R228–R236): how a boundary becomes a solve, and how a solve publishes and hands over, or
publishes nothing. -/

namespace Sys2Proof.Machine

open Sys2Proof

/-! ### Layers under updates -/

@[simp] theorem setLayer_setLayer (s : State) (y : Layer) (x z : LayerSt) : (s.setLayer y x).setLayer y z = s.setLayer y z := by
  cases y <;> rfl

theorem setLayer_layer (s : State) (y : Layer) : s.setLayer y (s.layer y) = s := by
  cases y <;> rfl

@[simp] theorem setLayer_en (s : State) (y : Layer) (x : LayerSt) : (s.setLayer y x).opt.en = s.opt.en := by
  cases y <;> rfl

@[simp] theorem setLayer_cfg (s : State) (y : Layer) (x : LayerSt) : (s.setLayer y x).opt.cfg = s.opt.cfg := by
  cases y <;> rfl

@[simp] theorem setLayer_optRuns (s : State) (y : Layer) (x : LayerSt) : (s.setLayer y x).optRuns = s.optRuns := by
  cases y <;> rfl

theorem layer_congr {s t : State} (h : t.opt = s.opt) (y : Layer) : t.layer y = s.layer y := by
  unfold State.layer
  rw [h]

theorem OnlyReports.layer {s t : State} (h : OnlyReports s t) (y : Layer) : t.layer y = s.layer y :=
  layer_congr h.opt y

theorem OnlyReports.setLayer {s t : State} (h : OnlyReports s t) (y : Layer) (x : LayerSt) :
    OnlyReports (s.setLayer y x) (t.setLayer y x) := by
  have hset : t.setLayer y x = { t with opt := (s.setLayer y x).opt } := by
    unfold State.setLayer
    rw [h.opt]
  rw [hset]
  exact ⟨congrArg (fun u : State => { u with opt := (s.setLayer y x).opt }) h.1, h.2⟩

theorem OnlyReports.foldl {α : Type} {f : State → α → State} (h : ∀ s a, OnlyReports s (f s a)) (l : List α) (s : State) :
    OnlyReports s (l.foldl f s) := by
  induction l generalizing s with
  | nil => exact .refl s
  | cons a l ih => exact (h s a).trans (ih _)

theorem OnlyCopies.opt {s t : State} (h : OnlyCopies s t) : t.opt = s.opt := by rw [h.rest]
theorem OnlyCopies.roll {s t : State} (h : OnlyCopies s t) : t.roll = s.roll := by rw [h.rest]

/-! ### Summaries and the flags of inputs (R243) -/

/-- A summary changes nothing but the layer's note of skipped boundaries (R243). -/
theorem postPlan_only (s : State) (c : OptCfg) (y : Layer) (p : Plan) (reason : Nat) : ∃ skipped,
    OnlyReports (s.setLayer y { s.layer y with skippedSince := skipped }) (s.postPlan c y p reason) := by
  unfold State.postPlan
  extract_lets x q
  split
  · exact ⟨false, report_only _ _ _ _⟩
  · refine ⟨x.skippedSince, ?_⟩
    rw [show ({ x with skippedSince := x.skippedSince } : LayerSt) = s.layer y from rfl, setLayer_layer]
    exact .refl s

/-- A summary after reports. -/
theorem OnlyReports.postPlan {s t : State} (h : OnlyReports s t) (c : OptCfg) (y : Layer) (p : Plan) (reason : Nat) : ∃ skipped,
    OnlyReports (s.setLayer y { s.layer y with skippedSince := skipped }) (t.postPlan c y p reason) := by
  obtain ⟨skipped, k⟩ := postPlan_only t c y p reason
  rw [h.layer y] at k
  exact ⟨skipped, (h.setLayer y _).trans k⟩

theorem noteEdges_only (s : State) (y : Layer) (es : List (Nat × Nat)) :
    OnlyReports (s.setLayer y { s.layer y with edges := es }) (s.noteEdges y es) := by
  unfold State.noteEdges
  exact .foldl (fun u (e : Nat × Nat) => raise_only u 0x45 [u16 e.1, u16 e.2]) _ _

/-! ### A new boundary (R209, R212) -/

section

variable {s : State} {y : Layer}

theorem optRuns_of (he : s.opt.en = .enabled) (ha : s.activeOrSolo = true) : s.optRuns = true := by
  simp [State.optRuns, he, ha]

theorem layerBoundary_taken (h : s.tai / secNs / layerPeriod y * layerPeriod y ≤ (s.layer y).lastBoundary) : s.layerBoundary y = s :=
  if_pos h

variable (h : (s.layer y).lastBoundary < s.tai / secNs / layerPeriod y * layerPeriod y) (hruns : s.optRuns = true)
include h hruns

theorem layerBoundary_waits (hr : (s.layer y).run = none) : s.layerBoundary y =
    let b := s.tai / secNs / layerPeriod y * layerPeriod y
    s.setLayer y { s.layer y with lastBoundary := b, due := some ⟨b, s.tickTaken b⟩ } := by
  simp only [State.layerBoundary, Nat.not_le.mpr h, if_false, setLayer_optRuns, hruns, Bool.not_true, Bool.false_eq_true,
    layer_setLayer, hr, setLayer_setLayer]
  rfl

theorem layerBoundary_skips {r : LayerRun} (hr : (s.layer y).run = some r) : OnlyReports
    (s.setLayer y { s.layer y with
      lastBoundary := s.tai / secNs / layerPeriod y * layerPeriod y, skips := (s.layer y).skips + 1, skippedSince := true })
    (s.layerBoundary y) := by
  simp only [State.layerBoundary, Nat.not_le.mpr h, if_false, setLayer_optRuns, hruns, Bool.not_true, Bool.false_eq_true,
    layer_setLayer, hr, setLayer_setLayer]
  exact raise_only _ _ _

end

/-! ### The start of a solve (R210, R213, R232) -/

theorem setLayer_layerRefusal (s : State) (y : Layer) (x : LayerSt) (boundary : Nat) :
    (s.setLayer y x).layerRefusal y boundary = s.layerRefusal y boundary := by
  cases y <;> rfl

theorem latestSolve_congr {s t : State} (h : t.reck = s.reck) : t.latestSolve = s.latestSolve := by
  unfold State.latestSolve State.latestSet
  rw [h]

theorem layer_withElecBias (s : State) (y : Layer) (b : Option Num) :
    ({ s with opt := { s.opt with elecBias := b } } : State).layer y = s.layer y := by
  cases y <;> rfl

/-- A solve that has started pins its state. -/
theorem layerPinned_fields (s : State) (y : Layer) :
    ((s.pinLatest (pinLayer y)).checkpointKind 3).layer y = s.layer y
      ∧ ((s.pinLatest (pinLayer y)).checkpointKind 3).reck = (s.pinLatest (pinLayer y)).reck := by
  have hend := checkpointKind_copies (s.pinLatest (pinLayer y)) 3
  exact ⟨layer_congr (hend.opt.trans (by rw [pinLatest_fields])) y, hend.keepsSolves.reck⟩

/-- A layer that takes its due boundary as its next plan. -/
def LayerSt.numbered (x : LayerSt) : LayerSt := { x with plans := x.plans + 1, due := none, shedTold := false }

/-- A layer that is refused its solve. -/
def LayerSt.refused (x : LayerSt) (skipped : Bool) : LayerSt := { x.numbered with fails := 0, skippedSince := skipped }

/-- A layer that has started `r`, with the flags of its inputs. -/
def LayerSt.started (x : LayerSt) (r : LayerRun) (es : List (Nat × Nat)) : LayerSt :=
  { x.numbered with edges := es, run := some r, coldNext := false }

/-- `r` is the next solve of layer `y` in `s`, for this boundary, from the latest reckoned state. -/
structure LayerRun.Begins (r : LayerRun) (s : State) (y : Layer) (boundary : Nat) : Prop where
  number : r.number = (s.layer y).plans + 1
  boundary : r.boundary = boundary
  solve : r.solve = s.latestSolve
  cfg : r.cfg = s.opt.cfg

section

variable {s : State} {y : Layer} {d : LayerDue} (hd : (s.layer y).due = some d) (hruns : s.optRuns = true)
  (hready : s.layerReady d = true) (hr : (s.layer y).run = none)
  (halloc : alGet s.place.pendingAlloc 3 = none) (hn : s.kindCount 3 ≠ 0)
include hd hruns hready hr halloc hn

/-- Where the state is there the layer is refused its next plan, or starts it. -/
theorem layerStart_refuses_or_starts :
    (s.layerRefusal y d.boundary ≠ 0 → ∃ skipped,
      OnlyReports (s.setLayer y ((s.layer y).refused skipped)) (s.layerStart y))
    ∧ (s.layerRefusal y d.boundary = 0 → ∃ r es, (s.layerStart y).layer y = (s.layer y).started r es ∧ r.Begins s y d.boundary
      ∧ ∀ i, s.reck.latest = some i → (pinLayer y, i) ∈ (s.layerStart y).reck.pins) := by
  unfold State.layerStart
  simp -zeta only [hd]
  rw [if_neg (by simp [hruns, hready, hr])]
  extract_lets +onlyGivenNames u
  have hu : u = s := applyAlloc_settled halloc
  clear_value u
  subst hu
  rw [if_neg hn]
  extract_lets +onlyGivenNames x n v why
  have hv : v.layer y = x.numbered := layer_setLayer u y _
  have hset : ∀ x, v.setLayer y x = u.setLayer y x := setLayer_setLayer u y _
  have hcfg : v.opt.cfg = u.opt.cfg := setLayer_cfg u y _
  have hreck : v.reck = u.reck := rfl
  have hwhy : why = u.layerRefusal y d.boundary := setLayer_layerRefusal u y _ d.boundary
  rw [← hwhy]
  clear_value why v
  refine ⟨fun h => ?_, fun h => ?_⟩
  · rw [if_pos h, hv]
    obtain ⟨skipped, hend⟩ := (raise_only (v.setLayer y { x.numbered with fails := 0 }) _ _).postPlan v.opt.cfg y _ why
    rw [layer_setLayer, setLayer_setLayer, hset] at hend
    exact ⟨skipped, hend⟩
  · rw [if_neg (not_not.mpr h)]
    extract_lets +onlyGivenNames es w cold flags run opt z
    have hw : OnlyReports (v.setLayer y { v.layer y with edges := es }) w := noteEdges_only v y es
    have hz : z.layer y = { x.numbered with edges := es } := by
      rw [layer_withElecBias, hw.layer, layer_setLayer, hv]
    have hzreck : z.reck = u.reck := hw.reck.trans hreck
    have hbegins : run.Begins u y d.boundary :=
      ⟨rfl, rfl, latestSolve_congr hzreck, (congrArg Optimiser.cfg hw.opt).trans ((setLayer_cfg v y _).trans hcfg)⟩
    clear_value run z
    obtain ⟨hlayer, hpinned⟩ := layerPinned_fields (z.setLayer y { z.layer y with run := some run, coldNext := false }) y
    refine ⟨run, es, hlayer.trans ?_, hbegins, fun i hi => ?_⟩
    · rw [layer_setLayer, hz]
      rfl
    · rw [hpinned]
      exact pinLatest_pins (by exact (congrArg Reckoner.latest hzreck).trans hi) _

end

/-! ### The end of a solve that publishes nothing (R230, R232, R236) -/

/-- A layer whose solve has failed. -/
def LayerSt.failed (x : LayerSt) (skipped : Bool) : LayerSt :=
  { x with run := none, fails := x.fails + 1, coldNext := x.coldNext || 2 ≤ x.fails + 1, skippedSince := skipped }

/-- `t` is `s` after a solve of layer `y` that has failed: the plan in force stands, and nothing is handed over. -/
structure LayerFails (s : State) (y : Layer) (t : State) : Prop where
  layer : ∃ skipped, t.layer y = (s.layer y).failed skipped
  roll : t.roll = s.roll

namespace LayerFails

variable {s t u : State} {y : Layer}

theorem run (h : LayerFails s y t) : (t.layer y).run = none := by
  obtain ⟨_, h⟩ := h.layer
  rw [h]
  rfl

theorem fails (h : LayerFails s y t) : (t.layer y).fails = (s.layer y).fails + 1 := by
  obtain ⟨_, h⟩ := h.layer
  rw [h]
  rfl

theorem plan (h : LayerFails s y t) : (t.layer y).plan = (s.layer y).plan := by
  obtain ⟨_, h⟩ := h.layer
  rw [h]
  rfl

theorem after_reports (h : OnlyReports s t) (k : LayerFails t y u) : LayerFails s y u where
  layer := by
    obtain ⟨skipped, k⟩ := k.layer
    exact ⟨skipped, by rw [k, h.layer]⟩
  roll := k.roll.trans h.roll

end LayerFails

theorem settleOpt_enabled {s : State} (h : s.opt.en = .enabled) : s.settleOpt = s := if_neg (by simp [h])

theorem endUnpublished_fails {s : State} (he : s.opt.en = .enabled) (y : Layer) (r : LayerRun) {status : Nat}
    (hst : status = 3 ∨ status = 4) (p : Plan) : LayerFails s y (s.endUnpublished y r status p) := by
  unfold State.endUnpublished
  extract_lets +onlyGivenNames x fails c ended q opt t
  have hfails : fails = x.fails + 1 := if_pos (by simpa using hst)
  have ht : t = ended := if_neg (by omega)
  rw [ht]
  obtain ⟨skipped, hend⟩ := postPlan_only ended c y q 0
  have hen : (ended.postPlan c y q 0).opt.en = .enabled := by
    rw [hend.opt, setLayer_en]
    exact (setLayer_en s y _).trans he
  rw [settleOpt_enabled hen]
  refine ⟨⟨skipped, ?_⟩, hend.roll⟩
  rw [hend.layer, layer_setLayer]
  have hx : ended.layer y = { x with run := none, fails := fails, coldNext := x.coldNext || 2 ≤ fails } := layer_setLayer s y _
  rw [hx, hfails]
  rfl

/-! ### Publication and handover (R231, R233–R235) -/

/-- What a handover reads, and the layer that hands over. -/
structure HandView where
  layer : LayerSt
  roll : Roll
  lastHand : Nat × Nat
  tick : Nat

def State.handView (s : State) (y : Layer) : HandView := ⟨s.layer y, s.roll, s.opt.lastHand, s.tickNow⟩

/-- `t` hands over as `s` does. -/
def KeepsHand (y : Layer) (s t : State) : Prop := t.handView y = s.handView y

theorem OnlyReports.keepsHand {s t : State} (h : OnlyReports s t) (y : Layer) : KeepsHand y s t := by
  unfold KeepsHand State.handView State.tickNow
  rw [h.layer, h.roll, h.opt, h.reck, State.tai_congr h.now h.clockOfs h.time]

theorem tellWithheld_only (s : State) (u : RollUnit) (bit on_ : Nat) : OnlyReports s (s.tellWithheld u bit on_) := by
  cases u with
  | zone z => exact raise_only s _ _
  | plant p => exact raise_only s _ _
  | store k => exact .refl s

theorem noteOffers_keepsHand (s : State) (y : Layer) (os : List Offer) : KeepsHand y s (s.noteOffers y os) := by
  unfold State.noteOffers
  extract_lets held was now gone new bit t
  have ht : KeepsHand y s t := by cases y <;> rfl
  have told : OnlyReports t (new.foldl (fun s u => s.tellWithheld u (bit u) 1)
      (gone.foldl (fun s u => s.tellWithheld u (ownPermit u) 0) t)) :=
    (OnlyReports.foldl (fun s u => tellWithheld_only s u _ 0) gone t).trans (.foldl (fun s u => tellWithheld_only s u _ 1) new _)
  exact (told.keepsHand y).trans ht

theorem handOver_opt (s : State) (y : Layer) (cs : List Change) :
    ∃ hand, (s.handOver y cs).opt = { s.opt with lastHand := hand } := by
  unfold State.handOver
  cases y with
  | day => exact ⟨s.opt.lastHand, rfl⟩
  | pressure => exact ⟨_, rfl⟩

theorem handOver_layer (s : State) (y : Layer) (cs : List Change) : (s.handOver y cs).layer y = s.layer y := by
  obtain ⟨hand, hopt⟩ := handOver_opt s y cs
  unfold State.layer
  rw [hopt]

theorem handOver_roll_congr {s t : State} {y : Layer} (h : KeepsHand y s t) (cs : List Change) :
    (t.handOver y cs).roll = (s.handOver y cs).roll := by
  have hroll : t.roll = s.roll := congrArg HandView.roll h
  have hlast : t.opt.lastHand = s.opt.lastHand := congrArg HandView.lastHand h
  have htick : t.tickNow = s.tickNow := congrArg HandView.tick h
  unfold State.handOver
  rw [hroll, hlast, htick]
  cases y <;> rfl

theorem setLayer_handOver_roll (s : State) (y : Layer) (x : LayerSt) (cs : List Change) :
    ((s.setLayer y x).handOver y cs).roll = (s.handOver y cs).roll := by
  cases y <;> rfl

/-- A layer's changes follow those that wait, but for a day plan's where the pressure layer has handed over in the same tick. -/
theorem handOver_incoming {s : State} {y : Layer} (h : y = .pressure ∨ s.opt.lastHand.1 ≠ s.tickNow) (cs : List Change) :
    (s.handOver y cs).roll.incoming = s.roll.incoming ++ cs := by
  unfold State.handOver
  cases y with
  | pressure => rfl
  | day => simp [h.resolve_left (by decide)]

/-- A layer that has published `p`. -/
def LayerSt.published (x : LayerSt) (p : Plan) (skipped : Bool) : LayerSt :=
  { x with run := none, plan := some p, fails := 0, lastRelax := p.relax, skippedSince := skipped }

/-- `p` is the plan of solve `r`, published with this status and with so many changes handed over. -/
structure Plan.Publishes (p : Plan) (r : LayerRun) (status handed : Nat) : Prop where
  number : p.number = r.number
  boundary : p.boundary = r.boundary
  status : p.status = status
  handed : p.handed = handed

theorem publishPlan_publishes (s : State) (y : Layer) (r : LayerRun) (res : LayerResult) (status : Nat) : ∃ p cs skipped,
    (s.publishPlan y r res status).layer y = (s.layer y).published p skipped
      ∧ (s.publishPlan y r res status).roll = (s.handOver y cs).roll ∧ p.Publishes r status cs.length := by
  unfold State.publishPlan
  extract_lets +onlyGivenNames hold os cs items p x t opt u v w z
  have ht : KeepsHand y (s.setLayer y { x with run := none, plan := some p, fails := 0, lastRelax := p.relax }) t := by
    unfold t; cases y <;> rfl
  have hu : KeepsHand y t u := by
    unfold u
    split
    · cases y <;> rfl
    · rfl
  have hv : KeepsHand y u v := by
    unfold v
    split
    · rfl
    · exact (raise_only u _ _).keepsHand y
  have hhand := ((noteOffers_keepsHand v y os).trans hv).trans (hu.trans ht)
  have hz : OnlyCopies w z := mirror_copies w _ _
  have hw : w.layer y = { x with run := none, plan := some p, fails := 0, lastRelax := p.relax } :=
    (handOver_layer _ y cs).trans ((congrArg HandView.layer hhand).trans (layer_setLayer s y _))
  have hroll : w.roll = (s.handOver y cs).roll := (handOver_roll_congr hhand cs).trans (setLayer_handOver_roll s y _ cs)
  have hp : p.Publishes r status cs.length := ⟨rfl, rfl, rfl, rfl⟩
  clear_value z w p
  obtain ⟨skipped, hend⟩ := postPlan_only z r.cfg y p 0
  refine ⟨p, cs, skipped, ?_, ?_, hp⟩
  · rw [hend.layer, layer_setLayer, layer_congr hz.opt, hw]
    rfl
  · exact hend.roll.trans (hz.roll.trans hroll)

/-! ### The end of a solve (R228, R230–R232) -/

section

variable {s : State} {y : Layer} {r : LayerRun} (hr : (s.layer y).run = some r) (he : s.opt.en = .enabled)
include hr he

theorem layerEnd_converged {given : Option LayerResult} (h : (s.layerNumbers y r noBudget given).ended = .converged) :
    s.layerEnd y given = s.publishPlan y r (s.layerNumbers y r noBudget given)
      (if (s.layerNumbers y r noBudget given).relax = 0 then 0 else 2) := by
  simp only [State.layerEnd, hr, he, ne_eq, not_true_eq_false, if_false, h]

theorem layerEnd_infeasible {given : Option LayerResult} {c : Nat}
    (h : (s.layerNumbers y r noBudget given).ended = .infeasible c) : LayerFails s y (s.layerEnd y given) := by
  simp only [State.layerEnd, hr, he, ne_eq, not_true_eq_false, if_false, h]
  have hraise := raise_only s 0x40 [u16 (layerCode y), u32 r.number, u16 c]
  exact .after_reports hraise (endUnpublished_fails ((congrArg Optimiser.en hraise.opt).trans he) y r (.inl rfl) _)

variable {iters : Nat} {given : Option LayerResult} (hbound : r.startedAt + s.layerBoundUs y * usNs ≤ s.now)
include hbound

theorem budgetExpiry_inexact (hc : (s.layerNumbers y r iters given).ended ≠ .uncommitted)
    (hp : fLe (s.layerNumbers y r iters given).primal (fMul (fc 10 1) (s.layerNumbers y r iters given).epsP) = true) :
    s.budgetExpiry y iters given = s.publishPlan y r (s.layerNumbers y r iters given) 1 := by
  simp only [State.budgetExpiry, hr, Nat.not_lt.mpr hbound, he, ne_eq, not_true_eq_false, if_false, State.bestIterate, hc, hp,
    not_false_eq_true, decide_true, Bool.and_self, if_true]

theorem budgetExpiry_fails (h : (s.layerNumbers y r iters given).ended = .uncommitted
      ∨ fLe (s.layerNumbers y r iters given).primal (fMul (fc 10 1) (s.layerNumbers y r iters given).epsP) = false) :
    LayerFails s y (s.budgetExpiry y iters given) := by
  simp only [State.budgetExpiry, hr, Nat.not_lt.mpr hbound, he, ne_eq, not_true_eq_false, if_false, State.bestIterate]
  rw [if_neg (by rcases h with h | h <;> simp [h])]
  have hraise := raise_only s 0x41
    [u16 (layerCode y), u32 r.number, u16 (s.layerNumbers y r iters given).iters, f32 (s.layerNumbers y r iters given).primal]
  exact .after_reports hraise (endUnpublished_fails ((congrArg Optimiser.en hraise.opt).trans he) y r (.inr rfl) _)

end

/-! ### The obligation -/

/-- Settles O16: a boundary by whether it has been taken and whether a solve runs, a start by what refuses it, and a solve's end by the
numbers of its programs or of its command (log entry 14): the best iterate and the stopping rules are those of log entry 96, and a day
layer's first pass has none to publish (R225). -/
theorem layersSolveAndHandOver : Obligations.LayersSolveAndHandOver := by
  unfold Obligations.LayersSolveAndHandOver
  intro s y he b
  refine ⟨?waits, ?skips, fun h => congrArg Host.Outcome.next (layerBoundary_taken h), ?starts, ?ends⟩
  case waits => exact fun ha hr h => congrArg Host.Outcome.next (layerBoundary_waits h (optRuns_of he ha) hr)
  case skips => exact fun r ha hr h => ⟨s.layerBoundary y, rfl, layerBoundary_skips h (optRuns_of he ha) hr⟩
  case starts =>
    intro d hd ha hready hr halloc hn
    obtain ⟨refused, starts⟩ := layerStart_refuses_or_starts hd (optRuns_of he ha) hready hr halloc hn
    refine ⟨fun hwhy => ?_, fun hwhy => ?_⟩
    · obtain ⟨r, es, hlayer, hbegins, hpins⟩ := starts hwhy
      refine ⟨s.layerStart y, r, rfl, ?_, ?_, ?_, ?_, hbegins.number, hbegins.boundary, hbegins.solve, hbegins.cfg, hpins⟩ <;>
        rw [hlayer] <;> rfl
    · obtain ⟨skipped, hend⟩ := refused hwhy
      have hlayer : (s.layerStart y).layer y = (s.layer y).refused skipped := (hend.layer y).trans (layer_setLayer s y _)
      refine ⟨s.layerStart y, rfl, ?_, ?_, ?_, ?_, ?_⟩
      · rw [hlayer]; exact hr
      · rw [hlayer]; rfl
      · rw [hlayer]; rfl
      · rw [hlayer]; rfl
      · rw [hend.opt]; exact hend
  case ends =>
    intro r given hr
    refine ⟨fun h => ?_, fun c h => ?_, fun iters hbound => ⟨fun hc hp => ?_, fun h => ?_⟩⟩
    · obtain ⟨p, cs, skipped, hlayer, hroll, hp⟩ := publishPlan_publishes s y r (s.layerNumbers y r noBudget given)
        (if (s.layerNumbers y r noBudget given).relax = 0 then 0 else 2)
      rw [← layerEnd_converged hr he h] at hlayer hroll
      refine ⟨s.layerEnd y given, p, cs, rfl, ?_, ?_, ?_, hp.number, hp.boundary, hp.status, hp.handed, hroll, fun hlast => ?_⟩
      · rw [hlayer]; rfl
      · rw [hlayer]; rfl
      · rw [hlayer]; rfl
      · rw [hroll]; exact handOver_incoming hlast cs
    · have hend := layerEnd_infeasible hr he h
      exact ⟨s.layerEnd y given, rfl, hend.run, hend.fails, hend.plan, hend.roll⟩
    · obtain ⟨p, cs, skipped, hlayer, -, hpub⟩ := publishPlan_publishes s y r (s.layerNumbers y r iters given) 1
      rw [← budgetExpiry_inexact hr he hbound hc hp] at hlayer
      refine ⟨s.budgetExpiry y iters given, p, rfl, ?_, hpub.number, hpub.status, ?_⟩
      · rw [hlayer]; rfl
      · rw [hlayer]; rfl
    · have hend := budgetExpiry_fails hr he hbound h
      exact ⟨s.budgetExpiry y iters given, rfl, hend.run, hend.plan, hend.fails, hend.roll⟩

end Sys2Proof.Machine

/-! PROOF. Station frames on the ring (R69, R292, R309, R451): copies and crossings run on, and what is handed to an open port leaves. -/

namespace Sys2Proof.Machine

open Sys2Proof

/-! ### Frames on the ring ports (R69, R292, R309, R451) -/

theorem voids_stopped (ys : List Nat) (s : State) (x : Nat) : (ys.foldl State.xingVoid s).xingStopped x = s.xingStopped x := by
  induction ys generalizing s with
  | nil => rfl
  | cons y ys ih => exact (ih _).trans (getD_modify_stopped _ y x (fun c => satInc c.void))

theorem voids_grow (ys : List Nat) (s : State) : OutGrows s (ys.foldl State.xingVoid s) := by
  induction ys generalizing s with
  | nil => exact .refl s
  | cons y ys ih => exact OutGrows.trans (t := s.xingVoid y) ⟨_, rfl⟩ (ih _)

theorem emits_stopped (os : List Output) (s : State) (x : Nat) : (os.foldl State.emit s).xingStopped x = s.xingStopped x := by
  induction os generalizing s with
  | nil => rfl
  | cons o os ih => exact ih _

theorem emits_grow (os : List Output) (s : State) : OutGrows s (os.foldl State.emit s) := by
  induction os generalizing s with
  | nil => exact .refl s
  | cons o os ih => exact (emit_grows s o).trans (ih _)

/-- A request that leaves by crossings stops and starts none of them. -/
theorem crossAll_stopped (s : State) (ys : List Nat) (os : List Output) (x : Nat) :
    (s.crossAll ys os).xingStopped x = s.xingStopped x := by
  unfold State.crossAll
  split
  · exact voids_stopped _ s x
  · exact (emits_stopped os _ x).trans (voids_stopped _ s x)

theorem crossAll_grows (s : State) (ys : List Nat) (os : List Output) : OutGrows s (s.crossAll ys os) := by
  unfold State.crossAll
  split
  · exact voids_grow _ s
  · exact (voids_grow _ s).trans (emits_grow os _)

/-- An output leaves where one of its crossings runs. -/
theorem cross_leaves {s : State} {xs : List Nat} (h : ∃ x ∈ xs, s.xingStopped x = false) (o : Output) : o ∈ (s.cross xs o).out := by
  obtain ⟨x, hx, hr⟩ := h
  have hall : ¬ xs.all s.xingStopped = true := fun k => by simp [List.all_eq_true.mp k x hx] at hr
  unfold State.cross
  rw [if_neg hall]
  exact List.mem_append_right _ (List.mem_singleton_self o)

theorem mirror_stopped (s : State) (typ : Nat) (body : List Fld) (x : Nat) : (s.mirror typ body).xingStopped x = s.xingStopped x := by
  unfold State.mirror State.mirrorAny
  split
  · split
    · rfl
    · exact crossAll_stopped _ _ _ x
  · rfl

theorem mirror_grows (s : State) (typ : Nat) (body : List Fld) : OutGrows s (s.mirror typ body) := by
  unfold State.mirror State.mirrorAny
  split
  · split
    · exact .refl s
    · exact (same_grows rfl).trans (crossAll_grows _ _ _)
  · exact .refl s

theorem checkpoint_out (s : State) (id : Half) : (s.checkpoint id).out = s.out := by
  unfold State.checkpoint
  split
  · split
    · split <;> rfl
    · rfl
  · rfl

theorem mirrorCtx_grows (s : State) (id : Nat) : OutGrows s (s.mirrorCtx id) := by
  unfold State.mirrorCtx
  split
  · exact (same_grows (checkpoint_out s _)).trans (mirror_grows _ _ _)
  · exact .refl s

theorem noteTags_grows (s : State) : OutGrows s s.noteTags := by
  unfold State.noteTags
  split
  · exact same_grows rfl
  · split
    · split
      · exact OutGrows.trans (t := { s with stn := { s.stn with tagWaitSince := none } }) (same_grows rfl) (raise_grows _ _ _)
      · exact .refl s
    · exact .refl s

/-- Copies change nothing that a context is addressed by. -/
theorem OnlyCopies.stnHdr {s t : State} (h : OnlyCopies s t) (c : StnCtxCfg) : t.stnHdr c = s.stnHdr c := by
  rw [h.rest]
  rfl

/-- The transmit crossing of a ring port runs. -/
def State.portRuns (s : State) : Prop := ∃ x ∈ txXings 3, s.xingStopped x = false

theorem portRuns_iff (s : State) : s.portRuns ↔ s.xingStopped 0x04 = false ∨ s.xingStopped 0x06 = false := by
  simp [State.portRuns, txXings]

theorem sendStn_leaves {s : State} (h : s.portRuns) (c : StnCtxCfg) (bs : List Byte) :
    Output.stnFrame c.station (s.stnHdr c) bs ∈ (s.sendStn c bs).out :=
  cross_leaves (s := { s with ring := { s.ring with hsrSeq := s.ring.hsrSeq + 1 } }) h _

/-- A frame that is handed to the ring leaves while a port's crossing runs, its copy to the standby first. -/
theorem emitFrame_leaves {s : State} (h : s.portRuns) (c : Ctx) (seq : Word) (f : StnFrame) (txn : Option (Nat × Nat × Nat)) :
    Output.stnFrame c.cfg.station (s.stnHdr c.cfg) (s.frameBytes c seq f txn) ∈ (s.emitFrame c seq f txn).out := by
  unfold State.emitFrame
  dsimp only
  split
  · exact sendStn_leaves h _ _
  · rw [← (mirror_copies s _ _).stnHdr]
    exact sendStn_leaves (h.imp fun x hx => hx.imp_right (mirror_stopped s _ _ x).trans) _ _

theorem emitFrame_stn (s : State) (c : Ctx) (seq : Word) (f : StnFrame) (txn : Option (Nat × Nat × Nat)) :
    (s.emitFrame c seq f txn).stn = s.stn := by
  have ring : ∀ (u : State) (bs : List Byte), (u.sendStn c.cfg bs).stn = u.stn := fun u bs =>
    (cross_copies { u with ring := { u.ring with hsrSeq := u.ring.hsrSeq + 1 } } _ _).stn
  unfold State.emitFrame
  refine (ring _ _).trans ?_
  split
  · rfl
  · exact (mirror_copies s _ _).stn

theorem emitFrame_ctxOf (s : State) (c : Ctx) (seq : Word) (f : StnFrame) (txn : Option (Nat × Nat × Nat)) (k : Nat) :
    (s.emitFrame c seq f txn).ctxOf k = s.ctxOf k :=
  ctxOf_congr (congrArg StnX.ctxs (emitFrame_stn s c seq f txn)) k

end Sys2Proof.Machine

/-! PROOF. The age of a station context and the time-outs of its transactions (R279, R297–R299, R311): what each operation of the exchange
leaves of a context. -/

namespace Sys2Proof.Machine

open Sys2Proof

/-! ### A context under the operations of the exchange -/

theorem ctxOf_station {s : State} {id : Nat} {c : Ctx} (h : s.ctxOf id = some c) : c.cfg.station = id := by
  simpa using List.find?_some h

theorem setCtx_ctxOf {s : State} {id : Nat} {c : Ctx} {f : Ctx → Ctx} (h : s.ctxOf id = some c) (hf : ∀ c, (f c).cfg = c.cfg) :
    (s.setCtx id f).ctxOf id = some (f c) := by
  rw [ctxOf_setCtx hf, h]
  rfl

/-- A change that leaves how many transactions each context has. -/
theorem inFlight_setCtx {f : Ctx → Ctx} (hf : ∀ c, (f c).txns = c.txns) (s : State) (id : Nat) : (s.setCtx id f).inFlight = s.inFlight := by
  unfold State.inFlight State.setCtx
  rw [List.map_map]
  refine congrArg List.sum (List.map_congr_left fun c _ => ?_)
  simp only [Function.comp]
  split
  · rw [hf]
  · rfl

theorem tTrigger_stn (s : State) (k : Nat) : (s.tTrigger k).stn = s.stn := by
  unfold State.tTrigger
  split
  · rfl
  · dsimp only
    split
    · exact State.raiseTimed_stn _ _ _ _
    · rfl

theorem tEvents_stn (s : State) (f : Nat → Bool) : (s.tEvents f).stn = s.stn := by
  refine List.foldlRecOn (motive := fun t : State => t.stn = s.stn) _ _ rfl fun t ht i _ => ?_
  split
  · exact (tTrigger_stn t _).trans ht
  · exact ht

/-- The event tasks that a context's change triggers leave the exchange. -/
theorem tStation_stn (s : State) (id : Nat) : (s.tStation id).stn = s.stn := tEvents_stn s _

theorem ctxOf_tStation (s : State) (id k : Nat) : (s.tStation id).ctxOf k = s.ctxOf k :=
  ctxOf_congr (congrArg StnX.ctxs (tStation_stn s id)) k

theorem ctxOf_putRoll (s : State) (x : Rollout) (k : Nat) : (s.putRoll x).ctxOf k = s.ctxOf k :=
  ctxOf_congr (congrArg StnX.ctxs (mirror_copies (s.setRoll x) _ _).stn) k

theorem pendTarget_ctxOf {s : State} {id : Nat} {c : Ctx} (h : s.ctxOf id = some c) (x : Rollout) :
    ∃ img, (s.pendTarget x id).ctxOf id = some { c with outImg := img, pending := true } := by
  refine ⟨putBytes c.outImg 48 (beBytes 4 x.dpTarget.toNat), ?_⟩
  unfold State.pendTarget State.stnPend
  rw [ctxOf_putRoll, ctxOf_mirrorCtx]
  exact setCtx_ctxOf h fun _ => rfl

/-- A rollout that loses a station leaves a target in its output image, pending, and nothing else of its context. -/
theorem rollStationLost_ctxOf {s : State} {id : Nat} {c : Ctx} (h : s.ctxOf id = some c) :
    ∃ img p, (s.rollStationLost id).ctxOf id = some { c with outImg := img, pending := p } := by
  unfold State.rollStationLost
  split
  · exact ⟨c.outImg, c.pending, h⟩
  · refine List.foldlRecOn (motive := fun t : State => ∃ img p, t.ctxOf id = some { c with outImg := img, pending := p }) _ _
      ⟨c.outImg, c.pending, h⟩ ?_
    rintro t ⟨img, p, ht⟩ x -
    obtain ⟨img', ht'⟩ := pendTarget_ctxOf ht { x with dropped := id :: x.dropped }
    exact ⟨img', true, ht'⟩

/-- Freeing tags leaves the contexts. -/
theorem ctxOf_freeTags (ts : List Txn) (s : State) (k : Nat) :
    (ts.foldl (fun s t => s.freeTag t.tag t.gen) s).ctxOf k = s.ctxOf k :=
  List.foldlRecOn (motive := fun u : State => u.ctxOf k = s.ctxOf k) _ _ rfl fun _ hu _ _ => hu

/-- What a context has on its way is dropped. -/
theorem dropFrames_ctxOf {s : State} {id : Nat} {c : Ctx} (h : s.ctxOf id = some c) (count : Bool) :
    ∃ p n, (s.dropFrames id count).ctxOf id = some { c with txns := [], order := [], pending := p, noackCount := n } := by
  unfold State.dropFrames
  simp only [h, ctxOf_noteTags]
  exact ⟨_, _, setCtx_ctxOf ((ctxOf_freeTags _ s id).trans h) fun _ => rfl⟩

/-! ### Age (R279) -/

/-- A context that goes OFFLINE has nothing in flight and nothing waiting. -/
theorem goOffline_ctxOf {s : State} {id : Nat} {c : Ctx} (h : s.ctxOf id = some c) (he : c.en = .enabled) (ho : c.st ≠ .offline)
    (hd : c.st ≠ .disabled) (cause : Nat) :
    ∃ k, (s.goOffline id cause).ctxOf id = some k ∧ k.st = .offline ∧ k.txns = [] ∧ k.order = [] := by
  unfold State.goOffline
  simp only [h, ho, hd, decide_false, Bool.or_false, Bool.false_eq_true, if_false]
  obtain ⟨p, n, hdrop⟩ := dropFrames_ctxOf h true
  have hoff := setCtx_ctxOf (f := fun c => { c with
    st := .offline, rxWin := [], offSince := (s.dropFrames id true).now, offlineCount := min (c.offlineCount + 1) 0xFFFF,
    noackRun := 0, retDone := [] }) hdrop fun _ => rfl
  obtain ⟨img, q, hlost⟩ := rollStationLost_ctxOf
    ((ctxOf_tStation _ id id).trans ((ctxOf_raise _ 0x50 [u16 id, u16 cause, u32 c.lastRx.toNat] id).trans hoff))
  rw [settleStn_of_enabled ((ctxOf_mirrorCtx _ id id).trans hlost) he, ctxOf_mirrorCtx]
  exact ⟨_, hlost, rfl, rfl, rfl⟩

theorem stnOffline_ctxOf {s : State} {id a : Nat} {c : Ctx} (h : s.ctxOf id = some c) (he : c.en = .enabled) (ho : c.st ≠ .offline)
    (hd : c.st ≠ .disabled) (ha : s.inputAge c = some a) (hold : s.stn.cfg.offlineMs * msNs < a) :
    ∃ k, (s.stnOffline id).ctxOf id = some k ∧ k.st = .offline ∧ k.txns = [] ∧ k.order = [] := by
  unfold State.stnOffline
  simp only [h, ha, Option.getD_some, if_pos hold]
  exact goOffline_ctxOf h he ho hd 0

theorem stnStale_ctxOf {s : State} {id a : Nat} {c : Ctx} (h : s.ctxOf id = some c) (he : c.en = .enabled) (ho : c.st = .online)
    (ha : s.inputAge c = some a) (hold : s.stn.cfg.staleMs * msNs < a) :
    (s.stnStale id).ctxOf id = some { c with st := .stale } := by
  have hdue : (decide (c.st = .online) && decide (c.en ≠ .disabled) && decide (s.stn.cfg.staleMs * msNs < a)) = true := by
    simp [ho, he, hold]
  unfold State.stnStale
  simp only [h, ha, Option.getD_some, hdue, if_true]
  rw [ctxOf_mirrorCtx, ctxOf_tStation, ctxOf_raise]
  exact setCtx_ctxOf h fun _ => rfl

/-! ### Sending keeps transactions (R289, R294) -/

/-- Each transaction of `c` is one of `k`, sent again perhaps. -/
def KeepsTxns (c k : Ctx) : Prop := ∀ u ∈ c.txns, ∃ v ∈ k.txns, v.tag = u.tag ∧ v.gen = u.gen ∧ v.attempt = u.attempt

theorem KeepsTxns.of_subset {c k : Ctx} (h : c.txns ⊆ k.txns) : KeepsTxns c k := fun u hu => ⟨u, h hu, rfl, rfl, rfl⟩

theorem KeepsTxns.refl (c : Ctx) : KeepsTxns c c := .of_subset (List.Subset.refl _)

theorem KeepsTxns.trans {c k l : Ctx} (h : KeepsTxns c k) (j : KeepsTxns k l) : KeepsTxns c l := by
  intro u hu
  obtain ⟨v, hv, htag, hgen, hatt⟩ := h u hu
  obtain ⟨w, hw, jtag, jgen, jatt⟩ := j v hv
  exact ⟨w, hw, jtag.trans htag, jgen.trans hgen, jatt.trans hatt⟩

/-- Whatever one frame is, a context that sends it keeps its transactions. -/
theorem sendOne_keepsTxns {s : State} {id : Nat} {c : Ctx} (h : s.ctxOf id = some c) (w : Waiting) (rest : List Waiting) :
    ∃ k, (s.sendOne c w rest).ctxOf id = some k ∧ KeepsTxns c k := by
  have hid := ctxOf_station h
  unfold State.sendOne
  dsimp only
  rw [hid]
  split
  · split
    · rw [emitFrame_ctxOf]
      refine ⟨_, setCtx_ctxOf h fun _ => rfl, fun u hu => ⟨_, List.mem_map_of_mem hu, ?_⟩⟩
      split <;> exact ⟨rfl, rfl, rfl⟩
    · exact ⟨_, setCtx_ctxOf h fun _ => rfl, .refl c⟩
  · split
    · split
      · rename_i pool _
        rw [ctxOf_noteTags, emitFrame_ctxOf]
        exact ⟨_, setCtx_ctxOf (s := { s with stn := { s.stn with pool := pool } }) h fun _ => rfl,
          .of_subset (List.subset_append_left _ _)⟩
      · exact ⟨c, h, .refl c⟩
    · rw [emitFrame_ctxOf]
      exact ⟨_, setCtx_ctxOf h fun _ => rfl, .refl c⟩

theorem pumpN_keepsTxns (n : Nat) {s : State} {id : Nat} {c : Ctx} (h : s.ctxOf id = some c) :
    ∃ k, (State.pumpN n s id).ctxOf id = some k ∧ KeepsTxns c k := by
  induction n generalizing s c with
  | zero => exact ⟨c, h, .refl c⟩
  | succ n ih =>
    unfold State.pumpN
    simp only [h]
    split
    · rename_i w rest _
      obtain ⟨l, hl, hkeep⟩ := sendOne_keepsTxns h w rest
      obtain ⟨k, hk, hkeep'⟩ := ih hl
      exact ⟨k, hk, hkeep.trans hkeep'⟩
    · exact ⟨c, h, .refl c⟩

theorem release_keepsTxns {s : State} {id : Nat} {c : Ctx} (h : s.ctxOf id = some c) :
    ∃ k, (s.release id).ctxOf id = some k ∧ KeepsTxns c k := by
  unfold State.release
  rw [ctxOf_mirrorCtx]
  exact pumpN_keepsTxns _ h

theorem noteTags_cfg (s : State) : s.noteTags.stn.cfg = s.stn.cfg := by
  unfold State.noteTags
  split
  · rfl
  · split
    · split
      · rw [State.raise_stn]
      · rfl
    · rfl

/-! ### Time-outs of transactions (R297–R299) -/

/-- A transaction of no timed command, of an enabled context, that has had no acknowledge in its time. -/
structure TxnSilent (s : State) (id : Nat) (c : Ctx) (tx : Txn) : Prop where
  ctx : s.ctxOf id = some c
  en : c.en = .enabled
  found : c.txns.find? (fun u => u.tag == tx.tag && u.gen == tx.gen) = some tx
  due : ∃ at_, tx.sentAt = some at_ ∧ at_ + s.stn.cfg.timeoutMs * msNs ≤ s.now
  frame : tx.frame = .request 1

section

variable {s : State} {id : Nat} {c : Ctx} {tx : Txn}

theorem TxnSilent.quiOver (h : TxnSilent s id c tx) : s.quiOver id = false := by
  simp [State.quiOver, h.ctx, h.en]

/-- While retries are left, the transaction is tried again. -/
theorem txnTimeout_retries (h : TxnSilent s id c tx) (hr : tx.attempt < s.stn.cfg.retries) :
    ∃ k, (s.txnTimeout id tx.tag tx.gen).ctxOf id = some k ∧ ∃ u ∈ k.txns, u.tag = tx.tag ∧ u.gen = tx.gen ∧ u.attempt = tx.attempt + 1 := by
  obtain ⟨at_, hsent, hdue⟩ := h.due
  unfold State.txnTimeout
  simp only [h.ctx, Option.bind_some, h.found, h.quiOver, h.frame, hsent, hdue, hr, decide_true, Bool.not_true, Bool.not_false,
    Bool.and_true, Bool.false_eq_true, if_false, if_true]
  obtain ⟨k, hk, keeps⟩ := release_keepsTxns (setCtx_ctxOf (f := fun c => { c with
    txns := c.txns.map fun u => if u.tag = tx.tag && u.gen = tx.gen then { u with attempt := u.attempt + 1, sentAt := none } else u
    order := insRetry ⟨tx.seq, .request 1, some (tx.tag, tx.gen)⟩ c.order }) h.ctx fun _ => rfl)
  obtain ⟨u, hu, htag, hgen, hatt⟩ := keeps _ (List.mem_map_of_mem (List.mem_of_find?_eq_some h.found))
  refine ⟨k, hk, u, hu, ?_⟩
  simpa using And.intro htag (And.intro hgen hatt)

/-- A context one of whose transactions has ended as silence. -/
def Ctx.silenced (tag gen : Nat) (c : Ctx) : Ctx :=
  { c with
    txns := c.txns.filter (fun u => !(u.tag == tag && u.gen == gen))
    order := c.order.filter (fun w => w.retry != some (tag, gen))
    noackCount := min (c.noackCount + 1) 0xFFFF
    noackRun := c.noackRun + 1 }

/-- After the last attempt it ends as silence, counted. -/
theorem txnTimeout_ends (h : TxnSilent s id c tx) (hr : s.stn.cfg.retries ≤ tx.attempt) (hn : c.noackRun + 1 < s.stn.cfg.noackN)
    (ho : c.order = []) : (s.txnTimeout id tx.tag tx.gen).ctxOf id = some (c.silenced tx.tag tx.gen) := by
  obtain ⟨at_, hsent, hdue⟩ := h.due
  unfold State.txnTimeout
  simp only [h.ctx, Option.bind_some, h.found, h.quiOver, h.frame, hsent, hdue, Nat.not_lt.mpr hr, decide_true, decide_false, Bool.not_true,
    Bool.not_false, Bool.and_true, Bool.false_eq_true, if_false]
  generalize hu : State.raise _ 0x56 _ = u
  have hend : u.ctxOf id = some (c.silenced tx.tag tx.gen) := by
    rw [← hu, ctxOf_raise, ctxOf_noteTags]
    exact setCtx_ctxOf h.ctx fun _ => rfl
  have hcfg : u.stn.cfg = s.stn.cfg := by
    rw [← hu, State.raise_stn, noteTags_cfg]
    rfl
  have hgo : ¬ (decide (StnFrame.request 1 = .resync) || decide (u.stn.cfg.noackN ≤ ((u.ctxOf id).map (·.noackRun)).getD 0)) = true := by
    simp [hend, hcfg, Ctx.silenced, hn]
  have hempty : (c.silenced tx.tag tx.gen).order = [] := by simp [Ctx.silenced, ho]
  rw [if_neg hgo, pump_of_empty hend hempty]
  have hcopied := (ctxOf_mirrorCtx u id id).trans hend
  rw [settleStn_of_enabled hcopied h.en, hcopied]

end

end Sys2Proof.Machine

/-! PROOF. The sending of station frames (R289, R294, R306, R314): what may be sent, the one frame that leaves, and with it the statement on
station contexts. -/

namespace Sys2Proof.Machine

open Sys2Proof

/-! ### What may be sent (R289, R303, R306) -/

/-- Fewer than 250 frames of the context have left within the last second (R289). -/
def State.rateFree (s : State) (c : Ctx) : Prop := (c.sentAt.filter (fun x => s.now < x + secNs)).length < 250

/-- The way of a context's frames is open: its tablet may send, its address family is on and its role runs. -/
structure WayOpen (s : State) (c : Ctx) : Prop where
  may : s.stnMay = true
  family : s.familyOn c.cfg = true
  role : s.roleDown (stnRole c.cfg.station) = false
  rate : s.rateFree c

theorem sendable_output {s : State} {c : Ctx} (h : WayOpen s c) (hup : c.st.up = true) (q : Word) :
    s.sendable c ⟨q, .output, none⟩ = true := by
  have hrate : decide ((c.sentAt.filter (fun t => s.now < t + secNs)).length < 250) = true := decide_eq_true h.rate
  simp only [State.sendable, h.may, h.family, h.role, hup, hrate, StnFrame.isTxn, Bool.true_or, Bool.or_true, Bool.and_true,
    Bool.not_false]

theorem sendable_resync {s : State} {c : Ctx} (h : WayOpen s c) (hst : c.st = .returning) (ht : c.txns = []) (hin : s.inFlight < 2048)
    (q : Word) : s.sendable c ⟨q, .resync, none⟩ = true := by
  have hrate : decide ((c.sentAt.filter (fun t => s.now < t + secNs)).length < 250) = true := decide_eq_true h.rate
  simp only [State.sendable, h.may, h.family, h.role, hst, ht, hin, hrate]
  decide

/-- A send order of one frame that may be sent. -/
theorem pump_of_single {s : State} {id : Nat} {c : Ctx} {w : Waiting} (h : s.ctxOf id = some c) (ho : c.order = [w])
    (hs : s.sendable c w = true) : s.pump id = s.sendOne c w [] := by
  unfold State.pump
  rw [h, Option.map_some, ho]
  simp [State.pumpN, h, ho, takeFirst, hs]

/-- A context with a new frame at the end of its send order. -/
def Ctx.queued (q : Word) (f : StnFrame) (c : Ctx) : Ctx := { c with txSeq := some q, order := c.order ++ [⟨q, f, none⟩] }

/-- A new frame of a context with nothing waiting leaves at once where it may. -/
theorem queueFrame_of_empty {s : State} {id : Nat} {c : Ctx} {f : StnFrame} (h : s.ctxOf id = some c) (ho : c.order = [])
    (hs : (s.setCtx id (Ctx.queued (s.nextSeq c) f)).sendable (c.queued (s.nextSeq c) f) ⟨s.nextSeq c, f, none⟩ = true) :
    (s.queueFrame id f).1
      = (s.setCtx id (Ctx.queued (s.nextSeq c) f)).sendOne (c.queued (s.nextSeq c) f) ⟨s.nextSeq c, f, none⟩ [] := by
  have e : (s.queueFrame id f).1 = (s.setCtx id (Ctx.queued (s.nextSeq c) f)).pump id := by
    unfold State.queueFrame
    simp only [h]
    rfl
  rw [e]
  exact pump_of_single (setCtx_ctxOf h fun _ => rfl) (by simp [Ctx.queued, ho]) hs

/-! ### One frame (R289, R294, R306, R309) -/

/-- A context that has handed over a frame, `rest` still waiting, changed besides by `f`. -/
def Ctx.handsOver (now : Nat) (rest : List Waiting) (f : Ctx → Ctx) (c : Ctx) : Ctx :=
  f { c with order := rest, sentAt := now :: c.sentAt.filter (fun t => now < t + secNs) }

/-- The last image frame left at this instant (R306). -/
def Ctx.imaged (now : Nat) (c : Ctx) : Ctx := { c with lastImage := some now }

theorem sendOne_output_eq (s : State) (c : Ctx) (q : Word) (rest : List Waiting) :
    s.sendOne c ⟨q, .output, none⟩ rest
      = (s.setCtx c.cfg.station (Ctx.handsOver s.now rest (Ctx.imaged s.now))).emitFrame c q .output none := rfl

/-- An OUTPUT frame leaves with the image as it stands. -/
theorem sendOne_output {s : State} {id : Nat} {c : Ctx} (h : s.ctxOf id = some c) (hp : s.portRuns) (q : Word) (rest : List Waiting) :
    (s.sendOne c ⟨q, .output, none⟩ rest).ctxOf id = some (c.handsOver s.now rest (Ctx.imaged s.now))
      ∧ Output.stnFrame id (s.stnHdr c.cfg) (s.frameBytes c q .output none) ∈ (s.sendOne c ⟨q, .output, none⟩ rest).out := by
  obtain rfl := ctxOf_station h
  rw [sendOne_output_eq, emitFrame_ctxOf]
  exact ⟨setCtx_ctxOf h fun _ => rfl, emitFrame_leaves (s := s.setCtx c.cfg.station (Ctx.handsOver s.now rest (Ctx.imaged s.now))) hp c q
    .output none⟩

/-- A RESYNC in flight under a tag, generation 0 (R294, R306). -/
def Ctx.resyncs (tai now tag : Nat) (q : Word) (img : List Byte) (c : Ctx) : Ctx :=
  { c with
    txns := c.txns ++ [⟨tag, 0, q, .resync, 0, some now, img⟩]
    outstanding := c.outstanding.filter (fun a => tai < a)
    lastImage := some now }

/-- The state in which a RESYNC under the pool's next fresh tag is handed to the ring (R40). -/
def State.resyncing (s : State) (c : Ctx) (q : Word) (rest : List Waiting) : State :=
  ({ s with stn := { s.stn with pool := { s.stn.pool with next := s.stn.pool.next + 1 } } } : State).setCtx c.cfg.station
    (Ctx.handsOver s.now rest (Ctx.resyncs s.tai s.now s.stn.pool.next q c.outImg))

theorem sendOne_resync_eq {s : State} (c : Ctx) (htag : s.stn.pool.next < 65536) (q : Word) (rest : List Waiting) :
    s.sendOne c ⟨q, .resync, none⟩ rest
      = ((s.resyncing c q rest).emitFrame c q .resync (some (s.stn.pool.next, 0, 0))).noteTags := by
  unfold State.sendOne
  simp only [StnFrame.isTxn, if_true, IdPool.issue, if_pos htag, List.append_nil]
  rfl

/-- A RESYNC leaves under a fresh tag. -/
theorem sendOne_resync {s : State} {id : Nat} {c : Ctx} (h : s.ctxOf id = some c) (hp : s.portRuns) (htag : s.stn.pool.next < 65536)
    (q : Word) (rest : List Waiting) :
    (s.sendOne c ⟨q, .resync, none⟩ rest).ctxOf id
        = some (c.handsOver s.now rest (Ctx.resyncs s.tai s.now s.stn.pool.next q c.outImg))
      ∧ Output.stnFrame id (s.stnHdr c.cfg) (s.frameBytes c q .resync (some (s.stn.pool.next, 0, 0)))
        ∈ (s.sendOne c ⟨q, .resync, none⟩ rest).out := by
  obtain rfl := ctxOf_station h
  rw [sendOne_resync_eq c htag, ctxOf_noteTags, emitFrame_ctxOf]
  exact ⟨setCtx_ctxOf h fun _ => rfl,
    (noteTags_grows _).mem (emitFrame_leaves (s := s.resyncing c q rest) hp c q .resync (some (s.stn.pool.next, 0, 0)))⟩

/-! ### What is sent when it may be, when it is due, and after the writers' cycles (R289, R306, R314) -/

section

variable {s : State} {id : Nat} {c : Ctx}

theorem release_output (h : s.ctxOf id = some c) (hp : s.portRuns) {q : Word} (ho : c.order = [⟨q, .output, none⟩])
    (hs : s.sendable c ⟨q, .output, none⟩ = true) :
    (s.release id).ctxOf id = some (c.handsOver s.now [] (Ctx.imaged s.now))
      ∧ Output.stnFrame id (s.stnHdr c.cfg) (s.frameBytes c q .output none) ∈ (s.release id).out := by
  obtain ⟨hctx, hout⟩ := sendOne_output h hp q []
  unfold State.release
  rw [ctxOf_mirrorCtx, pump_of_single h ho hs]
  exact ⟨hctx, (mirrorCtx_grows _ id).mem hout⟩

theorem queueOutput_sends (h : s.ctxOf id = some c) (way : WayOpen s c) (hp : s.portRuns) (hup : c.st.up = true) (ho : c.order = []) :
    (s.queueOutput id).ctxOf id = some ((c.queued (s.nextSeq c) .output).handsOver s.now [] (Ctx.imaged s.now))
      ∧ Output.stnFrame id (s.stnHdr c.cfg) (s.frameBytes c (s.nextSeq c) .output none) ∈ (s.queueOutput id).out := by
  have e : s.queueOutput id = (s.queueFrame id .output).1 := by
    simp [State.queueOutput, h, ho]
  have hway : WayOpen (s.setCtx id (Ctx.queued (s.nextSeq c) .output)) (c.queued (s.nextSeq c) .output) :=
    ⟨way.may, way.family, way.role, way.rate⟩
  rw [e, queueFrame_of_empty h ho (sendable_output hway hup _)]
  exact sendOne_output (s := s.setCtx id (Ctx.queued (s.nextSeq c) .output)) (setCtx_ctxOf h fun _ => rfl) hp (s.nextSeq c) []

theorem outputRefresh_sends (h : s.ctxOf id = some c) (he : c.en = .enabled) (way : WayOpen s c) (hp : s.portRuns) (hst : c.st = .online)
    (ho : c.order = []) (hdue : ∀ x, c.lastImage = some x → x + s.stn.cfg.refreshMs * msNs ≤ s.now) :
    (s.outputRefresh id).ctxOf id = some ((c.queued (s.nextSeq c) .output).handsOver s.now [] (Ctx.imaged s.now))
      ∧ Output.stnFrame id (s.stnHdr c.cfg) (s.frameBytes c (s.nextSeq c) .output none) ∈ (s.outputRefresh id).out := by
  have hup : c.st.up = true := by rw [hst]; rfl
  have e : s.outputRefresh id = (s.queueOutput id).mirrorCtx id := by
    cases hl : c.lastImage with
    | none => simp [State.outputRefresh, State.stnUp, h, hl, hup, he, way.may]
    | some x => simp [State.outputRefresh, State.stnUp, h, hl, hdue x hl, hup, he, way.may]
  obtain ⟨hctx, hout⟩ := queueOutput_sends h way hp hup ho
  rw [e, ctxOf_mirrorCtx]
  exact ⟨hctx, (mirrorCtx_grows _ id).mem hout⟩

/-- A RETURNING context whose writers have completed sends its RESYNC. -/
theorem resyncSend_sends (h : s.ctxOf id = some c) (he : c.en = .enabled) (way : WayOpen s c) (hp : s.portRuns) (hst : c.st = .returning)
    (ho : c.order = []) (ht : c.txns = []) (hw : s.writersDone c = true) (hin : s.inFlight < 2048) (htag : s.stn.pool.next < 65536) :
    (s.resyncSend id).ctxOf id = some ((c.queued (s.nextSeq c) .resync).handsOver s.now []
        (Ctx.resyncs s.tai s.now s.stn.pool.next (s.nextSeq c) c.outImg))
      ∧ Output.stnFrame id (s.stnHdr c.cfg) (s.frameBytes c (s.nextSeq c) .resync (some (s.stn.pool.next, 0, 0)))
        ∈ (s.resyncSend id).out := by
  have e : s.resyncSend id = (s.queueFrame id .resync).1.mirrorCtx id := by
    simp [State.resyncSend, h, ho, ht, hst, he, hw, way.may]
  have hway : WayOpen (s.setCtx id (Ctx.queued (s.nextSeq c) .resync)) (c.queued (s.nextSeq c) .resync) :=
    ⟨way.may, way.family, way.role, way.rate⟩
  have hin' : (s.setCtx id (Ctx.queued (s.nextSeq c) .resync)).inFlight < 2048 :=
    (inFlight_setCtx (f := Ctx.queued (s.nextSeq c) .resync) (fun _ => rfl) s id).trans_lt hin
  obtain ⟨hctx, hout⟩ := sendOne_resync (s := s.setCtx id (Ctx.queued (s.nextSeq c) .resync)) (setCtx_ctxOf h fun _ => rfl) hp htag
    (s.nextSeq c) []
  rw [e, ctxOf_mirrorCtx, queueFrame_of_empty h ho (sendable_resync hway hst ht hin' _)]
  exact ⟨hctx, (mirrorCtx_grows _ id).mem hout⟩

end

/-! ### The obligation -/

/-- Settles O23: each time-out by its branch, and each frame by the one way that every frame takes to the ring. A RESYNC's fresh tag has
generation 0 (log entry 22), and a context's role is that of its station (log entry 104). -/
theorem stationContextsAgeRetryAndSend : Obligations.StationContextsAgeRetryAndSend := by
  unfold Obligations.StationContextsAgeRetryAndSend
  intro s id c h hid he clear
  refine ⟨?stale, ?offline, ?silence, ?release, ?refresh, ?resync⟩
  case stale => exact fun a ho ha hold => ⟨_, _, rfl, stnStale_ctxOf h he ho ha hold, rfl⟩
  case offline =>
    intro a ho hd ha hold
    obtain ⟨k, hk⟩ := stnOffline_ctxOf h he ho hd ha hold
    exact ⟨_, k, rfl, hk⟩
  case silence =>
    intro tx at_ hfound hsent hdue hf
    have silent : TxnSilent s id c tx := ⟨h, he, hfound, ⟨at_, hsent, hdue⟩, hf⟩
    refine ⟨fun hr => ?_, fun hr hn ho => ⟨_, _, rfl, txnTimeout_ends silent hr hn ho, rfl, rfl, rfl⟩⟩
    obtain ⟨k, hk⟩ := txnTimeout_retries silent hr
    exact ⟨_, k, rfl, hk⟩
  case release =>
    rintro ⟨q, f, r⟩ ho rfl rfl hs ⟨hp, -, -⟩
    obtain ⟨hctx, hout⟩ := release_output h ((portRuns_iff s).mpr hp) ho hs
    exact ⟨_, _, rfl, hctx, rfl, hout⟩
  case refresh =>
    rintro ho hempty hmay hrate hdue ⟨hp, hfam, hrole⟩
    obtain ⟨hctx, hout⟩ := outputRefresh_sends h he ⟨hmay, hfam, by rwa [hid], hrate⟩ ((portRuns_iff s).mpr hp) ho hempty hdue
    exact ⟨_, _, rfl, hctx, rfl, rfl, hout⟩
  case resync =>
    rintro hst hempty htxns hw hmay hrate hin htag ⟨hp, hfam, hrole⟩
    obtain ⟨hctx, hout⟩ := resyncSend_sends h he ⟨hmay, hfam, by rwa [hid], hrate⟩ ((portRuns_iff s).mpr hp) hst hempty htxns hw hin htag
    exact ⟨_, _, rfl, hctx, congrArg (· ++ _) htxns, hout⟩

end Sys2Proof.Machine

/-! PROOF. A context whose waiting change of configuration names another station (R318, R320), in which a disable goes otherwise than the
statement says. -/

namespace Sys2Proof.Machine

open Sys2Proof

/-- A context that has quiesced: DISABLED, under the configuration that waited. -/
def Ctx.settled (c : Ctx) : Ctx :=
  { c with en := .disabled, st := .disabled, order := [], rxWin := [], newCfg := none, cfg := c.newCfg.getD c.cfg }

/-- A QUIESCING context without a transaction settles. -/
theorem settleStn_ctxs {s : State} {id : Nat} {c : Ctx} (h : s.ctxOf id = some c) (he : c.en = .quiescing) (ht : c.txns = []) :
    (s.settleStn id).stn.ctxs = (s.setCtx id Ctx.settled).stn.ctxs := by
  have hs : (s.settleCtx id).stn.ctxs = (s.setCtx id Ctx.settled).stn.ctxs := by
    simp only [State.settleCtx, h, he, ht, decide_true, List.isEmpty_nil, Bool.and_true, if_true]
    rw [(mirrorCtx_copies _ _).stn, State.raise_stn]
    rfl
  unfold State.settleStn
  dsimp only
  split
  · exact hs
  · rw [tStation_stn, hs]

/-- A context whose disable has begun, before it settles (R318). -/
def State.quiesceCtx (s : State) (id gone : Nat) : State :=
  (((s.setCtx id (fun c => { c with en := .quiescing, retired := gone, quiSince := s.now })).retireFrames id).rollStationLost id).mirrorCtx id

theorem ctxEnable_disable {s : State} {id : Nat} {c : Ctx} (h : s.ctxOf id = some c) (he : c.en = .enabled) :
    s.ctxEnable id false = ((s.quiesceCtx id (c.order.filter (fun w => w.retry.isNone)).length).settleStn id, true) := by
  simp [State.ctxEnable, State.quiesceCtx, h, he]

/-- STN_CTL of one context that is ENABLED answers from the state in which the context has quiesced. -/
theorem stnCtl_disable {s : State} {id : Nat} {c : Ctx} (h : s.ctxOf id = some c) (he : c.en = .enabled) (hid : id ≠ 0xFFFF)
    (ref : OrderRef) : ∃ n a, s.stnCtl ref id 0 = ((s.quiesceCtx id n).settleStn id).answer ref 0x0804 a :=
  ⟨(c.order.filter (fun w => w.retry.isNone)).length, by simp [State.stnCtl, h, hid, ctxEnable_disable h he]⟩

/-- An enabled, OFFLINE context of station 9 for which a change of configuration waits that names station 10. -/
def renamingCtx : Ctx :=
  { freshCtx ⟨9, 2, 5000, 16, 0, 0⟩ true 0 with newCfg := some ⟨10, 2, 5000, 16, 0, 0⟩ }

/-- A tablet with that context alone. -/
def State.renaming : State :=
  let z := State.reset
  { z with stn := { z.stn with ctxs := [renamingCtx] } }

/-- Quiescing, the context holds its waiting change still. -/
theorem renaming_quiet_ctxs (n : Nat) :
    (State.renaming.quiesceCtx 9 n).stn.ctxs = [{ renamingCtx with en := .quiescing, retired := n }] := by
  unfold State.quiesceCtx
  rw [(mirrorCtx_copies _ _).stn]
  rfl

/-- The context that was station 9's is station 10's after its disable. -/
theorem renaming_ctxOf : (State.renaming.stnCtl (.setup 0) 9 0).ctxOf 9 = none := by
  obtain ⟨n, a, ha⟩ := stnCtl_disable (s := State.renaming) (id := 9) (c := renamingCtx) rfl rfl (by decide) (.setup 0)
  have hctxs := renaming_quiet_ctxs n
  rw [ha]
  generalize State.renaming.quiesceCtx 9 n = u at hctxs ⊢
  have hctx : u.ctxOf 9 = some { renamingCtx with en := .quiescing, retired := n } := by
    unfold State.ctxOf
    rw [hctxs]
    rfl
  rw [ctxOf_congr (congrArg StnX.ctxs (State.answer_stn _ _ _ _)), ctxOf_congr (settleStn_ctxs hctx rfl rfl)]
  unfold State.ctxOf State.setCtx
  rw [hctxs]
  rfl

/-- Refutes O24: the statement's state may hold a context whose waiting change of configuration names another station. Its disable takes
that configuration over (R320), so afterwards station 9 has no context, where the statement has one that is DISABLED. (STN_CTX stores a
waiting change only under the station that it names.) -/
theorem not_stationOrdersComplete : ¬ Obligations.StationOrdersComplete := by
  unfold Obligations.StationOrdersComplete
  intro h
  obtain ⟨-, -, -, -, -, -, -, -, disables, -⟩ := h .renaming (.setup 0)
  obtain ⟨t, k, ht, -, hk, -⟩ := disables 9 renamingCtx rfl rfl (by decide) rfl rfl
  obtain rfl : State.renaming.stnCtl (.setup 0) 9 0 = t := Host.Outcome.next.inj ht
  exact nomatch renaming_ctxOf.symm.trans hk

end Sys2Proof.Machine

/-! PROOF. The loop engine's orders (R332, R335, R340, R341, R347–R352): the branch that each takes, its change to the loops and its
answer. -/

namespace Sys2Proof.Machine

open Sys2Proof

section

variable {s : State} {n : Nat} {l : Loop}

/-! ### Orders at the engine -/

theorem not_follows_of_activeOrSolo (h : s.activeOrSolo = true) : s.follows = false := by
  unfold State.follows
  unfold State.activeOrSolo at h
  generalize s.twin.role = role at h ⊢
  revert h
  cases role <;> decide

/-- An order that the engine answers with a LOOP_RESULT of its own from `base`. -/
theorem completes_loopAnswer {c : Instr} {s base : State} {ref : OrderRef} {op n st : Nat} {f : State → State}
    (hc : exec c s = .next (s.runOrder ref op f)) (hr : s.orderReady ref op = true)
    (hf : ∀ h : HostIf, f { s with host := h } = ({ base with host := h } : State).loopAnswer ref op n st) :
    Completes c s base ref op 0 [u16 n, u8 st, u8 0] :=
  completes_at (a := ownReport st [u16 n, u8 st, u8 0]) hc hr hf

/-- An order whose answer comes later. -/
theorem runs_at {c : Instr} {s base : State} {ref : OrderRef} {op : Nat} {f : State → State}
    (hc : exec c s = .next (s.runOrder ref op f)) (hr : s.orderReady ref op = true)
    (hf : ∀ h : HostIf, f { s with host := h } = { base with host := h }) : Runs c s base := by
  have hstart := hf (s.markStarted ref).host
  rw [← markStarted_eq] at hstart
  exact ⟨_, hc.trans (congrArg _ ((runOrder_ready f hr).trans hstart)), .of_eq rfl⟩

/-! ### LOOP_CFG and LOOP_COEF (R332, R348, R349) -/

theorem spCycle_congr {t : State} (h : t.loops.loops = s.loops.loops) (k n : Nat) (d : List Byte) :
    State.spCycle k t n d = State.spCycle k s n d := by
  induction k generalizing d with
  | zero => rfl
  | succ k ih => simp only [State.spCycle, loopOf_congr h, ih]

/-- The checks of a descriptor do not look at the host interface. -/
theorem loopCfgStatus_host (s : State) (n : Nat) (d : List Byte) (h : HostIf) :
    ({ s with host := h } : State).loopCfgStatus n d = s.loopCfgStatus n d := by
  unfold State.loopCfgStatus
  rw [spCycle_congr (s := s) (t := { s with host := h }) rfl]
  generalize State.spCycle 513 s n d = cycle
  rfl

theorem loopCfg_makes {d : List Byte} (hst : s.loopCfgStatus n d = 0) (hn : s.loopOf n = none) (ref : OrderRef) :
    s.loopCfg ref n d = (s.setLoop n (newLoop d s.follows s.tai)).loopAnswer ref 0x0901 n 0 := by
  have hqueue : (if u8At d oSp = 8 then (newLoop d s.follows s.tai).queue else []) = [] := ite_self []
  unfold State.loopCfg
  simp only [hst, hn, hqueue]
  rfl

theorem loopCfg_refuses {d : List Byte} (hst : s.loopCfgStatus n d ≠ 0) (ref : OrderRef) :
    s.loopCfg ref n d = s.loopAnswer ref 0x0901 n (s.loopCfgStatus n d) := if_pos hst

/-- A loop with one section written. -/
def Loop.withSection (l : Loop) (c : LoopCoef) : Loop :=
  let secs := l.sections.set c.section_ ⟨true, c.sflags == 1, c.b0, c.b1, c.b2, c.a1, c.a2, 0, 0⟩
  { l with sections := secs, coefMissing := secs.any (fun k => !k.written) }

theorem loopCoef_writes {c : LoopCoef} (hl : s.loopOf c.loop = some l) (hm : l.mode = .opened) (hsec : c.section_ < l.nSec)
    (hflags : c.sflags ≤ 1) (hfin : [c.b0, c.b1, c.b2, c.a1, c.a2].all fFinite = true) (hstable : secStable c = true) (ref : OrderRef) :
    s.loopCoef ref c = (s.setLoop c.loop (l.withSection c)).loopAnswer ref 0x0902 c.loop 0 := by
  have hrange : ¬ (l.nSec ≤ c.section_ || 1 < c.sflags || !([c.b0, c.b1, c.b2, c.a1, c.a2].all fFinite) : Bool) = true := by
    rw [hfin]
    simp only [Bool.not_true, Bool.or_false, Bool.or_eq_true, decide_eq_true_eq]
    omega
  unfold State.loopCoef
  simp only [hl]
  rw [if_neg (not_not.mpr hm), if_neg hrange, if_neg (by simp [hstable])]
  rfl

/-! ### LOOP_MODE (R335, R342, R350) -/

theorem loopModeOrder_follows {mode : Nat} (hf : s.follows = true) (hm : mode ≤ 2) (ref : OrderRef) (v : F32) :
    s.loopModeOrder ref n mode v = s.loopAnswer ref 0x0903 n (if mode = 0 then 8 else 14) := if_pos (by simp [hf, hm])

theorem loopModeOrder_opens {v : F32} (hl : s.loopOf n = some l) (hv : fFinite v = true) (hf : s.follows = false) (ref : OrderRef) :
    s.loopModeOrder ref n 1 v = (s.setLoop n (if s.loopUnderWay l then { l with later := some ⟨.opened, v, s.tai⟩ }
      else l.ordered .opened v)).loopAnswer ref 0x0903 n 0 := by
  simp [State.loopModeOrder, hl, hv, hf]

/-- LOOP_MODE CLOSED of a loop that may close. -/
theorem loopModeOrder_closes (hl : s.loopOf n = some l) (hcoef : l.coefMissing = false)
    (hpv : l.pvUsable (s.loopSrc l oPv s.tai) s.tai = true) (hforce : l.forceBit = 0xFFFFFFFF) (ha : s.activeOrSolo = true)
    (ref : OrderRef) (v : F32) :
    s.loopModeOrder ref n 0 v = (s.setLoop n (if s.loopUnderWay l then { l with later := some ⟨.closed, v, s.tai⟩ }
      else l.ordered .closed v)).loopAnswer ref 0x0903 n 0 := by
  simp [State.loopModeOrder, hl, hcoef, hpv, hforce, ha, not_follows_of_activeOrSolo ha]

theorem loopModeOrder_lacksCoef (hl : s.loopOf n = some l) (hcoef : l.coefMissing = true) (ref : OrderRef) (v : F32) :
    s.loopModeOrder ref n 0 v = s.loopAnswer ref 0x0903 n 8 := by
  cases hf : s.follows with
  | true => exact loopModeOrder_follows hf (by decide) ref v
  | false => simp [State.loopModeOrder, hf, hl, hcoef]

/-! ### LOOP_SP (R341, R350) -/

/-- A set-point that is due at once enters the queue, and is not late. -/
theorem loopSpIn_queues (hl : s.loopOf n = some l) (hsrc : l.srcKind oSp = 8) (hroom : l.queue.length < 8) (v : F32) (rollout : Nat) :
    s.loopSpIn n v s.tai rollout = (s.setLoop n { l with queue := l.queue ++ [⟨v, s.tai, rollout, false, s.tai⟩] }, 0) := by
  have horizon : ¬ s.tai + 60 * secNs < s.tai := Nat.not_lt.mpr (Nat.le_add_right _ _)
  simp [State.loopSpIn, hl, hsrc, Nat.not_le.mpr hroom, horizon]

theorem loopSpOrder_follows (hf : s.follows = true) (ref : OrderRef) (v : F32) (atS atNs : Nat) :
    s.loopSpOrder ref n v atS atNs = s.loopAnswer ref 0x0904 n 14 := if_pos hf

theorem loopSpOrder_queues {v : F32} (hl : s.loopOf n = some l) (hv : fFinite v = true) (hf : s.follows = false)
    (hsrc : l.srcKind oSp = 8) (hroom : l.queue.length < 8) (ref : OrderRef) :
    s.loopSpOrder ref n v 0 0
      = (s.setLoop n { l with queue := l.queue ++ [⟨v, s.tai, 0, false, s.tai⟩] }).loopAnswer ref 0x0904 n 0 := by
  simp [State.loopSpOrder, hf, hl, hv, loopSpIn_queues hl hsrc hroom]

/-! ### LOOP_CTL (R347, R350) -/

theorem mem_of_alGet {α : Type} {m : List (Nat × α)} {k : Nat} {v : α} (h : alGet m k = some v) : (k, v) ∈ m := by
  obtain ⟨⟨k', v'⟩, hfind, rfl⟩ := Option.map_eq_some_iff.mp h
  have hk : k' = k := by simpa using List.find?_some hfind
  exact hk ▸ List.mem_of_find?_eq_some hfind

/-- A DISABLED loop reads back 0. -/
theorem loopEnables_disabled (hl : s.loopOf n = some l) (he : l.en = .disabled) : s.loopEnables n = 0 := by
  have hany : ((s.loops.loops.filter (fun p => n == 0xFFFF || p.1 == n)).map (fun p => p.2.en)).any (fun e => e == .disabled) = true :=
    List.any_eq_true.mpr ⟨l.en, List.mem_map.mpr ⟨(n, l), List.mem_filter.mpr ⟨mem_of_alGet hl, by simp⟩, rfl⟩, by simp [he]⟩
  exact if_pos (by simp only [hany, Bool.or_true])

theorem loopEnables_congr {t : State} (h : t.loops = s.loops) (n : Nat) : t.loopEnables n = s.loopEnables n := by
  unfold State.loopEnables
  rw [h]

/-- LOOP_CTL of one loop answers from what its enable leaves. -/
theorem loopCtl_one {enable : Nat} {u : State} (hl : s.loopOf n = some l) (hn : n ≠ 0xFFFF) (he : enable ≤ 1)
    (hu : s.loopEnable n enable = (u, true)) (ref : OrderRef) :
    s.loopCtl ref n enable = u.answer ref 0x0905 (stateReport 0 [u16 n, u8 (u.loopEnables n)]) := by
  simp [State.loopCtl, hl, hn, hu, stDone, Nat.not_lt.mpr he]

/-- An enable of one loop that is taken and leaves `base` but for reports. -/
theorem completes_loopCtl {base : State} {ref : OrderRef} {enable : Nat} (hr : s.orderReady ref 0x0905 = true)
    (hl : s.loopOf n = some l) (hn : n ≠ 0xFFFF) (he : enable ≤ 1)
    (hf : ∀ h : HostIf, ∃ u, ({ s with host := h } : State).loopEnable n enable = (u, true)
      ∧ OnlyReports { base with host := h } u ∧ u.host.live = h.live) :
    Completes (.loopCtl ref n enable) s base ref 0x0905 0 [u16 n, u8 (base.loopEnables n)] := by
  refine completes_reporting (a := stateReport 0 [u16 n, u8 (base.loopEnables n)]) rfl hr fun h => ?_
  obtain ⟨u, hu, hbase, hlive⟩ := hf h
  have henables : u.loopEnables n = base.loopEnables n := loopEnables_congr hbase.answers.loops n
  exact ⟨u, henables ▸ loopCtl_one (s := { s with host := h }) hl hn he hu ref, hbase, hlive⟩

/-- A change of state reports itself, and nothing else follows from it. -/
theorem loopMode_reports (s : State) (n : Nat) (l : Loop) (m : LoopMode) (cause : Nat) :
    OnlyReports (s.setLoop n { l with mode := m }) (s.loopMode n l m cause) ∧ (s.loopMode n l m cause).host.live = s.host.live := by
  unfold State.loopMode
  dsimp only
  split
  · exact ⟨.refl _, rfl⟩
  · exact ⟨raise_only _ _ _, raise_live _ _ _⟩

/-- A loop that is enabled starts OPEN, or TRACKING on a tablet that follows, at its last output. -/
theorem loopEnable_starts (hl : s.loopOf n = some l) (he : l.en = .disabled) : ∃ u, s.loopEnable n 1 = (u, true)
    ∧ OnlyReports (s.setLoop n { l with
        en := .enabled, mode := if s.follows then .tracking else .opened, outMan := l.out, closing := false, lastTrig := s.tai - 1 }) u
    ∧ u.host.live = s.host.live := by
  let k : Loop := { l with en := .enabled, outMan := l.out, closing := false, lastTrig := s.tai - 1 }
  cases hf : s.follows with
  | true => exact ⟨s.loopMode n k .tracking 3, by simp [State.loopEnable, hl, he, enRequest_enable, hf, k], loopMode_reports s n k _ _⟩
  | false =>
    exact ⟨s.loopMode n k .opened (Config.enableCause n), by simp [State.loopEnable, hl, he, enRequest_enable, hf, k],
      loopMode_reports s n k _ _⟩

/-- A loop as it stands DISABLED. -/
def Loop.stopped (l : Loop) : Loop :=
  { l with en := .disabled, promote := false, first := false, startClose := false, trig := false, due := none, later := none }

/-- Without a sample due, a loop is DISABLED at once. -/
theorem loopEnable_stops (hl : s.loopOf n = some l) (he : l.en = .enabled) (hd : s.loopDue l = none) (ht : s.loops.trace = none)
    (hk : s.loops.taking = false) : s.loopEnable n 0 = ((s.setLoop n l.stopped).raise 0x78 [u16 n], true) := by
  have htaking : ((s.setLoop n l.stopped).raise 0x78 [u16 n]).loops.taking = false :=
    (congrArg LoopEngine.taking (State.raise_loops _ _ _)).trans hk
  have hoff : s.loopOff n l = (s.setLoop n l.stopped).raise 0x78 [u16 n] := by
    unfold State.loopOff
    rw [ht]
    exact if_neg fun h => ne_true_of_eq_false htaking (Bool.and_eq_true_iff.mp h).1
  simp [State.loopEnable, hl, he, hd, hoff]

/-- With its sample's instant passed, a loop quiesces until that sample is taken. -/
theorem loopEnable_quiesces {d : Nat} (hl : s.loopOf n = some l) (he : l.en = .enabled) (hd : s.loopDue l = some d)
    (hrole : s.loopRoleDown n = false) :
    s.loopEnable n 0 = (s.setLoop n { l with
      en := .quiescing
      due := some d }, true) := by
  have hset : ∀ k : Loop, (s.setLoop n k).loopRoleDown n = false := fun _ => hrole
  simp [State.loopEnable, hl, he, hd, hset]

/-! ### LOOP_QUERY (R351) -/

/-- The greatest latencies of the loops listed are cleared. -/
def State.clearLatencies (s : State) (ls : List (Nat × Loop)) : State :=
  ls.foldl (fun s p => s.setLoop p.1 { p.2 with latMax := 0 }) s

theorem clearLatencies_host (s : State) (ls : List (Nat × Loop)) (h : HostIf) :
    ({ s with host := h } : State).clearLatencies ls = { s.clearLatencies ls with host := h } := by
  induction ls generalizing s with
  | nil => rfl
  | cons p ls ih => exact ih (s.setLoop p.1 { p.2 with latMax := 0 })

theorem setLoop_toHost (s : State) (n : Nat) (l : Loop) (o : Output) : (s.toHost o).setLoop n l = (s.setLoop n l).toHost o := by
  obtain ⟨hx, h⟩ | ⟨hx, h⟩ := toHost_cases s o
  · rw [h, toHost_running (s := s.setLoop n l) o hx]
    rfl
  · obtain ⟨hx', -⟩ | ⟨-, h'⟩ := toHost_cases (s.setLoop n l) o
    · exact absurd (hx'.symm.trans hx) (by decide)
    · rw [h, h']
      rfl

theorem clearLatencies_toHost (s : State) (ls : List (Nat × Loop)) (o : Output) :
    (s.toHost o).clearLatencies ls = (s.clearLatencies ls).toHost o := by
  induction ls generalizing s with
  | nil => rfl
  | cons p ls ih => exact (congrArg (State.clearLatencies · ls) (setLoop_toHost s p.1 _ o)).trans (ih _)

theorem clearLatencies_fab (s : State) (ls : List (Nat × Loop)) : (s.clearLatencies ls).fab = s.fab := by
  induction ls generalizing s with
  | nil => rfl
  | cons p ls ih => exact ih _

/-- LOOP_QUERY's operands in their ranges. -/
theorem loopQuery_inRange {first count a : Nat} (hfirst : first ≤ 511) (hc : 1 ≤ count) (hc' : count ≤ 512) (ha : a % 16 = 0) :
    ¬ (511 < first || !between 1 512 count || a % 16 ≠ 0 : Bool) = true := by
  have hcount : between 1 512 count = true := by simp [between, hc, hc']
  simp [hcount, ha, hfirst]

/-- The loops that LOOP_QUERY names. -/
def State.loopsFrom (s : State) (first count : Nat) : List (Nat × Loop) :=
  s.loops.loops.filter (fun p => between first (first + count - 1) p.1)

/-- LOOP_QUERY delivers the entries of the loops that it names and clears their greatest latencies. -/
theorem loopQuery_delivers {first count a : Nat} (hfirst : first ≤ 511) (hc : 1 ≤ count) (hc' : count ≤ 512) (ha : a % 16 = 0)
    (hls : s.loopsFrom first count ≠ []) (ref : OrderRef) (h : HostIf) :
    ({ s with host := h } : State).loopQuery ref first count a
      = (({ s.clearLatencies (s.loopsFrom first count) with host := h } : State).toHost
          (.hostData a ((s.loopsFrom first count).map (fun p => s.loopQueryEntry p.1 p.2)).flatten)).answer ref 0x0906
        (ownReport 0 (traceData 0 (s.loopsFrom first count).length)) := by
  rw [← clearLatencies_host, ← clearLatencies_toHost]
  refine (if_neg (loopQuery_inRange hfirst hc hc' ha)).trans ?_
  have hsome : (s.loopsFrom first count).isEmpty = false := List.isEmpty_eq_false_iff.mpr hls
  have hpick : ∀ u v : State, (if (s.loopsFrom first count).isEmpty then u else v) = v := fun u v => if_neg (ne_true_of_eq_false hsome)
  exact congrArg (fun u : State => (u.clearLatencies (s.loopsFrom first count)).answer ref 0x0906 _) (hpick _ _)

/-- Where LOOP_QUERY names no loop, it answers alone. -/
theorem loopQuery_empty {first count a : Nat} (hfirst : first ≤ 511) (hc : 1 ≤ count) (hc' : count ≤ 512) (ha : a % 16 = 0)
    (hls : s.loopsFrom first count = []) (ref : OrderRef) :
    s.loopQuery ref first count a = s.answer ref 0x0906 (ownReport 0 (traceData 0 0)) := by
  refine (if_neg (loopQuery_inRange hfirst hc hc' ha)).trans ?_
  unfold State.loopsFrom at hls
  simp [hls]

/-! ### LOOP_TRACE (R352) -/

theorem loopTraceOrder_starts {count a : Nat} (hl : s.loopOf n ≠ none) (hc : 0 < count) (hc' : count ≤ 0xFFFF) (ha : a % 16 = 0)
    (ht : s.loops.trace = none) (ref : OrderRef) :
    s.loopTraceOrder ref n count a = { s with loops := { s.loops with trace := some ⟨ref, n, count, a, 0⟩ } } := by
  have hrange : ¬ (count = 0 || 0xFFFF < count || a % 16 ≠ 0 : Bool) = true := by
    simp only [Bool.or_eq_true, decide_eq_true_eq]
    omega
  unfold State.loopTraceOrder
  dsimp only
  rw [if_neg (by simpa using hl), if_neg hrange, if_neg (by simp [ht])]

/-! ### LOOP_TABLE (R340) -/

/-- The table of an image. -/
def imageTable (d : List Byte) : LoopTable := ⟨u16At d 2, (List.range 256).map (fun k => f32At d (0x10 + 4 * k))⟩

theorem loopTable_stores {d : List Byte} (hst : s.loopTableStatus d = 0) (ref : OrderRef) : ∃ ps, s.loopTable ref d
    = (({ s with loops := { s.loops with tables := alPut s.loops.tables (u16At d 0) (imageTable d) } } : State).raise 0x76 ps).loopAnswer
        ref 0x0908 (u16At d 0) 0 := by
  unfold State.loopTable
  dsimp only
  rw [if_neg (not_not.mpr hst)]
  exact ⟨_, rfl⟩

end

/-! ### The obligation -/

/-- Settles O21: each order by the branch that the tablet's role, the loop and the operands select. A mode order has its result when it is
accepted (log entry 42) and waits for a sample under way (log entry 118); a set-point is refused to a tablet that follows before it is
looked at (log entry 18). -/
theorem loopOrdersComplete : Obligations.LoopOrdersComplete := by
  unfold Obligations.LoopOrdersComplete
  intro s ref n
  refine ⟨?makes, ?refuses, ?coef, ?waits, ?modeFollows, ?spFollows, ?opens, ?closes, ?lacksCoef, ?queues, ?enable, ?disable, ?quiesce,
    ?query, ?trace, ?table⟩
  case makes =>
    exact fun d hr hst hn => completes_loopAnswer rfl hr fun h =>
      loopCfg_makes (s := { s with host := h }) ((loopCfgStatus_host s n d h).trans hst) hn ref
  case refuses =>
    intro d hr hst
    refine completes_loopAnswer rfl hr fun h => ?_
    have hsame := loopCfgStatus_host s n d h
    exact (loopCfg_refuses (s := { s with host := h }) (hsame.trans_ne hst) ref).trans (by rw [hsame])
  case coef =>
    rintro l c hr hl rfl hm hsec hflags hfin hstable
    exact completes_loopAnswer rfl hr fun h => loopCoef_writes (s := { s with host := h }) hl hm hsec hflags hfin hstable ref
  case waits =>
    intro l v hr hl hv hf hway
    refine completes_loopAnswer rfl hr fun h => (loopModeOrder_opens (s := { s with host := h }) hl hv hf ref).trans ?_
    rw [if_pos (show ({ s with host := h } : State).loopUnderWay l = true from hway)]
    rfl
  case modeFollows =>
    intro v hr hf
    have refused : ∀ mode ≤ 2, Completes (.loopMode ref n mode v) s s ref 0x0903 0 [u16 n, u8 (if mode = 0 then 8 else 14), u8 0] :=
      fun mode hm => completes_loopAnswer rfl hr fun h => loopModeOrder_follows (s := { s with host := h }) hf hm ref v
    exact ⟨refused 0 (by decide), refused 1 (by decide), refused 2 (by decide)⟩
  case spFollows =>
    exact fun v a b hr hf => completes_loopAnswer rfl hr fun h => loopSpOrder_follows (s := { s with host := h }) hf ref v a b
  case opens =>
    intro l v hr hl hv hf hway
    refine completes_loopAnswer rfl hr fun h => (loopModeOrder_opens (s := { s with host := h }) hl hv hf ref).trans ?_
    rw [if_neg (ne_true_of_eq_false (show ({ s with host := h } : State).loopUnderWay l = false from hway))]
    rfl
  case closes =>
    intro l v hr hl hcoef hpv hforce ha hway
    refine completes_loopAnswer rfl hr fun h =>
      (loopModeOrder_closes (s := { s with host := h }) hl hcoef hpv hforce ha ref v).trans ?_
    rw [if_neg (ne_true_of_eq_false (show ({ s with host := h } : State).loopUnderWay l = false from hway))]
    rfl
  case lacksCoef =>
    exact fun l v hr hl hcoef => completes_loopAnswer rfl hr fun h => loopModeOrder_lacksCoef (s := { s with host := h }) hl hcoef ref v
  case queues =>
    intro l v hr hl hv hf hsrc hroom
    exact completes_loopAnswer rfl hr fun h => loopSpOrder_queues (s := { s with host := h }) hl hv hf hsrc hroom ref
  case enable =>
    exact fun l hr hl hn he => completes_loopCtl hr hl hn le_rfl fun h => loopEnable_starts (s := { s with host := h }) hl he
  case disable =>
    intro l hr hl hn he hd ht hk
    have hzero : (s.setLoop n l.stopped).loopEnables n = 0 := loopEnables_disabled (loopOf_setLoop s n l.stopped) rfl
    exact hzero ▸ completes_loopCtl (base := s.setLoop n l.stopped) hr hl hn (by decide) fun h =>
      ⟨_, loopEnable_stops (s := { s with host := h }) hl he hd ht hk, raise_only _ _ _, raise_live _ _ _⟩
  case quiesce =>
    intro l d hr hl hn he hd hrole
    exact completes_loopCtl hr hl hn (by decide) fun h =>
      ⟨_, loopEnable_quiesces (s := { s with host := h }) hl he hd hrole, .refl _, rfl⟩
  case query =>
    intro first count a hr hfirst hc hc' ha
    have hrun : s.xingStopped 0x01 = false → (s.clearLatencies (s.loopsFrom first count)).xingStopped 0x01 = false := by
      unfold State.xingStopped
      rw [clearLatencies_fab]
      exact id
    refine ⟨?_, fun hls hx => delivers rfl hr fun h => ⟨_, loopQuery_delivers hfirst hc hc' ha hls ref h, hrun hx⟩⟩
    by_cases hls : s.loopsFrom first count = []
    · have hnone : Completes (.loopQuery ref first count a) s s ref 0x0906 0 (traceData 0 0) :=
        completes_at (a := ownReport 0 _) rfl hr fun h => loopQuery_empty (s := { s with host := h }) hfirst hc hc' ha hls ref
      change Completes _ s (s.clearLatencies (s.loopsFrom first count)) ref _ _ (traceData 0 (s.loopsFrom first count).length)
      rw [hls]
      exact hnone
    · exact completes_delivering (a := ownReport 0 _) rfl hr (loopQuery_delivers hfirst hc hc' ha hls ref)
  case trace =>
    intro count a hr hl hc hc' ha ht
    exact runs_at rfl hr fun h => loopTraceOrder_starts (s := { s with host := h }) hl hc hc' ha ht ref
  case table =>
    intro d hr hst
    refine completes_reporting (a := ownReport 0 _) rfl hr fun h => ?_
    obtain ⟨ps, hps⟩ := loopTable_stores (s := { s with host := h }) hst ref
    exact ⟨_, hps, raise_only _ _ _, raise_live _ _ _⟩

end Sys2Proof.Machine

/-! PROOF. The Tally's instructions that change only their task (R359–R363, R371, R377): where an instruction leaves its task, what its
operand is, and with that the bit and stack, word, float32 and comparison instructions. -/

namespace Sys2Proof.Machine

open Sys2Proof

section

variable {s : State} {c : Instr} {op a n k m : Nat} {t : TaskSt}

/-! ### One instruction (R359, R362) -/

theorem State.setTask_setTask (s : State) (k : Nat) (t u : TaskSt) : (s.setTask k t).setTask k u = s.setTask k u := by
  simp only [State.setTask, List.set_set]

/-- The task with its place past an instruction of `m` words. -/
def TaskSt.moved (t : TaskSt) (m : Nat) : TaskSt := { t with pc := t.pc + m }

/-- An instruction that is the next one has its effect on the task with its place moved on. -/
theorem exec_tStep (h : s.tallyAt op a n = some (k, t)) {f : State → Nat → TaskSt → State}
    (hc : exec c s = .next (s.tStep op a n f)) (hm : (if takesImm op a then 2 else 1) = m) :
    exec c s = .next (f (s.setTask k (t.moved m)) k (t.moved m)) := by
  rw [hc, ← hm]
  unfold State.tStep
  rw [h]
  rfl

/-- An instruction of one word that replaces its task's state by `u`. -/
theorem exec_replaces (h : s.tallyAt op a n = some (k, t)) {f : State → Nat → TaskSt → State} {u : TaskSt}
    (hc : exec c s = .next (s.tStep op a n f)) (hm : (if takesImm op a then 2 else 1) = 1)
    (hf : f (s.setTask k (t.moved 1)) k (t.moved 1) = (s.setTask k (t.moved 1)).setTask k u) : exec c s = .next (s.setTask k u) := by
  rw [exec_tStep h hc hm, hf, State.setTask_setTask]

/-! ### Bits and the stack (R363) -/

/-- Settles O25: each of the instructions replaces its task's stack, reading its operand bit by what the task's place does not touch. -/
theorem tallyBitInstructions : Obligations.TallyBitInstructions := by
  intro s k t a n
  refine ⟨?psh, ?pshn, ?andb, ?andnb, ?orb, ?ornb, ?xorb, ?psh0, ?psh1, ?and, ?or, ?xor, ?not, ?dup, ?drop⟩ <;>
    exact fun h => exec_replaces h rfl rfl rfl

/-! ### The 32-bit operand (R362) -/

/-- The words of an instruction with a 32-bit operand. -/
def insSize (a : Nat) : Nat := if a = 11 then 2 else 1

/-- The operand of a task's next instruction: the immediate word behind it, or a load. -/
def State.nextOperand (s : State) (t : TaskSt) (a n : Nat) : Word :=
  if a = 11 then ((s.tally.prog.map (·.code)).getD []).getD (t.pc + 1) 0 else word (s.tLoad t a n 4)

theorem insSize_eq (a : Nat) : (if (a == 11) = true then 2 else 1) = insSize a := by
  unfold insSize
  simp only [beq_iff_eq]

theorem tOperand_moved (s : State) (k : Nat) (t : TaskSt) (a n : Nat) :
    (s.setTask k (t.moved (insSize a))).tOperand (t.moved (insSize a)) a n = s.nextOperand t a n := by
  unfold insSize State.tOperand State.nextOperand
  split <;> rfl

/-- An instruction with a 32-bit operand has its effect with the immediate word or the load. -/
theorem exec_operand (f : State → Nat → TaskSt → Word → State)
    (hc : exec c s = .next (s.tStep op a n fun s k t => f s k t (s.tOperand t a n)))
    (hm : (if takesImm op a then 2 else 1) = insSize a) (h : s.tallyAt op a n = some (k, t)) :
    exec c s = .next (f (s.setTask k (t.moved (insSize a))) k (t.moved (insSize a)) (s.nextOperand t a n)) := by
  rw [exec_tStep h hc hm, tOperand_moved]

/-- An instruction that makes a new W of W and its operand. -/
theorem exec_operandW (g : Word → Word → Word)
    (hc : exec c s = .next (s.tStep op a n fun s k t => s.tW k t (g t.w (s.tOperand t a n))))
    (hm : (if takesImm op a then 2 else 1) = insSize a) (h : s.tallyAt op a n = some (k, t)) :
    exec c s = .next (s.setTask k { t with pc := t.pc + insSize a, w := g t.w (s.nextOperand t a n) }) :=
  (exec_operand (fun s k t v => s.tW k t (g t.w v)) hc hm h).trans (congrArg _ (s.setTask_setTask k _ _))

/-- An instruction that pushes a relation of W to its operand. -/
theorem exec_compares (r : Word → Word → Bool)
    (hc : exec c s = .next (s.tStep op a n fun s k t => s.tPush k t (r t.w (s.tOperand t a n))))
    (hm : (if takesImm op a then 2 else 1) = insSize a) (h : s.tallyAt op a n = some (k, t)) :
    exec c s = .next (s.setTask k { t with pc := t.pc + insSize a, stack := r t.w (s.nextOperand t a n) :: t.stack }) :=
  (exec_operand (fun s k t v => s.tPush k t (r t.w v)) hc hm h).trans (congrArg _ (s.setTask_setTask k _ _))

/-! ### Division and arithmetic faults (R363) -/

theorem tFault_moved (s : State) (k m : Nat) (t : TaskSt) :
    (s.setTask k (t.moved m)).tFault k { t.moved m with w := 0 } m
      = (s.setTask k { t with pc := t.pc + m, w := 0, arith := t.arith + 1 }).raiseTimed2 0x86 k [u16 k] true 1 t.pc := by
  unfold State.tFault
  rw [State.setTask_setTask, show ({ t.moved m with w := 0 } : TaskSt).pc - m = t.pc from Nat.add_sub_cancel _ _]
  rfl

/-- A division by 0 gives 0 and is counted. -/
theorem exec_divide_zero {f : Word → Word → Word} (hc : exec c s = .next (s.tStep op a n fun s k t => s.tDivide k t a n f))
    (hm : (if takesImm op a then 2 else 1) = insSize a) (h : s.tallyAt op a n = some (k, t)) (hv : s.nextOperand t a n = 0) :
    exec c s = .next ((s.setTask k { t with pc := t.pc + insSize a, w := 0, arith := t.arith + 1 }).raiseTimed2
      0x86 k [u16 k] true 1 t.pc) := by
  rw [exec_tStep h hc hm]
  unfold State.tDivide
  dsimp only
  rw [tOperand_moved, if_pos hv]
  exact congrArg _ (tFault_moved s k (insSize a) t)

theorem exec_divide {f : Word → Word → Word} (hc : exec c s = .next (s.tStep op a n fun s k t => s.tDivide k t a n f))
    (hm : (if takesImm op a then 2 else 1) = insSize a) (h : s.tallyAt op a n = some (k, t)) (hv : s.nextOperand t a n ≠ 0) :
    exec c s = .next (s.setTask k { t with pc := t.pc + insSize a, w := f t.w (s.nextOperand t a n) }) := by
  rw [exec_tStep h hc hm]
  unfold State.tDivide
  dsimp only
  rw [tOperand_moved, if_neg hv]
  exact congrArg _ (s.setTask_setTask k _ _)

/-- The quotient that a word holds (R363). -/
theorem divWord_eq {x y : Word} (h : ¬ (x = 0x80000000#32 ∧ y = 0xFFFFFFFF#32)) : divWord x y = BitVec.sdiv x y := by
  unfold divWord
  simp only [Bool.and_eq_true, decide_eq_true_eq, if_neg h]

/-! ### Quality and time of a transmit object (R377) -/

theorem tLoadQuality_tx (hs : slotTx n = true) (s : State) (k : Nat) (t : TaskSt) :
    s.tLoadQuality k t 9 n = ({ s with freeCnt := s.freeCnt + 1 }).tW k t (Config.freeWord 1 s.freeCnt) := by
  unfold State.tLoadQuality
  simp only [hs, if_true]
  rfl

theorem tLoadStamp_tx (hs : slotTx n = true) (s : State) (k : Nat) (t : TaskSt) :
    s.tLoadStamp k t 9 n = ({ s with freeCnt := s.freeCnt + 1 }).tW k t (Config.freeWord 2 s.freeCnt) := by
  unfold State.tLoadStamp
  simp only [hs, if_true]
  rfl

/-- An instruction of one word that takes a free value for W. -/
theorem exec_takesFree (h : s.tallyAt op a n = some (k, t)) {f : State → Nat → TaskSt → State} {site : Nat}
    (hc : exec c s = .next (s.tStep op a n f)) (hm : (if takesImm op a then 2 else 1) = 1)
    (hf : ∀ u v, f u k v = ({ u with freeCnt := u.freeCnt + 1 }).tW k v (Config.freeWord site u.freeCnt)) : exec c s = .next
      (({ s with freeCnt := s.freeCnt + 1 }).setTask k { t with pc := t.pc + 1, w := Config.freeWord site s.freeCnt }) := by
  rw [exec_tStep h hc hm, hf]
  exact congrArg _ (State.setTask_setTask { s with freeCnt := s.freeCnt + 1 } k _ _)

end

/-! ### Words (R363) -/

/-- Settles O28: a load replaces W by what it reads, and every other instruction by its function of W and the operand; only a division
looks at the operand first. -/
theorem tallyWordInstructions : Obligations.TallyWordInstructions := by
  intro s k t a n
  refine ⟨?ldw, ?ldbu, ?ldhs, ?ldhu, ?add, ?sub, ?mul, ?div, ?mod, ?divZero, ?modZero, ?andw, ?orw, ?xorw, ?shl, ?shr, ?asr, ?dio, ?tx⟩
  case ldw => exact exec_operandW (fun _ y => y) rfl (insSize_eq a)
  case ldbu | ldhs | ldhu => exact fun h => exec_replaces h rfl rfl rfl
  case add => exact exec_operandW (· + ·) rfl (insSize_eq a)
  case sub => exact exec_operandW (· - ·) rfl (insSize_eq a)
  case mul => exact exec_operandW (· * ·) rfl (insSize_eq a)
  case div =>
    intro hv hfits h
    rw [← divWord_eq hfits]
    exact exec_divide rfl (insSize_eq a) h hv
  case mod => exact fun hv h => exec_divide rfl (insSize_eq a) h hv
  case divZero | modZero => exact fun h hv => exec_divide_zero rfl (insSize_eq a) h hv
  case andw => exact exec_operandW (· &&& ·) rfl (insSize_eq a)
  case orw => exact exec_operandW (· ||| ·) rfl (insSize_eq a)
  case xorw => exact exec_operandW (· ^^^ ·) rfl (insSize_eq a)
  case shl => exact exec_operandW (fun x y => x <<< (y.toNat % 32)) rfl (insSize_eq a)
  case shr => exact exec_operandW (fun x y => x >>> (y.toNat % 32)) rfl (insSize_eq a)
  case asr => exact exec_operandW (fun x y => x.sshiftRight (y.toNat % 32)) rfl (insSize_eq a)
  case dio =>
    rintro rfl
    exact ⟨fun h => exec_replaces h rfl rfl rfl, fun h => exec_replaces h rfl rfl rfl⟩
  case tx =>
    rintro rfl hs
    exact ⟨fun h => exec_takesFree h rfl rfl fun u v => tLoadQuality_tx hs u k v,
      fun h => exec_takesFree h rfl rfl fun u v => tLoadStamp_tx hs u k v⟩

/-! ### float32 (R363) -/

section

variable {s : State} {c : Instr} {op a n k : Nat} {t : TaskSt}

/-- Whatever the free bits, the exponent of a quiet NaN is all ones and the top bit of its significand set. -/
theorem fIsNaN_quietNaN (op : Nat) (x y : F32) : fIsNaN (quietNaN op x y) = true := by
  have bit : ∀ i, 22 ≤ i → i < 31 → (quietNaN op x y).toNat.testBit i = true := by
    intro i hi hi'
    rw [BitVec.testBit_toNat, quietNaN, BitVec.getLsbD_or]
    interval_cases i <;> exact Bool.or_true _
  have hexp : fExp (quietNaN op x y) = 255 := by
    unfold fExp
    refine Nat.eq_of_testBit_eq fun i => ?_
    rw [show (256 : Nat) = 2 ^ 8 from rfl, show (255 : Nat) = 2 ^ 8 - 1 from rfl, Nat.testBit_mod_two_pow, Nat.testBit_div_two_pow,
      Nat.testBit_two_pow_sub_one]
    by_cases hi : i < 8
    · simp [hi, bit (i + 23) (by omega) (by omega)]
    · simp [hi]
  have hman : fMan (quietNaN op x y) ≠ 0 := by
    intro h0
    have h1 : (fMan (quietNaN op x y)).testBit 22 = true := by
      rw [fMan, Nat.testBit_mod_two_pow, bit 22 le_rfl (by omega)]
      rfl
    rw [h0, Nat.zero_testBit] at h1
    cases h1
  simp [fIsNaN, hexp, hman]

/-- A float32 instruction gives its function's result, and some quiet NaN where that is a NaN. -/
theorem exec_float {f : F32 → F32 → F32} {r : F32} (hc : exec c s = .next (s.tStep op a n fun s k t => s.tFloat k t op f (s.tOperand t a n)))
    (hm : (if takesImm op a then 2 else 1) = insSize a) (hr : f t.w (s.nextOperand t a n) = r) (h : s.tallyAt op a n = some (k, t)) :
    ∃ w, exec c s = .next (s.setTask k { t with pc := t.pc + insSize a, w := w }) ∧ (fIsNaN r = false → w = r) ∧ fIsNaN w = fIsNaN r := by
  subst hr
  refine ⟨_, exec_operandW (fun x y => if fIsNaN (f x y) then quietNaN op x y else f x y) hc hm h, fun hn => ?_, ?_⟩
  · exact if_neg (ne_true_of_eq_false hn)
  · split
    next hn => rw [fIsNaN_quietNaN, hn]
    next => rfl

/-- Of two numbers of which the first is not 0 the order chooses (R363). -/
theorem fPick_of_numbers {x y : F32} (hx : fIsNaN x = false) (hy : fIsNaN y = false) (hz : fIsZero x = false) (op : Nat)
    (lt : F32 → F32 → Bool) : fPick op lt x y = if lt y x then y else x := by
  simp [fPick, hx, hy, hz]

theorem exec_toInt (hn : fIsNaN t.w = false) (h : s.tallyAt 0x59 0 0 = some (k, t)) :
    exec .tFti s = .next (s.setTask k { t with pc := t.pc + 1, w := satInt32 (fToInt t.w) }) := by
  refine exec_replaces h rfl rfl ?_
  exact if_neg (ne_true_of_eq_false hn)

theorem exec_toInt_nan (h : s.tallyAt 0x59 0 0 = some (k, t)) (hn : fIsNaN t.w = true) : exec .tFti s =
    .next ((s.setTask k { t with pc := t.pc + 1, w := 0, arith := t.arith + 1 }).raiseTimed2 0x86 k [u16 k] true 1 t.pc) := by
  rw [exec_tStep (m := 1) h rfl rfl]
  exact congrArg _ ((if_pos hn).trans (tFault_moved s k 1 t))

end

/-- Settles O29: the results are those of R363's functions, a NaN among them quiet; FMIN and FMAX choose by the order of two numbers. -/
theorem tallyFloatInstructions : Obligations.TallyFloatInstructions := by
  intro s k t a n
  refine ⟨?add, ?sub, ?mul, ?div, ?min, ?max, ?itf, ?fti, ?ftiNaN, ?abs, ?neg⟩
  case add | sub | mul | div => exact exec_float rfl (insSize_eq a) rfl
  case min | max => exact fun ⟨hx, hy, hz⟩ => exec_float rfl (insSize_eq a) (fPick_of_numbers hx hy hz _ _)
  case itf | abs | neg => exact fun h => exec_replaces h rfl rfl rfl
  case fti => exact exec_toInt
  case ftiNaN => exact exec_toInt_nan

end Sys2Proof.Machine

/-! PROOF. What leaves the Logic Tally alone: copies, station frames, rollouts, bus objects and the local outputs (R264, R292, R305,
R307, R357, R393). -/

namespace Sys2Proof.Machine

open Sys2Proof

variable (s : State)

theorem foldl_tally {α : Type} {f : State → α → State} (h : ∀ s a, (f s a).tally = s.tally) (l : List α) (s : State) :
    (l.foldl f s).tally = s.tally := by
  induction l generalizing s with
  | nil => rfl
  | cons a l ih => exact (ih _).trans (h s a)

/-! ### Copies and the local outputs -/

theorem OnlyCopies.tally {s t : State} (h : OnlyCopies s t) : t.tally = s.tally := by rw [h.rest]

theorem OnlyIssues.tally {s t : State} (h : OnlyIssues s t) : t.tally = s.tally := by rw [h]

@[simp] theorem State.cross_tally (xs : List Nat) (o : Output) : (s.cross xs o).tally = s.tally := (cross_copies s xs o).tally

@[simp] theorem State.mirror_tally (typ : Nat) (body : List Fld) : (s.mirror typ body).tally = s.tally := (mirror_copies s typ body).tally

@[simp] theorem State.mirrorCtx_tally (id : Nat) : (s.mirrorCtx id).tally = s.tally := (mirrorCtx_copies s id).tally

@[simp] theorem State.mirrorTally_tally (area k start : Nat) (data : List Byte) : (s.mirrorTally area k start data).tally = s.tally :=
  s.mirror_tally _ _

@[simp] theorem State.mirrorRuns_tally (area k : Nat) (addrs : List Nat) (read : Nat → Byte) :
    (s.mirrorRuns area k addrs read).tally = s.tally :=
  foldl_tally (fun s _ => s.mirrorTally_tally _ _ _ _) _ s

theorem State.driveDio_only : OnlyReports s s.driveDio := by
  unfold State.driveDio
  split
  · exact .refl s
  · exact emit_only _ _

@[simp] theorem State.driveDio_tally : s.driveDio.tally = s.tally := s.driveDio_only.tally

/-! ### Station frames -/

@[simp] theorem State.noteTags_tally : s.noteTags.tally = s.tally := by
  unfold State.noteTags
  split
  · rfl
  · split
    · split <;> simp
    · rfl

@[simp] theorem State.emitFrame_tally (c : Ctx) (seq : Word) (f : StnFrame) (txn : Option (Nat × Nat × Nat)) :
    (s.emitFrame c seq f txn).tally = s.tally := by
  unfold State.emitFrame State.sendStn
  dsimp only
  split <;> simp

@[simp] theorem State.sendOne_tally (c : Ctx) (w : Waiting) (rest : List Waiting) : (s.sendOne c w rest).tally = s.tally := by
  unfold State.sendOne
  dsimp only
  split
  · split <;> simp
  · split
    · split <;> simp
    · simp

@[simp] theorem State.pumpN_tally (n : Nat) (s : State) (id : Nat) : (State.pumpN n s id).tally = s.tally := by
  induction n generalizing s with
  | zero => rfl
  | succ n ih =>
    unfold State.pumpN
    split
    · split
      · simp [ih]
      · rfl
    · rfl

@[simp] theorem State.pump_tally (id : Nat) : (s.pump id).tally = s.tally := State.pumpN_tally _ s id

@[simp] theorem State.queueFrame_tally (id : Nat) (f : StnFrame) : (s.queueFrame id f).1.tally = s.tally := by
  unfold State.queueFrame
  split <;> simp

@[simp] theorem State.queueOutput_tally (id : Nat) : (s.queueOutput id).tally = s.tally := by
  unfold State.queueOutput
  split
  · split <;> simp
  · rfl

@[simp] theorem State.stnPend_tally (id slot : Nat) (v : F32) : (s.stnPend id slot v).tally = s.tally := by
  simp [State.stnPend]

@[simp] theorem State.stnCancel_tally (id : Nat) (seq : Word) : (s.stnCancel id seq).tally = s.tally := by
  unfold State.stnCancel
  split
  · rfl
  · dsimp only
    split
    · rfl
    · split
      · rfl
      · split <;> simp

@[simp] theorem State.stnRestore_tally (id : Nat) : (s.stnRestore id).tally = s.tally := by
  unfold State.stnRestore State.slotBack
  split <;> simp

@[simp] theorem State.stnOutputs_tally (id : Nat) (new : List Byte) (blocked : Bool) : (s.stnOutputs id new blocked).tally = s.tally := by
  unfold State.stnOutputs
  split
  · rfl
  · dsimp only
    split
    · split <;> rfl
    · split <;> split <;> simp

/-- The stations' safe images (R307). -/
@[simp] theorem State.stnSafe_tally : s.stnSafe.tally = s.tally := by
  refine foldl_tally (fun s id => ?_) _ s
  split
  · split
    · split <;> simp
    · simp
  · rfl

/-! ### Rollouts -/

@[simp] theorem State.mirrorRoll_tally (x : Rollout) : (s.mirrorRoll x).tally = s.tally := s.mirror_tally _ _

@[simp] theorem State.putRoll_tally (x : Rollout) : (s.putRoll x).tally = s.tally := by simp [State.putRoll]

@[simp] theorem State.settleRoll_tally : s.settleRoll.tally = s.tally := by
  unfold State.settleRoll
  split <;> simp

@[simp] theorem State.endRoll_tally (x : Rollout) (st : RollSt) (reason : Nat) : (s.endRoll x st reason).tally = s.tally := by
  unfold State.endRoll
  dsimp only
  split <;> split <;> simp

@[simp] theorem State.submitRoll_tally (x : Rollout) : (s.submitRoll x).tally = s.tally := by
  have built : ∀ (a1 : Nat), (s.build x a1).1.tally = s.tally := fun a1 => foldl_tally (fun s i => s.stnPend_tally i 0 _) _ s
  unfold State.submitRoll State.vet
  dsimp only
  split
  · simp
  · split <;> simp [built]

@[simp] theorem State.nextOfNet_tally (n : Nat) (s : State) (net : Nat) : (State.nextOfNet n s net).tally = s.tally := by
  induction n generalizing s with
  | zero => rfl
  | succ n ih =>
    unfold State.nextOfNet
    split
    · rfl
    · split
      · simp [ih]
      · rfl

@[simp] theorem State.loopSpCancel_tally (n rollout applyAt : Nat) : (s.loopSpCancel n rollout applyAt).tally = s.tally := by
  unfold State.loopSpCancel
  split <;> rfl

@[simp] theorem State.stopRoll_tally (x : Rollout) (st : RollSt) (reason successor : Nat) :
    (s.stopRoll x st reason successor).tally = s.tally := by
  unfold State.stopRoll State.freeNet
  extract_lets t la u goes gone cancel dead roll v w y z
  have hu : u.tally = s.tally := by
    unfold u
    split <;> rfl
  have hc : ∀ a c, (cancel a c).tally = a.tally := by
    intro a c
    unfold cancel
    split <;> simp
  have hw : w.tally = s.tally := (foldl_tally hc gone v).trans hu
  have hz : z.tally = s.tally := by
    unfold z
    split <;> simp [hw]
  simp [hz]

/-- The rollouts whose permit falls (R264). -/
@[simp] theorem State.checkPermits_tally : s.checkPermits.tally = s.tally := by
  refine foldl_tally (fun s x => ?_) _ s
  split <;> simp

/-! ### Bus objects -/

@[simp] theorem State.handBus_tally (b o : Nat) (ref : Option OrderRef) : (s.handBus b o ref).tally = s.tally :=
  (handOwn_issues s b o false ref).tally

@[simp] theorem State.loadTx_tally (b o : Nat) (bs : List Byte) : (s.loadTx b o bs).tally = s.tally := rfl

@[simp] theorem State.busCommit_tally (b o : Nat) (bs : List Byte) : (s.busCommit b o bs).tally = s.tally := by
  unfold State.busCommit
  split <;> simp

/-- What is done for every transmit object of both buses. -/
theorem foldl_objects_tally {f : State → Nat → Nat → State} (h : ∀ s b o, (f s b o).tally = s.tally) :
    ((List.range 2).foldl (fun s b => ((s.bus b).tx.map Prod.fst).foldl (fun s o => f s b o) s) s).tally = s.tally :=
  foldl_tally (fun s b => foldl_tally (fun s o => h s b o) _ s) _ s

@[simp] theorem State.busSafe_tally : s.busSafe.tally = s.tally := by
  refine foldl_objects_tally s fun s b o => ?_
  dsimp only
  split <;> simp

@[simp] theorem State.txSafe_tally : s.txSafe.tally = s.tally := by
  refine foldl_objects_tally s fun s b o => ?_
  split <;> simp

end Sys2Proof.Machine

/-! PROOF. The task that runs, and the instructions that write beside it: stores, timers, counters and edge detectors (R355, R359,
R362, R365–R368, R370, R375). -/

namespace Sys2Proof.Machine

open Sys2Proof

section

variable {s : State} {c : Instr} {op a n k m : Nat} {t : TaskSt}

/-! ### Tasks (R359, R370) -/

theorem task_setTask_same (h : k < s.tally.tasks.length) (t : TaskSt) : (s.setTask k t).task k = t := by
  simp [State.task, State.setTask, List.getD_eq_getElem?_getD, h]

theorem task_setTask_ne {j : Nat} (h : k ≠ j) (s : State) (t : TaskSt) : (s.setTask k t).task j = s.task j := by
  simp [State.task, State.setTask, List.getD_eq_getElem?_getD, h]

@[simp] theorem setTask_length (s : State) (k : Nat) (t : TaskSt) : (s.setTask k t).tally.tasks.length = s.tally.tasks.length :=
  List.length_set

/-- The list holds no task from its length on. -/
theorem task_beyond (h : s.tally.tasks.length ≤ k) : s.task k = default := by
  simp [State.task, List.getD_eq_getElem?_getD, h]

theorem lt_length_of_started (h : (s.task k).started = true) : k < s.tally.tasks.length := by
  by_contra hk
  rw [task_beyond (Nat.le_of_not_lt hk)] at h
  cases h

theorem started_of_topTask (h : s.topTask = some k) : (s.task k).started = true := by
  have best : ∀ (l : List Nat) (x : Option Nat), (l.foldl (fun a k => match a with
      | some j => if s.taskPrio j < s.taskPrio k then some k else a
      | none => some k) x) = some k → x = some k ∨ k ∈ l := by
    intro l
    induction l with
    | nil => exact fun x hx => .inl hx
    | cons b l ih =>
      intro x hx
      rcases ih _ hx with hb | hl
      · cases x with
        | none => exact .inr (List.mem_cons.mpr (.inl (Option.some.inj hb).symm))
        | some j =>
          dsimp only at hb
          split at hb
          · exact .inr (List.mem_cons.mpr (.inl (Option.some.inj hb).symm))
          · exact .inl hb
      · exact .inr (List.mem_cons_of_mem _ hl)
  rcases best _ none h with hn | hmem
  · cases hn
  · exact (List.mem_filter.mp hmem).2

/-- What an instruction that is the next one says of its task. -/
theorem tallyAt_some (h : s.tallyAt op a n = some (k, t)) : s.tallyRuns = true ∧ t = s.task k ∧ t.started = true := by
  unfold State.tallyAt at h
  split at h
  next p j hp hj =>
    split at h
    next hc =>
      obtain ⟨rfl, rfl⟩ : j = k ∧ s.task j = t := by simpa using h
      refine ⟨?_, rfl, ?_⟩
      · simp only [Bool.and_eq_true] at hc
        exact hc.1.1.1
      · unfold State.curTask at hj
        split at hj
        next i hi =>
          split at hj
          · cases hj
          · exact started_of_topTask (hi.trans hj)
        · cases hj
    · cases h
  · cases h

theorem tallyAt_lt (h : s.tallyAt op a n = some (k, t)) : k < s.tally.tasks.length := by
  obtain ⟨-, rfl, hs⟩ := tallyAt_some h
  exact lt_length_of_started hs

/-- An instruction of one word that writes the Tally's parts other than its tasks by `w`, and its task's state. -/
theorem exec_writes (h : s.tallyAt op a n = some (k, t)) {f : State → Nat → TaskSt → State} {u : TaskSt} (w : Tally → Tally)
    (hw : ∀ y l, w { y with tasks := l } = { w y with tasks := l }) (hc : exec c s = .next (s.tStep op a n f))
    (hm : (if takesImm op a then 2 else 1) = 1)
    (hf : f (s.setTask k (t.moved 1)) k (t.moved 1) = (({ s.setTask k (t.moved 1) with
      tally := w (s.setTask k (t.moved 1)).tally } : State)).setTask k u) :
    exec c s = .next (({ s with tally := w s.tally } : State).setTask k u) := by
  have htasks := congrArg Tally.tasks (hw s.tally s.tally.tasks)
  have hwrote := hw s.tally (s.tally.tasks.set k (t.moved 1))
  rw [exec_tStep h hc hm, hf]
  unfold State.setTask
  dsimp only at htasks hwrote ⊢
  rw [hwrote, List.set_set, htasks]

/-! ### Bits of memory -/

/-- Setting a bit leaves every other bit as it was. -/
theorem Mem.bit_setBit (m : List Host.Cell) (n : Nat) (v : Bool) (i : Nat) :
    Mem.bit (Mem.setBit m n v) i = if i = n then v else Mem.bit m i := by
  have hi : i % 8 < 8 := Nat.mod_lt _ (by decide)
  have mask : (BitVec.ofNat 8 (2 ^ (n % 8))).getLsbD (i % 8) = decide (n % 8 = i % 8) := by
    rw [BitVec.getLsbD_ofNat, Nat.testBit_two_pow, decide_eq_true hi, Bool.true_and]
  unfold Mem.bit Mem.setBit
  dsimp only
  generalize BitVec.ofNat 8 (2 ^ (n % 8)) = b at mask ⊢
  rw [Mem.read_write]
  by_cases he : i = n
  · subst he
    rw [decide_eq_true rfl] at mask
    rw [if_pos rfl, if_pos rfl]
    cases v <;> simp only [if_true, Bool.false_eq_true, if_false, BitVec.getLsbD_or, BitVec.getLsbD_and, BitVec.getLsbD_not, mask, hi,
      decide_true, Bool.not_true, Bool.and_false, Bool.or_true]
  · rw [if_neg he]
    by_cases hb : n / 8 = i / 8
    · rw [decide_eq_false (by omega)] at mask
      rw [if_pos hb, hb]
      cases v <;> simp only [if_true, Bool.false_eq_true, if_false, BitVec.getLsbD_or, BitVec.getLsbD_and, BitVec.getLsbD_not, mask, hi,
        decide_true, Bool.not_false, Bool.and_true, Bool.or_false]
    · rw [if_neg hb]

/-! ### Stores (R362, R375) -/

/-- A byte written under a mask of one bit is that bit set. -/
theorem write_masked (m : List Host.Cell) (n : Nat) (v : Bool) :
    Mem.write m (n / 8) ((Mem.read m (n / 8) &&& ~~~ BitVec.ofNat 8 (2 ^ (n % 8)))
      ||| ((if v then BitVec.ofNat 8 (2 ^ (n % 8)) else 0#8) &&& BitVec.ofNat 8 (2 ^ (n % 8)))) = Mem.setBit m n v := by
  have set_ : ∀ x b : Byte, (x &&& ~~~ b) ||| (b &&& b) = x ||| b := by
    intro x b
    ext i hi
    simp only [BitVec.getElem_or, BitVec.getElem_and, BitVec.getElem_not]
    cases x[i] <;> cases b[i] <;> rfl
  unfold Mem.setBit
  cases v with
  | true => exact congrArg _ (set_ _ _)
  | false => exact congrArg _ (by simp)

/-- The one bit that such a mask names. -/
theorem bits_of_mask (n : Nat) :
    ((List.range 8).filter (fun i => (BitVec.ofNat 8 (2 ^ (n % 8))).getLsbD i)).map (fun i => n / 8 * 8 + i) = [n] := by
  have one : ∀ i < 8, (List.range 8).filter (fun j => (BitVec.ofNat 8 (2 ^ i)).getLsbD j) = [i] := by decide
  rw [one _ (Nat.mod_lt _ (by decide))]
  exact congrArg (· :: []) (Nat.div_add_mod' n 8)

/-- A bit stored to a marker is set there and noted for publication. -/
theorem tStoreBit_marker (s : State) (k n : Nat) (v : Bool) : s.tStoreBit k 2 n v
    = ({ s with tally := { s.tally with markers := Mem.setBit s.tally.markers n v } } : State).setTask k
        { s.task k with pubBits := (s.task k).pubBits ++ [n] } := by
  have hbits := bits_of_mask n
  have hput := write_masked s.tally.markers n v
  unfold State.tStoreBit State.tPut
  simp only [List.zipIdx_cons, List.zipIdx_nil, List.map_cons, List.map_nil, List.foldl_cons, List.foldl_nil, List.flatMap_cons,
    List.flatMap_nil, List.append_nil, Nat.add_zero, if_true, hbits, hput]

theorem exec_storesMarker {v : Bool} (h : s.tallyAt op 2 n = some (k, t)) {f : State → Nat → TaskSt → State}
    (hc : exec c s = .next (s.tStep op 2 n f)) (hm : (if takesImm op 2 then 2 else 1) = 1)
    (hf : f (s.setTask k (t.moved 1)) k (t.moved 1) = (s.setTask k (t.moved 1)).tStoreBit k 2 n v) :
    ∃ u, exec c s = .next u ∧ (∀ i, Mem.bit u.tally.markers i = if i = n then v else Mem.bit s.tally.markers i)
      ∧ u = { (s.setTask k { t with pc := t.pc + 1, pubBits := t.pubBits ++ [n] }) with
          tally := { (s.setTask k { t with pc := t.pc + 1, pubBits := t.pubBits ++ [n] }).tally with markers := u.tally.markers } } := by
  refine ⟨_, exec_writes h (fun y => { y with markers := Mem.setBit y.markers n v }) (fun _ _ => rfl) hc hm
    (u := { t with pc := t.pc + 1, pubBits := t.pubBits ++ [n] }) ?_, fun i => Mem.bit_setBit s.tally.markers n v i, rfl⟩
  rw [hf, tStoreBit_marker, task_setTask_same (tallyAt_lt h)]
  rfl

/-- An instruction of one word without an effect only moves its task on, as SETB, CLRB and TRIG do where T0 is 0. -/
theorem exec_skips (h : s.tallyAt op a n = some (k, t)) {f : State → Nat → TaskSt → State} (hc : exec c s = .next (s.tStep op a n f))
    (hm : (if takesImm op a then 2 else 1) = 1) (hf : f (s.setTask k (t.moved 1)) k (t.moved 1) = s.setTask k (t.moved 1)) :
    exec c s = .next (s.setTask k { t with pc := t.pc + 1 }) := by
  rw [exec_tStep h hc hm, hf]
  rfl

theorem leBytes_getElem? (n v i : Nat) : (leBytes n v)[i]? = if i < n then some (BitVec.ofNat 8 (v / 2 ^ (8 * i))) else none := by
  induction n generalizing v i with
  | zero => simp [leBytes]
  | succ n ih =>
    cases i with
    | zero => simp [leBytes]
    | succ i =>
      rw [leBytes, List.getElem?_cons_succ, ih, Nat.div_div_eq_div_mul, show 256 * 2 ^ (8 * i) = 2 ^ (8 * (i + 1)) by ring]
      simp only [Nat.succ_lt_succ_iff]

/-- Bytes written whole. -/
theorem foldl_whole_bytes (bs : List Byte) (m : List Host.Cell) (a i : Nat) :
    (((bs.map (fun b => (0xFF#8, b))).zipIdx i).map (fun p => (a + p.2, p.1.1, p.1.2))).foldl
        (fun m (c : Nat × Byte × Byte) => Mem.write m c.1 ((Mem.read m c.1 &&& ~~~ c.2.1) ||| (c.2.2 &&& c.2.1))) m
      = Mem.writes m (a + i) bs := by
  have whole : ∀ x b : Byte, (x &&& ~~~ 0xFF#8) ||| (b &&& 0xFF#8) = b := by
    intro x b
    rw [show ~~~ 0xFF#8 = 0#8 from rfl, BitVec.and_zero, BitVec.zero_or]
    exact BitVec.and_allOnes
  induction bs generalizing m i with
  | nil => rfl
  | cons b bs ih =>
    simp only [List.map_cons, List.zipIdx_cons, List.foldl_cons, whole]
    exact ih _ _

/-- A store to the data words writes its bytes and notes the words for publication. -/
theorem tStore_words (s : State) (k n size v : Nat) : ∃ ws, s.tStore k 3 n size v
    = ({ s with tally := { s.tally with words := Mem.writes s.tally.words n (leBytes size v) } } : State).setTask k
        { s.task k with pubWords := (s.task k).pubWords ++ ws } := by
  have hbytes : ordBytes (s.tBig 3 n) size v = leBytes size v := rfl
  have hput := foldl_whole_bytes (leBytes size v) s.tally.words n 0
  unfold State.tStore State.tPut
  simp only [hbytes, hput, Nat.add_zero]
  exact ⟨_, rfl⟩

theorem exec_storesWords {size v : Nat} (h : s.tallyAt op 3 n = some (k, t)) {f : State → Nat → TaskSt → State}
    (hc : exec c s = .next (s.tStep op 3 n f)) (hm : (if takesImm op 3 then 2 else 1) = 1)
    (hf : f (s.setTask k (t.moved 1)) k (t.moved 1) = (s.setTask k (t.moved 1)).tStore k 3 n size v)
    (hv : ∀ i < size, BitVec.ofNat 8 (v / 2 ^ (8 * i)) = BitVec.ofNat 8 (t.w.toNat / 2 ^ (8 * i))) :
    ∃ u, exec c s = .next u
      ∧ (∀ m, Mem.read u.tally.words m =
          if n ≤ m ∧ m < n + size then BitVec.ofNat 8 (t.w.toNat / 2 ^ (8 * (m - n))) else Mem.read s.tally.words m)
      ∧ u.tally.markers = s.tally.markers ∧ u.tally.outImg = s.tally.outImg ∧ u.can = s.can ∧ u.stn = s.stn
      ∧ (u.task k).pc = t.pc + 1 ∧ (u.task k).writes = t.writes := by
  have hk := tallyAt_lt h
  obtain ⟨ws, hstore⟩ := tStore_words (s.setTask k (t.moved 1)) k n size v
  rw [task_setTask_same hk] at hstore
  have hrun := exec_writes h (fun y => { y with words := Mem.writes y.words n (leBytes size v) }) (fun _ _ => rfl) hc hm (hf.trans hstore)
  have htask := task_setTask_same (s := { s with tally := { s.tally with words := Mem.writes s.tally.words n (leBytes size v) } }) hk
    { t.moved 1 with pubWords := (t.moved 1).pubWords ++ ws }
  refine ⟨_, hrun, fun m => ?_, rfl, rfl, rfl, rfl, ?_, ?_⟩
  · refine (Mem.read_writes (leBytes size v) s.tally.words n m).trans ?_
    rw [leBytes_getElem?]
    by_cases hn : n ≤ m
    · by_cases hm' : m - n < size
      · rw [if_pos hn, if_pos hm', if_pos ⟨hn, by omega⟩]
        exact hv _ hm'
      · rw [if_pos hn, if_neg hm', if_neg (by omega)]
        rfl
    · rw [if_neg hn, if_neg fun hh => hn hh.1]
  · rw [htask]
    rfl
  · rw [htask]
    rfl

/-- A byte below the cut is the same before and after it. -/
theorem byte_of_mod {i size : Nat} (hi : i < size) (v : Nat) :
    BitVec.ofNat 8 (v % 2 ^ (8 * size) / 2 ^ (8 * i)) = BitVec.ofNat 8 (v / 2 ^ (8 * i)) := by
  refine BitVec.eq_of_toNat_eq ?_
  rw [BitVec.toNat_ofNat, BitVec.toNat_ofNat]
  refine Nat.eq_of_testBit_eq fun j => ?_
  by_cases hj : j < 8
  · have hlt : j + 8 * i < 8 * size := by omega
    simp only [Nat.testBit_mod_two_pow, Nat.testBit_div_two_pow, hj, hlt, decide_true, Bool.true_and]
  · simp only [Nat.testBit_mod_two_pow, hj, decide_false, Bool.false_and]

/-- A store to the local outputs, a station's output image or a transmit object is a change of its task's change set. -/
theorem tStore_changes (ha : a = 1 ∨ a = 9 ∨ (a = 8 ∧ n % 64 < 48)) (s : State) (k size v : Nat) : s.tStore k a n size v
    = s.setTask k { s.task k with
        writes := (s.task k).writes ++ (ordBytes (s.tBig a n) size v).zipIdx.map (fun p => (a, n + p.2, 0xFF#8, p.1)) } := by
  have h8 : ¬ (a = 8 ∧ 48 ≤ n % 64) := by omega
  have h23 : a ≠ 2 ∧ a ≠ 3 ∧ a ≠ 4 ∧ a ≠ 5 := by omega
  obtain ⟨h2, h3, h4, h5⟩ := h23
  unfold State.tStore State.tPut
  simp only [h2, h3, h4, h5, h8, decide_false, Bool.or_self, Bool.false_eq_true, if_false, Bool.and_eq_true, decide_eq_true_eq,
    List.zipIdx_map, List.map_map]
  rfl

theorem exec_storesChange {size v : Nat} (ha : a = 1 ∨ a = 9 ∨ (a = 8 ∧ n % 64 < 48)) (h : s.tallyAt op a n = some (k, t))
    {f : State → Nat → TaskSt → State} (hc : exec c s = .next (s.tStep op a n f)) (hm : (if takesImm op a then 2 else 1) = 1)
    (hf : f (s.setTask k (t.moved 1)) k (t.moved 1) = (s.setTask k (t.moved 1)).tStore k a n size v) :
    exec c s = .next (s.setTask k { t with
      pc := t.pc + 1
      writes := t.writes ++ (ordBytes (s.tBig a n) size v).zipIdx.map (fun p => (a, n + p.2, 0xFF#8, p.1)) }) := by
  refine exec_replaces h hc hm ?_
  rw [hf, tStore_changes ha, task_setTask_same (tallyAt_lt h)]
  rfl

/-- One byte is the same in either order. -/
theorem ordBytes_one (big : Bool) (v : Nat) : ordBytes big 1 v = [BitVec.ofNat 8 v] := by
  cases big <;> rfl

end

/-- Settles O26: markers and data words are written where the store names them, the areas of the commit in the change set alone. -/
theorem tallyStoresReachTheirBytes : Obligations.TallyStoresReachTheirBytes := by
  intro s k t n
  refine ⟨?outb, ?setb, ?clrb, ?setbSkips, ?clrbSkips, ?stw, ?stb, ?sth, ?changes⟩
  case outb => exact fun h => exec_storesMarker h rfl rfl rfl
  case setb | clrb => exact fun h hx => exec_storesMarker h rfl rfl (if_pos hx)
  case setbSkips | clrbSkips => exact fun a h hx => exec_skips h rfl rfl (if_neg (ne_true_of_eq_false hx))
  case stw => exact fun h => exec_storesWords h rfl rfl rfl fun _ _ => rfl
  case stb => exact fun h => exec_storesWords h rfl rfl rfl fun _ hi => byte_of_mod hi _
  case sth => exact fun h => exec_storesWords h rfl rfl rfl fun _ hi => byte_of_mod hi _
  case changes =>
    refine fun a ha => ⟨fun h => exec_storesChange ha h rfl rfl rfl, fun h => ?_⟩
    have hrun := exec_storesChange (v := t.w.toNat % 2 ^ 8) ha h (c := .tStb a n) rfl rfl rfl
    rw [ordBytes_one] at hrun
    rw [hrun]
    have hbyte : BitVec.ofNat 8 (t.w.toNat % 2 ^ 8) = BitVec.ofNat 8 t.w.toNat := by
      simpa using byte_of_mod (i := 0) (size := 1) (by decide) t.w.toNat
    rw [hbyte]
    rfl

/-! ### Timers, counters and edge detectors (R366–R368) -/

/-- An on-delay without input is 0; with it Q comes at once only with PRESET 0, else when ELAPSED reaches PRESET. -/
theorem timerOn_q (y : Timer) (base : Nat) : (timerOn y false base).q = false
    ∧ ((timerOn y true base).q = true → y.q = true ∨ y.preset = 0 ∨ y.preset ≤ (timerOn y true base).elapsed) := by
  refine ⟨rfl, fun hq => ?_⟩
  unfold timerOn at hq ⊢
  simp only [Bool.not_true, Bool.false_eq_true, if_false] at hq ⊢
  split at hq
  · split at hq
    next hp => exact .inr (.inl hp)
    next => exact .inl hq
  · split at hq
    · split at hq
      next hin hrun hreached =>
        refine .inr (.inr ?_)
        rw [if_neg hin, if_pos hrun, if_pos hreached]
        exact hreached
      next => exact .inl hq
    · exact .inl hq

/-- Settles O27: each instruction puts the next state of its timer, counter or edge detector and notes it with the task. -/
theorem tallyTimersCountersEdges : Obligations.TallyTimersCountersEdges := by
  refine ⟨fun s k t a n => ?_, timerOn_q⟩
  refine ⟨?ton, ?tof, ?tp, ?trst, ?ctu, ?ctd, ?crst, ?cadd, ?edgr, ?edgf⟩
  case ton | tof | tp => exact fun h => exec_writes h (fun y => { y with timers := alPut y.timers n _ }) (fun _ _ => rfl) rfl rfl rfl
  case trst =>
    exact fun h hx => exec_writes h (fun y => { y with timers := alPut y.timers n _ }) (fun _ _ => rfl) rfl rfl (if_pos hx)
  case ctu | ctd =>
    exact fun h => exec_writes h (fun y => { y with counters := alPut y.counters n _ }) (fun _ _ => rfl) rfl rfl rfl
  case crst | cadd =>
    exact fun hx h => exec_writes h (fun y => { y with counters := alPut y.counters n _ }) (fun _ _ => rfl) rfl rfl (if_pos hx)
  case edgr | edgf =>
    exact fun h => exec_writes h (fun y => { y with edges := alPut y.edges n _ }) (fun _ _ => rfl) rfl rfl rfl

end Sys2Proof.Machine

/-! PROOF. Comparisons, jumps, TRIG and the end of a cycle (R363, R371, R375, R376). -/

namespace Sys2Proof.Machine

open Sys2Proof

section

variable {s : State} {k n : Nat} {t : TaskSt}

/-! ### Jumps and triggers -/

theorem exec_jumps {c : Instr} {op : Nat} {st : List Bool} {go : Bool} (h : s.tallyAt op 0 n = some (k, t))
    {f : State → Nat → TaskSt → State} (hc : exec c s = .next (s.tStep op 0 n f)) (hm : (if takesImm op 0 then 2 else 1) = 1)
    (hf : f (s.setTask k (t.moved 1)) k (t.moved 1) = (s.setTask k (t.moved 1)).tJump k { t.moved 1 with stack := st } n go) :
    exec c s = .next (s.setTask k { t with pc := if go then n else t.pc + 1, stack := st }) := by
  refine exec_replaces h hc hm (hf.trans ?_)
  cases go <;> rfl

/-- A trigger of an event task that has no release pending releases it (R371). -/
theorem tTrigger_releases (hr : s.tallyRuns = true) (hu : s.taskUsed k = true) (he : s.tally.en = .enabled)
    (hn : (s.task k).rel = none) : s.tTrigger k = s.setTask k { s.task k with rel := some (s.tai, s.now) } := by
  unfold State.tTrigger
  simp [hr, hu, he, hn]

theorem exec_triggers (h : s.tallyAt 0x74 0 n = some (k, t)) (hx : t.stack.headD false = true) (hu : s.taskUsed (8 + n) = true)
    (he : s.tally.en = .enabled) (hne : 8 + n ≠ k) (hn : (s.task (8 + n)).rel = none) : exec (.tTrig n) s = .next
      ((s.setTask k { t with pc := t.pc + 1 }).setTask (8 + n) { s.task (8 + n) with rel := some (s.tai, s.now) }) := by
  have hother : (s.setTask k (t.moved 1)).task (8 + n) = s.task (8 + n) := task_setTask_ne (Ne.symm hne) s _
  have hfree : ((s.setTask k (t.moved 1)).task (8 + n)).rel = none := by rw [hother, hn]
  have hrel := tTrigger_releases (s := s.setTask k (t.moved 1)) (tallyAt_some h).1 hu he hfree
  rw [hother] at hrel
  rw [exec_tStep (m := 1) h rfl rfl]
  exact congrArg _ ((if_pos hx).trans hrel)

/-! ### The end of a cycle (R375, R376) -/

/-- Of the Tally the commit changes the local output image alone. -/
theorem commit_tally (s : State) (k : Nat) (t : TaskSt) :
    (((s.commitDio k t).commitStns k t).commitTx k t).tally = { s.tally with outImg := (s.commitDio k t).tally.outImg } := by
  have dio : (s.commitDio k t).tally = { s.tally with outImg := (s.commitDio k t).tally.outImg } := by
    unfold State.commitDio
    split
    · rfl
    · simp only [State.mirrorRuns_tally, State.driveDio_tally]
  have stns : ∀ u : State, (u.commitStns k t).tally = u.tally := fun u => foldl_tally (fun u id => by simp) _ u
  have tx : ∀ u : State, (u.commitTx k t).tally = u.tally := fun u => foldl_tally (fun u o => by simp) _ u
  rw [tx, stns]
  exact dio

theorem publish_tally (s : State) (k : Nat) (t : TaskSt) : (s.publish k t).tally = { s.tally with
    pubMarkers := t.pubBits.foldl (fun m n => Mem.setBit m n (Mem.bit s.tally.markers n)) s.tally.pubMarkers
    pubWords := (s.publish k t).tally.pubWords } := by
  unfold State.publish
  simp only [State.mirrorRuns_tally]

theorem mirrorInsts_tally (s : State) (k : Nat) (t : TaskSt) : (s.mirrorInsts k t).tally = s.tally :=
  foldl_tally (fun s _ => s.mirrorTally_tally _ _ _ _) _ s

/-- The bits that a cycle wrote are published as they stand. -/
theorem bit_foldl_setBit (src : List Host.Cell) (ns : List Nat) (m : List Host.Cell) (i : Nat) :
    Mem.bit (ns.foldl (fun m n => Mem.setBit m n (Mem.bit src n)) m) i = if i ∈ ns then Mem.bit src i else Mem.bit m i := by
  induction ns generalizing m with
  | nil => simp
  | cons n ns ih =>
    rw [List.foldl_cons, ih, Mem.bit_setBit]
    by_cases hi : i ∈ ns
    · simp [hi]
    · by_cases hn : i = n
      · simp [hn]
      · simp [hi, hn]

/-- The task that runs on notes since when, and nothing else changes. -/
theorem tResume_cases (s : State) : s.tResume = s ∨ ∃ j, s.tResume = s.setTask j { s.task j with runFrom := some s.now } := by
  unfold State.tResume
  split
  next j _ => exact .inr ⟨j, rfl⟩
  · exact .inl rfl

theorem tResume_tally (s : State) : s.tResume.tally = { s.tally with tasks := s.tResume.tally.tasks } := by
  obtain h | ⟨j, h⟩ := tResume_cases s <;> rw [h]
  rfl

theorem tResume_task (s : State) (k : Nat) : ∃ r, s.tResume.task k = { s.task k with runFrom := r } := by
  obtain h | ⟨j, h⟩ := tResume_cases s
  · exact ⟨_, by rw [h]⟩
  · rw [h]
    by_cases hj : j = k
    · subst hj
      by_cases hlt : j < s.tally.tasks.length
      · exact ⟨_, task_setTask_same hlt _⟩
      · have hle : s.tally.tasks.length ≤ j := Nat.le_of_not_lt hlt
        refine ⟨(default : TaskSt).runFrom, ?_⟩
        rw [task_beyond hle, task_beyond ((setTask_length s j _).le.trans hle)]
    · exact ⟨_, task_setTask_ne hj s _⟩

theorem tDone_task (h : k < s.tally.tasks.length) (t : TaskSt) :
    ((s.tDone k t).task k).started = false ∧ ((s.tDone k t).task k).cycles = t.cycles + 1 ∧ ((s.tDone k t).task k).w = t.w := by
  unfold State.tDone
  extract_lets ns again u
  obtain ⟨r, hr⟩ := tResume_task (s.setTask k u) k
  rw [hr, task_setTask_same h]
  exact ⟨rfl, rfl, rfl⟩

theorem tDone_tally (s : State) (k : Nat) (t : TaskSt) : (s.tDone k t).tally = { s.tally with tasks := (s.tDone k t).tally.tasks } := by
  unfold State.tDone
  extract_lets ns again u
  rw [tResume_tally]
  rfl

theorem tSettle_enabled (h : s.tally.en = .enabled) : s.tSettle = s := by
  unfold State.tSettle
  simp [h]

/-- An enabled Tally's cycle ends with the publication of its bits and the end of its task's cycle, and nothing settles. -/
theorem tEndCycle_done (he : s.tally.en = .enabled) (k : Nat) (t : TaskSt) : ∃ u : State, s.tEndCycle k t = u.tDone k t
    ∧ u.tally.tasks = s.tally.tasks
    ∧ u.tally.pubMarkers = t.pubBits.foldl (fun m n => Mem.setBit m n (Mem.bit s.tally.markers n)) s.tally.pubMarkers := by
  unfold State.tEndCycle
  extract_lets a b u v _ w
  have ha : a.tally = { s.tally with outImg := (s.commitDio k t).tally.outImg } := commit_tally s k t
  have hb : b.tally = (a.publish k t).tally := mirrorInsts_tally _ k t
  have hu : u.tally = b.tally := by
    unfold u
    split
    · rfl
    · exact b.checkPermits_tally
  have hpub : u.tally = { s.tally with
      outImg := u.tally.outImg
      pubMarkers := t.pubBits.foldl (fun m n => Mem.setBit m n (Mem.bit s.tally.markers n)) s.tally.pubMarkers
      pubWords := u.tally.pubWords } := by
    rw [hu, hb, publish_tally, ha]
  have hen : v.tally.en = .enabled := by
    unfold v
    rw [tDone_tally]
    exact (congrArg Tally.en hpub).trans he
  have hw : w = v := if_neg (by rw [hen]; decide)
  refine ⟨u.writerDone k t.startAt, ?_, ?_, ?_⟩
  · rw [hw, tSettle_enabled hen]
  · exact (congrArg Tally.tasks hpub :)
  · exact (congrArg Tally.pubMarkers hpub :)

theorem exec_ends (h : s.tallyAt 0x78 0 0 = some (k, t)) (he : s.tally.en = .enabled) : ∃ u, exec .tEnd s = .next u
    ∧ (u.task k).started = false ∧ (u.task k).cycles = t.cycles + 1 ∧ (u.task k).w = t.w
    ∧ ∀ m ∈ t.pubBits, Mem.bit u.tally.pubMarkers m = Mem.bit s.tally.markers m := by
  obtain ⟨u, hend, htasks, hpub⟩ := tEndCycle_done (s := s.setTask k (t.moved 1)) he k (t.moved 1)
  have hk : k < u.tally.tasks.length := by
    rw [htasks, setTask_length]
    exact tallyAt_lt h
  obtain ⟨hstarted, hcycles, hw⟩ := tDone_task hk (t.moved 1)
  refine ⟨u.tDone k (t.moved 1), ?_, hstarted, hcycles, hw, fun m hm => ?_⟩
  · rw [exec_tStep (m := 1) h rfl rfl]
    exact congrArg _ hend
  · rw [tDone_tally]
    dsimp only
    rw [hpub, bit_foldl_setBit]
    exact if_pos hm

end

/-- Settles O30: a comparison pushes its relation, a jump sets its task's place, and the end of a cycle publishes before it counts. -/
theorem tallyComparesAndJumps : Obligations.TallyComparesAndJumps := by
  intro s k t a n
  refine ⟨?ceq, ?cne, ?cgt, ?cge, ?clt, ?cle, ?fceq, ?fcne, ?fcgt, ?fcge, ?fclt, ?fcle, ?jmp, ?jt, ?jf, ?trigSkips, ?trig, ?nop, ?ends⟩
  case ceq => exact exec_compares (fun x y => x == y) rfl (insSize_eq a)
  case cne => exact exec_compares (fun x y => x != y) rfl (insSize_eq a)
  case cgt => exact exec_compares (fun x y => y.slt x) rfl (insSize_eq a)
  case cge => exact exec_compares (fun x y => y.sle x) rfl (insSize_eq a)
  case clt => exact exec_compares (fun x y => x.slt y) rfl (insSize_eq a)
  case cle => exact exec_compares (fun x y => x.sle y) rfl (insSize_eq a)
  case fceq => exact exec_compares fEq rfl (insSize_eq a)
  case fcne => exact exec_compares (fun x y => !fEq x y) rfl (insSize_eq a)
  case fcgt => exact exec_compares (fun x y => fLt y x) rfl (insSize_eq a)
  case fcge => exact exec_compares (fun x y => fLe y x) rfl (insSize_eq a)
  case fclt => exact exec_compares fLt rfl (insSize_eq a)
  case fcle => exact exec_compares fLe rfl (insSize_eq a)
  case jmp | jt | jf => exact fun h => exec_jumps h rfl rfl rfl
  case trigSkips => exact fun h hx => exec_skips h rfl rfl (if_neg (ne_true_of_eq_false hx))
  case trig => exact exec_triggers
  case nop => exact fun h => exec_skips h rfl rfl rfl
  case ends => exact exec_ends

end Sys2Proof.Machine

/-! PROOF. Releases, cycles and overruns (R357, R369–R374, R380) and the exchange (R390, R391). -/

namespace Sys2Proof.Machine

open Sys2Proof

section

variable {s : State} {k : Nat} {t : TaskSt}

/-! ### The stop (R380) -/

@[simp] theorem State.tallyAnswer_tally (s : State) (ref : OrderRef) (opcode st detail : Nat) :
    (s.tallyAnswer ref opcode st detail).tally = s.tally :=
  State.answer_tally _ _ _ _

@[simp] theorem State.judgeFit_tally (s : State) : s.judgeFit.tally = s.tally := (judgeFit_only s).tally

theorem judgeFit_live (s : State) : s.judgeFit.host.live = s.host.live := by
  unfold State.judgeFit
  split
  · rfl
  · exact raise_live _ _ _

theorem mirror_host (s : State) (typ : Nat) (body : List Fld) : (s.mirror typ body).host = s.host := by
  rw [(mirror_copies s typ body).rest]

/-- A task after the stop: no cycle, no release, nothing of its cycle. -/
def TaskSt.halted (t : TaskSt) : TaskSt := { t with
  rel := none, started := false, stack := [], writes := [], pubBits := [], pubWords := [], touched := [], copies := [], runFrom := none }

/-- An exchange that waits is answered 0x12, and a Tally that it held runs on (R390). -/
theorem refuseExchange_some {x : Exchange} (h : s.tally.exch = some x) : ∃ v : State, s.refuseExchange = v.tallyAnswer x.ref 0x0A02 0x12 0
    ∧ v.host = s.host ∧ v.tally = { s.tally with
        exch := none
        run := if s.tally.run = .exchanging then .running else s.tally.run
        tasks := v.tally.tasks } := by
  unfold State.refuseExchange
  split
  next y hy =>
    obtain rfl : x = y := Option.some.inj (h.symm.trans hy)
    extract_lets go tally u b v
    have hu : u.tally = { s.tally with exch := none, run := if s.tally.run = .exchanging then .running else s.tally.run } := by
      simp only [u, tally, go, beq_iff_eq]
    have hv : v.host = s.host ∧ v.tally = { u.tally with tasks := v.tally.tasks } := by
      unfold v
      split <;> exact ⟨rfl, rfl⟩
    rw [hu] at hv
    exact ⟨v, rfl, hv⟩
  next hn =>
    rw [h] at hn
    cases hn

theorem refuseExchange_stopped (h : s.tally.run = .stopped) : s.refuseExchange.tally = { s.tally with exch := none } := by
  unfold State.refuseExchange
  split
  · simp [h]
  next hx => rw [← hx]

theorem tQuiesced_quiescing (h : s.tally.en = .quiescing) : s.tQuiesced
    = ({ s with tally := { s.tally with en := .disabled, quiesced := 0 } } : State).raise 0x89 [u32 s.tally.quiesced] := by
  unfold State.tQuiesced
  exact if_pos h

theorem tQuiesced_tally (s : State) : ∃ en n, s.tQuiesced.tally = { s.tally with en := en, quiesced := n } := by
  by_cases h : s.tally.en = .quiescing
  · rw [tQuiesced_quiescing h, State.raise_tally]
    exact ⟨.disabled, 0, rfl⟩
  · have hsame : s.tQuiesced = s := if_neg h
    rw [hsame]
    exact ⟨s.tally.en, s.tally.quiesced, rfl⟩

/-- What a stop leaves of the Tally. -/
theorem tStopNow_tally (s : State) (cause task index limit : Nat) : ∃ en n, (s.tStopNow cause task index limit).tally = { s.tally with
    run := .stopped
    stopCause := cause
    stopIndex := index
    stopStamp := s.stamp32
    outImg := s.tally.cfg.safeDio
    tasks := s.tally.tasks.map TaskSt.halted
    exch := none
    en := en
    quiesced := n } := by
  unfold State.tStopNow
  extract_lets tally u v w
  have hw : w.tally = { tally with
      run := .stopped
      stopCause := cause
      stopIndex := index
      stopStamp := s.stamp32
      outImg := s.tally.cfg.safeDio
      tasks := tally.tasks.map TaskSt.halted } := by
    unfold w v
    rw [State.stnSafe_tally, State.busSafe_tally, State.checkPermits_tally, State.driveDio_tally]
    rfl
  have hraised := (State.raise_tally w 0x80 [u16 cause, u16 task, u32 index, u32 limit]).trans hw
  clear_value w
  obtain ⟨en, n, hquiesced⟩ := tQuiesced_tally (w.raise 0x80 [u16 cause, u16 task, u32 index, u32 limit]).refuseExchange
  rw [refuseExchange_stopped (by rw [hraised]), hraised] at hquiesced
  exact ⟨en, n, hquiesced⟩

/-- The Tally has stopped: with its cause, the safe image, and neither cycle nor release. -/
structure TallyStopped (s : State) (cause index : Nat) (u : State) : Prop where
  run : u.tally.run = .stopped
  cause : u.tally.stopCause = cause
  index : u.tally.stopIndex = index
  image : u.tally.outImg = s.tally.cfg.safeDio
  idle : ∀ j, (u.task j).started = false ∧ (u.task j).rel = none

theorem tStop_stops (h : s.tally.run ≠ .stopped) (cause task index limit : Nat) :
    TallyStopped s cause index (s.tStop cause task index limit) := by
  have hstop : s.tStop cause task index limit = s.tStopNow cause task index limit := if_neg h
  obtain ⟨en, n, htally⟩ := tStopNow_tally s cause task index limit
  rw [hstop]
  constructor
  case idle =>
    intro j
    unfold State.task
    rw [htally]
    simp only [List.getD_eq_getElem?_getD, List.getElem?_map]
    cases s.tally.tasks[j]? <;> exact ⟨rfl, rfl⟩
  all_goals rw [htally]

theorem TallyStopped.exists_next {c : Instr} {cause index : Nat} {u : State} (h : TallyStopped s cause index u) (hc : exec c s = .next u) :
    ∃ u, exec c s = .next u ∧ u.tally.run = .stopped ∧ u.tally.stopCause = cause ∧ u.tally.stopIndex = index
      ∧ u.tally.outImg = s.tally.cfg.safeDio ∧ ∀ j, (u.task j).started = false ∧ (u.task j).rel = none :=
  ⟨u, hc, h.run, h.cause, h.index, h.image, h.idle⟩

theorem run_of_tallyRuns (h : s.tallyRuns = true) : s.tally.run ≠ .stopped := by
  unfold State.tallyRuns at h
  simp only [Bool.and_eq_true, bne_iff_ne] at h
  exact h.1.1

/-! ### Releases (R369) -/

/-- The instant of a cyclic task at or before now. -/
def State.releaseInstant (s : State) (k : Nat) : Nat := s.tai / ((s.taskDef k).param * msNs) * ((s.taskDef k).param * msNs)

/-- At a new instant an enabled Tally releases the task, or stops where its last cycle is not done. -/
theorem tRelease_due (hk : k < 8) (hu : s.taskUsed k = true) (hr : s.tallyRuns = true) (hd : (s.task k).lastPer < s.releaseInstant k)
    (he : s.tally.en = .enabled) : s.tRelease k
      = if (s.task k).rel.isSome || (s.task k).started then
          let v := s.setTask k { s.task k with lastPer := s.releaseInstant k }
          v.tStop 1 k (v.tIndex k) ((s.taskDef k).param * 1000)
        else s.setTask k { s.task k with lastPer := s.releaseInstant k, rel := some (s.releaseInstant k, s.now) } := by
  have hdue : (8 ≤ k || !s.taskUsed k || !s.tallyRuns || s.releaseInstant k ≤ (s.task k).lastPer) = false := by
    simp [hk, hu, hr, hd]
  unfold State.tRelease
  dsimp only
  refine (if_neg (ne_true_of_eq_false hdue)).trans ((if_neg (not_not_intro he)).trans ?_)
  rw [State.setTask_setTask]
  rfl

theorem cyclicRelease_releases (hk : k < 8) (hu : s.taskUsed k = true) (hr : s.tallyRuns = true)
    (hd : (s.task k).lastPer < s.releaseInstant k) (he : s.tally.en = .enabled) (hn : (s.task k).rel = none)
    (hs : (s.task k).started = false) : exec (.tallyCyclicRelease k) s = .next
      (s.setTask k { s.task k with lastPer := s.releaseInstant k, rel := some (s.releaseInstant k, s.now) }) := by
  refine congrArg Host.Outcome.next ((tRelease_due hk hu hr hd he).trans (if_neg ?_))
  simp [hn, hs]

theorem cyclicRelease_overruns (hk : k < 8) (hu : s.taskUsed k = true) (hr : s.tallyRuns = true)
    (hd : (s.task k).lastPer < s.releaseInstant k) (he : s.tally.en = .enabled) (hs : (s.task k).started = true)
    (hlt : k < s.tally.tasks.length) : ∃ u, exec (.tallyCyclicRelease k) s = .next u ∧ TallyStopped s 1 (s.task k).pc u := by
  have hv := task_setTask_same hlt { s.task k with lastPer := s.releaseInstant k }
  have hindex : (s.setTask k { s.task k with lastPer := s.releaseInstant k }).tIndex k = (s.task k).pc := by
    unfold State.tIndex
    rw [hv]
    exact if_pos hs
  refine ⟨_, congrArg Host.Outcome.next ((tRelease_due hk hu hr hd he).trans (if_pos (by simp [hs]))), ?_⟩
  obtain ⟨hrun, hcause, hidx, himg, hidle⟩ := tStop_stops (s := s.setTask k { s.task k with lastPer := s.releaseInstant k })
    (run_of_tallyRuns hr) 1 k (s.task k).pc ((s.taskDef k).param * 1000)
  dsimp only
  rw [hindex]
  exact ⟨hrun, hcause, hidx, himg, hidle⟩

/-! ### The start of a cycle (R370, R374) -/

/-- The time of a task's cycle so far. -/
def TaskSt.spentBy (t : TaskSt) (now : Nat) : Nat := t.spent + (match t.runFrom with
  | some a => now - a
  | none => 0)

/-- The pre-empted task keeps its time. -/
def TaskSt.preempted (t : TaskSt) (now : Nat) : TaskSt := { t with spent := t.spent + (now - t.runFrom.getD now), runFrom := none }

theorem tPreempt_cases (s : State) : (s.tPreempt = s ∧ s.topTask = none)
    ∨ ∃ j, s.topTask = some j ∧ s.tPreempt = s.setTask j ((s.task j).preempted s.now) := by
  unfold State.tPreempt
  split
  next j hj => exact .inr ⟨j, hj, rfl⟩
  next hn => exact .inl ⟨rfl, hn⟩

theorem tPreempt_tally (s : State) :
    s.tPreempt.tally.prog = s.tally.prog ∧ s.tPreempt.now = s.now ∧ s.tPreempt.tally.tasks.length = s.tally.tasks.length := by
  obtain ⟨h, -⟩ | ⟨j, -, h⟩ := tPreempt_cases s <;> rw [h]
  · exact ⟨rfl, rfl, rfl⟩
  · exact ⟨rfl, rfl, setTask_length s j _⟩

theorem tPreempt_task {j : Nat} (h : s.topTask = some j) : s.tPreempt.task j = (s.task j).preempted s.now := by
  obtain ⟨-, hn⟩ | ⟨i, hi, hp⟩ := tPreempt_cases s
  · rw [h] at hn
    cases hn
  · obtain rfl : j = i := Option.some.inj (h.symm.trans hi)
    rw [hp, task_setTask_same (lt_length_of_started (started_of_topTask hi))]

theorem not_started_of_mayStart (h : s.mayStart k = true) : (s.task k).started = false := by
  unfold State.mayStart State.waitingTasks at h
  simp only [Bool.and_eq_true, List.contains_iff_mem, List.mem_filter, Bool.not_eq_true'] at h
  exact h.1.1.1.2.2

theorem cycleStart_begins (hk : k < s.tally.tasks.length) (hr : s.tallyRuns = true) (hm : s.mayStart k = true) :
    ∃ u, exec (.tallyCycleStart k) s = .next u ∧ (u.task k).started = true ∧ (u.task k).pc = (s.taskDef k).entry ∧ (u.task k).stack = []
      ∧ (u.task k).w = 0 ∧ (u.task k).rel = none ∧ (u.task k).writes = [] ∧ (u.task k).startAt = s.now
      ∧ (u.task k).copies.map Prod.fst = ((s.tally.prog.map (·.reads)).getD []).getD k []
      ∧ ∀ j, s.topTask = some j → u.task j = (s.task j).preempted s.now := by
  obtain ⟨hprog, hnow, hlen⟩ := tPreempt_tally s
  have hgo : (!s.tallyRuns || !s.mayStart k) = false := by simp [hr, hm]
  refine ⟨s.tBegin k, rfl, ?_⟩
  unfold State.tBegin
  rw [if_neg (ne_true_of_eq_false hgo)]
  extract_lets u t mods
  have hsame := fun v => task_setTask_same (hlen.symm ▸ hk : k < u.tally.tasks.length) v
  rw [hsame]
  refine ⟨rfl, ?_, rfl, rfl, rfl, rfl, hnow, ?_, fun j hj => ?_⟩
  · simp only [State.taskDef, u, hprog]
  · simp only [List.map_map, mods, u, hprog]
    exact List.map_id _
  · have hne : k ≠ j := by
      rintro rfl
      have hon := started_of_topTask hj
      rw [not_started_of_mayStart hm] at hon
      cases hon
    rw [task_setTask_ne hne, tPreempt_task hj]

/-! ### Overruns (R373) -/

theorem budgetOverrun_stops (hk : k < 24) (hs : (s.task k).started = true) (hr : s.tallyRuns = true)
    (h : (s.taskDef k).budgetUs * usNs < (s.task k).spentBy s.now) :
    ∃ u, exec (.tallyBudgetOverrun k) s = .next u ∧ TallyStopped s 2 (s.task k).pc u := by
  have hover : (24 ≤ k || !(s.task k).started || !s.tallyRuns || (s.task k).spentBy s.now ≤ (s.taskDef k).budgetUs * usNs) = false := by
    simp [hk, hs, hr, h]
  exact ⟨_, congrArg Host.Outcome.next (if_neg (ne_true_of_eq_false hover)), tStop_stops (run_of_tallyRuns hr) _ _ _ _⟩

theorem bgOverrun_stops (hs : (s.task 24).started = true) (hr : s.tallyRuns = true)
    (h : (s.taskDef 24).param * msNs < s.now - (s.task 24).startAt) :
    ∃ u, exec .tallyBgOverrun s = .next u ∧ TallyStopped s 3 (s.task 24).pc u := by
  have hover : (!(s.task 24).started || !s.tallyRuns || s.now - (s.task 24).startAt ≤ (s.taskDef 24).param * msNs) = false := by
    simp [hs, hr, Nat.add_lt_of_lt_sub h]
  exact ⟨_, congrArg Host.Outcome.next (if_neg (ne_true_of_eq_false hover)), tStop_stops (run_of_tallyRuns hr) _ _ _ _⟩

/-! ### Edges of the local inputs (R327, R357, R371) -/

/-- A trigger changes tasks alone. -/
theorem tTrigger_tally (s : State) (k : Nat) : (s.tTrigger k).tally = { s.tally with tasks := (s.tTrigger k).tally.tasks } := by
  unfold State.tTrigger
  split
  · rfl
  · dsimp only
    split
    · simp [State.setTask]
    · rfl

theorem tEvents_tally (s : State) (f : Nat → Bool) : (s.tEvents f).tally = { s.tally with tasks := (s.tEvents f).tally.tasks } := by
  unfold State.tEvents
  generalize List.range 16 = l
  induction l generalizing s with
  | nil => rfl
  | cons i l ih =>
    rw [List.foldl_cons, ih]
    dsimp only
    split
    · rw [tTrigger_tally]
    · rfl

theorem tEdge_tally (s : State) (line : Nat) (rising : Bool) :
    (s.tEdge line rising).tally = { s.tally with tasks := (s.tEdge line rising).tally.tasks } := by
  unfold State.tEdge
  exact tEvents_tally s _

/-- The newest quadrature count is the one that stands at the instant of its change. -/
theorem quadAt_newest {a : Nat} {c : Word} {q : List (Nat × Word)} (h : alGet s.tally.quad a = some ((s.tai, c) :: q)) (inst : Nat)
    (hi : s.tai = inst) : s.quadAt a inst = c := by
  unfold State.quadAt
  rw [h, Option.getD_some, List.find?_cons_of_pos (by simp [hi])]
  rfl

/-- Whether the line rises or falls, its pair's count takes one step; its own count only a rise. -/
theorem dioEdge_counts {line : Nat} {level : Bool} (hl : line < 32) (hne : getBit s.tally.dioIn line ≠ level)
    (hx : s.xingStopped 0x0B = false) : ∃ u, exec (.dioEdge line level) s = .next u
      ∧ u.tally.dioIn = (if level then setBit s.tally.dioIn line else clrBit s.tally.dioIn line)
      ∧ (alGet u.tally.dioCount line).getD 0 = (alGet s.tally.dioCount line).getD 0 + (if level then 1 else 0)
      ∧ u.quadAt (line / 2 * 2) s.tai = ((((alGet s.tally.quad (line / 2 * 2)).getD []).head?).map Prod.snd).getD 0
          + Config.quadStep (getBit s.tally.dioIn (line / 2 * 2)) (getBit s.tally.dioIn (line / 2 * 2 + 1))
              (getBit u.tally.dioIn (line / 2 * 2)) (getBit u.tally.dioIn (line / 2 * 2 + 1)) := by
  have hgo : (32 ≤ line || getBit s.tally.dioIn line == level || s.xingStopped 0x0B) = false := by
    simp [hl, hne, hx]
  refine ⟨s.dioEdge line level, rfl, ?_⟩
  unfold State.dioEdge
  rw [if_neg (ne_true_of_eq_false hgo)]
  extract_lets n was dio a q c _ v
  have hdio : v.tally.dioIn = dio := rfl
  have hcount : (alGet v.tally.dioCount line).getD 0 = n + (if level then 1 else 0) := by
    unfold v
    cases level with
    | true => simp [alGet_alPut]
    | false => simp [n]
  have hlatest : alGet v.tally.quad a = some ((v.tai, c) :: q.take 1023) := by
    refine (alGet_alPut _ _ _ _).trans ((if_pos rfl).trans ?_)
    exact congrArg some List.take_succ_cons
  have hquad : v.quadAt a s.tai = c := quadAt_newest hlatest s.tai rfl
  clear_value v
  have hu := tEdge_tally v line level
  have hsame : (v.tEdge line level).quadAt a s.tai = v.quadAt a s.tai := by
    unfold State.quadAt
    rw [hu]
  rw [hsame, hquad, hu]
  exact ⟨hdio, hcount, by rw [hdio]⟩

/-! ### The exchange (R390, R391) -/

/-- What the running program declares in its table of R387. -/
def State.instsNow (s : State) : List InstDef := (s.tally.prog.map (·.insts)).getD []

/-- The exchange reports, and judges FIT, once the spare bank runs with the timers, counters and edge detectors carried over (R391). -/
theorem exchangeNow_reports (s : State) : ∃ (u : State) (ps : List Fld),
    s.exchangeNow = ((u.raise 0x84 ps).mirrorTally 0xFF 0xFF 0 []).judgeFit
      ∧ u.tally = carryInsts s.activateBank.tally s.instsNow s.activateBank.instsNow ∧ u.host = s.host :=
  ⟨_, _, rfl, rfl, rfl⟩

/-- The spare bank becomes the running one. -/
theorem exchangeNow_tally (s : State) : s.exchangeNow.tally.bank = s.spareBank ∧ s.exchangeNow.tally.loaded = false := by
  obtain ⟨u, ps, hnow, htally, -⟩ := exchangeNow_reports s
  rw [hnow, State.judgeFit_tally, State.mirrorTally_tally, State.raise_tally, htally]
  exact activateBank_bank s

theorem exchangeNow_live (s : State) : s.exchangeNow.host.live = s.host.live := by
  obtain ⟨u, ps, hnow, -, hhost⟩ := exchangeNow_reports s
  rw [hnow, judgeFit_live, State.mirrorTally, mirror_host, raise_live, hhost]

/-- A TALLY_RESULT completes its order, whichever step it comes with. -/
theorem tallyAnswer_answers {u : State} (hu : u.host.live = s.host.live) (ref : OrderRef) (op st detail : Nat) :
    Answered s ref op 0 [u8 st, u8 0, u16 detail, u32 (u.tallyAnswer ref op st detail).tallyRev] (u.tallyAnswer ref op st detail) := by
  have hrev : (u.tallyAnswer ref op st detail).tallyRev = u.tallyRev := by
    unfold State.tallyRev
    rw [State.tallyAnswer_tally]
  rw [hrev]
  exact answered_after_taking (taken := .setup 0) hu ref op (ownReport st _)

/-- The Tally runs on after the switch, its tasks released anew. -/
def State.runsOn (s : State) : State := ({ s with tally := { s.tally with exch := none, run := .running } } : State).tSchedule

theorem runsOn_host (s : State) : s.runsOn.host = s.host := rfl

theorem runsOn_tally (s : State) :
    s.runsOn.tally = { s.tally with exch := none, run := .running, tasks := s.runsOn.tally.tasks } := rfl

/-- At its point the exchange is answered from a tablet that runs on with the spare bank. -/
theorem tExchange_switches {x : Exchange} (hx : s.tally.exch = some x) (hr : s.tally.run = .exchanging) (hp : s.exchangePoint = true) :
    ∃ e : State, s.tExchange = e.runsOn.tallyAnswer x.ref 0x0A02 0 0 ∧ e.tally.bank = s.spareBank ∧ e.tally.loaded = false
      ∧ e.host.live = s.host.live := by
  obtain ⟨hbank, hloaded⟩ := exchangeNow_tally s
  refine ⟨s.exchangeNow, ?_, hbank, hloaded, exchangeNow_live s⟩
  unfold State.tExchange
  split
  next y hy =>
    obtain rfl : x = y := Option.some.inj (hx.symm.trans hy)
    exact if_neg (by simp [hr, hp])
  next hn =>
    rw [hx] at hn
    cases hn

theorem exchangePoint_switches {x : Exchange} (hx : s.tally.exch = some x) (hr : s.tally.run = .exchanging) (hp : s.exchangePoint = true) :
    ∃ u, exec .tallyExchangePoint s = .next u ∧ u.tally.run = .running ∧ u.tally.exch = none ∧ u.tally.bank = s.spareBank
      ∧ u.tally.loaded = false ∧ Answered s x.ref 0x0A02 0 [u8 0, u8 0, u16 0, u32 u.tallyRev] u := by
  obtain ⟨e, hswitch, hbank, hloaded, hlive⟩ := tExchange_switches hx hr hp
  refine ⟨_, congrArg Host.Outcome.next hswitch, ?_, ?_, ?_, ?_, tallyAnswer_answers ((congrArg _ (runsOn_host e)).trans hlive) _ _ _ _⟩ <;>
    rw [State.tallyAnswer_tally, runsOn_tally]
  · exact hbank
  · exact hloaded

theorem exchTimeout_refuses {x : Exchange} (hx : s.tally.exch = some x) (hr : s.tally.run = .exchanging)
    (hd : x.since + s.tally.cfg.exchWaitMs * msNs ≤ s.now) :
    ∃ u, exec .tallyExchTimeout s = .next u ∧ u.tally.run = .running ∧ u.tally.exch = none ∧ u.tally.bank = s.tally.bank
      ∧ Answered s x.ref 0x0A02 0 [u8 0x12, u8 0, u16 0, u32 s.tallyRev] u := by
  obtain ⟨v, hv, hhost, htally⟩ := refuseExchange_some hx
  have hrun : s.exchTimeout = v.tallyAnswer x.ref 0x0A02 0x12 0 := by
    unfold State.exchTimeout
    rw [hx]
    exact (if_neg (Nat.not_lt.mpr hd)).trans hv
  have hrev : s.tallyRev = (v.tallyAnswer x.ref 0x0A02 0x12 0).tallyRev := by
    unfold State.tallyRev
    rw [State.tallyAnswer_tally, htally]
  refine ⟨_, congrArg Host.Outcome.next hrun, ?_⟩
  rw [hrev]
  simp only [State.tallyAnswer_tally]
  rw [htally]
  exact ⟨if_pos hr, rfl, rfl, tallyAnswer_answers (by rw [hhost]) _ _ _ _⟩

end

/-- Settles O31: releases, starts and edges say what they set; an overrun stops through the one stop of R380; an exchange switches at its
point or is refused. -/
theorem tallyReleasesAndOverruns : Obligations.TallyReleasesAndOverruns := by
  intro s k
  refine ⟨?release, ?start, ?budget, ?background, ?edge, ?point, ?timeout⟩
  case release =>
    refine fun hk hu hr hd he => ⟨fun hn hs => cyclicRelease_releases hk hu hr hd he hn hs, fun hs hlt => ?_⟩
    obtain ⟨u, hc, hu'⟩ := cyclicRelease_overruns hk hu hr hd he hs hlt
    exact hu'.exists_next hc
  case start => exact cycleStart_begins
  case budget =>
    intro hk hs hr h
    obtain ⟨u, hc, hu⟩ := budgetOverrun_stops hk hs hr h
    exact hu.exists_next hc
  case background =>
    intro hs hr h
    obtain ⟨u, hc, hu⟩ := bgOverrun_stops hs hr h
    exact hu.exists_next hc
  case edge => exact fun line level => dioEdge_counts
  case point => exact fun x => exchangePoint_switches
  case timeout => exact fun x => exchTimeout_refuses

end Sys2Proof.Machine

/-! PROOF. The Tally's orders (R381, R383, R388–R396): TALLY_LOAD and the writing of its bank, the exchange, the restart and the stop,
the enable, and what reads and writes the areas. -/

namespace Sys2Proof.Machine

open Sys2Proof

section

variable {s base u : State} {c : Instr} {ref : OrderRef} {op st detail : Nat} {f : State → State}

/-! ### TALLY_RESULT -/

theorem tallyRev_congr {t : State} (h : t.tally.prog = s.tally.prog) : t.tallyRev = s.tallyRev := by
  unfold State.tallyRev
  rw [h]

/-- TALLY_RESULT names the revision of the running program. -/
theorem tallyAnswer_eq (hp : u.tally.prog = s.tally.prog) (ref : OrderRef) (op st detail : Nat) :
    u.tallyAnswer ref op st detail = u.answer ref op (ownReport st [u8 st, u8 0, u16 detail, u32 s.tallyRev]) := by
  rw [← tallyRev_congr hp]
  rfl

/-- A step that is not the order's own answers with TALLY_RESULT from `u`: `base` but for reports. -/
theorem completes_tallyResult (hx : exec c s = .next (u.tallyAnswer ref op st detail)) (hu : OnlyReports base u)
    (hl : u.host.live = s.host.live) (hp : base.tally.prog = s.tally.prog) :
    Completes c s base ref op 0 [u8 st, u8 0, u16 detail, u32 s.tallyRev] := by
  rw [tallyAnswer_eq (s := s) (by rw [hu.tally, hp])] at hx
  exact ⟨_, hx, hu.answers.trans (answer_only _ _ _ _), answered_after_taking (taken := .setup 0) hl ref op (ownReport st _)⟩

/-- An order that answers with TALLY_RESULT from `base` but for reports. -/
theorem completes_tallyAnswer (hc : exec c s = .next (s.runOrder ref op f)) (hr : s.orderReady ref op = true)
    (hp : base.tally.prog = s.tally.prog)
    (hf : ∀ h : HostIf, ∃ u, f { s with host := h } = u.tallyAnswer ref op st detail ∧ OnlyReports { base with host := h } u
      ∧ u.host.live = h.live) :
    Completes c s base ref op 0 [u8 st, u8 0, u16 detail, u32 s.tallyRev] := by
  refine completes_reporting (a := ownReport st [u8 st, u8 0, u16 detail, u32 s.tallyRev]) hc hr fun h => ?_
  obtain ⟨u, hfu, hu, hl⟩ := hf h
  exact ⟨u, hfu.trans (tallyAnswer_eq (by rw [hu.tally]; exact hp) _ _ _ _), hu, hl⟩

/-- The same where nothing is reported before the answer. -/
theorem completes_tallyAt (hc : exec c s = .next (s.runOrder ref op f)) (hr : s.orderReady ref op = true)
    (hp : base.tally.prog = s.tally.prog)
    (hf : ∀ h : HostIf, f { s with host := h } = ({ base with host := h } : State).tallyAnswer ref op st detail) :
    Completes c s base ref op 0 [u8 st, u8 0, u16 detail, u32 s.tallyRev] :=
  completes_tallyAnswer hc hr hp fun h => ⟨_, hf h, .refl _, rfl⟩

/-- A TALLY_RESULT from a state with the live orders as they were taken. -/
theorem orderResult_answers (hl : u.host.live = (s.markStarted ref).host.live) (hp : u.tally.prog = s.tally.prog) (op st detail : Nat) :
    Answered s ref op 0 [u8 st, u8 0, u16 detail, u32 s.tallyRev] (u.tallyAnswer ref op st detail) := by
  rw [tallyAnswer_eq hp]
  exact answer_answers hl op (ownReport st _)

/-- An order in its function, with the host interface as it is once the order has been taken. -/
theorem exec_order (hc : exec c s = .next (s.runOrder ref op f)) (hr : s.orderReady ref op = true) :
    exec c s = .next (f { s with host := (s.markStarted ref).host }) := by
  rw [hc, runOrder_ready f hr, ← markStarted_eq]

/-! ### TALLY_LOAD (R388, R389) -/

section

variable {img : List Byte} {len : Nat} {l : TallyLoad}

theorem tallyLoad_rejects (h : (tallyChecks img len s.houseId s.fuse).1 ≠ 0) (ref : OrderRef) : s.tallyLoad ref img len 0
    = s.rejectLoad ref (tallyChecks img len s.houseId s.fuse).1 (tallyChecks img len s.houseId s.fuse).2 := by
  unfold State.tallyLoad
  exact (if_neg (by decide)).trans (if_pos h)

theorem tallyLoad_passes (h : (tallyChecks img len s.houseId s.fuse).1 = 0) (hl : s.tally.load = none) (he : s.tally.exch = none)
    {flags : Nat} (hf : flags ≤ 1) (ref : OrderRef) : s.tallyLoad ref img len flags
      = if flags = 1 then s.tallyAnswer ref 0x0A01 0 0
        else
          let v : State := if s.standbyThere then s.mirrorImage 1 img else s
          { v with tally := { v.tally with
            load := some ⟨ref, img, false, if v.standbyThere then .mirroring else .writing, false⟩ } } := by
  have hfree : (s.tally.load.isSome || s.tally.exch.isSome) = false := by rw [hl, he]; rfl
  have hflags : flags % 2 = 1 ↔ flags = 1 := by omega
  have hforce : decide (2 ≤ flags) = false := decide_eq_false (by omega)
  unfold State.tallyLoad
  refine (if_neg (by omega)).trans ((if_neg (not_not_intro h)).trans ((if_neg (ne_true_of_eq_false hfree)).trans ?_))
  simp only [hflags, hforce, Bool.not_false, Bool.and_true]

theorem tallyLoad_begins (h : (tallyChecks img len s.houseId s.fuse).1 = 0) (hl : s.tally.load = none) (he : s.tally.exch = none)
    (hs : s.standbyThere = false) (ref : OrderRef) :
    s.tallyLoad ref img len 0 = { s with tally := { s.tally with load := some ⟨ref, img, false, .writing, false⟩ } } := by
  rw [tallyLoad_passes h hl he (by decide) ref]
  simp [hs]

/-- While the bank is to be written its verdict decides alone. -/
theorem bankWritten_writing (h : s.tally.load = some l) (hs : l.stage = .writing) (ok : Bool) : s.bankWritten ok
    = if ok then ({ s with tally := { s.tally with
          banks := s.tally.banks.set s.spareBank ⟨l.bytes, 0⟩
          load := none
          loaded := true } } : State).tallyAnswer l.ref 0x0A01 0 0
      else if l.retried then ({ s with tally := { s.tally with
          banks := s.tally.banks.set s.spareBank ⟨[], 0⟩
          load := none
          loaded := false } } : State).rejectLoad l.ref 0x0E 0
      else { s with tally := { s.tally with load := some { l with retried := true } } } := by
  have hwait : (decide (l.stage = .mirroring) && s.standbyThere) = false := by rw [hs]; rfl
  unfold State.bankWritten
  rw [h]
  exact if_neg (ne_true_of_eq_false hwait)

/-- A load that ends other than OK reports so before its answer. -/
theorem completes_rejectLoad (hx : exec c s = .next (base.rejectLoad ref st detail)) (hb : base.host = s.host)
    (hp : base.tally.prog = s.tally.prog) : Completes c s base ref 0x0A01 0 [u8 st, u8 0, u16 detail, u32 s.tallyRev] :=
  completes_tallyResult hx (raise_only _ _ _) ((raise_live _ _ _).trans (by rw [hb])) hp

end

/-! ### TALLY_EXCHANGE, TALLY_RUN and TALLY_STOP (R380, R381, R383, R390) -/

theorem tallyExchange_waits (hf : s.follows = false) (he : s.tally.exch = none) (hl : s.tally.load = none) (hb : s.tally.loaded = true)
    (hr : s.tally.run ≠ .stopped) (hq : s.tally.en ≠ .quiescing) (ref : OrderRef) : s.tallyExchange ref
      = { s with tally := { s.tally with exch := some ⟨ref, s.now⟩, run := .exchanging } } := by
  unfold State.tallyExchange
  simp [hf, he, hl, hb, hr, hq]

/-- The outputs of a restart: the tasks at rest, and what the Tally drives at its safe values (R383). -/
def State.safeOutputs (s : State) : State := s.tHalt.txSafe.stnSafe.driveDio

theorem safeOutputs_tally (s : State) : s.safeOutputs.tally = { s.tally with tasks := s.tally.tasks.map TaskSt.halted } := by
  unfold State.safeOutputs
  rw [State.driveDio_tally, State.stnSafe_tally, State.txSafe_tally]
  rfl

/-- A tablet that runs tasks schedules them. -/
def State.scheduled (s : State) : State := if s.activeOrSolo then s.tSchedule else s

theorem scheduled_tally (s : State) : ∃ ts, s.scheduled.tally = { s.tally with tasks := ts } := by
  unfold State.scheduled
  split
  · exact ⟨s.tSchedule.tally.tasks, rfl⟩
  · exact ⟨s.tally.tasks, rfl⟩

/-- What follows once the areas are set up for a cold restart. -/
def State.coldStarted (s : State) (p : Prog) : State :=
  (s.safeOutputs.raise 0x81 [u16 1, u16 s.safeOutputs.tally.bank, u32 p.revision, u32 0]).scheduled

theorem coldStarted_tally (s : State) (p : Prog) : ∃ ts, (s.coldStarted p).tally = { s.tally with tasks := ts } := by
  obtain ⟨ts, h⟩ := scheduled_tally (s.safeOutputs.raise 0x81 [u16 1, u16 s.safeOutputs.tally.bank, u32 p.revision, u32 0])
  refine ⟨ts, h.trans ?_⟩
  rw [State.raise_tally, safeOutputs_tally]

/-- A cold restart keeps nothing: the areas are fresh, and the outputs safe (R383). -/
theorem tStart_cold {p : Prog} (h : s.tally.prog = some p) : s.tStart false false = ({ s with tally := { s.tally.fresh p [] with
    run := .running
    mode := 1
    outImg := s.tally.cfg.safeDio } } : State).coldStarted p := by
  unfold State.tStart
  split
  next hn =>
    rw [h] at hn
    cases hn
  next q hq =>
    obtain rfl : p = q := Option.some.inj (h.symm.trans hq)
    rfl

theorem tallyRunOrder_cold {p : Prog} (hr : s.tally.run = .stopped) (hf : s.follows = false) (he : s.tally.en = .enabled)
    (hl : s.tally.loaded = false) (hp : s.tally.prog = some p) (ref : OrderRef) : ∃ ts, (s.tallyRunOrder ref 1).tally
      = { s.tally.fresh p [] with
          run := .running
          mode := 1
          outImg := s.tally.cfg.safeDio
          tasks := ts } := by
  have horder : s.tallyRunOrder ref 1 = (s.tStart false false).tallyAnswer ref 0x0A03 0 0 := by
    unfold State.tallyRunOrder
    simp [hr, hf, he, hl, hp]
  rw [horder, State.tallyAnswer_tally, tStart_cold hp]
  exact coldStarted_tally _ p

theorem tallyRun_restarts {p : Prog} (ho : s.orderReady ref 0x0A03 = true) (hr : s.tally.run = .stopped) (hf : s.follows = false)
    (he : s.tally.en = .enabled) (hl : s.tally.loaded = false) (hp : s.tally.prog = some p) : ∃ u, exec (.tallyRun ref 1) s = .next u
      ∧ u.tally.run = .running ∧ u.tally.mode = 1 ∧ u.tally.outImg = s.tally.cfg.safeDio ∧ u.tally.markers = []
      ∧ u.tally.pubMarkers = [] ∧ u.tally.prog = some p := by
  obtain ⟨ts, hts⟩ := tallyRunOrder_cold (s := { s with host := (s.markStarted ref).host }) hr hf he hl hp ref
  refine ⟨_, exec_order rfl ho, ?_⟩
  rw [hts]
  exact ⟨rfl, rfl, rfl, rfl, rfl, hp⟩

/-- Settling leaves a stopped Tally stopped as it is. -/
theorem tSettle_stopped (h : s.tally.run = .stopped) : ∃ en n, s.tSettle.tally = { s.tally with en := en, quiesced := n } := by
  unfold State.tSettle
  split
  · exact tQuiesced_tally s
  · exact ⟨s.tally.en, s.tally.quiesced, rfl⟩

theorem tStopPlain_stops (h : s.tally.run ≠ .stopped) (cause : Nat) : ∃ index, TallyStopped s cause index (s.tStopPlain cause) := by
  unfold State.tStopPlain
  split
  · exact ⟨_, tStop_stops h _ _ _ _⟩
  · exact ⟨_, tStop_stops h _ _ _ _⟩

theorem tallyStop_stops (ho : s.orderReady ref 0x0A04 = true) (hr : s.tally.run ≠ .stopped) : ∃ u, exec (.tallyStop ref) s = .next u
    ∧ u.tally.run = .stopped ∧ u.tally.stopCause = 4 ∧ u.tally.outImg = s.tally.cfg.safeDio := by
  obtain ⟨index, hstop⟩ := tStopPlain_stops (s := { s with host := (s.markStarted ref).host }) hr 4
  obtain ⟨en, n, hsettle⟩ := tSettle_stopped hstop.run
  have horder : ({ s with host := (s.markStarted ref).host } : State).tallyStopOrder ref
      = (({ s with host := (s.markStarted ref).host } : State).tStopPlain 4).tSettle.tallyAnswer ref 0x0A04 0 0 := if_neg hr
  refine ⟨_, (exec_order rfl ho).trans (congrArg _ horder), ?_⟩
  rw [State.tallyAnswer_tally, hsettle]
  exact ⟨hstop.run, hstop.cause, hstop.image⟩

/-! ### TALLY_CTL (R43, R392) -/

/-- The Tally while it quiesces: no release waits. -/
def State.tallyQuiescing (s : State) : State :=
  { s with tally := { s.tally with en := .quiescing, quiesced := 0, tasks := s.tally.tasks.map (fun (t : TaskSt) => { t with rel := none }) } }

theorem tallyQuiescing_startedTasks (s : State) : s.tallyQuiescing.startedTasks = s.startedTasks := by
  refine List.filter_congr fun k _ => ?_
  simp only [State.task, State.tallyQuiescing, List.getD_eq_getElem?_getD, List.getElem?_map]
  cases s.tally.tasks[k]? <;> rfl

theorem tallyCtl_disables (he : s.tally.en = .enabled) (ref : OrderRef) : s.tallyCtl ref 0
    = s.tallyQuiescing.tSettle.answer ref 0x0A05 (stateReport stDone [u8 (enCode s.tallyQuiescing.tSettle.tally.en)]) := by
  unfold State.tallyCtl
  exact (if_neg (by decide)).trans ((if_neg (by decide)).trans (if_neg (not_not_intro he)))

theorem tallyQuiescing_settles_running (h : s.startedTasks ≠ []) : s.tallyQuiescing.tSettle = s.tallyQuiescing := by
  unfold State.tSettle
  rw [tallyQuiescing_startedTasks]
  exact if_neg (by simp [h])

theorem tallyQuiescing_settles_stopped (h : s.startedTasks = []) (hr : s.tally.run = .stopped) : s.tallyQuiescing.tSettle
    = ({ s.tallyQuiescing with tally := { s.tallyQuiescing.tally with en := .disabled, quiesced := 0 } } : State).raise 0x89 [u32 0] := by
  have hdone : (decide (s.tallyQuiescing.tally.en = .quiescing) && s.startedTasks.isEmpty) = true := by rw [h]; rfl
  unfold State.tSettle
  rw [tallyQuiescing_startedTasks, if_pos hdone, if_pos (show s.tallyQuiescing.tally.run = .stopped from hr)]
  exact tQuiesced_quiescing rfl

theorem tallyCtl_enables (hq : s.tally.en ≠ .quiescing) (ref : OrderRef) : s.tallyCtl ref 1
    = ({ s with tally := { s.tally with en := .enabled } } : State).answer ref 0x0A05 (stateReport stDone [u8 1]) := by
  unfold State.tallyCtl
  exact (if_neg (by decide)).trans ((if_pos rfl).trans (if_neg hq))

/-! ### The areas (R394, R395) -/

theorem tallyTrig_releases {i : Nat} (hi : i ≤ 15) (hr : s.tallyRuns = true) (he : s.tally.en = .enabled)
    (hu : s.taskUsed (8 + i) = true) (hn : (s.task (8 + i)).rel = none) (ref : OrderRef) : s.tallyTrig ref i
      = (s.setTask (8 + i) { s.task (8 + i) with rel := some (s.tai, s.now) }).tallyAnswer ref 0x0A06 0 0 := by
  have hact : s.activeOrSolo = true := by
    unfold State.tallyRuns at hr
    exact (Bool.and_eq_true_iff.mp hr).2
  unfold State.tallyTrig
  simp only [not_lt.mpr hi, not_follows_of_activeOrSolo hact, run_of_tallyRuns hr, he, tTrigger_releases hr hu he hn, if_false,
    Bool.false_eq_true, reduceCtorEq]

theorem tallyPeek_delivers {area start addr n : Nat} (ha : 2 ≤ area) (ha' : area ≤ 6) (hn : 1 ≤ n) (hn' : n ≤ 65536)
    (hfit : start + n ≤ areaSize area) (ref : OrderRef) : s.tallyPeek ref area start addr n
      = (s.toHost (.hostData addr ((List.range n).map (fun i => u8 (s.tPeekByte area (start + i)).toNat)))).tallyAnswer
          ref 0x0A07 0 0 := by
  have hok : (!between 2 6 area || !between 1 65536 n || areaSize area < start + n) = false := by
    simp [between, ha, ha', hn, hn', hfit]
  exact if_neg (ne_true_of_eq_false hok)

theorem tallyPoke_writes {start n : Nat} {data : List Byte} (hn : 1 ≤ n) (hn' : n ≤ 32) (hfit : start + n ≤ areaSize 3)
    (hf : s.follows = false) (ref : OrderRef) : s.tallyPoke ref 3 start n data
      = (({ s with tally := { s.tally with
          words := Mem.writes s.tally.words start ((padTo 32 data).take n)
          pubWords := Mem.writes s.tally.pubWords start ((padTo 32 data).take n) } } : State).mirrorTally
            3 0xFF start ((padTo 32 data).take n)).tallyAnswer ref 0x0A08 0 0 := by
  have hok : (!between 2 3 3 || !between 1 32 n || areaSize 3 < start + n) = false := by
    simp [between, hn, hn', hfit]
  unfold State.tallyPoke
  exact (if_neg (ne_true_of_eq_false hok)).trans (if_neg (ne_true_of_eq_false hf))

theorem tallyPoke_answers {start n : Nat} {data : List Byte} (ho : s.orderReady ref 0x0A08 = true) (hn : 1 ≤ n) (hn' : n ≤ 32)
    (hfit : start + n ≤ areaSize 3) (hf : s.follows = false) : ∃ t, exec (.tallyPoke ref 3 start n data) s = .next t
      ∧ t.tally.words = Mem.writes s.tally.words start ((padTo 32 data).take n)
      ∧ t.tally.pubWords = Mem.writes s.tally.pubWords start ((padTo 32 data).take n) ∧ t.tally.markers = s.tally.markers
      ∧ Answered s ref 0x0A08 0 [u8 0, u8 0, u16 0, u32 s.tallyRev] t := by
  have hpoke := tallyPoke_writes (s := { s with host := (s.markStarted ref).host }) (data := data) hn hn' hfit hf ref
  refine ⟨_, (exec_order rfl ho).trans (congrArg _ hpoke), ?_⟩
  rw [State.tallyAnswer_tally, State.mirrorTally_tally]
  exact ⟨rfl, rfl, rfl, orderResult_answers (by rw [State.mirrorTally, mirror_host]) (by rw [State.mirrorTally_tally]) _ _ _⟩

theorem tallyCfgOrder_sets {x : TallyCfg} (hr : x.restart ≤ 1) (hf : x.flags ≤ 1) (hw : 10 ≤ x.exchWaitMs) (hw' : x.exchWaitMs ≤ 10000)
    (hs : s.setup.sealed = false) (ref : OrderRef) : s.tallyCfgOrder ref x
      = ({ s with tally := { s.tally with
          cfg := x
          outImg := if s.tally.run = .stopped then x.safeDio else s.tally.outImg } } : State).driveDio.tallyAnswer ref 0x0A09 0 0 := by
  have hok : (1 < x.restart || 1 < x.flags || !between 10 10000 x.exchWaitMs || (s.setup.sealed && x.dioDir ≠ s.tally.cfg.dioDir)) = false := by
    simp [between, hr, hf, hw, hw', hs]
  exact if_neg (ne_true_of_eq_false hok)

theorem driveDio_live (s : State) : s.driveDio.host.live = s.host.live := by
  unfold State.driveDio
  split <;> rfl

theorem tallySafe_sets {b o : Nat} {data : List Byte} (hb : b ≤ 1) (ho : o ≤ 31) (ref : OrderRef) : s.tallySafe ref b o 1 data
    = (s.setTx b o { (s.bus b).txObj o with safe := padTo 64 data, sendOnStop := true }).tallyAnswer ref 0x0A0A 0 0 := by
  have hok : ((1 < b || 31 < o || 1 < 1) : Bool) = false := by simp [hb, ho]
  exact if_neg (ne_true_of_eq_false hok)

/-- What leaves for the host leaves whatever the Tally holds. -/
theorem toHost_withTally (s : State) (y : Tally) (o : Output) :
    ({ s with tally := y } : State).toHost o = { s.toHost o with tally := y } := by
  obtain ⟨hx, h⟩ | ⟨hx, h⟩ := toHost_cases s o
  · rw [h, toHost_running (s := { s with tally := y }) o hx]
    rfl
  · obtain ⟨hx', -⟩ | ⟨-, h'⟩ := toHost_cases { s with tally := y } o
    · rw [show ({ s with tally := y } : State).xingStopped 0x01 = s.xingStopped 0x01 from rfl, hx] at hx'
      cases hx'
    · rw [h, h']
      rfl

theorem tallyQuery_delivers (s : State) (ref : OrderRef) (addr : Nat) : s.tallyQuery ref addr
    = (({ s with tally := { s.tally with tasks := s.tally.tasks.map (fun (t : TaskSt) => { t with execMax := 0 }) } } : State).toHost
        (.hostData addr s.tallyInfo)).answer ref 0x0A0B (ownReport 0 [u8 0]) := by
  unfold State.tallyQuery
  dsimp only
  rw [State.toHost_tally]
  exact congrArg (fun v : State => v.answer ref 0x0A0B (ownReport 0 [u8 0])) (toHost_withTally s _ _).symm

end

/-- Settles O32: each order takes the branch that its conditions name; it answers from the state that branch leaves, but for reports. -/
theorem tallyOrdersComplete : Obligations.TallyOrdersComplete := by
  intro s ref
  refine ⟨?load, ?written, ?exchange, ?run, ?stop, ?ctl, ?trig, ?peek, ?poke, ?cfg, ?safe, ?query⟩
  case load =>
    refine fun img len ho => ⟨fun hbad => ?_, fun hok hl he => ⟨?_, fun hs => ?_⟩⟩
    · exact completes_tallyAnswer rfl ho rfl fun h =>
        ⟨_, tallyLoad_rejects (s := { s with host := h }) hbad ref, raise_only _ _ _, raise_live _ _ _⟩
    · exact completes_tallyAt rfl ho rfl fun h => tallyLoad_passes (s := { s with host := h }) hok hl he le_rfl ref
    · exact runs_at rfl ho fun h => tallyLoad_begins (s := { s with host := h }) hok hl he hs ref
  case written =>
    refine fun l hl hs => ⟨?_, fun hfirst => ?_, fun hsecond => ?_⟩
    · exact completes_tallyResult (congrArg Host.Outcome.next (bankWritten_writing hl hs true)) (.refl _) rfl rfl
    · exact congrArg Host.Outcome.next ((bankWritten_writing hl hs false).trans (if_neg (ne_true_of_eq_false hfirst)))
    · exact completes_rejectLoad (congrArg Host.Outcome.next ((bankWritten_writing hl hs false).trans (if_pos hsecond))) rfl rfl
  case exchange =>
    exact fun ho hf he hl hb hr hq => runs_at rfl ho fun h => tallyExchange_waits (s := { s with host := h }) hf he hl hb hr hq ref
  case run => exact fun p => tallyRun_restarts
  case stop => exact fun ho hr _ => tallyStop_stops ho hr
  case ctl =>
    refine fun ho => ⟨fun hq => ?_, fun he hs => ?_, fun he hs hr => ?_⟩
    · exact completes_at (a := stateReport stDone [u8 1]) rfl ho fun h => tallyCtl_enables (s := { s with host := h }) hq ref
    · refine completes_at (a := stateReport stDone [u8 2]) (base := s.tallyQuiescing) rfl ho fun h => ?_
      have hsettle := tallyQuiescing_settles_running (s := { s with host := h }) hs
      exact (tallyCtl_disables (s := { s with host := h }) he ref).trans (by rw [hsettle]; rfl)
    · refine completes_raising (a := stateReport stDone [u8 0]) (src := 0x89) (ps := [u32 0]) rfl ho fun h => ?_
      have hsettle := tallyQuiescing_settles_stopped (s := { s with host := h }) hs hr
      exact (tallyCtl_disables (s := { s with host := h }) he ref).trans (by rw [hsettle, State.raise_tally]; rfl)
  case trig =>
    exact fun i ho hi hr he hu hn => completes_tallyAt rfl ho rfl fun h => tallyTrig_releases (s := { s with host := h }) hi hr he hu hn ref
  case peek =>
    refine fun area start addr n ho ha ha' hn hn' hfit => ⟨?_, fun hx => ?_⟩
    · exact completes_tallyAnswer rfl ho rfl fun h =>
        ⟨_, tallyPeek_delivers (s := { s with host := h }) ha ha' hn hn' hfit ref, toHost_only _ _, toHost_live _ _⟩
    · exact delivers (a := ownReport 0 [u8 0, u8 0, u16 0, u32 s.tallyRev]) rfl ho fun h => ⟨{ s with host := h },
        (tallyPeek_delivers (s := { s with host := h }) ha ha' hn hn' hfit ref).trans
          (tallyAnswer_eq (by rw [State.toHost_tally]) _ _ _ _), hx⟩
  case poke => exact fun start n data ho hn hn' hfit hf => tallyPoke_answers ho hn hn' hfit hf
  case cfg =>
    intro x ho hr hf hw hw' hs
    refine completes_tallyAnswer rfl ho rfl fun h => ?_
    exact ⟨_, tallyCfgOrder_sets (s := { s with host := h }) hr hf hw hw' hs ref, State.driveDio_only _, driveDio_live _⟩
  case safe =>
    exact fun b o data ho hb hobj => completes_tallyAt rfl ho rfl fun h => tallySafe_sets (s := { s with host := h }) hb hobj ref
  case query =>
    refine fun addr ho => ⟨?_, fun hx => ?_⟩
    · exact completes_delivering (a := ownReport 0 _) (o := .hostData addr s.tallyInfo) rfl ho fun h =>
        tallyQuery_delivers { s with host := h } ref addr
    · exact delivers rfl ho fun h => ⟨_, tallyQuery_delivers { s with host := h } ref addr, hx⟩

end Sys2Proof.Machine
